-- ==== Sys2Proof/Word.lean ====
section
/-!
DEFINITION. Word.lean: the word types of the NY4831 model.

Registers and bus beats are 32-bit words (R421), flash, blob and line data are bytes (R10), a channel is one of 48 (R1).
-/
namespace Sys2Proof

/-- One register or bus beat: 32 bits (R421). -/
abbrev Word := BitVec 32

/-- One byte of a blob, an image, a trailer or a block payload. -/
abbrev Byte := BitVec 8

/-- A channel number, 0 to 47 (R1). -/
abbrev ChanId := Fin 48

/-- A circuit number of one channel, 0 to 8,191 (R156). -/
abbrev CircId := BitVec 13

/-- A key context number of one channel, 0 to 4,095 (R196). -/
abbrev CtxId := BitVec 12

/-- A block sequence number (R188). -/
abbrev Seq := BitVec 40

/-- A sparse table in canonical form: keys strictly rising, and no entry equal to what an unlisted key holds. -/
abbrev Table (α : Type) := List (Nat × α)

end Sys2Proof
end

