-- ==== Sys2Proof/Syntax.lean ====
section
/-!
DEFINITION. Syntax.lean: the commands of the block, one constructor per row of the opcode table, and the data they carry.

The table gives its rows no operands: what a command carries is what the world outside presents with it (log entry 1).
-/
namespace Sys2Proof

/-- Who writes a register: the masters of R426 that reach registers, and a channel's Malot on its local bus (R42). -/
inductive Master where
  | pf0 | pf1 | isund | debug | malot
deriving DecidableEq, Repr

/-- A PCIe function (R420). -/
inductive Func where
  | f0 | f1
deriving DecidableEq, Repr

/-- A lane of a channel, numbered p (R475). -/
inductive Lane where
  | red | bkw | bkp
deriving DecidableEq, Repr

/-- A black receive path. -/
inductive Path where
  | bkw | bkp
deriving DecidableEq, Repr

/-- A synthesizer of a channel, or the station engine (R308, R317). -/
inductive Engine where
  | synB (c : ChanId) | synR (c : ChanId) | stn
deriving DecidableEq, Repr

/-- Where a candidate is qualified: in a channel, or in the spine (R302). -/
inductive QualAt where
  | chan (c : ChanId) | spine
deriving DecidableEq, Repr

/-- A rail, in the numbering of DEV.PWR_REVT_r (R456). -/
inductive Rail where
  | vcore | vsrd | vmem | vio
deriving DecidableEq, Repr

/-- A command queue: a channel's, or the device's (R441). -/
inductive Port where
  | chan (c : ChanId) | device
deriving DecidableEq, Repr

/-- The scope of a record, a reaction or a SHADOW window (R354). -/
inductive Scope where
  | circ (c : ChanId) (k : CircId) | chan (c : ChanId) | device
deriving DecidableEq, Repr

/-- What a read of the flash's SFDP table and of the first 0x800 bytes of each slot gave (R399). -/
structure FlashView where
  sfdpOk : Bool
  hdrA : List Byte
  hdrB : List Byte
deriving DecidableEq, Repr

/-- A burst in progress when its master resets: beats granted and the first beat's address (R439). -/
structure Burst where
  beats : Nat
  addr : Word
deriving DecidableEq, Repr

/-- The position of a pointer, a VC or a tributary (R140): the four indices. -/
structure Pos where
  aug : BitVec 6
  t3 : BitVec 2
  t2 : BitVec 3
  tu : BitVec 2
deriving DecidableEq, Repr

/-- A circuit at a frame of its container, frames counted as CIRCUIT_START counts them (R65). -/
structure CircFrame where
  circ : CircId
  frame : Nat
deriving DecidableEq, Repr

/-- The level of a pointer: LVL of CHn.MAP_AUSEL (R488). -/
inductive PtrLevel where
  | au | tu3 | tu
deriving DecidableEq, Repr

/-- What one pointer interval brought (R143). -/
inductive PtrInd where
  | same | incr | decr | ndf (offset : BitVec 10) | valid (offset : BitVec 10) | invalid | ndfInvalid | ais
deriving DecidableEq, Repr

/-- A pointer interval as it is read: its indication, and whether every further AU of a VC-4-Nc carries the concatenation
indication (R143). -/
structure PtrRead where
  ind : PtrInd
  conc : Bool
deriving DecidableEq, Repr

/-- Line defects of one lane, the bits of CHn.FRM_DEFECT_p (R484). -/
inductive Defect where
  | los | oof | lof | lom | ais | rdi | bdi | tim | plm | sd | sf | hiber | lf | rf
deriving DecidableEq, Repr

/-- Why a lane enters LOS (R123, R126, R127). -/
inductive LosWhy where
  | noTransitions | cdrUnlock | clockActivity
deriving DecidableEq, Repr

/-- One pattern check of a receive framer (R103, R105, R115). `errs` is 0 for a correct pattern and otherwise the number
of errors in it; `sync` is the outcome of the clause 36 machine of a red 1GE lane; `data` is the bytes of the words delivered
since the last pattern. On a red 1GE lane a comma off the alignment counts as 16 errors. -/
structure Pattern where
  align : Nat
  errs : Nat
  sync : Option Bool
  data : List Byte
deriving DecidableEq, Repr

/-- The path overhead of one VC: of a higher-order VC in a frame, the bytes J1, B3, C2, G1, F2, H4, F3, K3 and N1; of a
lower-order one in a multiframe, V5, J2, N2 and K4. `errs` is the violations of its parity, `trace` a J1 trace that ends here. -/
structure PathOh where
  pos : Pos
  lvl : PtrLevel
  poh : List Byte
  errs : Nat
  trace : Option (List Byte)
deriving DecidableEq, Repr

/-- One check of a fractional tributary's framing (R152): a FAS, bit 2 of an NFAS (`nfas`), or one framing bit of a T1, found
correct or not; and, where the frame brings them, a correct CRC-4 multiframe alignment signal (false) or 8 ms without
alignment (true), a CAS alignment word errored or correct, a span with fewer than 3 zeros or not, the remote alarm seen or not,
and CRC violations. -/
structure TribOh where
  pos : Pos
  nfas : Bool
  ok : Bool
  lomf : Option Bool
  casErr : Option Bool
  ais : Option Bool
  rai : Option Bool
  crcErrs : Nat
deriving DecidableEq, Repr

/-- The overhead of one received frame, or of one interval of an Ethernet lane (R116, R118, R119). `m1` is M1, or SM BEI;
`cv1` and `cv2` are the violations of B1 and B2, of SM BIP-8 and ODU PM BIP-8, or in `cv1` the invalid sync headers or code
groups. `estExp` is the least n for which the estimate of R124 exceeds 10^−n. -/
structure RxOh where
  k1 : Byte
  k2 : Byte
  s1 : BitVec 4
  m1 : Byte
  cv1 : Nat
  cv2 : Nat
  pmStat : BitVec 3
  bdi : Bool
  iae : Bool
  pt : Option Byte
  mfasOk : Bool
  fecCorr : Nat
  fecUnc : Nat
  estExp : Nat
  hiber : Bool
  lf : Bool
  rf : Bool
  trace : Option (List Byte)
  paths : List PathOh
  tribs : List TribOh
deriving DecidableEq, Repr

/-- A 66b block: sync header, then the 64 payload bits in transmission order, as the lane carries them (R71, R74). -/
structure Block66 where
  sync : BitVec 2
  pay : BitVec 64
deriving DecidableEq, Repr

/-- A block of a fractional tributary's VC as a lane carries it: the VC's bytes, the place of its first tributary bit in the
tributary's multiframe as the tributary framer found it (R152), and the bits of the next block that end a timeslot begun in
this one (R66). -/
structure TribSpan where
  vc : List Byte
  phase : Nat
  tail : List Bool
deriving DecidableEq, Repr

/-- What a lane carries over one block of a circuit, by its kind (R56): the bytes of its VC or ODU, a fractional tributary's VC, 66b
blocks with the last 58 scrambled bits before them, or 10-bit code groups, each in transmission order. -/
inductive LineSpan where
  | bytes (l : List Byte)
  | trib (t : TribSpan)
  | blocks66 (before : BitVec 58) (l : List Block66)
  | codes (l : List (BitVec 10))
deriving DecidableEq, Repr

/-- A unit of words that a stage check covers, on its way through the check's span (R329): a chunk's index, the words as they enter,
and what a fault changes on the way: bits of words, bits of the check value beside them, and bits of the fold value that the far end
takes. -/
structure StageUnit where
  check : Fin 16
  index : BitVec 40
  words : List (BitVec 40)
  upsets : List (Nat × BitVec 40)
  side : Word
  stray : BitVec 64
deriving DecidableEq, Repr

/-- Which memory failed, and how (R335); the word's index stands beside it. -/
inductive MemErr where
  | corrected (mem : BitVec 4)
  | data (enc : Bool) (k : CircId)
  | table (mem : BitVec 4)
deriving DecidableEq, Repr

/-- What goes wrong with a red block on its way: the spans of it in which the input was in defect, where each begins and how long it
is, and the bits of pipeline words that a fault changed before the seal check (R35, R51). -/
structure BlockFault where
  gone : List (Nat × Nat)
  upsets : List (Nat × BitVec 40)
deriving DecidableEq, Repr

/-- Bits that a fault has changed in the integrity words of a key context's slots (R196, R201). -/
structure SlotUpsets where
  even : Word
  odd : Word
deriving DecidableEq, Repr

/-- A reaction that completes: its scope, and the burst that the supervisor's restart cuts (R367, R439). -/
structure ReactionEnd where
  scope : Scope
  burst : Option Burst
deriving DecidableEq, Repr

/-- One second of a lane as its counters saw it (R498). -/
structure PmSec where
  blocks : Nat
  errored : Nat
  defect : Bool
  feErrored : Nat
  feDefect : Bool
deriving DecidableEq, Repr

/-- Which protection condition of R272 a hold-off is for. -/
inductive Cond where
  | sfW | sfP | sdW | sdP
deriving DecidableEq, Repr

/-- The IEEE 1149.1 instructions of R526. -/
inductive JtagOp where
  | bypass | idcode | sample | extest | clamp | highz | debug
deriving DecidableEq, Repr

/-- Where the collector's parity error lies (R371). -/
inductive IntegAt where
  | dRecord | timers | trigger | chan (c : ChanId)
deriving DecidableEq, Repr

/-- Why a table-port write starts (R179). -/
inductive TpStart where
  | go (ctl : Word) | trig (d0 : Word)
deriving DecidableEq, Repr

/-- The CVU parameter registers whose write restarts a unit (R342). -/
inductive CvuReg where
  | ctl | poly | init | xor
deriving DecidableEq, Repr

/-- The commands: one constructor per row of the opcode table, in its order. -/
inductive Instr where
  -- supply, start-up, fuses
  | vinRise (mv : BitVec 16)
  | vinFall
  | railsUp
  | fuseSenseDone (copy0 copy1 : List (BitVec 33))
  | rootLock (shaOk : Bool) (flash : FlashView)
  | springLoadDone (bytes : List Byte)
  | verify (ecdsaOk : Bool)
  | selfTest (failing : List ChanId)
  | bringUp (coreFail : Bool)
  | resetNAssert
  | resetNRelease
  | tamper
  | tempSample (t : Vector (BitVec 12) 7) (mv : BitVec 16)
  | tripRelease (t : Vector (BitVec 12) 7)
  | railFault (r : Rail)
  | vGlitch (r : Rail)
  | vinWarnLow
  | vinWarnOk
  | islandSwitchDone
  | islandOc (c : ChanId)
  | fuseResense (copy0 copy1 : List (BitVec 33))
  | fuseProgram (m : Master) (d : Word)
  | fuseSeal (m : Master) (d : Word)
  | fuseOpDone (readBack : Bool)
  | arbAdvance
  | chStart (katOk : Bool)
  | chPark
  | chDiag
  -- root, station and line timing
  | rootStop
  | rootGlitch
  | rootUnlock
  | backupOsc
  | rootRecover
  | rootRelock
  | clkGlitch
  | syscntWrap
  | sctAlarmWrite (m : Master) (a : Fin 4) (d : Word)
  | sctAlarmFire (a : Fin 4)
  | qualWindow (q : QualAt) (cand : Fin 7) (long : Bool) (ppb : Int)
  | qualWtrExpire (q : QualAt) (cand : Fin 7)
  | synLocked (e : Engine)
  | synUnlock (e : Engine)
  | timLost (e : Engine)
  | lockSample (e : Engine) (ppb : Int)
  | holdoverUpdate (e : Engine)
  | timPstep (m : Master) (c : ChanId) (d : Word)
  | phaseStepDone (e : Engine)
  | stnFail (i : Fin 4)
  | stnRecover (i : Fin 4)
  | stnPstep (m : Master) (d : Word)
  | stnPullDone
  -- lanes and framers
  | losEntry (c : ChanId) (p : Lane) (why : LosWhy) (words : Nat)
  | losExit (c : ChanId) (p : Lane)
  | framingPattern (c : ChanId) (p : Lane) (x : Pattern)
  | runaheadHorizon (c : ChanId) (p : Lane) (words : Nat)
  | lofEntry (c : ChanId) (p : Lane)
  | lofExit (c : ChanId) (p : Lane)
  | lomEntry (c : ChanId) (p : Lane)
  | lomExit (c : ChanId) (p : Lane)
  | rxFrame (c : ChanId) (p : Lane) (o : RxOh)
  | pointerInterval (c : ChanId) (p : Lane) (lvl : PtrLevel) (pos : Pos) (read : PtrRead)
  | failureDeclare (c : ChanId) (p : Lane) (d : Defect)
  | failureClear (c : ChanId) (p : Lane) (d : Defect)
  | txpll (c : ChanId) (p : Lane)
  | txResume (c : ChanId) (p : Lane)
  | prbsErrInj (m : Master) (c : ChanId) (p : Lane) (d : Word)
  | prbsSyncGain (c : ChanId) (p : Lane)
  | prbsSyncLoss (c : ChanId) (p : Lane) (errBits chkBits : Nat)
  | geAnComplete (c : ChanId) (done : Bool) (page : BitVec 16)
  | lqOvf (c : ChanId) (q : Fin 15)
  | lqUnder (c : ChanId) (p : Lane)
  | eyeScanStart (m : Master) (c : ChanId) (d : Word)
  | eyeScanDone (c : ChanId) (res : List (BitVec 16)) (los : Bool)
  -- mapper and table port
  | tpClaim (m : Master) (c : ChanId)
  | tpRelease (m : Master) (c : ChanId)
  | tpRead (m : Master) (c : ChanId) (ctl : Word)
  | tpWrite (m : Master) (c : ChanId) (x : TpStart)
  | tpOpDone (c : ChanId)
  | circuitStart (c : ChanId) (k : CircFrame)
  | drainEnd (c : ChanId) (k : CircId)
  | mapSwap (c : ChanId)
  | tribBankSwitch (c : ChanId) (pos : Pos)
  | mapSwapForced (c : ChanId)
  | mapSkewTimeout (c : ChanId) (pos : Pos)
  -- blocks
  | encBlockStart (c : ChanId) (k : CircId) (frame : Nat)
  | encBlockEnd (c : ChanId) (k : CircId) (x : LineSpan) (fault : BlockFault) (checks : List StageUnit)
  | encWordRelease (c : ChanId) (k : CircId) (first last : Bool)
  | memError (c : Option ChanId) (index : BitVec 20) (e : MemErr)
  | decBlockReceive (c : ChanId) (p : Path) (k : CircFrame)
  | trailerHeadReceive (c : ChanId) (p : Path) (k : CircId) (head : List Byte)
  | decTrailerReceive (c : ChanId) (p : Path) (k : CircFrame) (this next : LineSpan) (checks : List StageUnit)
  | carriageBroken (c : ChanId) (p : Path) (k : CircId)
  | decBlockRelease (c : ChanId) (k : CircId) (checks : List StageUnit)
  -- keys
  | keyLoad (c : ChanId)
  | deviceKeyLoad
  | keyZeroize (c : ChanId)
  | keyZeroizeAll (c : ChanId)
  | epochAdvance (c : ChanId)
  | clearMode (c : ChanId)
  | overlapExpire (c : ChanId) (x : CtxId)
  | keystoreCheck (c : ChanId) (x : CtxId) (upsets : SlotUpsets)
  | keyScheduleCheck (c : ChanId)
  | clrArmWrite (m : Master) (c : ChanId) (d : Word)
  | clrArmExpire (c : ChanId)
  | latReanchor (c : ChanId)
  | reanchorTimeout (c : ChanId) (k : CircId)
  -- protection
  | holdoffExpire (c : ChanId) (x : Cond)
  | apsEvaluation (c : ChanId)
  | rxValidLoss (c : ChanId)
  | pswEvaluate (c : ChanId)
  | wtrExpire (c : ChanId)
  | exerciseEnd (c : ChanId)
  | pswLockout (c : ChanId)
  | pswForced (c : ChanId)
  | pswManual (c : ChanId)
  | pswExercise (c : ChanId)
  | pswClear (c : ChanId)
  | pswOp (c : ChanId)
  | pswMismatch (c : ChanId)
  | mismatchClear (c : ChanId)
  -- fault collector
  | faultServe
  | cTimerExpire (c : ChanId)
  | hTimerExpire (c : ChanId)
  | dTimerExpire
  | reactionComplete (x : ReactionEnd)
  | shadowWindowEnd (x : Scope)
  | ackC (m : Master) (c : ChanId) (seq : Byte)
  | ackH (m : Master) (c : ChanId) (seq : Byte)
  | reactC (m : Master) (c : ChanId) (seq : Byte)
  | reactH (m : Master) (c : ChanId) (seq : Byte)
  | clrCirc (m : Master) (c : ChanId) (seq : Byte) (k : CircId)
  | clrChan (m : Master) (c : ChanId) (seq : Byte)
  | ackD (m : Master) (seq : Byte)
  | reactD (m : Master) (seq : Byte)
  | clrD (m : Master) (seq : Byte)
  | supervisorPolicy (x : Scope)
  | supervisorRecover (x : Scope)
  | malotWatchdog (c : ChanId)
  | isundWatchdog
  | faultInject (m : Master)
  | stgInject (m : Master) (c : ChanId) (d : Word)
  -- check-value units
  | cvuCtlWrite (m : Master) (c : ChanId) (u : Fin 8) (r : CvuReg) (d : Word)
  | cvuCheckpoint (m : Master) (c : ChanId) (u : Fin 8)
  | cvuRestore (m : Master) (c : ChanId) (u : Fin 8)
  | cvuValWrite (m : Master) (c : ChanId) (u : Fin 8) (d : Word)
  | cvuCcfgWrite (m : Master) (c : ChanId) (u : Fin 8) (d : Word)
  -- host port, matrix, registers
  | pcieFlr (f : Func) (b : Option Burst)
  | linkDown (b0 b1 : Option Burst)
  | perstN (b0 b1 : Option Burst)
  | linkTrainingStart
  | d3hotEnter (f : Func)
  | debugConnect (on : Bool) (b : Option Burst)
  | registerWrite (m : Master) (addr : BitVec 22) (be : BitVec 4) (d : Word)
  | poisonedWrite (f : Func)
  | beatTimeout (mid : Fin 16)
  | eventClear (m : Master) (addr : BitVec 22) (d : Word)
  | mailboxSelect (m : Master) (d : Word)
  | mailboxSnapshotClear (m : Master) (d : Word)
  | mailboxCaptureDone (m : Master)
  | cmdSubmit (m : Master) (q : Port) (w3 : Word)
  | cmdStart (q : Port)
  | nop (q : Port)
  | cplLoRead (m : Master) (q : Port)
  | cplHiRead (m : Master) (q : Port)
  | msixSend (f : Func) (v : Fin 64)
  | bmxCntclr (m : Master) (d : Word)
  | remapWrite (m : Master) (d : Word)
  | hptShareWrite (m : Master) (d : Word)
  | flwClaim (m : Master)
  | flwRelease (m : Master)
  | flwGo (m : Master) (key : BitVec 16)
  | flwOpDone (data : List Byte)
  | mapAuselWrite (m : Master) (c : ChanId) (d : Word)
  | mapTrselWrite (m : Master) (c : ChanId) (d : Word)
  | rclCselWrite (m : Master) (c : ChanId) (d : Word)
  | cphCselWrite (m : Master) (c : ChanId) (d : Word)
  | latDselWrite (m : Master) (c : ChanId) (d : Word)
  -- performance
  | pmSecond (c : ChanId) (red bkw bkp : PmSec)
  | pmIntervalEnd (c : ChanId)
  | pmSync (m : Master) (c : ChanId)
  -- recoveries and pins
  | railBack (r : Rail)
  | backupOscOk
  | fclInteg (x : IntegAt)
  | linkUp (speed : BitVec 3) (width : BitVec 4)
  | linkRateChange (speed : BitVec 3) (width : BitVec 4)
  | d3hotExit (f : Func)
  | midwinterLinkRetrain
  | aliveToggle
  | jtagInstruction (op : JtagOp)
deriving DecidableEq, Repr

end Sys2Proof
end

