-- ==== Sys2Proof/Decode.lean ====
section
/-!
DEFINITION. Decode.lean: the command a word spells. The opcode table gives its rows no bits, so no word spells a command.
-/
namespace Sys2Proof

/-- The command that a word of `nbits` bits spells: none, since no row of the opcode table has bits. -/
def decodeTableWord (_nbits _w : Nat) : Option Instr := none

end Sys2Proof
end

