-- ==== Sys2Proof/Machine/Operands.lean ====
section
/-!
DEFINITION. Machine/Operands.lean: the operand forms: bit fields, two's complement, byte strings, sparse tables, and where a
BAR0 offset leads (R421 to R424).
-/
namespace Sys2Proof

/-! ## Numbers of things -/

/-- Lane numbers p (R475). -/
def Lane.num : Lane → Nat
  | .red => 0 | .bkw => 1 | .bkp => 2

/-- The lane of a black path. -/
def Path.lane : Path → Lane
  | .bkw => .bkw | .bkp => .bkp

/-- The black path of a lane. -/
def Lane.path? : Lane → Option Path
  | .red => none | .bkw => some .bkw | .bkp => some .bkp

/-- The other black path. -/
def Path.other : Path → Path
  | .bkw => .bkp | .bkp => .bkw

/-- The path bit of message addresses (R91, R217). -/
def Path.num : Path → Nat
  | .bkw => 0 | .bkp => 1

/-- Master IDs (R426); 4 names a Malot's local bus, which is no matrix master. -/
def Master.id : Master → Nat
  | .pf0 => 1 | .pf1 => 2 | .isund => 3 | .debug => 8 | .malot => 4

/-- The fifteen Slot Map style key of a position on a lane, for pointer and tributary tables. -/
def Pos.key (x : Pos) : Nat := x.aug.toNat * 128 + x.t3.toNat * 32 + x.t2.toNat * 4 + x.tu.toNat

/-- The position in bits [15:3] of a Circuit Table W1, or [12:0] of a selector shifted up by 3 (R156, R488). -/
def posOf (n : Nat) : Pos :=
  { aug := BitVec.ofNat 6 (n / 128), t3 := BitVec.ofNat 2 (n / 32), t2 := BitVec.ofNat 3 (n / 4), tu := BitVec.ofNat 2 n }

/-- The bytes of a span: those of a VC or an ODU. -/
def LineSpan.toBytes : LineSpan → List Byte
  | .bytes l => l | .trib t => t.vc | .blocks66 _ _ => [] | .codes _ => []

/-- The tributary block of a span. -/
def LineSpan.toTrib : LineSpan → Option TribSpan
  | .trib t => some t | .bytes _ => none | .blocks66 _ _ => none | .codes _ => none

/-- The 66b blocks of a span. -/
def LineSpan.to66 : LineSpan → List Block66
  | .blocks66 _ l => l | .bytes _ => [] | .trib _ => [] | .codes _ => []

/-- The last 58 scrambled bits before a span: what a self-synchronizing descrambler holds at its start. -/
def LineSpan.before : LineSpan → BitVec 58
  | .blocks66 b _ => b | .bytes _ => 0 | .trib _ => 0 | .codes _ => 0

/-- The code groups of a span. -/
def LineSpan.toCodes : LineSpan → List (BitVec 10)
  | .codes l => l | .bytes _ => [] | .trib _ => [] | .blocks66 _ _ => []

/-- The master of a function. -/
def Func.toMaster : Func → Master
  | .f0 => .pf0 | .f1 => .pf1

end Sys2Proof

namespace Sys2Proof.Machine

/-! ## Bit fields -/

/-- The mask of bits `hi` down to `lo`. -/
def fieldMask (hi lo : Nat) : Word := BitVec.ofNat 32 ((2 ^ (hi + 1 - lo) - 1) * 2 ^ lo)

/-- The field `[hi:lo]` of a word, as a number. -/
def fieldOf (w : Word) (hi lo : Nat) : Nat := (w.toNat / 2 ^ lo) % 2 ^ (hi + 1 - lo)

/-- A word with its field `[hi:lo]` replaced. -/
def withField (w : Word) (hi lo : Nat) (v : Nat) : Word :=
  (w &&& ~~~ fieldMask hi lo) ||| (BitVec.ofNat 32 (v * 2 ^ lo) &&& fieldMask hi lo)

/-- Bit `i` of a word. -/
def bitOf (w : Word) (i : Nat) : Bool := w.getLsbD i

/-- A flag as a number, for register views. -/
def b2n (b : Bool) : Nat := if b then 1 else 0

/-- The low `n` bits of an unsigned number read as two's complement. -/
def signed (n v : Nat) : Int := if v % 2 ^ n < 2 ^ (n - 1) then (v % 2 ^ n : Nat) else ((v % 2 ^ n : Nat) : Int) - (2 ^ n : Nat)

/-- An integer held in `n` bits, saturating, as an unsigned number. -/
def satSigned (n : Nat) (v : Int) : Nat :=
  let lim : Int := (2 ^ (n - 1) : Nat)
  let w := if v ≥ lim then lim - 1 else if v < -lim then -lim else v
  (w % (2 ^ n : Nat)).toNat

/-- A value held to a closed range, the nearer limit outside it. -/
def clamp (lo hi v : Nat) : Nat := if v < lo then lo else if hi < v then hi else v

/-- A number that counts no further than `n`. -/
def satAdd (n a b : Nat) : Nat := if n < a + b then n else a + b

/-! ## Byte strings, most significant byte first (R10) -/

/-- The number a byte string spells. -/
def beNat (l : List Byte) : Nat := l.foldl (fun a b => a * 256 + b.toNat) 0

/-- The `n` bytes of a number. -/
def beBytes : Nat → Nat → List Byte
  | 0, _ => []
  | n + 1, v => beBytes n (v / 256) ++ [BitVec.ofNat 8 v]

/-- Bytes `i` to `i + n − 1`. -/
def slice (l : List Byte) (i n : Nat) : List Byte := (l.drop i).take n

/-- A byte string cut or filled with zero bytes to a length. -/
def fit (n : Nat) (l : List Byte) : List Byte := (l ++ List.replicate (n - l.length) 0).take n

/-- Exclusive or of two byte strings, as far as both reach. -/
def xorBytes (a b : List Byte) : List Byte := List.zipWith (· ^^^ ·) a b

/-! ## Sparse tables -/

/-- A table without its entries at a key. -/
def tdrop {α : Type} (t : Table α) (k : Nat) : Table α := t.filter fun e => e.1 ≠ k

/-- A table with an entry put before the first greater key. -/
def tins {α : Type} (k : Nat) (v : α) : Table α → Table α
  | [] => [(k, v)]
  | e :: t => if k < e.1 then (k, v) :: e :: t else e :: tins k v t

/-- What a table holds at a key; `d` at an unlisted one. -/
def tget {α : Type} (d : α) : Table α → Nat → α
  | [], _ => d
  | e :: t, k => if e.1 = k then e.2 else tget d t k

/-- A table with a value at a key; the value an unlisted key holds removes the entry. -/
def tput {α : Type} [DecidableEq α] (d : α) (t : Table α) (k : Nat) (v : α) : Table α :=
  if v = d then tdrop t k else tins k v (tdrop t k)

/-! ## Where a BAR0 offset leads -/

/-- A decoded register address (R423, R424). -/
inductive Place where
  | dev (off : Nat) | chan (c : ChanId) (off : Nat)
deriving DecidableEq, Repr

/-- Index bits a device block decodes, as the bytes they span (R424, R453). -/
def devSpan : Nat → Nat
  | 0 => 64 | 1 => 256 | 2 => 512 | 3 => 256 | 4 => 256 | 5 => 512 | 6 => 32 | 7 => 64 | 8 => 128
  | 9 => 256 | 0xA => 4096 | 0xB => 512 | 0xC => 2048 | _ => 64

/-- Index bits a channel block decodes, as the bytes they span (R424, R474). -/
def chSpan : Nat → Nat
  | 0 => 256 | 1 => 512 | 2 => 1024 | 3 => 256 | 4 => 256 | 5 => 256 | 6 => 1024 | 7 => 256 | 8 => 512
  | 9 => 256 | 0xA => 1024 | 0xC => 64 | _ => 256

/-- The block a 4 KiB block number decodes as: a reserved block decodes as block 0 (R424). -/
def devBlock (b : Nat) : Nat := if b ≤ 0xC then b else 0

/-- As `devBlock`, for a channel window. -/
def chBlock (b : Nat) : Nat := if b ≤ 0xA ∨ b = 0xC then b else 0

/-- The canonical offset of a register slot in device space. -/
def devOff (a : Nat) : Nat :=
  let b := devBlock (a / 4096 % 16)
  b * 4096 + a % devSpan b / 4 * 4

/-- The canonical offset of a register slot in a channel window. -/
def chOff (a : Nat) : Nat :=
  let b := chBlock (a / 4096 % 16)
  b * 4096 + a % chSpan b / 4 * 4

/-- Where BAR0 bits [21:0] lead (R423). -/
def place (a : BitVec 22) : Place :=
  if h : a.toNat / 0x10000 < 16 + 48 ∧ 16 ≤ a.toNat / 0x10000 then
    .chan ⟨a.toNat / 0x10000 - 16, by omega⟩ (chOff (a.toNat % 0x10000))
  else .dev (devOff (a.toNat % 0x10000))

/-- The BAR0 offset of a channel register. -/
def chAddr (c : ChanId) (off : Nat) : BitVec 22 := BitVec.ofNat 22 (0x100000 + c.val * 0x10000 + off)

/-- The BAR0 offset of a device register. -/
def devAddr (off : Nat) : BitVec 22 := BitVec.ofNat 22 off

end Sys2Proof.Machine
end

