-- ==== Sys2Proof/Machine/Crypto.lean ====
section
/-!
DEFINITION. Machine/Crypto.lean: the algorithms the spec names by their standards: AES-256 (FIPS 197), AES-256-GCM (SP 800-38D,
R183 to R187), RFC 5649 key unwrap (R204, R206), SHA-384 (FIPS 180-4), and the checks CRC-16 of R53 and CRC-32C.
-/
namespace Sys2Proof.Machine

/-! ## AES-256 -/

/-- The S-box of FIPS 197, entries 0 to 63. -/
def sbox0 : List Nat := [
  0x63, 0x7C, 0x77, 0x7B, 0xF2, 0x6B, 0x6F, 0xC5, 0x30, 0x01, 0x67, 0x2B, 0xFE, 0xD7, 0xAB, 0x76,
  0xCA, 0x82, 0xC9, 0x7D, 0xFA, 0x59, 0x47, 0xF0, 0xAD, 0xD4, 0xA2, 0xAF, 0x9C, 0xA4, 0x72, 0xC0,
  0xB7, 0xFD, 0x93, 0x26, 0x36, 0x3F, 0xF7, 0xCC, 0x34, 0xA5, 0xE5, 0xF1, 0x71, 0xD8, 0x31, 0x15,
  0x04, 0xC7, 0x23, 0xC3, 0x18, 0x96, 0x05, 0x9A, 0x07, 0x12, 0x80, 0xE2, 0xEB, 0x27, 0xB2, 0x75 ]

/-- The S-box of FIPS 197, entries 64 to 127. -/
def sbox1 : List Nat := [
  0x09, 0x83, 0x2C, 0x1A, 0x1B, 0x6E, 0x5A, 0xA0, 0x52, 0x3B, 0xD6, 0xB3, 0x29, 0xE3, 0x2F, 0x84,
  0x53, 0xD1, 0x00, 0xED, 0x20, 0xFC, 0xB1, 0x5B, 0x6A, 0xCB, 0xBE, 0x39, 0x4A, 0x4C, 0x58, 0xCF,
  0xD0, 0xEF, 0xAA, 0xFB, 0x43, 0x4D, 0x33, 0x85, 0x45, 0xF9, 0x02, 0x7F, 0x50, 0x3C, 0x9F, 0xA8,
  0x51, 0xA3, 0x40, 0x8F, 0x92, 0x9D, 0x38, 0xF5, 0xBC, 0xB6, 0xDA, 0x21, 0x10, 0xFF, 0xF3, 0xD2 ]

/-- The S-box of FIPS 197, entries 128 to 191. -/
def sbox2 : List Nat := [
  0xCD, 0x0C, 0x13, 0xEC, 0x5F, 0x97, 0x44, 0x17, 0xC4, 0xA7, 0x7E, 0x3D, 0x64, 0x5D, 0x19, 0x73,
  0x60, 0x81, 0x4F, 0xDC, 0x22, 0x2A, 0x90, 0x88, 0x46, 0xEE, 0xB8, 0x14, 0xDE, 0x5E, 0x0B, 0xDB,
  0xE0, 0x32, 0x3A, 0x0A, 0x49, 0x06, 0x24, 0x5C, 0xC2, 0xD3, 0xAC, 0x62, 0x91, 0x95, 0xE4, 0x79,
  0xE7, 0xC8, 0x37, 0x6D, 0x8D, 0xD5, 0x4E, 0xA9, 0x6C, 0x56, 0xF4, 0xEA, 0x65, 0x7A, 0xAE, 0x08 ]

/-- The S-box of FIPS 197, entries 192 to 255. -/
def sbox3 : List Nat := [
  0xBA, 0x78, 0x25, 0x2E, 0x1C, 0xA6, 0xB4, 0xC6, 0xE8, 0xDD, 0x74, 0x1F, 0x4B, 0xBD, 0x8B, 0x8A,
  0x70, 0x3E, 0xB5, 0x66, 0x48, 0x03, 0xF6, 0x0E, 0x61, 0x35, 0x57, 0xB9, 0x86, 0xC1, 0x1D, 0x9E,
  0xE1, 0xF8, 0x98, 0x11, 0x69, 0xD9, 0x8E, 0x94, 0x9B, 0x1E, 0x87, 0xE9, 0xCE, 0x55, 0x28, 0xDF,
  0x8C, 0xA1, 0x89, 0x0D, 0xBF, 0xE6, 0x42, 0x68, 0x41, 0x99, 0x2D, 0x0F, 0xB0, 0x54, 0xBB, 0x16 ]

/-- The S-box. -/
def sbox : List Nat := sbox0 ++ sbox1 ++ sbox2 ++ sbox3

/-- SubBytes on one byte. -/
def subByte (b : Byte) : Byte := BitVec.ofNat 8 (sbox.getD b.toNat 0)

/-- InvSubBytes on one byte. -/
def invSubByte (b : Byte) : Byte := BitVec.ofNat 8 (sbox.findIdx (fun x => x == b.toNat))

/-- Multiplication by x in GF(2^8). -/
def xtime (b : Byte) : Byte := (b <<< 1) ^^^ (if b.getLsbD 7 then 0x1B else 0)

/-- Multiplication in GF(2^8) by a constant of at most four bits. -/
def gmul (k : Nat) (b : Byte) : Byte :=
  let b2 := xtime b
  let b4 := xtime b2
  (if k % 2 = 1 then b else 0) ^^^ (if k / 2 % 2 = 1 then b2 else 0) ^^^ (if k / 4 % 2 = 1 then b4 else 0)
    ^^^ (if k / 8 % 2 = 1 then xtime b4 else 0)

/-- One column times the circulant matrix of the four coefficients. -/
def mixCol (k0 k1 k2 k3 : Nat) (a b c d : Byte) : List Byte :=
  [gmul k0 a ^^^ gmul k1 b ^^^ gmul k2 c ^^^ gmul k3 d, gmul k3 a ^^^ gmul k0 b ^^^ gmul k1 c ^^^ gmul k2 d,
   gmul k2 a ^^^ gmul k3 b ^^^ gmul k0 c ^^^ gmul k1 d, gmul k1 a ^^^ gmul k2 b ^^^ gmul k3 c ^^^ gmul k0 d]

/-- MixColumns over a whole state, with the coefficients of the matrix's first row. -/
def mixCols (k0 k1 k2 k3 : Nat) : List Byte → List Byte
  | a :: b :: c :: d :: t => mixCol k0 k1 k2 k3 a b c d ++ mixCols k0 k1 k2 k3 t
  | _ => []

/-- ShiftRows by `s` columns per row: 1, or 3 for its inverse. -/
def shiftRows (s : Nat) (l : List Byte) : List Byte :=
  (List.range 16).map fun i => l.getD (i % 4 + 4 * ((i / 4 + s * (i % 4)) % 4)) 0

/-- RCON by round. -/
def rcon (n : Nat) : Byte := BitVec.ofNat 8 (2 ^ (n - 1))

/-- The key schedule, newest word first: `n` words from word `i` on. -/
def expand : Nat → Nat → List (List Byte) → List (List Byte)
  | 0, _, acc => acc
  | n + 1, i, acc =>
    let w := acc.getD 0 []
    let w := if i % 8 = 0 then xorBytes ((w.drop 1 ++ w.take 1).map subByte) [rcon (i / 8), 0, 0, 0]
      else if i % 8 = 4 then w.map subByte else w
    expand n (i + 1) (xorBytes (acc.getD 7 []) w :: acc)

/-- The fifteen round keys of a 32-byte key. -/
def roundKeys (key : List Byte) : List (List Byte) :=
  let ws := (expand 52 8 ((List.range 8).map fun i => slice key (4 * i) 4).reverse).reverse
  (List.range 15).map fun r => ((ws.drop (4 * r)).take 4).flatten

/-- AES-256 encryption of one block under expanded keys. -/
def aesRounds (ks : List (List Byte)) (b : List Byte) : List Byte :=
  let s := (List.range 13).foldl (fun s r => xorBytes (mixCols 2 3 1 1 (shiftRows 1 (s.map subByte))) (ks.getD (r + 1) []))
    (xorBytes b (ks.getD 0 []))
  xorBytes (shiftRows 1 (s.map subByte)) (ks.getD 14 [])

/-- AES-256 encryption of one block. -/
def aes (key b : List Byte) : List Byte := aesRounds (roundKeys key) b

/-- AES-256 decryption of one block under expanded keys. -/
def aesInvRounds (ks : List (List Byte)) (b : List Byte) : List Byte :=
  let s := (List.range 13).foldl (fun s r =>
      mixCols 14 11 13 9 (xorBytes ((shiftRows 3 s).map invSubByte) (ks.getD (13 - r) []))) (xorBytes b (ks.getD 14 []))
  xorBytes ((shiftRows 3 s).map invSubByte) (ks.getD 0 [])

/-- The check value of a key (R197): the first three bytes of AES-256 of sixteen bytes 0x4B. -/
def kcvOf (key : List Byte) : BitVec 24 := BitVec.ofNat 24 (beNat ((aes key (List.replicate 16 0x4B)).take 3))

/-! ## AES-256-GCM (R183 to R187) -/

/-- A byte string as blocks of 16, the last filled with zero bytes. -/
def blocks16 : Nat → List Byte → List (List Byte)
  | 0, _ => []
  | n + 1, l => if l.isEmpty then [] else fit 16 l :: blocks16 n (l.drop 16)

/-- Multiplication in GF(2^128) as GCM orders its bits. -/
def gfMul (x y : BitVec 128) : BitVec 128 :=
  ((List.range 128).foldl (fun (zv : BitVec 128 × BitVec 128) i =>
    (if x.getLsbD (127 - i) then zv.1 ^^^ zv.2 else zv.1,
     if zv.2.getLsbD 0 then (zv.2 >>> 1) ^^^ (0xE1#128 <<< 120) else zv.2 >>> 1)) (0, y)).1

/-- GHASH of a list of blocks under a hash key. -/
def ghash (h : BitVec 128) (bs : List (List Byte)) : BitVec 128 :=
  bs.foldl (fun y b => gfMul (y ^^^ BitVec.ofNat 128 (beNat b)) h) 0

/-- The counter block of a 12-byte IV. -/
def ctrBlock (iv : List Byte) (n : Nat) : List Byte := iv ++ beBytes 4 (n % 2 ^ 32)

/-- The keystream exclusive-ored over a byte string, from counter 2 (R187). -/
def gctr (ks : List (List Byte)) (iv l : List Byte) : List Byte :=
  ((blocks16 (l.length + 1) l).zipIdx.map fun e => xorBytes e.1 (aesRounds ks (ctrBlock iv (e.2 + 2)))).flatten.take l.length

/-- The full 16-byte tag of a ciphertext and its AAD. -/
def gcmTag (ks : List (List Byte)) (iv aad ct : List Byte) : List Byte :=
  let h := BitVec.ofNat 128 (beNat (aesRounds ks (List.replicate 16 0)))
  let y := ghash h (blocks16 (aad.length + 1) aad ++ blocks16 (ct.length + 1) ct ++ [beBytes 8 (8 * aad.length) ++ beBytes 8 (8 * ct.length)])
  xorBytes (aesRounds ks (ctrBlock iv 1)) (beBytes 16 y.toNat)

/-- GCM encryption: the ciphertext, and the tag of `n` bytes. -/
def gcmSeal (key iv aad pt : List Byte) (n : Nat) : List Byte × List Byte :=
  let ks := roundKeys key
  let ct := gctr ks iv pt
  (ct, (gcmTag ks iv aad ct).take n)

/-- GCM decryption: the plaintext if the tag verifies. -/
def gcmOpen (key iv aad ct tag : List Byte) : Option (List Byte) :=
  let ks := roundKeys key
  if (gcmTag ks iv aad ct).take tag.length = tag then some (gctr ks iv ct) else none

/-! ## RFC 5649 (R204, R206) -/

/-- One step of the unwrap: A, the semiblocks R[1] to R[n], and the step number t. -/
def unwrapStep (ks : List (List Byte)) (n : Nat) (ar : List Byte × List (List Byte)) (t : Nat) : List Byte × List (List Byte) :=
  let i := (t - 1) % n
  let b := aesInvRounds ks (xorBytes ar.1 (beBytes 8 t) ++ ar.2.getD i [])
  (b.take 8, ar.2.set i (b.drop 8))

/-- The unwrap of a 56-byte body under the KWK: the 48-byte plaintext, with the alternative initial value of R204. -/
def unwrap (kwk body : List Byte) : Option (List Byte) :=
  let ks := roundKeys kwk
  let n := body.length / 8 - 1
  let r := ((List.range (6 * n)).map fun t => 6 * n - t).foldl (unwrapStep ks n)
    (body.take 8, (List.range n).map fun i => slice body (8 * (i + 1)) 8)
  if r.1 = beBytes 8 0xA65959A600000030 then some r.2.flatten else none

/-! ## SHA-384 -/

/-- The round constants of SHA-384 (FIPS 180-4), 0 to 39. -/
def sha0 : List Nat := [
  0x428A2F98D728AE22, 0x7137449123EF65CD, 0xB5C0FBCFEC4D3B2F, 0xE9B5DBA58189DBBC, 0x3956C25BF348B538,
  0x59F111F1B605D019, 0x923F82A4AF194F9B, 0xAB1C5ED5DA6D8118, 0xD807AA98A3030242, 0x12835B0145706FBE,
  0x243185BE4EE4B28C, 0x550C7DC3D5FFB4E2, 0x72BE5D74F27B896F, 0x80DEB1FE3B1696B1, 0x9BDC06A725C71235,
  0xC19BF174CF692694, 0xE49B69C19EF14AD2, 0xEFBE4786384F25E3, 0x0FC19DC68B8CD5B5, 0x240CA1CC77AC9C65,
  0x2DE92C6F592B0275, 0x4A7484AA6EA6E483, 0x5CB0A9DCBD41FBD4, 0x76F988DA831153B5, 0x983E5152EE66DFAB,
  0xA831C66D2DB43210, 0xB00327C898FB213F, 0xBF597FC7BEEF0EE4, 0xC6E00BF33DA88FC2, 0xD5A79147930AA725,
  0x06CA6351E003826F, 0x142929670A0E6E70, 0x27B70A8546D22FFC, 0x2E1B21385C26C926, 0x4D2C6DFC5AC42AED,
  0x53380D139D95B3DF, 0x650A73548BAF63DE, 0x766A0ABB3C77B2A8, 0x81C2C92E47EDAEE6, 0x92722C851482353B ]

/-- The round constants of SHA-384 (FIPS 180-4), 40 to 79. -/
def sha1 : List Nat := [
  0xA2BFE8A14CF10364, 0xA81A664BBC423001, 0xC24B8B70D0F89791, 0xC76C51A30654BE30, 0xD192E819D6EF5218,
  0xD69906245565A910, 0xF40E35855771202A, 0x106AA07032BBD1B8, 0x19A4C116B8D2D0C8, 0x1E376C085141AB53,
  0x2748774CDF8EEB99, 0x34B0BCB5E19B48A8, 0x391C0CB3C5C95A63, 0x4ED8AA4AE3418ACB, 0x5B9CCA4F7763E373,
  0x682E6FF3D6B2B8A3, 0x748F82EE5DEFB2FC, 0x78A5636F43172F60, 0x84C87814A1F0AB72, 0x8CC702081A6439EC,
  0x90BEFFFA23631E28, 0xA4506CEBDE82BDE9, 0xBEF9A3F7B2C67915, 0xC67178F2E372532B, 0xCA273ECEEA26619C,
  0xD186B8C721C0C207, 0xEADA7DD6CDE0EB1E, 0xF57D4F7FEE6ED178, 0x06F067AA72176FBA, 0x0A637DC5A2C898A6,
  0x113F9804BEF90DAE, 0x1B710B35131C471B, 0x28DB77F523047D84, 0x32CAAB7B40C72493, 0x3C9EBE0A15C9BEBC,
  0x431D67C49C100D4C, 0x4CC5D4BECB3E42B6, 0x597F299CFC657E2A, 0x5FCB6FAB3AD6FAEC, 0x6C44198C4A475817 ]

/-- The initial hash value of SHA-384. -/
def shaInit : List Nat := [
  0xCBBB9D5DC1059ED8, 0x629A292A367CD507, 0x9159015A3070DD17, 0x152FECD8F70E5939,
  0x67332667FFC00B31, 0x8EB44A8768581511, 0xDB0C2E0D64F98FA7, 0x47B5481DBEFA4FA4 ]

/-- Rotation of a 64-bit word to the right. -/
def rotr (x : BitVec 64) (n : Nat) : BitVec 64 := x.rotateRight n

/-- The message schedule, newest word first: `n` more words. -/
def shaSched : Nat → List (BitVec 64) → List (BitVec 64)
  | 0, w => w
  | n + 1, w =>
    let a := w.getD 1 0
    let b := w.getD 14 0
    let s1 := rotr a 19 ^^^ rotr a 61 ^^^ (a >>> 6)
    let s0 := rotr b 1 ^^^ rotr b 8 ^^^ (b >>> 7)
    shaSched n ((s1 + w.getD 6 0 + s0 + w.getD 15 0) :: w)

/-- One round on the eight working variables. -/
def shaRound (v : List (BitVec 64)) (kw : BitVec 64) : List (BitVec 64) :=
  match v with
  | [a, b, c, d, e, f, g, h] =>
    let t1 := h + (rotr e 14 ^^^ rotr e 18 ^^^ rotr e 41) + ((e &&& f) ^^^ (~~~e &&& g)) + kw
    let t2 := (rotr a 28 ^^^ rotr a 34 ^^^ rotr a 39) + ((a &&& b) ^^^ (a &&& c) ^^^ (b &&& c))
    [t1 + t2, a, b, c, d + t1, e, f, g]
  | _ => v

/-- One 128-byte block. -/
def shaBlock (h : List (BitVec 64)) (b : List Byte) : List (BitVec 64) :=
  let w := (shaSched 64 ((List.range 16).map fun i => BitVec.ofNat 64 (beNat (slice b (8 * i) 8))).reverse).reverse
  let v := ((sha0 ++ sha1).zip w).foldl (fun v e => shaRound v (BitVec.ofNat 64 e.1 + e.2)) h
  List.zipWith (· + ·) h v

/-- A byte string as blocks of 128. -/
def blocks128 : Nat → List Byte → List (List Byte)
  | 0, _ => []
  | n + 1, l => if l.isEmpty then [] else l.take 128 :: blocks128 n (l.drop 128)

/-- SHA-384 of a byte string. -/
def sha384 (m : List Byte) : List Byte :=
  let pad := (128 - (m.length + 17) % 128) % 128
  let l := m ++ [0x80] ++ List.replicate pad 0 ++ beBytes 16 (8 * m.length)
  (((blocks128 (l.length + 1) l).foldl shaBlock (shaInit.map (BitVec.ofNat 64))).take 6).flatMap fun x => beBytes 8 x.toNat

/-! ## Cyclic redundancy checks -/

/-- One byte through the CRC-16 of R53: polynomial 0x1021, most significant bit first. -/
def crc16Byte (c : BitVec 16) (b : Byte) : BitVec 16 :=
  (List.range 8).foldl (fun c _ => (c <<< 1) ^^^ (if c.getLsbD 15 then 0x1021 else 0)) (c ^^^ (BitVec.ofNat 16 b.toNat <<< 8))

/-- TCRC of the bytes before it, for a circuit's LCID (R53). -/
def tcrc (lcid : Nat) (l : List Byte) : BitVec 16 := l.foldl crc16Byte (0xFFFF ^^^ BitVec.ofNat 16 lcid)

/-- One byte through CRC-32C, reflected. -/
def crc32cByte (c : Word) (b : Byte) : Word :=
  (List.range 8).foldl (fun c _ => (c >>> 1) ^^^ (if c.getLsbD 0 then 0x82F63B78 else 0)) (c ^^^ BitVec.ofNat 32 b.toNat)

/-- CRC-32C of a byte string. -/
def crc32c (l : List Byte) : Word := ~~~ l.foldl crc32cByte 0xFFFFFFFF

end Sys2Proof.Machine
end

