-- ==== Sys2Proof/Machine/Ecdsa.lean ====
section
/-!
DEFINITION. Machine/Ecdsa.lean: ECDSA over P-384 with SHA-384, as FIPS 186-5 and SP 800-186 give it and R405 names it.
-/
namespace Sys2Proof.Machine

/-- The prime of P-384. -/
def p384p : Nat := 2 ^ 384 - 2 ^ 128 - 2 ^ 96 + 2 ^ 32 - 1

/-- The order of P-384. -/
def p384n : Nat := 0xffffffffffffffffffffffffffffffffffffffffffffffffc7634d81f4372ddf581a0db248b0a77aecec196accc52973

/-- The coefficient b of P-384; the coefficient a is −3. -/
def p384b : Nat := 0xb3312fa7e23ee7e4988e056be3f82d19181d9c6efe8141120314088f5013875ac656398d8a2ed19d2a85c8edd3ec2aef

/-- The base point of P-384. -/
def p384g : Nat × Nat :=
  (0xaa87ca22be8b05378eb1c71ef320ad746e1d3b628ba79b9859f741e082542a385502f25dbf55296c3a545e3872760ab7,
   0x3617de4a96262c6f5d9e98bf9292dc29f8f41dbd289a147ce9da3113b5f0b8c00a60b1ce1d7e819d7a431d7c90ea0e5f)

/-- A power modulo `m`, of an exponent below 2^384. -/
def modPow (m b e : Nat) : Nat :=
  (List.range 384).foldl (fun acc i => if e.testBit (383 - i) then acc * acc % m * b % m else acc * acc % m) 1

/-- The inverse modulo a prime. -/
def modInv (m a : Nat) : Nat := modPow m a (m - 2)

/-- The third point on the line of slope `l` through two points, reflected. -/
def ptChord (l x1 y1 x2 : Nat) : Option (Nat × Nat) :=
  let x := (l * l + 2 * p384p - x1 - x2) % p384p
  some (x, (l * (p384p + x1 - x) + p384p - y1) % p384p)

/-- The sum of two points; none is the point at infinity. -/
def ptAdd : Option (Nat × Nat) → Option (Nat × Nat) → Option (Nat × Nat)
  | none, q => q
  | some a, none => some a
  | some (x1, y1), some (x2, y2) =>
    if x1 = x2 then
      if (y1 + y2) % p384p = 0 then none
      else ptChord ((3 * x1 * x1 + p384p - 3) * modInv p384p (2 * y1) % p384p) x1 y1 x1
    else ptChord ((p384p + y2 - y1) * modInv p384p (p384p + x2 - x1) % p384p) x1 y1 x2

/-- A multiple of a point, by a number below 2^384. -/
def ptMul (k : Nat) (q : Option (Nat × Nat)) : Option (Nat × Nat) :=
  (List.range 384).foldl (fun acc i => if k.testBit (383 - i) then ptAdd (ptAdd acc acc) q else ptAdd acc acc) none

/-- A pair of numbers is a point of the curve. -/
def onCurve (x y : Nat) : Bool :=
  decide (x < p384p ∧ y < p384p ∧ y * y % p384p = (x * x * x + (p384p - 3) * x + p384b) % p384p)

/-- A signature `sig` (r then s) verifies over a message under a public key (X then Y). -/
def ecdsaVerify (key msg sig : List Byte) : Bool :=
  let x := beNat (slice key 0 48)
  let y := beNat (slice key 48 48)
  let r := beNat (slice sig 0 48)
  let s := beNat (slice sig 48 48)
  let w := modInv p384n s
  onCurve x y && decide (0 < r ∧ r < p384n ∧ 0 < s ∧ s < p384n) &&
    (match ptAdd (ptMul (beNat (sha384 msg) * w % p384n) (some p384g)) (ptMul (r * w % p384n) (some (x, y))) with
      | none => false
      | some q => decide (q.1 % p384n = r))

end Sys2Proof.Machine
end

