-- ==== Sys2Proof/Machine/Image.lean ====
section
/-!
DEFINITION. Machine/Image.lean: the image: its header, section table, signature blocks and configuration bodies (R401 to R406), the
header checks of Spring load (R402) and the checks of VERIFY (R407).
-/
namespace Sys2Proof.Machine

/-- The number in `n` bytes of an image from offset `i`. -/
def imgNat (l : List Byte) (i n : Nat) : Nat := beNat (slice l i n)

/-! ## The header (R402) -/

/-- IMG_LEN. -/
def imgLen (l : List Byte) : Nat := imgNat l 8 4
/-- N_SECT. -/
def imgSects (l : List Byte) : Nat := imgNat l 12 1
/-- CFG_ARB. -/
def imgCfgArb (l : List Byte) : Nat := imgNat l 13 1
/-- FW_ARB. -/
def imgFwArb (l : List Byte) : Nat := imgNat l 132 1
/-- CH_DECL of a channel: 0 ABSENT, 1 PARKED, 2 ACTIVE, 3 refused. -/
def imgDecl (l : List Byte) (n : Nat) : Nat := imgNat l 20 12 / 4 ^ n % 4

/-- The fields that must hold given values hold them. -/
def hdrFormatOk (l : List Byte) : Bool :=
  decide (imgNat l 4 2 = 1 ∧ 0x800 ≤ imgLen l ∧ imgLen l ≤ 0x1000000 ∧ 1 ≤ imgSects l ∧ imgSects l ≤ 64 ∧ imgCfgArb l ≤ 64)
    && (List.range 48).all (fun n => decide (imgDecl l n ≠ 3)) && decide (imgFwArb l ≤ 64 ∧ imgNat l 136 4 = 0x4831)

/-- The header checks of Spring load, against the values of the two thermometers: 0 when they pass, else the reason of R415. -/
def hdrCheck (fw cfg : Nat) (l : List Byte) : Byte :=
  if imgNat l 0 4 ≠ 0x4E59494D then 0x01
  else if (crc32c (l.take 252)).toNat ≠ imgNat l 252 4 then 0x02
  else if !hdrFormatOk l then 0x03
  else if imgFwArb l < fw then 0x04
  else if imgCfgArb l < cfg then 0x05
  else 0

/-! ## Sections (R403, R404) -/

/-- An entry of the section table. -/
structure Sect where
  typ : Nat
  chan : Nat
  rsv : Nat
  off : Nat
  len : Nat
  crc : Nat
deriving DecidableEq, Repr

/-- Entry `i` of the section table. -/
def imgSect (l : List Byte) (i : Nat) : Sect :=
  let a := 0x100 + 16 * i
  { typ := imgNat l a 1, chan := imgNat l (a + 1) 1, rsv := imgNat l (a + 2) 2, off := imgNat l (a + 4) 4, len := imgNat l (a + 8) 4
    crc := imgNat l (a + 12) 4 }

/-- The sections of an image. -/
def imgTable (l : List Byte) : List Sect := (List.range (min 64 (imgSects l))).map (imgSect l)

/-- The body of a section. -/
def sectBody (l : List Byte) (e : Sect) : List Byte := slice l e.off e.len

/-- The body of the one firmware section of a type (R404). -/
def fwBody (img : List Byte) (typ : Nat) : List Byte := (((imgTable img).find? fun e => decide (e.typ = typ)).map (sectBody img)).getD []

/-- A vendor section. -/
def Sect.vendor (e : Sect) : Bool := decide (e.typ < 0x40)

/-- The length limit of a section type in bytes; 0 for a type that is refused. -/
def sectLimit (typ : Nat) : Nat :=
  if typ = 0x01 then 448 * 1024 else if typ = 0x02 then 64 * 1024 else if typ = 0x03 then 1024 * 1024 else if typ = 0x40 then 64 * 1024
  else if typ = 0x41 then 64 * 1024 else if typ = 0x42 then 129 * 1024 else if typ = 0x43 then 1009 * 1024 else 0

/-- CHAN is one that the section's type takes. -/
def Sect.chanOk (e : Sect) : Bool := if 0x41 ≤ e.typ then decide (e.chan < 48) else decide (e.chan = 0xFF)

/-- An entry stands for a legal section whose body lies within the image. -/
def Sect.legal (e : Sect) (len : Nat) : Bool :=
  e.chanOk && decide (e.rsv = 0 ∧ 4 ≤ e.len ∧ e.len ≤ sectLimit e.typ ∧ e.off % 256 = 0 ∧ 0x800 ≤ e.off ∧ e.off + e.len ≤ len)

/-- The Slot Map bank that a body of SLOT_MAP names (R406): 0 A, 1 B. -/
def slotMapBank (body : List Byte) : Nat := imgNat body 0 4 / 2 ^ 31

/-- Two sections that an image may not both hold: their bodies overlap, or they have the same TYPE and CHAN, two SLOT_MAP sections of
different banks excepted (R406). -/
def sectClash (l : List Byte) (a b : Sect) : Bool :=
  decide (a.off < b.off + b.len ∧ b.off < a.off + a.len)
    || (decide (a.typ = b.typ ∧ a.chan = b.chan)
      && !decide (a.typ = 0x43 ∧ slotMapBank (sectBody l a) ≠ slotMapBank (sectBody l b)))

/-- A section of a type and channel stands in a table. -/
def hasSect (t : List Sect) (typ chan : Nat) : Bool := t.any fun e => decide (e.typ = typ ∧ e.chan = chan)

/-- No two entries clash. -/
def noClash (l : List Byte) : List Sect → Bool
  | [] => true
  | e :: t => !t.any (sectClash l e) && noClash l t

/-- The table check of VERIFY. -/
def tableOk (l : List Byte) : Bool :=
  let t := imgTable l
  t.all (fun e => e.legal (imgLen l)) && noClash l t
    && (slice l (0x100 + 16 * imgSects l) (1024 - 16 * imgSects l)).all (fun b => b == 0)
    && hasSect t 0x01 0xFF && hasSect t 0x02 0xFF && hasSect t 0x40 0xFF
    && (List.range 48).all fun n => decide (imgDecl l n = 0) || hasSect t 0x41 n

/-- Every body's CRC matches its entry. -/
def sectCrcOk (l : List Byte) : Bool := (imgTable l).all fun e => decide ((crc32c (sectBody l e)).toNat = e.crc)

/-! ## Signatures (R405) -/

/-- The bodies of the sections of one signer, in table order. -/
def imgBodies (l : List Byte) (vendor : Bool) : List Byte :=
  ((imgTable l).filter fun e => e.vendor == vendor).flatMap (sectBody l)

/-- M_V. -/
def vendorMsg (l : List Byte) : List Byte := slice l 128 32 ++ imgBodies l true

/-- M_O. -/
def ownerMsg (l : List Byte) : List Byte := slice l 0 256 ++ slice l 0x100 1024 ++ slice l 0x500 256 ++ imgBodies l false

/-- A signature block's role is `role`, and its key matches the words of a fuse field. -/
def sigKeyOk (l : List Byte) (at_ role : Nat) (fuse : List Word) : Bool :=
  decide (imgNat l (at_ + 4) 1 = role ∧ sha384 (slice l (at_ + 8) 96) = fuse.flatMap fun w => beBytes 4 w.toNat)

/-- A signature block verifies over a message. -/
def sigOk (l : List Byte) (at_ : Nat) (msg : List Byte) : Bool := ecdsaVerify (slice l (at_ + 8) 96) msg (slice l (at_ + 104) 96)

/-! ## Configuration bodies (R406) -/

/-- A configuration record: a register write, or a policy of a class (0 C, 1 H, 2 D). -/
inductive CfgRec where
  | reg (off : Nat) (d : Word) | policy (cls : Fin 3) (action : BitVec 2) (recover : BitVec 16)
deriving DecidableEq, Repr

/-- A POLICY record is well formed. -/
def policyOk (w r : Nat) : Bool :=
  decide (w / 256 % 4 ≠ 0 ∧ w / 16 % 4 ≤ 2 ∧ w % 2 ^ 28 = w / 256 % 4 * 256 + w / 16 % 4 * 16 ∧ r ≤ 60000)

/-- The records of a body of DEV_CFG (`dev`) or CH_CFG, read two words at a time; none for a body that is not well formed. `n`
bounds the number of records. -/
def cfgRecs (dev : Bool) : Nat → List Byte → Option (List CfgRec)
  | 0, _ => none
  | n + 1, l =>
    if l.length < 4 then none
    else
      let w := imgNat l 0 4
      let op := w / 2 ^ 28
      if op = 0 then (if w = 0 ∧ l.all (fun b => b == 0) then some [] else none)
      else if l.length < 8 then none
      else
        let d := imgNat l 4 4
        let rest := cfgRecs dev n (l.drop 8)
        if op = 1 then
          let off := w % 2 ^ 22
          if off % 4 = 0 ∧ off < 0x10000 then rest.map (CfgRec.reg off (BitVec.ofNat 32 d) :: ·) else none
        else if op = 3 ∧ dev ∧ policyOk w d then
          rest.map (CfgRec.policy ⟨(w / 256 % 4 - 1) % 3, Nat.mod_lt _ (by omega)⟩ (BitVec.ofNat 2 (w / 16)) (BitVec.ofNat 16 d) :: ·)
        else none

/-- The records of a configuration section. -/
def sectRecs (l : List Byte) (e : Sect) : Option (List CfgRec) := cfgRecs (decide (e.typ = 0x40)) (e.len + 1) (sectBody l e)

/-- Every configuration record of an image is well formed. -/
def cfgOk (l : List Byte) : Bool := (imgTable l).all fun e => !decide (e.typ = 0x40 ∨ e.typ = 0x41) || (sectRecs l e).isSome

/-! ## VERIFY (R407) -/

/-- Checks 2 to 9 of VERIFY, against VFW_HASH and OWN_HASH: 0 when they pass, else the reason of R415. -/
def verifyImage (l : List Byte) (vfw own : List Word) : Byte :=
  if !tableOk l then 0x06
  else if !sectCrcOk l then 0x07
  else if !sigKeyOk l 0x500 1 vfw then 0x08
  else if !sigOk l 0x500 (vendorMsg l) then 0x09
  else if own.all (fun w => w == 0) then 0
  else if !sigKeyOk l 0x600 2 own then 0x0A
  else if !sigOk l 0x600 (ownerMsg l) then 0x0B
  else if !cfgOk l then 0x0D
  else 0

/-! ## Tables that a channel is loaded with (R406) -/

/-- The sections of a type for a channel, in table order. -/
def chanSects (l : List Byte) (typ chan : Nat) : List (List Byte) :=
  ((imgTable l).filter fun e => decide (e.typ = typ ∧ e.chan = chan)).map (sectBody l)

/-- The entries that a body of CIRC_TBL holds whole and that exist: circuit number, and W0 to W3. -/
def circEntries (b : List Byte) : List (Nat × List Word) :=
  ((List.range (min ((b.length - 8) / 16) (imgNat b 4 4))).map fun i =>
    (imgNat b 0 4 + i, (List.range 4).map fun j => BitVec.ofNat 32 (imgNat b (8 + 16 * i + 4 * j) 4))).filter fun e => decide (e.1 < 8192)

/-- The entries that a body of SLOT_MAP holds whole and that exist: index and entry. -/
def mapEntries (b : List Byte) : List (Nat × BitVec 16) :=
  ((List.range (min ((b.length - 8) / 2) (imgNat b 4 4))).map fun i =>
    (imgNat b 0 4 % 2 ^ 17 + i, BitVec.ofNat 16 (imgNat b (8 + 2 * i) 2))).filter fun e => decide (e.1 < 129024)

end Sys2Proof.Machine
end

