-- ==== Sys2Proof/Config.lean ====
section
/-!
DEFINITION. Config.lean: what one module fixes at the factory, and the values the spec leaves open.

Every opaque constant here has no body: no proof can see its value, so a statement holds whatever it is.
-/
namespace Sys2Proof.Config

/-- DEV.ID_SN_HI and DEV.ID_SN_LO, the serial of one module: "per module" (R455). -/
opaque serial : BitVec 64

/-- DEV.ID_ORDER.GRADE of one module (R455). -/
opaque grade : BitVec 2

/-- A value the spec leaves open, drawn by the number of earlier draws (log entry 3). -/
opaque freeValue : Nat → BitVec 64

/-- The offset at which a pointer generator starts, by the number of the channel's start and the generator (log entry 80). -/
opaque startOffset : Nat → Nat → Nat

end Sys2Proof.Config
end

