-- ==== Sys2Proof/Machine/Regs.lean ====
section
/-!
DEFINITION. Machine/Regs.lean: the register maps of device space and of a channel window (R453 to R504): every register's
offset, its reset value, the access codes of its fields (R428), its guarded mark (R454, R477) and what of it the register
fabric keeps while the channel is parked (R476). Read-only fields are not listed: a write leaves them alone.
-/
namespace Sys2Proof.Machine

/-- The access codes of R428 that a write can act on. -/
inductive Acc where
  | rw | rd | ws | wo | rg | wl
deriving DecidableEq, Repr

/-- A field that a write can act on: its bits and its access code. -/
structure Fld where
  hi : Nat
  lo : Nat
  acc : Acc
deriving DecidableEq, Repr

/-- A register, or a family of `count` registers `stride` bytes apart. -/
structure RegDef where
  base : Nat
  count : Nat
  stride : Nat
  reset : Word
  flds : List Fld
  guarded : Bool
  kept : Word
deriving DecidableEq, Repr

/-- Device space (R453 to R471), part 0. -/
def devRegs0 : List RegDef := [
  ⟨0x0000, 1, 0x4, 0x4E594831, [], false, 0x0⟩,  -- ID_PART (R455)
  ⟨0x0004, 1, 0x4, 0xB001, [], false, 0x0⟩,  -- ID_REV (R455)
  ⟨0x0008, 1, 0x4, 0x48310000, [], false, 0x0⟩,  -- ID_PCI (R455)
  ⟨0x000C, 1, 0x4, 0x0, [], false, 0x0⟩,  -- ID_SN_LO (R455)
  ⟨0x0010, 1, 0x4, 0x0, [], false, 0x0⟩,  -- ID_SN_HI (R455)
  ⟨0x0014, 1, 0x4, 0x0, [], false, 0x0⟩,  -- ID_FWVER (R455)
  ⟨0x0018, 1, 0x4, 0x0, [], false, 0x0⟩,  -- ID_CFGVER (R455)
  ⟨0x001C, 1, 0x4, 0x30380000, [], false, 0x0⟩,  -- ID_CAP (R455)
  ⟨0x0020, 1, 0x4, 0x0, [], false, 0x0⟩,  -- ID_ORDER (R455)
  ⟨0x1000, 1, 0x4, 0x20000000, [], false, 0x0⟩,  -- BOOT_STAT (R414)
  ⟨0x1004, 1, 0x4, 0x0, [⟨23, 23, .ws⟩, ⟨22, 22, .ws⟩, ⟨21, 21, .ws⟩], false, 0x0⟩,  -- BOOT_EVT (R457)
  ⟨0x1008, 1, 0x4, 0x0, [], false, 0x0⟩,  -- BOOT_TIME (R457)
  ⟨0x100C, 1, 0x4, 0x0, [], false, 0x0⟩,  -- PWR_STAT (R416)
  ⟨0x1010, 1, 0x4, 0x64, [⟨7, 0, .rw⟩], false, 0x0⟩,  -- PWR_TWARN (R416)
  ⟨0x1014, 1, 0x4, 0xB54, [⟨15, 0, .rw⟩], false, 0x0⟩,  -- PWR_VWARN (R457)
  ⟨0x1018, 1, 0x4, 0x0, [⟨23, 23, .ws⟩, ⟨22, 22, .ws⟩], false, 0x0⟩,  -- PWR_VEVT (R457)
  ⟨0x101C, 1, 0x4, 0x0, [⟨23, 23, .ws⟩, ⟨22, 22, .ws⟩], false, 0x0⟩,  -- PWR_IEVT (R457)
  ⟨0x1020, 1, 0x4, 0x0, [], false, 0x0⟩,  -- PWR_ISL (R457)
  ⟨0x1040, 7, 0x4, 0x0, [], false, 0x0⟩,  -- PWR_TEMP (R416)
  ⟨0x1060, 7, 0x4, 0x0, [⟨23, 23, .ws⟩, ⟨22, 22, .ws⟩, ⟨21, 21, .ws⟩], false, 0x0⟩ ]  -- PWR_TEVT (R457)

/-- Device space (R453 to R471), part 1. -/
def devRegs1 : List RegDef := [
  ⟨0x1080, 4, 0x4, 0x0, [⟨23, 23, .ws⟩, ⟨22, 22, .ws⟩], false, 0x0⟩,  -- PWR_REVT (R457)
  ⟨0x10A0, 6, 0x4, 0x0, [], false, 0x0⟩,  -- CH_STATE (R417)
  ⟨0x10C0, 6, 0x4, 0x0, [⟨7, 0, .ws⟩], false, 0x0⟩,  -- CH_EVT (R457)
  ⟨0x2000, 1, 0x4, 0x0, [], false, 0x0⟩,  -- FUS_STAT (R418)
  ⟨0x2004, 1, 0x4, 0x0, [⟨23, 23, .ws⟩, ⟨22, 22, .ws⟩], true, 0x0⟩,  -- FUS_EVT (R459)
  ⟨0x2008, 1, 0x4, 0x0, [⟨23, 23, .ws⟩, ⟨22, 22, .ws⟩, ⟨21, 21, .ws⟩], false, 0x0⟩,  -- FUS_AEVT (R459)
  ⟨0x2010, 1, 0x4, 0x0, [⟨5, 0, .rg⟩], true, 0x0⟩,  -- FUS_PGM_ADDR (R419)
  ⟨0x2014, 1, 0x4, 0x0, [⟨31, 0, .wo⟩], true, 0x0⟩,  -- FUS_PGM_DATA (R419)
  ⟨0x2018, 1, 0x4, 0x0, [⟨31, 16, .wo⟩, ⟨2, 2, .rg⟩, ⟨0, 0, .rg⟩], true, 0x0⟩,  -- FUS_PGM_CTL (R419)
  ⟨0x2100, 64, 0x4, 0x0, [], false, 0x0⟩,  -- FUS_WORD (R418)
  ⟨0x3000, 1, 0x4, 0x0, [], false, 0x0⟩,  -- ROOT_STAT (R325)
  ⟨0x3004, 1, 0x4, 0x0, [⟨23, 23, .ws⟩, ⟨22, 22, .ws⟩, ⟨21, 21, .ws⟩], false, 0x0⟩,  -- ROOT_EVT (R461)
  ⟨0x3008, 1, 0x4, 0x0, [⟨31, 29, .rw⟩, ⟨27, 12, .rw⟩, ⟨11, 0, .rw⟩], false, 0x0⟩,  -- TIM_TCOMP (R325)
  ⟨0x300C, 1, 0x4, 0x0, [⟨23, 23, .ws⟩, ⟨22, 22, .ws⟩, ⟨21, 21, .ws⟩], false, 0x0⟩,  -- STN_EVT (R461)
  ⟨0x3010, 4, 0x4, 0xB0000000, [⟨31, 28, .rw⟩, ⟨2, 0, .rw⟩], false, 0x0⟩,  -- STN_IN_CFG (R326)
  ⟨0x3020, 1, 0x4, 0x16807850, [⟨31, 18, .rw⟩, ⟨17, 8, .rw⟩, ⟨7, 2, .rw⟩], false, 0x0⟩,  -- STN_QCFG (R326)
  ⟨0x3024, 1, 0x4, 0xF38412C, [⟨31, 24, .rw⟩, ⟨23, 12, .rw⟩, ⟨11, 0, .rw⟩], false, 0x0⟩,  -- STN_CFG (R326)
  ⟨0x3028, 1, 0x4, 0x7010000, [⟨26, 24, .rw⟩, ⟨23, 22, .rw⟩, ⟨19, 16, .rw⟩, ⟨15, 12, .rw⟩, ⟨11, 8, .rw⟩, ⟨7, 4, .rw⟩, ⟨3, 0, .rw⟩], false, 0x0⟩,  -- STN_RANK (R327)
  ⟨0x302C, 1, 0x4, 0x1C000000, [], false, 0x0⟩,  -- STN_STAT (R328)
  ⟨0x3030, 1, 0x4, 0x0, [⟨20, 0, .rg⟩], true, 0x0⟩ ]  -- STN_PSTEP (R328)

/-- Device space (R453 to R471), part 2. -/
def devRegs2 : List RegDef := [
  ⟨0x3040, 4, 0x4, 0x8, [⟨4, 3, .rw⟩, ⟨2, 0, .rw⟩], false, 0x0⟩,  -- STN_OUT_CFG (R327)
  ⟨0x3050, 4, 0x4, 0x0, [⟨23, 23, .ws⟩, ⟨22, 22, .ws⟩, ⟨21, 21, .ws⟩], false, 0x0⟩,  -- STN_IEVT (R461)
  ⟨0x3060, 4, 0x4, 0x0, [⟨23, 23, .ws⟩, ⟨22, 22, .ws⟩], false, 0x0⟩,  -- STN_OEVT (R461)
  ⟨0x4000, 1, 0x4, 0xA0000, [⟨31, 31, .rg⟩, ⟨23, 16, .rg⟩, ⟨2, 2, .wl⟩, ⟨1, 1, .wl⟩, ⟨0, 0, .wl⟩], false, 0x0⟩,  -- FCL_CFG (R358)
  ⟨0x4004, 1, 0x4, 0xA0500A, [⟨29, 20, .rg⟩, ⟨19, 10, .rg⟩, ⟨9, 0, .rg⟩], false, 0x0⟩,  -- FCL_TMR (R358)
  ⟨0x4008, 1, 0x4, 0x0, [⟨23, 23, .ws⟩, ⟨22, 22, .ws⟩], false, 0x0⟩,  -- FCL_HSTAT (R353)
  ⟨0x400C, 1, 0x4, 0x0, [], false, 0x0⟩,  -- FCL_DREC (R367)
  ⟨0x4010, 1, 0x4, 0x0, [⟨31, 24, .wo⟩, ⟨23, 21, .wo⟩], false, 0x0⟩,  -- FCL_DACT (R367)
  ⟨0x4014, 1, 0x4, 0x0, [], false, 0x0⟩,  -- FCL_MW (R374)
  ⟨0x4018, 1, 0x4, 0x0, [⟨31, 0, .rg⟩], true, 0x0⟩,  -- FCL_INJ_HI (R375)
  ⟨0x401C, 1, 0x4, 0x0, [⟨31, 0, .rg⟩], true, 0x0⟩,  -- FCL_INJ_LO (R375)
  ⟨0x4020, 1, 0x4, 0x0, [⟨0, 0, .rg⟩], true, 0x0⟩,  -- FCL_INJCTL (R375)
  ⟨0x4024, 1, 0x4, 0x0, [⟨23, 23, .ws⟩, ⟨22, 22, .ws⟩], true, 0x0⟩,  -- FCL_IEVT (R463)
  ⟨0x4028, 3, 0x4, 0x3E8, [], false, 0x0⟩,  -- FCL_POL (R463)
  ⟨0x4040, 6, 0x4, 0x0, [], false, 0x0⟩,  -- FCL_CSUM (R463)
  ⟨0x5000, 1, 0x4, 0x0, [⟨23, 23, .ws⟩, ⟨22, 22, .ws⟩, ⟨21, 21, .ws⟩, ⟨20, 20, .ws⟩, ⟨19, 19, .ws⟩], false, 0x0⟩,  -- BMX_WSTAT (R429)
  ⟨0x5004, 1, 0x4, 0x0, [], false, 0x0⟩,  -- BMX_WADDR (R429)
  ⟨0x5008, 1, 0x4, 0xFCA0A480, [⟨27, 24, .rg⟩, ⟨23, 20, .rg⟩, ⟨15, 12, .rg⟩, ⟨11, 8, .rg⟩, ⟨7, 4, .rg⟩], true, 0x0⟩,  -- BMX_QOS0 (R436)
  ⟨0x500C, 1, 0x4, 0x6, [⟨3, 0, .rg⟩], true, 0x0⟩,  -- BMX_QOS1 (R436)
  ⟨0x5010, 1, 0x4, 0x0, [⟨15, 0, .rg⟩], true, 0x0⟩ ]  -- BMX_CNTCLR (R437)

/-- Device space (R453 to R471), part 3. -/
def devRegs3 : List RegDef := [
  ⟨0x5014, 1, 0x4, 0x0, [⟨0, 0, .wl⟩], false, 0x0⟩,  -- BMX_REMAP (R438)
  ⟨0x5018, 1, 0x4, 0x0, [], false, 0x0⟩,  -- BMX_ABORT (R439)
  ⟨0x501C, 1, 0x4, 0x0, [], false, 0x0⟩,  -- BMX_ABORT_ADDR (R439)
  ⟨0x5020, 1, 0x4, 0x0, [⟨23, 23, .ws⟩, ⟨22, 22, .ws⟩, ⟨21, 21, .ws⟩], false, 0x0⟩,  -- BMX_EVT (R465)
  ⟨0x5024, 1, 0x4, 0x104A0215, [⟨30, 26, .wl⟩, ⟨25, 21, .wl⟩, ⟨20, 16, .wl⟩, ⟨11, 8, .wl⟩, ⟨7, 4, .wl⟩, ⟨3, 0, .wl⟩], false, 0x0⟩,  -- HPT_SHARE (R442)
  ⟨0x5028, 1, 0x4, 0x0, [], false, 0x0⟩,  -- HPT_STAT (R465)
  ⟨0x502C, 1, 0x4, 0x0, [⟨23, 23, .ws⟩, ⟨22, 22, .ws⟩, ⟨21, 21, .ws⟩, ⟨20, 20, .ws⟩, ⟨19, 19, .ws⟩], false, 0x0⟩,  -- HPT_EVT (R465)
  ⟨0x5030, 1, 0x4, 0x0, [⟨23, 23, .ws⟩, ⟨22, 22, .ws⟩], false, 0x0⟩,  -- ISV_EVT (R465)
  ⟨0x5034, 1, 0x4, 0x0, [⟨23, 23, .ws⟩], false, 0x0⟩,  -- SCT_EVT (R465)
  ⟨0x5040, 4, 0x4, 0x0, [⟨31, 0, .rw⟩], false, 0x0⟩,  -- SCT_ALM (R466)
  ⟨0x5050, 4, 0x4, 0x0, [⟨23, 23, .ws⟩], false, 0x0⟩,  -- SCT_AEVT (R466)
  ⟨0x5100, 16, 0x10, 0x0, [], false, 0x0⟩,  -- BMX_SERVED (R437)
  ⟨0x5104, 16, 0x10, 0x0, [], false, 0x0⟩,  -- BMX_DELAYED (R437)
  ⟨0x5108, 16, 0x10, 0x0, [], false, 0x0⟩,  -- BMX_REFUSED (R437)
  ⟨0x510C, 16, 0x10, 0x0, [], false, 0x0⟩,  -- BMX_WAITMAX (R437)
  ⟨0x6000, 1, 0x4, 0x0, [⟨31, 31, .rw⟩, ⟨30, 24, .rw⟩, ⟨23, 18, .rw⟩, ⟨17, 0, .rw⟩], false, 0x0⟩,  -- MBX_SEL (R433)
  ⟨0x6004, 1, 0x4, 0x0, [], false, 0x0⟩,  -- MBX_STAT (R433)
  ⟨0x6008, 4, 0x4, 0x0, [], false, 0x0⟩,  -- MBX_D (R433)
  ⟨0x7000, 4, 0x4, 0x0, [⟨31, 0, .wo⟩], false, 0x0⟩,  -- CMD_W (R441)
  ⟨0x7010, 1, 0x4, 0x0, [], false, 0x0⟩ ]  -- CMD_CREDIT (R441)

/-- Device space (R453 to R471), part 4. -/
def devRegs4 : List RegDef := [
  ⟨0x7014, 1, 0x4, 0x0, [], false, 0x0⟩,  -- CPL_LO (R441)
  ⟨0x7018, 1, 0x4, 0x0, [], false, 0x0⟩,  -- CPL_HI (R441)
  ⟨0x701C, 1, 0x4, 0x0, [], false, 0x0⟩,  -- CPL_STAT (R441)
  ⟨0x8000, 18, 0x4, 0x0, [⟨31, 0, .wo⟩], true, 0x0⟩,  -- CPH_KBUF (R468)
  ⟨0x9004, 1, 0x4, 0x0, [⟨31, 24, .rg⟩, ⟨23, 22, .rg⟩, ⟨21, 20, .rg⟩, ⟨19, 16, .rg⟩, ⟨15, 15, .rg⟩, ⟨6, 0, .rg⟩], true, 0x0⟩,  -- FLW_CMD (R469)
  ⟨0x9008, 1, 0x4, 0x0, [⟨31, 0, .rg⟩], true, 0x0⟩,  -- FLW_ADDR (R469)
  ⟨0x900C, 1, 0x4, 0x0, [⟨31, 16, .wo⟩, ⟨5, 5, .wo⟩, ⟨4, 4, .wo⟩, ⟨0, 0, .rg⟩], true, 0x0⟩,  -- FLW_CTL (R469)
  ⟨0x9010, 1, 0x4, 0x0, [⟨23, 23, .ws⟩, ⟨22, 22, .ws⟩], true, 0x0⟩,  -- FLW_STAT (R469)
  ⟨0x9040, 16, 0x4, 0x0, [⟨31, 0, .rg⟩], true, 0x0⟩,  -- FLW_DATA (R469)
  ⟨0xB000, 20, 0x4, 0x0, [], false, 0x0⟩,  -- EVR_ACT (R450)
  ⟨0xB100, 64, 0x4, 0x0, [⟨15, 0, .rw⟩], false, 0x0⟩ ]  -- EVR_VCTL (R451)

/-- Device space (R453 to R471). -/
def devRegs : List RegDef := devRegs0 ++ devRegs1 ++ devRegs2 ++ devRegs3 ++ devRegs4

/-- The channel window (R474 to R502), part 0. -/
def chRegs0 : List RegDef := [
  ⟨0x0000, 1, 0x4, 0x0, [], false, 0xFFFFFFFF⟩,  -- CH_STAT (R479)
  ⟨0x0004, 1, 0x4, 0x0, [], false, 0x0⟩,  -- CH_ACT (R479)
  ⟨0x0008, 1, 0x4, 0x0, [], false, 0xFFFFFFFF⟩,  -- FLT_REC (R365)
  ⟨0x000C, 1, 0x4, 0x0, [⟨31, 24, .wo⟩, ⟨23, 21, .wo⟩, ⟨12, 0, .wo⟩], false, 0x0⟩,  -- FLT_ACT (R366)
  ⟨0x0010, 1, 0x4, 0x0, [], false, 0xFFFFFFFF⟩,  -- FLT_QSTAT (R479)
  ⟨0x1000, 3, 0x40, 0x8C00, [⟨19, 16, .rw⟩, ⟨15, 12, .rw⟩, ⟨11, 11, .rw⟩, ⟨10, 10, .rw⟩, ⟨9, 8, .rg⟩, ⟨7, 7, .rg⟩, ⟨6, 6, .rg⟩, ⟨5, 5, .rw⟩, ⟨4, 4, .rw⟩, ⟨3, 0, .rd⟩], false, 0xF⟩,  -- PRT_LANE (R136)
  ⟨0x1004, 3, 0x40, 0x0, [⟨6, 6, .rw⟩, ⟨5, 5, .rw⟩, ⟨4, 4, .rw⟩, ⟨3, 3, .rg⟩, ⟨2, 0, .rw⟩], false, 0x0⟩,  -- PRT_PRBS (R135)
  ⟨0x1008, 3, 0x40, 0x0, [⟨8, 8, .rw⟩, ⟨4, 0, .rw⟩], false, 0x0⟩,  -- PRT_CTLE (R481)
  ⟨0x100C, 3, 0x40, 0x0, [], false, 0x0⟩,  -- PRT_DFE (R481)
  ⟨0x1010, 3, 0x40, 0x0, [], false, 0x0⟩,  -- PRT_CDR (R481)
  ⟨0x1014, 3, 0x40, 0x0, [], false, 0x0⟩,  -- PRT_TXPLL (R481)
  ⟨0x10C0, 1, 0x4, 0x0, [], false, 0x0⟩,  -- PRT_STAT (R481)
  ⟨0x10C4, 1, 0x4, 0x40, [⟨31, 31, .rw⟩, ⟨29, 28, .rw⟩, ⟨23, 16, .rw⟩, ⟨15, 0, .rw⟩], false, 0x0⟩,  -- PRT_EYE_CTL (R481)
  ⟨0x10C8, 1, 0x4, 0x0, [], false, 0x0⟩,  -- PRT_EYE_STAT (R481)
  ⟨0x1100, 64, 0x4, 0x0, [], false, 0x0⟩,  -- PRT_EYE_RES (R481)
  ⟨0x2000, 3, 0x100, 0x314, [⟨9, 8, .rw⟩, ⟨6, 4, .rw⟩, ⟨3, 0, .rw⟩], false, 0x0⟩,  -- FRM_RA (R113)
  ⟨0x2004, 3, 0x100, 0x0, [⟨31, 28, .rw⟩, ⟨27, 24, .rw⟩, ⟨23, 16, .rw⟩, ⟨15, 12, .rw⟩, ⟨11, 8, .rw⟩, ⟨7, 5, .rw⟩, ⟨4, 0, .rw⟩], false, 0x0⟩,  -- FRM_THR (R114)
  ⟨0x2008, 3, 0x100, 0x3, [⟨3, 3, .rw⟩, ⟨2, 2, .rw⟩, ⟨1, 1, .rw⟩, ⟨0, 0, .rw⟩], false, 0x0⟩,  -- FRM_CFG (R484)
  ⟨0x200C, 3, 0x100, 0x100, [⟨15, 8, .rw⟩, ⟨1, 0, .rw⟩], false, 0x0⟩,  -- FRM_J0TX (R484)
  ⟨0x2010, 3, 0x100, 0x0, [], false, 0x0⟩ ]  -- FRM_DEFECT (R484)

/-- The channel window (R474 to R502), part 1. -/
def chRegs1 : List RegDef := [
  ⟨0x2014, 3, 0x100, 0x0, [], false, 0x0⟩,  -- FRM_OHRX (R484)
  ⟨0x2018, 3, 0x100, 0x203, [⟨15, 8, .rw⟩, ⟨7, 0, .rw⟩], false, 0x0⟩,  -- FRM_EXP (R484)
  ⟨0x201C, 3, 0x100, 0x0, [], false, 0x0⟩,  -- FRM_STATE (R484)
  ⟨0x2020, 3, 0x100, 0x0, [], false, 0x0⟩,  -- FRM_REWIND (R484)
  ⟨0x2024, 3, 0x100, 0x0, [], false, 0x0⟩,  -- FRM_RACOMMIT (R484)
  ⟨0x2028, 3, 0x100, 0x0, [], false, 0x0⟩,  -- FRM_RAWORDS (R484)
  ⟨0x2040, 16, 0x4, 0x0, [⟨31, 0, .rw⟩], false, 0x0⟩,  -- FRM_TXTRC_RED (R485)
  ⟨0x2140, 16, 0x4, 0x0, [⟨31, 0, .rw⟩], false, 0x0⟩,  -- FRM_TXTRC_BKW (R485)
  ⟨0x2240, 16, 0x4, 0x0, [⟨31, 0, .rw⟩], false, 0x0⟩,  -- FRM_TXTRC_BKP (R485)
  ⟨0x2080, 16, 0x4, 0x0, [⟨31, 0, .rw⟩], false, 0x0⟩,  -- FRM_EXPTRC_RED (R485)
  ⟨0x2180, 16, 0x4, 0x0, [⟨31, 0, .rw⟩], false, 0x0⟩,  -- FRM_EXPTRC_BKW (R485)
  ⟨0x2280, 16, 0x4, 0x0, [⟨31, 0, .rw⟩], false, 0x0⟩,  -- FRM_EXPTRC_BKP (R485)
  ⟨0x20C0, 16, 0x4, 0x0, [], false, 0x0⟩,  -- FRM_ACCTRC_RED (R485)
  ⟨0x21C0, 16, 0x4, 0x0, [], false, 0x0⟩,  -- FRM_ACCTRC_BKW (R485)
  ⟨0x22C0, 16, 0x4, 0x0, [], false, 0x0⟩,  -- FRM_ACCTRC_BKP (R485)
  ⟨0x2300, 1, 0x4, 0x0, [⟨23, 23, .ws⟩, ⟨22, 22, .ws⟩, ⟨21, 21, .ws⟩, ⟨20, 20, .ws⟩, ⟨19, 19, .ws⟩, ⟨18, 18, .ws⟩, ⟨17, 17, .ws⟩, ⟨16, 16, .ws⟩, ⟨15, 15, .ws⟩, ⟨14, 14, .ws⟩], false, 0x0⟩,  -- FRM_EVT (R486)
  ⟨0x2304, 1, 0x4, 0x1, [⟨1, 0, .rw⟩], false, 0x0⟩,  -- FRM_J1CFG (R486)
  ⟨0x2340, 16, 0x4, 0x0, [⟨31, 0, .rw⟩], false, 0x0⟩,  -- FRM_J1EXP (R485)
  ⟨0x2380, 16, 0x4, 0x0, [], false, 0x0⟩,  -- FRM_J1ACC (R485)
  ⟨0x3000, 1, 0x4, 0x1FF5440, [⟨31, 31, .rd⟩, ⟨25, 18, .rw⟩, ⟨17, 10, .rw⟩, ⟨9, 0, .rw⟩], false, 0x80000000⟩ ]  -- MAP_CFG (R181)

/-- The channel window (R474 to R502), part 2. -/
def chRegs2 : List RegDef := [
  ⟨0x3004, 1, 0x4, 0x0, [], false, 0x0⟩,  -- MAP_BANK (R182)
  ⟨0x3008, 1, 0x4, 0x0, [⟨23, 23, .ws⟩, ⟨22, 22, .ws⟩, ⟨21, 21, .ws⟩, ⟨20, 20, .ws⟩], false, 0x0⟩,  -- MAP_EVT (R488)
  ⟨0x300C, 1, 0x4, 0x0, [], false, 0x0⟩,  -- MAP_MEPMIS (R488)
  ⟨0x3010, 1, 0x4, 0x0, [⟨0, 0, .rg⟩], true, 0x0⟩,  -- MAP_TP_LOCK (R177)
  ⟨0x3014, 1, 0x4, 0x0, [⟨31, 30, .rg⟩, ⟨16, 0, .rg⟩], true, 0x0⟩,  -- MAP_TP_ADDR (R178)
  ⟨0x3018, 1, 0x4, 0x0, [⟨4, 4, .rg⟩, ⟨3, 3, .rg⟩, ⟨1, 1, .rg⟩, ⟨0, 0, .rg⟩], true, 0x0⟩,  -- MAP_TP_CTL (R179)
  ⟨0x3020, 4, 0x4, 0x0, [⟨31, 0, .rg⟩], true, 0x0⟩,  -- MAP_TP_D (R179)
  ⟨0x3030, 1, 0x4, 0x0, [⟨31, 30, .rw⟩, ⟨29, 28, .rw⟩, ⟨12, 7, .rw⟩, ⟨6, 5, .rw⟩, ⟨4, 2, .rw⟩, ⟨1, 0, .rw⟩], false, 0x0⟩,  -- MAP_AUSEL (R488)
  ⟨0x3034, 1, 0x4, 0xC0000000, [], false, 0x0⟩,  -- MAP_AUSTAT (R488)
  ⟨0x3038, 1, 0x4, 0x0, [⟨31, 30, .rw⟩, ⟨12, 0, .rw⟩], false, 0x0⟩,  -- MAP_TRSEL (R488)
  ⟨0x303C, 1, 0x4, 0x7000000, [], false, 0x0⟩,  -- MAP_TRSTAT (R488)
  ⟨0x3040, 3, 0x4, 0x0, [], false, 0x0⟩,  -- MAP_DEFCNT (R488)
  ⟨0x4000, 1, 0x4, 0x2EE0100A, [⟨29, 16, .rd⟩, ⟨15, 8, .rw⟩, ⟨6, 0, .rw⟩], false, 0x3FFF0000⟩,  -- RCL_CFG (R490)
  ⟨0x4004, 1, 0x4, 0x0, [⟨1, 0, .rw⟩], false, 0x0⟩,  -- RCL_GECFG (R490)
  ⟨0x4008, 1, 0x4, 0x0, [⟨23, 23, .ws⟩, ⟨22, 22, .ws⟩, ⟨21, 21, .ws⟩, ⟨20, 20, .ws⟩], false, 0x0⟩,  -- RCL_EVT (R490)
  ⟨0x400C, 1, 0x4, 0x0, [⟨12, 0, .rw⟩], false, 0x0⟩,  -- RCL_CSEL (R490)
  ⟨0x4010, 1, 0x4, 0xF0000000, [], false, 0x0⟩,  -- RCL_CSTAT (R490)
  ⟨0x4014, 1, 0x4, 0x0, [], false, 0x0⟩,  -- RCL_CBCNT (R490)
  ⟨0x5000, 1, 0x4, 0x640000, [⟨31, 31, .rd⟩, ⟨30, 30, .rw⟩, ⟨27, 16, .rw⟩], false, 0x80000000⟩,  -- CPH_CFG (R228)
  ⟨0x5004, 1, 0x4, 0x0, [⟨31, 0, .rw⟩], false, 0x0⟩ ]  -- CPH_SCHED (R229)

/-- The channel window (R474 to R502), part 3. -/
def chRegs3 : List RegDef := [
  ⟨0x5008, 1, 0x4, 0x0, [⟨31, 16, .wo⟩], true, 0x0⟩,  -- CPH_CLR_ARM (R230)
  ⟨0x500C, 1, 0x4, 0x0, [], false, 0xC0000000⟩,  -- CPH_STAT (R231)
  ⟨0x5010, 1, 0x4, 0x0, [⟨23, 23, .ws⟩, ⟨22, 22, .ws⟩, ⟨21, 21, .ws⟩, ⟨20, 20, .ws⟩, ⟨19, 19, .ws⟩, ⟨18, 18, .ws⟩, ⟨17, 17, .ws⟩, ⟨16, 16, .ws⟩], false, 0x0⟩,  -- CPH_EVT (R491)
  ⟨0x5014, 1, 0x4, 0x0, [⟨12, 0, .rw⟩], false, 0x0⟩,  -- CPH_CSEL (R491)
  ⟨0x5018, 1, 0x4, 0x0, [], false, 0x0⟩,  -- CPH_CSTAT (R491)
  ⟨0x5040, 18, 0x4, 0x0, [⟨31, 0, .wo⟩], true, 0x0⟩,  -- CPH_KBUF (R205)
  ⟨0x6000, 1, 0x4, 0x1F4, [⟨14, 0, .rw⟩], false, 0x0⟩,  -- LAT_CFG (R259)
  ⟨0x6004, 1, 0x4, 0x0, [], false, 0x0⟩,  -- LAT_STAT (R260)
  ⟨0x6008, 1, 0x4, 0x0, [], false, 0x0⟩,  -- LAT_BUDGET (R260)
  ⟨0x600C, 1, 0x4, 0x0, [⟨12, 0, .rw⟩], false, 0x0⟩,  -- LAT_DSEL (R261)
  ⟨0x6010, 1, 0x4, 0x0, [], false, 0x0⟩,  -- LAT_DVAL (R261)
  ⟨0x6014, 1, 0x4, 0x0, [⟨23, 23, .ws⟩, ⟨22, 22, .ws⟩, ⟨21, 21, .ws⟩, ⟨20, 20, .ws⟩, ⟨19, 19, .ws⟩], false, 0x0⟩,  -- LAT_EVT (R493)
  ⟨0x6018, 1, 0x4, 0x0, [], false, 0x0⟩,  -- LAT_FLOG_PTR (R493)
  ⟨0x6040, 15, 0x4, 0x0, [⟨31, 31, .rw⟩, ⟨15, 0, .rw⟩], false, 0x0⟩,  -- LAT_WMCFG (R258)
  ⟨0x6080, 15, 0x4, 0x0, [⟨23, 23, .ws⟩, ⟨22, 22, .ws⟩, ⟨21, 21, .ws⟩], false, 0x0⟩,  -- LAT_WMSTAT (R258)
  ⟨0x60C0, 15, 0x4, 0x0, [], false, 0x0⟩,  -- LAT_LVL (R493)
  ⟨0x6100, 64, 0x4, 0x0, [], false, 0x0⟩,  -- LAT_FLOG (R494)
  ⟨0x7000, 1, 0x4, 0x404B0000, [⟨31, 31, .rd⟩, ⟨30, 30, .rw⟩, ⟨23, 14, .rw⟩, ⟨13, 7, .rw⟩], false, 0x80000000⟩,  -- PSW_CFG (R286)
  ⟨0x7004, 1, 0x4, 0x0, [], false, 0x0⟩,  -- PSW_STAT (R287)
  ⟨0x7008, 1, 0x4, 0x0, [⟨18, 18, .ws⟩, ⟨17, 17, .ws⟩, ⟨16, 16, .ws⟩, ⟨15, 15, .ws⟩], false, 0x0⟩ ]  -- PSW_EVT (R288)

/-- The channel window (R474 to R502), part 4. -/
def chRegs4 : List RegDef := [
  ⟨0x700C, 1, 0x4, 0x0, [], false, 0x0⟩,  -- PSW_MAJ (R495)
  ⟨0x8000, 1, 0x4, 0x12C00000, [⟨31, 20, .rw⟩, ⟨13, 11, .rw⟩, ⟨10, 9, .rw⟩, ⟨7, 5, .rw⟩, ⟨4, 3, .rw⟩], false, 0x0⟩,  -- TIM_CFG (R320)
  ⟨0x8004, 1, 0x4, 0x1, [⟨31, 28, .rw⟩, ⟨27, 24, .rw⟩, ⟨23, 20, .rw⟩, ⟨19, 16, .rw⟩, ⟨15, 12, .rw⟩, ⟨11, 8, .rw⟩, ⟨7, 4, .rw⟩, ⟨3, 0, .rw⟩], false, 0x0⟩,  -- TIM_RANK_B (R321)
  ⟨0x8008, 1, 0x4, 0x110, [⟨31, 28, .rw⟩, ⟨27, 24, .rw⟩, ⟨23, 20, .rw⟩, ⟨19, 16, .rw⟩, ⟨15, 12, .rw⟩, ⟨11, 8, .rw⟩, ⟨7, 4, .rw⟩, ⟨3, 0, .rw⟩], false, 0x0⟩,  -- TIM_RANK_R (R321)
  ⟨0x800C, 1, 0x4, 0x5140078, [⟨31, 31, .rw⟩, ⟨30, 22, .rw⟩, ⟨21, 16, .rw⟩, ⟨9, 0, .rw⟩], false, 0x0⟩,  -- TIM_QCFG (R322)
  ⟨0x8010, 1, 0x4, 0x5A0384, [⟨25, 12, .rw⟩, ⟨11, 0, .rw⟩], false, 0x0⟩,  -- TIM_HOCFG (R322)
  ⟨0x8014, 1, 0x4, 0xBBB00001, [⟨31, 28, .rw⟩, ⟨27, 24, .rw⟩, ⟨23, 20, .rw⟩, ⟨0, 0, .rw⟩], false, 0x0⟩,  -- TIM_QL (R322)
  ⟨0x8018, 2, 0x4, 0x1C000000, [], false, 0x0⟩,  -- TIM_STAT (R323)
  ⟨0x8020, 1, 0x4, 0x0, [⟨31, 31, .rg⟩, ⟨20, 0, .rg⟩], false, 0x0⟩,  -- TIM_PSTEP (R324)
  ⟨0x8024, 2, 0x4, 0x0, [], false, 0x0⟩,  -- TIM_POFS (R324)
  ⟨0x802C, 1, 0x4, 0x0, [⟨23, 23, .ws⟩, ⟨22, 22, .ws⟩, ⟨21, 21, .ws⟩, ⟨20, 20, .ws⟩, ⟨19, 19, .ws⟩, ⟨18, 18, .ws⟩, ⟨17, 17, .ws⟩], false, 0x0⟩,  -- TIM_EVT (R496)
  ⟨0x8040, 7, 0x4, 0x0, [], false, 0x0⟩,  -- TIM_CAND (R323)
  ⟨0x8060, 7, 0x4, 0x0, [], false, 0x0⟩,  -- TIM_FOFS (R496)
  ⟨0x9000, 1, 0x4, 0x0, [], false, 0x0⟩,  -- MLT_STAT (R499)
  ⟨0x9004, 1, 0x4, 0x0, [⟨31, 31, .rw⟩], false, 0x0⟩,  -- MLT_PMCTL (R499)
  ⟨0x9008, 1, 0x4, 0x0, [⟨23, 23, .ws⟩, ⟨22, 22, .ws⟩], false, 0x0⟩,  -- MLT_EVT (R499)
  ⟨0x9020, 8, 0x4, 0x0, [⟨19, 0, .rw⟩], false, 0x0⟩,  -- MLT_TCA (R499)
  ⟨0x9040, 24, 0x4, 0x0, [], false, 0x0⟩,  -- MLT_PMCUR (R499)
  ⟨0x90A0, 24, 0x4, 0x0, [], false, 0x0⟩,  -- MLT_PMPRV (R499)
  ⟨0xA000, 1, 0x4, 0xFFFFFFFF, [⟨31, 0, .rd⟩], true, 0xFFFFFFFF⟩ ]  -- CVU_STG_POLY (R336)

/-- The channel window (R474 to R502), part 5. -/
def chRegs5 : List RegDef := [
  ⟨0xA004, 1, 0x4, 0x0, [⟨31, 31, .rg⟩, ⟨3, 0, .rg⟩], true, 0x0⟩,  -- CVU_STG_INJ (R376)
  ⟨0xA008, 1, 0x4, 0x0, [⟨23, 23, .ws⟩, ⟨22, 22, .ws⟩, ⟨21, 21, .ws⟩], true, 0x0⟩,  -- CVU_EVT (R501)
  ⟨0xA040, 16, 0x4, 0x0, [], true, 0x0⟩,  -- CVU_STG_STAT (R501)
  ⟨0xA100, 8, 0x20, 0x1F00000, [⟨31, 31, .rg⟩, ⟨30, 30, .rg⟩, ⟨29, 28, .rg⟩, ⟨27, 27, .rg⟩, ⟨26, 26, .rg⟩, ⟨25, 25, .rg⟩, ⟨24, 20, .rg⟩, ⟨19, 19, .rg⟩, ⟨18, 18, .rg⟩, ⟨12, 0, .rg⟩], true, 0x0⟩,  -- CVU_CTL (R343)
  ⟨0xA104, 8, 0x20, 0x1EDC6F41, [⟨31, 0, .rg⟩], true, 0x0⟩,  -- CVU_POLY (R344)
  ⟨0xA108, 8, 0x20, 0xFFFFFFFF, [⟨31, 0, .rg⟩], true, 0x0⟩,  -- CVU_INIT (R344)
  ⟨0xA10C, 8, 0x20, 0xFFFFFFFF, [⟨31, 0, .rg⟩], true, 0x0⟩,  -- CVU_XOR (R344)
  ⟨0xA110, 8, 0x20, 0x0, [⟨31, 0, .rg⟩], true, 0x0⟩,  -- CVU_VAL (R344)
  ⟨0xA114, 8, 0x20, 0x0, [], true, 0x0⟩,  -- CVU_CKPT (R344)
  ⟨0xA118, 8, 0x20, 0x0, [⟨31, 31, .rg⟩, ⟨19, 16, .rg⟩, ⟨12, 0, .rg⟩], true, 0x0⟩,  -- CVU_CCFG (R345)
  ⟨0xA11C, 8, 0x20, 0x0, [], true, 0x0⟩,  -- CVU_RES (R501)
  ⟨0xC000, 4, 0x4, 0x0, [⟨31, 0, .wo⟩], false, 0x0⟩,  -- CMD_W (R441)
  ⟨0xC010, 1, 0x4, 0x0, [], false, 0x0⟩,  -- CMD_CREDIT (R441)
  ⟨0xC014, 1, 0x4, 0x0, [], false, 0x0⟩,  -- CPL_LO (R441)
  ⟨0xC018, 1, 0x4, 0x0, [], false, 0x0⟩,  -- CPL_HI (R441)
  ⟨0xC01C, 1, 0x4, 0x0, [], false, 0x0⟩ ]  -- CPL_STAT (R441)

/-- The channel window (R474 to R502). -/
def chRegs : List RegDef := chRegs0 ++ chRegs1 ++ chRegs2 ++ chRegs3 ++ chRegs4 ++ chRegs5

/-- The register at an offset, if the map lists one. -/
def findReg (l : List RegDef) (off : Nat) : Option RegDef :=
  l.find? fun r => decide (r.base ≤ off ∧ off < r.base + r.count * r.stride ∧ (off - r.base) % r.stride = 0)

/-- The value a device register holds at reset. -/
def devReset (off : Nat) : Word := ((findReg devRegs off).map (·.reset)).getD 0

/-- The value a channel register holds at reset. -/
def chReset (off : Nat) : Word := ((findReg chRegs off).map (·.reset)).getD 0

/-- The bits of a register that fields of the given codes cover. -/
def maskOf (r : RegDef) (p : Acc → Bool) : Word :=
  r.flds.foldl (fun acc f => if p f.acc then acc ||| fieldMask f.hi f.lo else acc) 0

/-- How many registers a map lists, each instance once (R453, R474). -/
def regCount (l : List RegDef) : Nat := (l.map (·.count)).sum

end Sys2Proof.Machine
end

