-- ==== Sys2Proof/Machine/State.lean ====
section
/-!
DEFINITION. Machine/State.lean: everything the spec gives the machine, as plain data, and the state after reset.

A field's default value is its value after reset. Registers that are a view of other state have no field of their own:
`Machine/Views.lean` computes what a read of them returns.
-/
namespace Sys2Proof.Machine

/-- No step of this block ends in a fault: the spec gives every command an effect in every state (log entry 5). The one
reason is never raised, which is safe. -/
inductive Fault where
  /-- Raised by nothing; safe. -/
  | none
deriving DecidableEq, Repr

/-- Why a command has no meaning in this model. -/
inductive Refusal where
  /-- Raised by an arm of `exec` whose command has no meaning yet; safe. -/
  | notModelled (mnemonic : String)
deriving DecidableEq, Repr

/-! ## Start-up, supply, fuses -/

/-- The start-up states of R408. -/
inductive BootSt where
  | powerOff | supplyUp | fuseSense | rootLock | springLoad | verify | selfTest | bringUp | run | bare | midwinter
deriving DecidableEq, Repr

/-- Start-up (R399 to R415). -/
structure Boot where
  st : BootSt := .powerOff
  /-- RESET_N is held: the filter has declared a reset (R517). -/
  inReset : Bool := false
  /-- POWER_OFF by a thermal trip, not by VIN (R391). -/
  tripped : Bool := false
  /-- The trip came in MIDWINTER: the rails stay off until VIN falls (R391). -/
  tripMw : Bool := false
  /-- The TAMPER_N detector acts: FUSE_SENSE has been reached since power-up (R517). -/
  tamperLive : Bool := false
  slotB : Bool := false
  fallback : Bool := false
  /-- 0 not BARE, 1 to 4 as R409. -/
  bareWhy : Nat := 0
  whyA : Byte := 0
  whyB : Byte := 0
  /-- Slots still to be tried, false A and true B, the one being read first (R400). -/
  toTry : List Bool := []
  firstTried : Option Bool := none
  flash : FlashView := { sfdpOk := false, hdrA := [], hdrB := [] }
  /-- The image store (R399). -/
  image : List Byte := []
  /-- The supervisor SRAM: the Isund's firmware from the verified image (R43, R45). -/
  sram : List Byte := []
  /-- An image passed VERIFY; the second flag: its owner signature included (R407, R409). -/
  imageOk : Bool := false
  ownerOk : Bool := false
  /-- Model time at SUPPLY_UP, at the entry of SPRING_LOAD, and at the entry of RUN. -/
  supplyAt : Nat := 0
  loadAt : Nat := 0
  runAt : Nat := 0
  /-- Model time spent in SPRING_LOAD and VERIFY, all slots together, once they are over (R457). -/
  loadFor : Nat := 0
  /-- A class D record has opened since RUN was entered (R397). -/
  dSinceRun : Bool := false
  /-- FW_ARB and CFG_ARB have been considered since RUN was entered (R397). -/
  arbDone : Bool := false
deriving DecidableEq, Repr

/-- Why an island switches (R385). -/
inductive IslWhy where
  | boot | start | park | diag | shut
deriving DecidableEq, Repr

/-- One island request; the head of the queue is the one switching (R19). -/
structure IslReq where
  chan : Nat
  on : Bool
  why : IslWhy
deriving DecidableEq, Repr

/-- Supply and sensors (R380, R382, R391, R416, R457). -/
structure Power where
  railOk : Vector Bool 4 := Vector.replicate 4 false
  pgood : Bool := false
  /-- The glitch and window detectors watch the rails (R382). -/
  armed : Bool := false
  vinMv : BitVec 16 := 0
  /-- DEV.PWR_VEVT.LOW stands without OK since (R457). -/
  vinLow : Bool := false
  temp : Vector (BitVec 12) 7 := Vector.replicate 7 0
  /-- A warning episode is open: THERM_N low (R391). -/
  warn : Bool := false
  /-- Sensors that reached WARN in the open episode. -/
  warned : Vector Bool 7 := Vector.replicate 7 false
  crit : Vector Bool 7 := Vector.replicate 7 false
  islands : List IslReq := []
deriving DecidableEq, Repr

/-- The fuse block (R392 to R397, R419). -/
structure Fuses where
  /-- The latched words, by index. -/
  words : Table Word := []
  /-- The word a programming operation writes, and its data; SEAL writes word 42. -/
  op : Option (Nat × Word) := none
  /-- DEV.FUS_PGM_DATA, write only. -/
  data : Word := 0
  result : Byte := 0
  /-- RESET_N fell during an operation: the controller takes the reset when it ends (R395). -/
  resetWaits : Bool := false
deriving DecidableEq, Repr

/-! ## Timing -/

/-- Qualification states (R302). -/
inductive Qst where
  | init | disq | pending | qual
deriving DecidableEq, Repr

/-- One candidate's qualification (R302 to R304, R323). -/
structure Cand where
  qst : Qst := .init
  fail : Bool := false
  drift : Bool := false
  /-- Offset in the last completed 10 s window, in ppb, and in the last 100 ms window. -/
  ppb : Int := 0
  fast : Int := 0
  /-- Consecutive windows beyond THR. -/
  overRun : Nat := 0
  /-- Never measured since channel start or since its rank became non-zero. -/
  fresh : Bool := true
  /-- The last disqualification was FAIL. -/
  lastFail : Bool := false
deriving DecidableEq, Repr

/-- Engine states (R308). -/
inductive EngState where
  | freeRun | acquiring | locked | holdover | lost
deriving DecidableEq, Repr

/-- A synthesizer or the station engine (R298 to R317). -/
structure Eng where
  st : EngState := .freeRun
  sel : Fin 8 := 7
  everLocked : Bool := false
  disagree : Bool := false
  /-- Members of E whose window has completed since disagreement was last judged (R307). -/
  round : List (Fin 8) := []
  /-- SYN_UNLOCK has been raised and the engine is still ACQUIRING (R347, R370). -/
  unl : Bool := false
  rootHold : Bool := false
  /-- Lock samples, newest first: offset in ppb and temperature in quarter degrees (R310). -/
  samples : List (Int × Int) := []
  /-- f_h, T0 and the ageing slope of R311, in thousandths of a ppb, quarter degrees, and thousandths of a ppb per day. -/
  fh : Int := 0
  t0 : Int := 0
  slope : Int := 0
  /-- Seconds in HOLDOVER or LOST, and the ageing term frozen on entry to LOST. -/
  hoSecs : Nat := 0
  frozen : Int := 0
  /-- The output offset against the root, in thousandths of a ppb. -/
  out : Int := 0
  /-- Accumulated software phase steps in ps, and the step in progress (R314). -/
  ofs : Int := 0
  step : Option Int := none
deriving DecidableEq, Repr

/-- The root PLL and its monitor (R291 to R294, R325). -/
structure Root where
  everLocked : Bool := false
  rootOk : Bool := false
  pllLock : Bool := false
  hold : Bool := false
  slew : Bool := false
  bkpOk : Bool := false
  /-- Episodes open, so that each kind raises one message (R292). -/
  epStop : Bool := false
  epGlitch : Bool := false
  epUnlock : Bool := false
  epBkp : Bool := false
deriving DecidableEq, Repr

/-- Station timing (R316 to R318). -/
structure Station where
  eng : Eng := {}
  inp : Vector Cand 4 := Vector.replicate 4 {}
  /-- The pull target not yet reached, in ps, and SLEW. -/
  pull : Int := 0
  slew : Bool := false
  /-- Outputs driven low, as last reported by DEV.STN_OEVT_j. -/
  low : Vector Bool 4 := Vector.replicate 4 true
deriving DecidableEq, Repr

/-! ## The fault collector -/

/-- A message in its ingress slot (R348, R349). -/
structure Slot where
  msg : BitVec 64 := 0
  count : Nat := 0
  ts : BitVec 40 := 0
  /-- Messages raised so far when this one entered: the order of arrival. -/
  order : Nat := 0
  /-- Model time of its arrival. -/
  at_ : Nat := 0
deriving DecidableEq, Repr

/-- One history entry (R352). -/
structure Hist where
  msg : BitVec 64
  ts : BitVec 40
  level : BitVec 3
  esc : Bool
  merged : Bool
  quiet : Bool
  count : BitVec 16
deriving DecidableEq, Repr

/-- A record of the collector (R355). -/
structure Rec where
  pend : Bool := false
  /-- The message that opened it. -/
  msg : BitVec 64 := 0
  /-- The timer it was opened with, in units of 0.1 ms, and when (R358). -/
  timer : Nat := 0
  openedAt : Nat := 0
deriving DecidableEq, Repr

/-- A reaction of one scope (R362): the message of the record that led to it, when it completed, and its SHADOW window
(R369). -/
structure Reaction where
  cause : BitVec 64 := 0
  done : Bool := false
  doneAt : Nat := 0
  window : Bool := false
deriving DecidableEq, Repr

/-- The collector's own state (R348 to R378). -/
structure Fcl where
  /-- Occupied slots: real ones at the source ID, injected ones at 4096 + source ID. -/
  slots : Table Slot := []
  /-- COAL(source), by the same keys. -/
  coal : Table Nat := []
  /-- Model time plus one at which a class N message was last served, by slot key × 256 + kind (R350). -/
  servedN : Table Nat := []
  /-- Carried counts of class N messages held off (R350). -/
  held : Table Nat := []
  raised : Nat := 0
  /-- 2 × source ID + INJ of the slot served last (R348). -/
  lastSrc : Nat := 0
  hist : List Hist := []
  hseq : Byte := 0
  hNew : Bool := false
  hOvwr : Bool := false
  unread : Nat := 0
  d : Rec := {}
  /-- The D reaction is in force, and what it is (R367). -/
  dQuar : Bool := false
  dq : Reaction := {}
  dseq : Byte := 0
  /-- DEV.FCL_MW: the first trigger (R374). -/
  mw : Option (BitVec 12 × Byte × Bool) := none
  mBlocked : Bool := false
  injBusy : Option Nat := none
  /-- The supervisor's policy (R357, R463): action and RECOVER in ms. -/
  pol : Vector (BitVec 2 × BitVec 16) 3 := Vector.replicate 3 (0, 0x3E8)
  /-- DEV.FCL_CSUM_g.SEQ (R463). -/
  csumSeq : Vector Byte 6 := Vector.replicate 6 0
  /-- WL fields of DEV.FCL_CFG written since reset. -/
  dutyWritten : Vector Bool 3 := Vector.replicate 3 false
deriving DecidableEq, Repr

/-! ## Masters, ports, router -/

/-- A master's write-status and mailbox bank (R429, R433). -/
structure MBank where
  wseq : Byte := 0
  /-- CFG_REJ, GUARD, ACK_STALE, MAP_BUSY, LOCKED from bit 4 down to bit 0. -/
  wflags : BitVec 5 := 0
  ign : BitVec 16 := 0
  waddr : BitVec 22 := 0
  sel : Word := 0
  valid : Bool := false
  err : Bool := false
  data : BitVec 128 := 0
  capturing : Bool := false
  /-- The value a snapshot-and-clear took, until it is captured (R434). -/
  snap : Option (BitVec 128) := none
deriving DecidableEq, Repr

/-- A command held by a queue (R443, R446). -/
structure Cmd where
  op : Byte
  tag : Byte
  chan : Byte
  w1 : Word
  w2 : Word
  w3 : Word
  by_ : Master
  /-- The blob captured with a KEY_LOAD (R205). -/
  blob : List Word := []
  /-- The device command this one carries out: its submitter and TAG (R445). -/
  parent : Option (Master × Byte) := none
  /-- Its work is under way and its completion waits for an event (R207, R244, R174, R281). -/
  held : Bool := false
  /-- Its submitter has been reset: the completion is dropped on arrival (R422). -/
  dropped : Bool := false
deriving DecidableEq, Repr

/-- One submitter's bank of a command port (R441). -/
structure CmdBank where
  w0 : Word := 0
  w1 : Word := 0
  w2 : Word := 0
  used : Nat := 0
  cpl : List (BitVec 64) := []
  latch : Option Word := none
deriving DecidableEq, Repr

/-- A command queue (R441, R446). -/
structure CmdQ where
  wait : List Cmd := []
  /-- Started and not completed, oldest first. -/
  run : List Cmd := []
  /-- Model time until which the executor is busy (R446). -/
  busyTill : Nat := 0
  pf0 : CmdBank := {}
  pf1 : CmdBank := {}
  isv : CmdBank := {}
deriving DecidableEq, Repr

/-- A PCIe function: route bank, vectors, MSI-X (R450 to R452, R472). -/
structure FuncSt where
  routes : Table Word := []
  pend : BitVec 64 := 0
  hold : Table (BitVec 16) := []
  /-- Model time plus one of a vector's last message. -/
  sentAt : Table Nat := []
  /-- MSI-X table words by 4 × vector + word. -/
  msix : Table Word := []
  msixOn : Bool := false
  funcMask : Bool := false
  d3 : Bool := false
  /-- Messages sent so far. -/
  sent : Nat := 0
deriving DecidableEq, Repr

/-- The PCIe link and the pins of the host side (R410, R411, R526). -/
structure Link where
  up : Bool := false
  training : Bool := false
  speed : BitVec 3 := 0
  width : BitVec 4 := 0
  /-- The Midwinter link drop is over (R411). -/
  mwUp : Bool := false
  debugOn : Bool := false
  jtag : JtagOp := .bypass
  /-- The level of ALIVE (R411). -/
  alive : Bool := false
  /-- Non-fatal Poisoned TLPs reported through AER, per function (R421). -/
  poisoned0 : Nat := 0
  poisoned1 : Nat := 0
deriving DecidableEq, Repr

/-- The flash window (R469, R470). -/
structure Flw where
  owner : BitVec 3 := 0
  busy : Bool := false
  /-- The owner reset during an operation: release at its end. -/
  releaseWaits : Bool := false
  /-- The serial command on the pins: what FLW_CMD and FLW_ADDR held at GO. -/
  cmd : Word := 0
  addr : Word := 0
deriving DecidableEq, Repr

/-- The spines. -/
structure Dev where
  boot : Boot := {}
  power : Power := {}
  fuses : Fuses := {}
  root : Root := {}
  stn : Station := {}
  /-- SYSCNT (R296). -/
  sys : BitVec 64 := 0
  fcl : Fcl := {}
  /-- Device registers that hold what is written or what an event left, by offset; an unlisted one holds its reset value. -/
  regs : Table Word := []
  pf0 : MBank := {}
  pf1 : MBank := {}
  isv : MBank := {}
  dbg : MBank := {}
  q : CmdQ := {}
  f0 : FuncSt := {}
  f1 : FuncSt := {}
  link : Link := {}
  flw : Flw := {}
  /-- SYSCNT alarms: armed (R466). -/
  armed : Vector Bool 4 := Vector.replicate 4 false
  /-- DEV.CPH_KBUF (R468). -/
  kbuf : Table Word := []
  /-- A device KEY_LOAD is being routed (R468). -/
  routing : Bool := false
  /-- DEV.BMX_REMAP and DEV.HPT_SHARE have taken their one write (R438, R442). -/
  remapSet : Bool := false
  /-- The supervisor has stalled and has not restarted since (R44, R45). -/
  isvStall : Bool := false
  shareSet : Bool := false
deriving DecidableEq, Repr

/-! ## A channel -/

/-- Channel states (R386). -/
inductive ChSt where
  | absent | parked | starting | active | parking | diag
deriving DecidableEq, Repr

/-- Receive framer states (R106). -/
inductive FrSt where
  | hunt | presync | inframe | runahead
deriving DecidableEq, Repr

/-- A candidate slot (R105): its alignment and its consecutive correct patterns. -/
structure FrCand where
  align : Nat
  good : Nat
deriving DecidableEq, Repr

/-- Consecutive-value integrators of one lane's overhead (R104, R116, R123). -/
structure Integ where
  aisIn : Nat := 0
  aisOut : Nat := 0
  rdiIn : Nat := 0
  rdiOut : Nat := 0
  bdiIn : Nat := 0
  bdiOut : Nat := 0
  mfasBad : Nat := 0
  mfasGood : Nat := 0
  /-- OOM of R104. -/
  oom : Bool := false
  k1 : Byte := 0
  k1N : Nat := 0
  k2 : Byte := 0
  k2N : Nat := 0
  s1 : BitVec 4 := 0
  s1N : Nat := 0
  pt : Byte := 0
  ptN : Nat := 0
  pm : BitVec 3 := 0
  pmN : Nat := 0
  trc : List Byte := []
  trcN : Nat := 0
  /-- The accepted trace; none before the first (R123). -/
  acc : Option (List Byte) := none
deriving DecidableEq, Repr

/-- A pointer and the VC under it on one lane (R143 to R146, R488). -/
structure PtrSt where
  /-- 0 NORM, 1 LOP, 2 AIS, 3 not interpreted. -/
  st : BitVec 2 := 3
  ofs : BitVec 10 := 0
  cand : BitVec 10 := 0
  candN : Nat := 0
  badN : Nat := 0
  ndfN : Nat := 0
  aisN : Nat := 0
  lastAdj : Nat := 3
  sig : Byte := 0
  sigCand : Byte := 0
  sigN : Nat := 0
  uneq : Bool := false
  uneqN : Nat := 0
  plm : Bool := false
  rdi : Bool := false
  rdiN : Nat := 0
  tim : Bool := false
  lom : Bool := false
  lomN : Nat := 0
  /-- Consecutive frames in which a further AU of a VC-4-Nc lacks the concatenation indication (R143). -/
  concN : Nat := 0
  trc : List Byte := []
  trcN : Nat := 0
  acc : List Byte := []
  /-- The last path overhead received (R149). -/
  poh : List Byte := []
deriving DecidableEq, Repr

/-- A transmit pointer generator (R147, R148): the units it has moved its VC since the channel started, whether the pointer it sends
announces a new offset with NDF, whether it sends AIS, and the intervals since its last adjustment. -/
structure PtrGen where
  shift : Int := 0
  ndf : Bool := true
  ais : Bool := false
  gap : Nat := 4
deriving DecidableEq, Repr

/-! ## What lanes carry -/

/-- A 10GE scrambler's register: the last 58 scrambled bits, the newest in bit 0 (R74, R119). -/
abbrev Scr := BitVec 58

/-- A frame open at the end of a block: its preamble byte-times to come, its bytes so far, and an error in it. -/
structure GeCtx where
  left : Nat
  len : Nat
  bad : Bool
deriving DecidableEq, Repr

/-- The red output's state at the end of a block: where a gap stands (0 in a frame, 1 after /T/, 2 after /R/, 3 between idles, 4
inside one with /D16.2/ to come, 5 with /D5.6/), the running disparity and the error of a frame that is
open. -/
structure GeTx where
  st : Nat := 3
  rd : Bool := false
  opened : Option Bool := none
deriving DecidableEq, Repr

/-- A tributary's CRC on a transmit side: the multiframe part so far, and the bits of the part before, being sent. -/
structure TribCrc where
  acc : Nat := 0
  send : Nat := 0
deriving DecidableEq, Repr

/-- What one sub-circuit puts into a tributary's block: its payload bytes, what follows them where they are short, and its reclaim
sequence. -/
structure SubOut where
  circ : Nat
  pay : List Byte
  fill : Byte
  rcl : List Bool
  /-- Violations to re-insert (R85). -/
  ect : Nat := 0
  /-- A released fill block, FORMAT 10 (R154). -/
  fmtFill : Bool := false
deriving DecidableEq, Repr

/-- A tributary's current block on a transmit side: where its overhead and framing come from, the bank it is mapped under, what its
sub-circuits have put into it, and what the block before left over. -/
structure TribOut where
  span : TribSpan := ⟨[], 0, []⟩
  bank : Bool := false
  subs : List SubOut := []
  lead : List Bool := []
  crc : TribCrc := {}
  par : Byte := 0
deriving DecidableEq, Repr

/-- A framer's checkpoint at the start of an episode (R111, R246): its integrators, its lane's pointers, what it owes its transmitter
and the 1GE running disparity. -/
structure LaneCkpt where
  integ : Integ := {}
  ptrs : Table PtrSt := []
  rei : Nat := 0
  rd : Bool := false
deriving DecidableEq, Repr

/-- A lane (R103 to R138). -/
structure LaneSt where
  fr : FrSt := .hunt
  /-- CHn.FRM_RA_p as the running hunt or episode took it (R113). -/
  ra : Word := 0x314
  /-- A rewound episode's stream has not yet resumed (R247). -/
  resume : Bool := false
  slots : List (Option FrCand) := []
  cur : Nat := 0
  confirm : Nat := 0
  since : Nat := 0
  badRun : Nat := 0
  /-- An alternate alignment that has completed in an interval of the episode whose predicted pattern is still to come (R107). -/
  won : Option Nat := none
  /-- SPEC words delivered in the open episode, and their bytes. -/
  epWords : Nat := 0
  epData : List Byte := []
  /-- CHn.FRM_DEFECT_p (R484). -/
  defects : BitVec 16 := 0x8000
  failures : BitVec 16 := 0
  integ : Integ := {}
  /-- The checkpoint of an open episode, with the lane's pointers, and the overhead whose effects it defers (R111, R246). -/
  ckpt : Option LaneCkpt := none
  deferred : List RxOh := []
  cdrLock : Bool := false
  txLock : Bool := true
  /-- The transmitter is idle because its PLL lost lock (R130). -/
  txIdle : Bool := false
  chkSync : Bool := false
  /-- LOS, LOF or LOM has held since the carriage checks of the path last began (R91). -/
  lost : Bool := true
  /-- Parity violations of the last frame, which the lane's own transmitter sends as M1 or SM BEI (R102, R116, R118). -/
  rei : Nat := 0
  /-- Generated PRBS bits that ERR_INJ has inverted (R135). -/
  flips : Nat := 0
  /-- The 10GE transmit scrambler (R119), and the running disparity of the received 1GE code groups. -/
  scr : Scr := 0
  rd : Bool := false
deriving DecidableEq, Repr

/-- A fractional tributary on one lane (R152). -/
structure TribSt where
  tlof : Bool := false
  lofN : Nat := 0
  /-- In T-LOF: FAS, then NFAS bit 2, found correct so far. -/
  seq : Nat := 0
  tlomf : Bool := false
  lomfN : Nat := 0
  cas : Bool := false
  casN : Nat := 0
  tais : Bool := false
  aisN : Nat := 0
  trai : Bool := false
  raiN : Nat := 0
deriving DecidableEq, Repr

/-- A fractional tributary's part in a bank swap (R172 to R175). -/
structure TribSwap where
  /-- The epoch of the last block on each path; none before the first (R173). -/
  epW : Option Bool := none
  epP : Option Bool := none
  encB : Bool := false
  followed : Bool := false
  blocksSince : Nat := 4
deriving DecidableEq, Repr

/-- A replay window (R215): H and the bitmap of H−63 to H, bit 0 for H. -/
structure Replay where
  h : Option Seq := none
  map : BitVec 64 := 0
deriving DecidableEq, Repr

/-- One copy of a block on a path, from delineation to its verdict. -/
structure RxBlk where
  index : Nat
  /-- The candidate phase at which it began (R83). -/
  phase : Nat := 0
  ts : BitVec 40
  resynced : Bool := false
  /-- It holds words of the open episode of its lane (SPEC 1). -/
  spec : Bool := false
deriving DecidableEq, Repr

/-- A block with the successor that carries its trailer, received under an alignment that has not committed (R27). -/
structure TrlIn where
  blk : RxBlk
  this : LineSpan
  next : LineSpan
  checks : List StageUnit
deriving DecidableEq, Repr

/-- Block delineation states (R83). -/
inductive BlkSt where
  | hunt | presync | sync | off
deriving DecidableEq, Repr

/-- A circuit on one black receive path (R83, R91, R214 to R216, R242). -/
structure RxPath where
  blk : BlkSt := .off
  /-- The block phase that BLK_PRESYNC and BLK_SYNC hold (R83). -/
  phase : Nat := 0
  good : Nat := 0
  bad : Nat := 0
  index : Nat := 0
  /-- Blocks received whose trailer has not arrived, oldest first. -/
  open_ : List RxBlk := []
  /-- SEQ, KEP and index of the block j of R214. -/
  known : Option (Seq × Bool × Nat) := none
  winE : Replay := {}
  winO : Replay := {}
  kep : Bool := false
  cb : Bool := false
  checking : Bool := false
  run : Nat := 0
  /-- SEQ and SOB time of verified copies kept for Δ (R241), newest first. -/
  seen : List (Seq × BitVec 40) := []
  /-- SEQs of the last copies that verified, newest first. -/
  good_ : List Seq := []
  /-- Trailers that wait for their alignment to commit (R27), oldest first. -/
  wait : List TrlIn := []
  /-- KEP and MEP of the last trailer with good TCRC (R173, R491). -/
  mep : Bool := false
  /-- The 1GE running disparity at the end of the block last judged (R76). -/
  rd : Bool := false
deriving DecidableEq, Repr

/-- A block in the encrypt commit buffer (R188, R48, R237). -/
structure EncBlk where
  seq : Seq
  odd : Bool
  /-- FORMAT: 1 data, 2 fill, 3 keep-alive. -/
  format : BitVec 2
  clear : Bool
  ect : Nat
  mep : Bool
  aps : BitVec 4
  /-- The reclaim region it carries: the previous block's trailer, or null. -/
  carries : List Byte
  /-- The KIND 00 bytes at the engine's output, and the block's own trailer, once built. -/
  body : List Byte := []
  trailer : List Byte := []
  done : Bool := false
  started : Bool := false
  /-- Its words released so far (R237). -/
  sent : Nat := 0
  /-- It holds words of the open episode of the red lane (SPEC 1). -/
  spec : Bool := false
  /-- Its loss has been counted at a release point (R257). -/
  missed : Bool := false
  /-- A keep-alive block sent under the role guard beyond KA_BLOCKS (R232). -/
  guard : Bool := false
  /-- Vanished (1) or broken (2), with the CAUSE of R494. -/
  lost : BitVec 2 := 0
  cause : BitVec 4 := 0
  /-- What the stage checks saw of it while it held words of the open episode (R246). -/
  held : List StageUnit := []
  /-- The red input has been in defect for all of the block so far, and for some of it (R51). -/
  defAll : Bool := false
  defAny : Bool := false
  /-- The red structure it came in: what passes beside its payload and reclaim positions (R149). -/
  span : Option LineSpan := none
deriving DecidableEq, Repr

/-- One deep-store entry (R254, R266). -/
structure DsEnt where
  circ : CircId
  seq : Seq
  path : Path
  format : BitVec 2
  ect : Nat
  body : List Byte
  /-- The black structure it came in (R149), and the bank it is mapped under (R173). -/
  span : LineSpan := .bytes []
  epoch : Bool := false
  tout : BitVec 40
  /-- Discarded before its release point, with the CAUSE of R494; 0 for an entry that stands. -/
  freed : BitVec 4 := 0
deriving DecidableEq, Repr

/-- The decrypt anchor of a circuit (R240 to R243). -/
structure Anchor where
  path : Path
  /-- SOB arrival and SEQ of the block s0 it was set at. -/
  ts : BitVec 40
  seq : Seq
  /-- The next block of the release grid, and the block at which a re-anchor's gap ends. -/
  next : Seq
  gapTo : Seq
deriving DecidableEq, Repr

/-- What the positions of a circuit carry on a line over a block: nothing yet, the AIS of its pointer (R148), a line span, or its
slots in a tributary that `MapSt.outs` puts together. -/
inductive LineOut where
  | none | ais | line (x : LineSpan) | slots (o : SubOut)
deriving DecidableEq, Repr

/-- A circuit: its table entry and everything held for it. -/
structure Circ where
  w0 : Word := 0
  w1 : Word := 0
  w2 : Word := 0
  w3 : Word := 0
  live : Bool := false
  quar : Bool := false
  drain : Bool := false
  starved : Bool := false
  eseqE : Seq := 0
  eseqO : Seq := 0
  /-- The slot the encrypt side last switched to, and that it has switched under the armed switch. -/
  odd : Bool := false
  switched : Bool := false
  /-- Under an armed AT_SEQ switch, the circuit switches as under NOW (R209). -/
  asNow : Bool := false
  clear : Bool := false
  clearNext : Option Bool := none
  kaLeft : Nat := 0
  guard : Bool := true
  aged : Bool := false
  stopped : Bool := false
  ectAcc : Nat := 0
  /-- The trailer of the last emitted block, waiting for its successor. -/
  prevTrailer : List Byte := []
  enc : List EncBlk := []
  w : RxPath := {}
  p : RxPath := {}
  anchor : Option Anchor := none
  /-- The next block of the grid of a re-anchor's old anchor, while no anchor is set (R243, R244). -/
  gap : Option Seq := none
  /-- Differential delay, and the last differences newest first, as arrival on BKP less arrival on BKW (R241). -/
  delta : Option Int := none
  diffs : List Int := []
  dovf : Bool := false
  dovfRun : Nat := 0
  lead : Bool := false
  misses : Nat := 0
  verifiedSinceMiss : Bool := false
  /-- Bits reserved in each decrypt commit buffer (R248). -/
  reserved : Nat := 0
  /-- A 1GE frame in progress at the end of the last block (R77, R79). -/
  ge : Option GeCtx := none
  /-- 1GE and ECT contexts as they stood when the red lane's open episode began (R246). -/
  rckpt : Option (Option GeCtx × Nat) := none
  /-- The block phase the encrypt side keeps while the circuit is enabled (R65). -/
  phase : Nat := 0
  /-- What the circuit's positions last carried on the black lanes, what they carried before that, and what they last carried on the
  RED lane (R23, R26, R239). -/
  black : LineOut := .none
  blackWas : LineOut := .none
  red : LineOut := .none
  /-- The parity that the next frame sent on the black side, and on the red side, holds (R121). -/
  parB : Byte := 0
  parR : Byte := 0
  /-- The black side's 10GE scrambler and 1GE running disparity (R74, R76), and the red 1GE output (R80). -/
  scr : Scr := 0
  rdB : Bool := false
  geTx : GeTx := {}
deriving DecidableEq, Repr

/-- Key slot states (R198). -/
inductive SlotSt where
  | empty | standby | current | draining
deriving DecidableEq, Repr

/-- A key slot (R196). -/
structure KeySlot where
  st : SlotSt := .empty
  key : List Byte := []
  kcv : BitVec 24 := 0
  /-- The KCV of the last key held, for KEY_REUSE (R200). -/
  lastKcv : Option (BitVec 24) := none
  serial : Word := 0
  /-- The integrity word over key, state and serial (R196). -/
  integ : Word := 0
  /-- Model time at which the slot became CURRENT (R213). -/
  since : Nat := 0
deriving DecidableEq, Repr

/-- A key context (R188, R196 to R213). -/
structure Ctx where
  even : KeySlot := {}
  odd : KeySlot := {}
  txp : Bool := false
  floorE : Seq := 0
  floorO : Seq := 0
  highSerial : Word := 0
  arm : Bool := false
  /-- AT_SEQ of an armed switch; none for NOW. -/
  atSeq : Option Seq := none
  /-- Model time from which a NOW switch applies (R209). -/
  armAt : Nat := 0
  staleRaised : Bool := false
deriving DecidableEq, Repr

/-- Keystream computed ahead for one block: its circuit, slot and SEQ, and its entries of one counter block each (R219, R255). -/
structure KsEnt where
  circ : CircId
  odd : Bool
  seq : Seq
  blocks : Nat
deriving DecidableEq, Repr

/-- The cipher of a channel (R203 to R231). -/
structure Cph where
  kbuf : Table Word := []
  /-- The keystream queues of the encrypt engine and of the BKW and BKP engines, oldest first (R219, R255). -/
  ks : Vector (List KsEnt) 3 := Vector.replicate 3 []
  katFail : Bool := false
  armed : Bool := false
  ctx : Table Ctx := []
deriving DecidableEq, Repr

/-- A table-port operation in progress (R179, R180): a read, a write, or the enable of a circuit. -/
inductive TpOp where
  | read | write | enable (k : CircId)
deriving DecidableEq, Repr

/-- The mapper (R139 to R182). -/
structure MapSt where
  bankA : Table (BitVec 16) := []
  bankB : Table (BitVec 16) := []
  enc : Bool := false
  dec : Bool := false
  pending : Bool := false
  /-- The encrypt side's bank before the pending swap (R176). -/
  encWas : Bool := false
  acceptedAt : Nat := 0
  tpOwner : BitVec 3 := 0
  tpBusy : Bool := false
  /-- A table-port operation in progress, and the RESULT it ends with. -/
  tpOp : Option TpOp := none
  tpNext : Byte := 0
  tpResult : Byte := 0
  ptrs : Table PtrSt := []
  tribs : Table TribSt := []
  swaps : Table TribSwap := []
  /-- SWAP_TO in ms as the last MAP_SWAP took it (R181). -/
  swapTo : Nat := 0
  /-- The fractional tributaries as the black side, and the red side (keys 65,536 up), send them. -/
  outs : Table TribOut := []
  /-- The pointer generators of the black side, and of the red side (keys 4,194,304 up); an unlisted one stands as at channel start
  (R147). -/
  gens : Table PtrGen := []
  /-- The number of the channel's start, from which the pointer generators take the offsets that the spec leaves open. -/
  genSeed : Nat := 0
deriving DecidableEq, Repr

/-- Protection requests and commands (R277). -/
inductive PswState where
  | lo | sfP | fs | sfW | sdW | ms | wtr | exer | rr | dnr | nr
deriving DecidableEq, Repr

/-- Protection (R263 to R289). -/
structure Psw where
  st : PswState := .nr
  active : Path := .bkw
  /-- 0 none, 1 LO, 2 FS, 3 MS, 4 EXER. -/
  cmd : BitVec 3 := 0
  /-- Conditions before hold-off, hold-offs running, and requests after it, in the order SF-W, SF-P, SD-W, SD-P. -/
  cond : Vector Bool 4 := Vector.replicate 4 false
  ho : Vector Bool 4 := Vector.replicate 4 false
  req : Vector Bool 4 := Vector.replicate 4 false
  wtr : Bool := false
  /-- Model time at which the WTR timer expires. -/
  wtrTo : Nat := 0
  dnr : Bool := false
  exerSeen : Bool := false
  exerOk : Bool := false
  rxCode : BitVec 4 := 0
  rxValid : Bool := false
  rsvSeen : Bool := false
  majRun : Nat := 0
  majLast : BitVec 4 := 0
  /-- Verified trailers of the last 8 ms: model time, circuit, SEQ, code. -/
  seen : List (Nat × CircId × Seq × BitVec 4) := []
  mismatch : Bool := false
  maj : Bool := false
  majCode : BitVec 4 := 0
  majCnt : Nat := 0
deriving DecidableEq, Repr

/-- A channel's timing (R298 to R324). -/
structure Tim where
  b : Eng := {}
  r : Eng := {}
  cand : Vector Cand 7 := Vector.replicate 7 {}
deriving DecidableEq, Repr

/-- One latched CVU context (R341). -/
structure CvuCtx where
  cen : Bool := false
  circ : CircId := 0
  seq : Seq := 0
  val : Word := 0
  valid : Bool := false
  /-- The latched result has not been read. -/
  unread : Bool := false
  ovr : Bool := false
deriving DecidableEq, Repr

/-- A check-value unit: running value, checkpoint and contexts (R337 to R342). -/
structure Cvu where
  run : Word := 0
  ctx : Vector CvuCtx 16 := Vector.replicate 16 {}
deriving DecidableEq, Repr

/-- A channel's check values (R329 to R336, R376). -/
structure CvuSt where
  unit : Vector Cvu 8 := Vector.replicate 8 {}
  /-- The units as they stood when the red lane's open episode began (R246, R342). -/
  ckpt : Option (Vector Cvu 8) := none
  /-- The stage check armed for inversion. -/
  inj : Option (Fin 16) := none
  /-- CHn.CVU_STG_POLY as the channel's last start took it (R336). -/
  poly : Word := 0xFFFFFFFF
deriving DecidableEq, Repr

/-- A second that waits for its decision: what each lane's counters saw, and the intervals that have ended since (R498). -/
structure PmWait where
  sec : Vector PmSec 3
  old : Nat := 0
deriving DecidableEq, Repr

/-- The Malot and its performance data (R44, R498). -/
structure Mlt where
  run : Bool := false
  /-- The instruction SRAM, as it was loaded from the image's Malot firmware (R41, R42). The data SRAM is what this structure and the
  channel's other fields hold for the Malot (log entry 81). -/
  prog : List Byte := []
  /-- The heartbeat count HB as it stood at model time `hbAt` (R499). -/
  hb : BitVec 24 := 0
  hbAt : Nat := 0
  sec : Nat := 0
  csus : Bool := false
  psus : Bool := false
  /-- The last seconds, not yet decided, oldest first. -/
  wait : List PmWait := []
  /-- Unavailable: the near end of lane p at p, its far end at 3 + p. -/
  unavail : Vector Bool 6 := Vector.replicate 6 false
deriving DecidableEq, Repr

/-- A channel's records in the collector (R355, R365, R479). -/
structure Flt where
  c : Rec := {}
  h : Rec := {}
  /-- The circuit of the C record, kept after it closes (R365). -/
  ccirc : CircId := 0
  /-- The H quarantine is in force, and its reaction. -/
  hQuar : Bool := false
  hq : Reaction := {}
  /-- Reactions of circuits, by circuit number. -/
  cq : Table Reaction := []
  seq : Byte := 0
  qseq : Byte := 0
  /-- The channel is under the D quarantine (R364). -/
  underD : Bool := false
deriving DecidableEq, Repr

/-- A channel. -/
structure Chan where
  st : ChSt := .absent
  island : Bool := false
  /-- DIAG was entered from ABSENT (R389). -/
  wasAbsent : Bool := false
  /-- The spine's squelch is in force (R137). -/
  squelch : Bool := true
  /-- Registers that hold what is written or what an event left, by offset; an unlisted one holds its reset value. -/
  regs : Table Word := []
  red : LaneSt := {}
  bkw : LaneSt := {}
  bkp : LaneSt := {}
  map : MapSt := {}
  circ : Table Circ := []
  cph : Cph := {}
  store : List DsEnt := []
  psw : Psw := {}
  tim : Tim := {}
  cvu : CvuSt := {}
  /-- 48-bit counters by group × 65536 + mailbox index (R434). -/
  ctr : Table Nat := []
  q : CmdQ := {}
  mlt : Mlt := {}
  flt : Flt := {}
deriving DecidableEq, Repr

/-- The hardware: everything but the queue of waiting commands. -/
structure Hw where
  dev : Dev := {}
  chans : Vector Chan 48 := Vector.replicate 48 {}
  /-- The model's own clock: CK_CTRL cycles since the model began (log entry 2). -/
  now : Nat := 0
  /-- The model's own count of free values drawn (log entry 3). -/
  drawn : Nat := 0
deriving DecidableEq, Repr

/-- The state: the hardware, and the commands that wait, first in first out. -/
structure State where
  pending : List Instr
  hw : Hw
deriving DecidableEq, Repr

/-- The machine before VIN has risen: POWER_OFF, every register at its reset value, nothing waiting (R408). -/
def State.reset : State := { pending := [], hw := {} }

end Sys2Proof.Machine
end

