-- ==== Sys2Proof/Machine/Ops.lean ====
section
/-!
DEFINITION. Machine/Ops.lean: the named operations over the hardware: reaching a channel, a lane or a register, raising a
fault message (R346 to R351), counting, and the gates that say in which states a command acts at all.
-/
namespace Sys2Proof.Machine

/-! ## Reaching parts of the state -/

/-- Channel `c`. -/
def Hw.chan (h : Hw) (c : ChanId) : Chan := h.chans[c.val]

/-- Replace channel `c`. -/
def Hw.setChan (h : Hw) (c : ChanId) (x : Chan) : Hw := { h with chans := h.chans.set c.val x }

/-- Change channel `c`. -/
def Hw.onChan (h : Hw) (c : ChanId) (f : Chan → Chan) : Hw := h.setChan c (f (h.chan c))

/-- Change the spines. -/
def Hw.onDev (h : Hw) (f : Dev → Dev) : Hw := { h with dev := f h.dev }

/-- Change the collector. -/
def Hw.onFcl (h : Hw) (f : Fcl → Fcl) : Hw := h.onDev fun d => { d with fcl := f d.fcl }

/-- Change start-up's state. -/
def Hw.onBoot (h : Hw) (f : Boot → Boot) : Hw := h.onDev fun d => { d with boot := f d.boot }

/-- Change the supply's state. -/
def Hw.onPower (h : Hw) (f : Power → Power) : Hw := h.onDev fun d => { d with power := f d.power }

/-- Change every channel. -/
def Hw.onAll (h : Hw) (f : ChanId → Chan → Chan) : Hw :=
  { h with chans := Vector.ofFn fun c => f c (h.chan c) }

/-- A lane of a channel. -/
def Chan.lane (x : Chan) : Lane → LaneSt
  | .red => x.red | .bkw => x.bkw | .bkp => x.bkp

/-- Replace a lane of a channel. -/
def Chan.setLane (x : Chan) (p : Lane) (l : LaneSt) : Chan :=
  match p with
  | .red => { x with red := l } | .bkw => { x with bkw := l } | .bkp => { x with bkp := l }

/-- Change a lane of a channel. -/
def Hw.onLane (h : Hw) (c : ChanId) (p : Lane) (f : LaneSt → LaneSt) : Hw :=
  h.onChan c fun x => x.setLane p (f (x.lane p))

/-- A circuit of a channel. -/
def Chan.circ! (x : Chan) (k : CircId) : Circ := tget {} x.circ k.toNat

/-- Replace a circuit of a channel. -/
def Chan.setCirc (x : Chan) (k : CircId) (y : Circ) : Chan := { x with circ := tput {} x.circ k.toNat y }

/-- Change a circuit of a channel. -/
def Hw.onCirc (h : Hw) (c : ChanId) (k : CircId) (f : Circ → Circ) : Hw :=
  h.onChan c fun x => x.setCirc k (f (x.circ! k))

/-- A key context of a channel. -/
def Chan.ctx! (x : Chan) (n : Nat) : Ctx := tget {} x.cph.ctx n

/-- Replace a key context of a channel. -/
def Chan.setCtx (x : Chan) (n : Nat) (y : Ctx) : Chan := { x with cph := { x.cph with ctx := tput {} x.cph.ctx n y } }

/-- Change a key context of a channel. -/
def Hw.onCtx (h : Hw) (c : ChanId) (n : Nat) (f : Ctx → Ctx) : Hw :=
  h.onChan c fun x => x.setCtx n (f (x.ctx! n))

/-! ## Registers -/

/-- What a device register holds. -/
def Dev.reg (d : Dev) (off : Nat) : Word := tget (devReset off) d.regs off

/-- Put a value into a device register. -/
def Dev.setReg (d : Dev) (off : Nat) (w : Word) : Dev := { d with regs := tput (devReset off) d.regs off w }

/-- What a channel register holds. -/
def Chan.reg (x : Chan) (off : Nat) : Word := tget (chReset off) x.regs off

/-- Put a value into a channel register. -/
def Chan.setReg (x : Chan) (off : Nat) (w : Word) : Chan := { x with regs := tput (chReset off) x.regs off w }

/-- What a device register holds. -/
def Hw.devReg (h : Hw) (off : Nat) : Word := h.dev.reg off

/-- What a channel register holds. -/
def Hw.chReg (h : Hw) (c : ChanId) (off : Nat) : Word := (h.chan c).reg off

/-- Put a value into a device register. -/
def Hw.setDevReg (h : Hw) (off : Nat) (w : Word) : Hw := h.onDev (·.setReg off w)

/-- Put a value into a channel register. -/
def Hw.setChReg (h : Hw) (c : ChanId) (off : Nat) (w : Word) : Hw := h.onChan c (·.setReg off w)

/-- A field of a device register. -/
def Hw.devField (h : Hw) (off hi lo : Nat) : Nat := fieldOf (h.devReg off) hi lo

/-- A field of a channel register. -/
def Hw.chField (h : Hw) (c : ChanId) (off hi lo : Nat) : Nat := fieldOf (h.chReg c off) hi lo

/-! ## When a command acts -/

/-- The module is powered: a state from SUPPLY_UP on, MIDWINTER included (R408). -/
def Hw.powered (h : Hw) : Bool := decide (h.dev.boot.st ≠ .powerOff)

/-- The module is in MIDWINTER (R372). -/
def Hw.inMw (h : Hw) : Bool := decide (h.dev.boot.st = .midwinter)

/-- The module works: powered, not held in reset and not in MIDWINTER. -/
def Hw.works (h : Hw) : Bool := h.powered && !h.inMw && !h.dev.boot.inReset

/-- A channel runs its data path (R386). -/
def Chan.isActive (x : Chan) : Bool := decide (x.st = .active)

/-- A channel's lanes run: ACTIVE or DIAG (R126, R386). -/
def Chan.lanesRun (x : Chan) : Bool := decide (x.st = .active ∨ x.st = .diag)

/-- A channel whose units raise messages and events: neither parked nor ABSENT (R348, R449). -/
def Chan.raises (x : Chan) : Bool := !decide (x.st = .absent ∨ x.st = .parked)

/-- The answer of a command: the hardware changes, the queue stands. -/
def answer (s : State) (f : Hw → Hw) : Host.Outcome State Fault Refusal := .next { s with hw := f s.hw }

/-- The answer of a command that acts only while the module works: in POWER_OFF, in reset and in MIDWINTER nothing is
there to act, and nothing changes (R373, R408; log entry 4). -/
def live (s : State) (f : Hw → Hw) : Host.Outcome State Fault Refusal :=
  answer s fun h => if h.works then f h else h

/-- The answer of a command that acts on a channel that is ACTIVE (log entry 4). -/
def onActive (s : State) (c : ChanId) (f : Hw → Hw) : Host.Outcome State Fault Refusal :=
  live s fun h => if (h.chan c).isActive then f h else h

/-- The answer of a command that acts on a channel whose lanes run (log entry 4). -/
def onLanes (s : State) (c : ChanId) (f : Hw → Hw) : Host.Outcome State Fault Refusal :=
  live s fun h => if (h.chan c).lanesRun then f h else h

/-! ## Fault messages -/

/-- CLASS codes (R354). -/
def clsN : Nat := 0
/-- Class C. -/
def clsC : Nat := 1
/-- Class H. -/
def clsH : Nat := 2
/-- Class D. -/
def clsD : Nat := 3
/-- Class Midwinter. -/
def clsM : Nat := 4

/-- A fault message of channel number `ch`, 63 for the spine (R346). -/
def mkMsg (ch unit cls kind addr : Nat) : BitVec 64 :=
  BitVec.ofNat 64 (ch % 64 * 2 ^ 58 + unit % 64 * 2 ^ 52 + cls % 16 * 2 ^ 48 + kind % 256 * 2 ^ 40 + addr % 2 ^ 24 * 2 ^ 16)

/-- CHAN of a message. -/
def msgChan (m : BitVec 64) : Nat := m.toNat / 2 ^ 58
/-- UNIT of a message. -/
def msgUnit (m : BitVec 64) : Nat := m.toNat / 2 ^ 52 % 64
/-- The source ID of a message: CHAN and UNIT. -/
def msgSrc (m : BitVec 64) : Nat := m.toNat / 2 ^ 52
/-- CLASS of a message. -/
def msgCls (m : BitVec 64) : Nat := m.toNat / 2 ^ 48 % 16
/-- KIND of a message. -/
def msgKind (m : BitVec 64) : Nat := m.toNat / 2 ^ 40 % 256
/-- ADDR of a message. -/
def msgAddr (m : BitVec 64) : Nat := m.toNat / 2 ^ 16 % 2 ^ 24
/-- INJ of a message. -/
def msgInj (m : BitVec 64) : Bool := m.getLsbD 15
/-- The key of a message's ingress slot: real at the source ID, injected 4096 above (R348). -/
def slotKey (m : BitVec 64) : Nat := msgSrc m + (if msgInj m then 4096 else 0)

/-- Count one message dropped from a slot: COAL saturates at 2^32 − 1 (R351). -/
def Fcl.coalesce (f : Fcl) (key : Nat) : Fcl := { f with coal := tput 0 f.coal key (satAdd (2 ^ 32 - 1) (tget 0 f.coal key) 1) }

/-- A message enters its ingress slot, or coalesces with the one held there (R348, R349). -/
def Fcl.enter (f : Fcl) (m : BitVec 64) (ts : BitVec 40) (now : Nat) : Fcl :=
  let key := slotKey m
  let o := tget {} f.slots key
  if o.msg = 0 then
    { f with slots := tput {} f.slots key { msg := m, count := 0, ts := ts, order := f.raised, at_ := now }, raised := f.raised + 1 }
  else
    let c := satAdd 65535 o.count 1
    (({ f with slots := tput {} f.slots key { o with msg := if msgCls o.msg < msgCls m then m else o.msg, count := c } } : Fcl).coalesce key)

/-- Raise a message. The collector serves nothing in MIDWINTER (R372), and a parked channel's sources raise nothing
(R348); the message of a failed run-time start is raised by `raiseQuiet`. -/
def Hw.raiseAny (h : Hw) (m : BitVec 64) : Hw :=
  if h.inMw then h else h.onFcl fun f => f.enter m (h.dev.sys.truncate 40) h.now

/-- Raise a message of a spine unit (R14). -/
def Hw.raiseSpine (h : Hw) (unit cls kind addr : Nat) : Hw := h.raiseAny (mkMsg 63 unit cls kind addr)

/-- Raise a message of a channel unit; a parked or ABSENT channel's sources raise nothing (R348, R386). -/
def Hw.raiseChan (h : Hw) (c : ChanId) (unit cls kind addr : Nat) : Hw :=
  if (h.chan c).raises then h.raiseAny (mkMsg c.val unit cls kind addr) else h

/-! ## Counters -/

/-- The key of a 48-bit counter: its mailbox group and index (R434). -/
def ctrKey (group index : Nat) : Nat := group * 65536 + index

/-- Count `n` in a channel's counter, saturating at 2^48 − 1 (R232). -/
def Chan.count (x : Chan) (group index n : Nat) : Chan :=
  { x with ctr := tput 0 x.ctr (ctrKey group index) (satAdd (2 ^ 48 - 1) (tget 0 x.ctr (ctrKey group index)) n) }

/-- Count `n` in a channel's counter. -/
def Hw.count (h : Hw) (c : ChanId) (group index n : Nat) : Hw := h.onChan c (·.count group index n)

/-- The master IDs in use (R426). -/
def midUsed (mid : Nat) : Bool := decide (mid ∈ [1, 2, 3, 5, 6, 7, 8])

/-- One of the matrix's counters of a master ID, saturating (R437): 0 SERVED, 4 DELAYED, 8 REFUSED. An unused ID has none. -/
def Hw.bmx (h : Hw) (mid which : Nat) : Hw :=
  if !midUsed mid then h else
  let off := 0x5100 + 16 * mid + which
  h.setDevReg off (BitVec.ofNat 32 (satAdd 0xFFFFFFFF (h.devReg off).toNat 1))

/-! ## Time -/

/-- `n` cycles of CK_CTRL pass: SYSCNT counts them once the root PLL has locked since power-up (R296). -/
def Hw.pass (h : Hw) (n : Nat) : Hw :=
  { h with now := h.now + n, dev := { h.dev with sys := if h.powered && h.dev.root.everLocked then h.dev.sys + BitVec.ofNat 64 n else h.dev.sys } }

/-- One cycle of CK_CTRL passes with nothing commanded (log entry 2). -/
def Hw.tick (h : Hw) : Hw := h.pass 1

/-- Draw a free value: nothing constrains it (log entry 3). -/
def Hw.draw (h : Hw) : BitVec 64 × Hw := (Config.freeValue h.drawn, { h with drawn := h.drawn + 1 })

end Sys2Proof.Machine
end

