-- ==== Sys2Proof/Machine/Flags.lean ====
section
/-!
DEFINITION. Machine/Flags.lean: the flags: event registers and their SEQ (R430), the event router's latches (R449 to R452),
and the write-status bank of each master (R429).
-/
namespace Sys2Proof.Machine

/-! ## The router -/

/-- A function's own state. -/
def Dev.func (d : Dev) : Func → FuncSt
  | .f0 => d.f0 | .f1 => d.f1

/-- Change a function's own state. -/
def Dev.onFunc (d : Dev) (f : Func) (g : FuncSt → FuncSt) : Dev :=
  match f with
  | .f0 => { d with f0 := g d.f0 } | .f1 => { d with f1 := g d.f1 }

/-- The guarded event sources (R473, R504). -/
def guardedSrc (src : Nat) : Bool :=
  if src < 576 then decide (src % 12 = 9) else decide (src = 596 ∨ src = 610 ∨ src = 627)

/-- An event of a source sets PEND of the vector its route entry names (R450, R451). -/
def FuncSt.event (f : FuncSt) (src : Nat) : FuncSt :=
  let r := tget (0 : Word) f.routes src
  if bitOf r 31 then { f with pend := f.pend ||| (1#64 <<< fieldOf r 5 0) } else f

/-- An event of a source reaches one function; a guarded source never reaches PF1 (R450), and nothing is routed in
MIDWINTER (R452). -/
def Hw.notifyOne (h : Hw) (f : Func) (src : Nat) : Hw :=
  if h.inMw || (f = .f1 && guardedSrc src) then h else h.onDev fun d => d.onFunc f (·.event src)

/-- An event of a source reaches both functions' routes (R450). -/
def Hw.notify (h : Hw) (src : Nat) : Hw := (h.notifyOne .f0 src).notifyOne .f1 src

/-! ## Event registers -/

/-- An event register after a hardware event: the flags set, SEQ advanced by 1 modulo 256 (R430). -/
def evWord (w flags : Word) : Word := withField (w ||| flags) 31 24 (fieldOf w 31 24 + 1)

/-- A hardware event of a device event register, and of its source `576 + d` (R430, R473). -/
def Hw.devEvent (h : Hw) (off d : Nat) (flags : Word) : Hw :=
  (h.setDevReg off (evWord (h.devReg off) flags)).notify (576 + d)

/-- A hardware event of a channel event register, and of source j of the channel (R430, R504). The sources of a parked or
ABSENT channel raise no events (R449). -/
def Hw.chEvent (h : Hw) (c : ChanId) (off j : Nat) (flags : Word) : Hw :=
  if (h.chan c).raises then (h.setChReg c off (evWord (h.chReg c off) flags)).notify (c.val * 12 + j) else h

/-- An event of a channel source whose register is not an event register: sources 0 and 1 (R504). -/
def Hw.chNotify (h : Hw) (c : ChanId) (j : Nat) : Hw := if (h.chan c).raises then h.notify (c.val * 12 + j) else h

/-- Channel `c` changed state: its bit of DEV.CH_EVT_g is set (R457). -/
def Hw.chgEvent (h : Hw) (c : ChanId) : Hw :=
  h.devEvent (0x10C0 + 4 * (c.val / 8)) (1 + c.val / 8) (BitVec.ofNat 32 (2 ^ (c.val % 8)))

/-- CHn.FRM_EVT: the event sources of a channel's event registers, by offset and source number. -/
def Hw.evFrm (h : Hw) (c : ChanId) (flags : Word) : Hw := h.chEvent c 0x2300 2 flags
/-- CHn.MAP_EVT. -/
def Hw.evMap (h : Hw) (c : ChanId) (flags : Word) : Hw := h.chEvent c 0x3008 3 flags
/-- CHn.RCL_EVT. -/
def Hw.evRcl (h : Hw) (c : ChanId) (flags : Word) : Hw := h.chEvent c 0x4008 4 flags
/-- CHn.CPH_EVT. -/
def Hw.evCph (h : Hw) (c : ChanId) (flags : Word) : Hw := h.chEvent c 0x5010 5 flags
/-- CHn.LAT_EVT. -/
def Hw.evLat (h : Hw) (c : ChanId) (flags : Word) : Hw := h.chEvent c 0x6014 6 flags
/-- CHn.PSW_EVT. -/
def Hw.evPsw (h : Hw) (c : ChanId) (flags : Word) : Hw := h.chEvent c 0x7008 7 flags
/-- CHn.TIM_EVT. -/
def Hw.evTim (h : Hw) (c : ChanId) (flags : Word) : Hw := h.chEvent c 0x802C 8 flags
/-- CHn.CVU_EVT. -/
def Hw.evCvu (h : Hw) (c : ChanId) (flags : Word) : Hw := h.chEvent c 0xA008 9 flags
/-- CHn.MLT_EVT. -/
def Hw.evMlt (h : Hw) (c : ChanId) (flags : Word) : Hw := h.chEvent c 0x9008 10 flags

/-- A flag of CHn.LAT_WMSTAT_q: SEQ advances, and LAT_EVT.WM is set (R258, R493). -/
def Hw.wmEvent (h : Hw) (c : ChanId) (q : Nat) (flags : Word) : Hw :=
  (h.setChReg c (0x6080 + 4 * q) (evWord (h.chReg c (0x6080 + 4 * q)) flags)).evLat c 0x00080000

/-! ## Write status -/

/-- The flags of DEV.BMX_WSTAT (R429). -/
inductive WFlag where
  | cfgRej | guard | ackStale | mapBusy | locked
deriving DecidableEq, Repr

/-- The bit of a flag in `MBank.wflags`, CFG_REJ highest. -/
def wbit : WFlag → BitVec 5
  | .cfgRej => 0x10 | .guard => 0x08 | .ackStale => 0x04 | .mapBusy => 0x02 | .locked => 0x01

/-- A master's bank; a Malot's writes are recorded in the Isund's (R429). -/
def Dev.bank (d : Dev) : Master → MBank
  | .pf0 => d.pf0 | .pf1 => d.pf1 | .isund => d.isv | .malot => d.isv | .debug => d.dbg

/-- Change a master's bank. -/
def Dev.onBank (d : Dev) (m : Master) (f : MBank → MBank) : Dev :=
  match m with
  | .pf0 => { d with pf0 := f d.pf0 }
  | .pf1 => { d with pf1 := f d.pf1 }
  | .isund => { d with isv := f d.isv }
  | .malot => { d with isv := f d.isv }
  | .debug => { d with dbg := f d.dbg }

/-- A bank after an ignored write: its flags set, SEQ advanced, counted, its address kept; several flags of one write are one
event (R429, R430). -/
def MBank.ignore (b : MBank) (w : BitVec 5) (a : BitVec 22) : MBank :=
  { b with wseq := b.wseq + 1, wflags := b.wflags ||| w, ign := BitVec.ofNat 16 (satAdd 65535 b.ign.toNat 1), waddr := a }

/-- A master's write, or a part of it, is ignored and flagged in its bank; device source 42 is the bank of the function that reads
it. -/
def Hw.flagged (h : Hw) (m : Master) (w : BitVec 5) (a : BitVec 22) : Hw :=
  if w = 0 then h
  else
    let h := h.onDev fun d => d.onBank m (·.ignore w a)
    match m with
    | .pf0 => h.notifyOne .f0 618
    | .pf1 => h.notifyOne .f1 618
    | _ => h

/-- A master's write is ignored with one flag. -/
def Hw.ignored (h : Hw) (m : Master) (w : WFlag) (a : BitVec 22) : Hw := h.flagged m (wbit w) a

/-- A guarded write by a master without the right: GUARD, and REFUSED counts (R427). -/
def Hw.guarded (h : Hw) (m : Master) (a : BitVec 22) : Hw := (h.ignored m .guard a).bmx m.id 8

/-- CTRL of the fuses (R392, R393): bit 0 PF0_LIMIT, 1 DBG_DIS, 2 DTEST_OFF. -/
def Hw.ctrlFuse (h : Hw) (i : Nat) : Bool := bitOf (tget 0 h.dev.fuses.words 36) i

/-- SEAL is set when two or more of its three copies are programmed (R392). -/
def Hw.sealed (h : Hw) : Bool :=
  let w := tget (0 : Word) h.dev.fuses.words 42
  decide (2 ≤ b2n (bitOf w 0) + b2n (bitOf w 1) + b2n (bitOf w 2))

/-- The debug port is enabled only while SEAL is not set and DBG_DIS is 0 (R393). -/
def Hw.debugEnabled (h : Hw) : Bool := !h.sealed && !h.ctrlFuse 1

/-- A master's write beats reach registers at all: the debug port only while R393 enables it, the functions and the debug
port only in RUN and BARE, the Isund and the Malots from FUSE_SENSE on (R410, R426, R454). -/
def Hw.reaches (h : Hw) (m : Master) : Bool :=
  h.works && (match m with
    | .isund => decide (h.dev.boot.st ≠ .supplyUp)
    | .malot => decide (h.dev.boot.st ≠ .supplyUp)
    | .debug => (h.dev.boot.st = .run || h.dev.boot.st = .bare) && h.debugEnabled && h.dev.link.debugOn
    | .pf0 => (h.dev.boot.st = .run || h.dev.boot.st = .bare) && h.dev.link.up && !h.dev.f0.d3
    | .pf1 => (h.dev.boot.st = .run || h.dev.boot.st = .bare) && h.dev.link.up && !h.dev.f1.d3)

/-- How far a register is guarded: not at all, against PF1, or as one of the diagnostic registers that PF0 loses under
PF0_LIMIT (R393, R427). -/
inductive Guard where
  | plain | guarded | diagnostic
deriving DecidableEq, Repr

/-- A master lacks the right to a register of this guard (R426, R427). -/
def Hw.lacks (h : Hw) (m : Master) (g : Guard) : Bool :=
  match m with
  | .pf1 => decide (g ≠ .plain)
  | .pf0 => decide (g = .diagnostic) && h.ctrlFuse 0
  | _ => false

/-- A master's write beats reach device registers: a Malot's local bus leads to its own channel only (R42, R454). -/
def Hw.reachesDev (h : Hw) (m : Master) : Bool := h.reaches m && decide (m ≠ .malot)

/-- A write beat to a device register with a rule of its own: it reaches the register, the matrix counts it SERVED, and a
guarded register turns away a master without the right (R427, R437). -/
def devBeat (h : Hw) (m : Master) (off : Nat) (g : Guard) (f : Hw → Hw) : Hw :=
  if !h.reachesDev m then h
  else if h.lacks m g then h.guarded m (devAddr off)
  else f (h.bmx m.id 0)

/-- A channel block whose registers hold their reset state in DIAG: all but blocks 0 to 2 (R476). -/
def diagHeld (off : Nat) : Bool := decide (0x3000 ≤ off)

/-- A write beat to a channel register with a rule of its own: a parked or ABSENT window ignores it with CFG_REJ and counts
it REFUSED (R425), a DIAG channel ignores it outside blocks 0 to 2 (R476), and a guarded register turns away a master
without the right (R477). -/
def chBeat (h : Hw) (m : Master) (c : ChanId) (off : Nat) (g : Guard) (f : Hw → Hw) : Hw :=
  if !h.reaches m then h
  else if h.lacks m g then h.guarded m (chAddr c off)
  else if !(h.chan c).raises then (h.ignored m .cfgRej (chAddr c off)).bmx m.id 8
  else if (h.chan c).st = .diag && diagHeld off then (h.bmx m.id 0).ignored m .cfgRej (chAddr c off)
  else f (h.bmx m.id 0)

end Sys2Proof.Machine
end

