-- ==== Sys2Proof/Machine/Fields.lean ====
section
/-!
DEFINITION. Machine/Fields.lean: a write beat to a register with no rule of its own: each field by its access code (R428), under
the guards of R393, R427 and R477, the windows of parked channels (R425) and of DIAG (R476), and event registers (R430).
-/
namespace Sys2Proof.Machine

/-- What a write makes of a register: the word it holds then, and whether a guarded field or an RD field turned it away. -/
structure Written where
  new : Word
  guard : Bool
  rej : Bool
deriving DecidableEq, Repr

/-- A write of `d` to a register that holds `old`: `deny` are the guarded bits the master may not write, and `rd` says that the
owning block is disabled (R428). -/
def RegDef.write (r : RegDef) (old d deny : Word) (rd : Bool) : Written :=
  let free := maskOf r fun a => decide (a = .rw)
  let rg := maskOf r fun a => decide (a = .rg)
  let rdm := maskOf r fun a => decide (a = .rd)
  let mask := free ||| (rg &&& ~~~ deny) ||| (if rd then rdm else 0)
  { new := (old &&& ~~~ mask) ||| (d &&& mask), guard := decide (rg &&& deny ≠ 0), rej := decide (rdm ≠ 0) && !rd }

/-- The flags of a write that was turned away in part. -/
def Written.flags (w : Written) : BitVec 5 := (if w.guard then 0x08 else 0) ||| (if w.rej then 0x10 else 0)

/-- The fields of lane registers among the diagnostic set of R393: CHn.PRT_LANE_p.LB and CHn.PRT_PRBS_p.GEN_EN. -/
def diagBits (off : Nat) : Word :=
  if off ∈ [0x1000, 0x1040, 0x1080] then 0x300 else if off ∈ [0x1004, 0x1044, 0x1084] then 0x8 else 0

/-- The guarded bits of a channel register that a master may not write (R393, R427). -/
def Hw.denied (h : Hw) (m : Master) (off : Nat) : Word :=
  match m with
  | .pf1 => 0xFFFFFFFF
  | .pf0 => if h.ctrlFuse 0 then diagBits off else 0
  | _ => 0

/-- The guard of a whole register, by its map. -/
def RegDef.guard (r : RegDef) : Guard := if r.guarded then .guarded else .plain

/-- A write beat is counted SERVED, or REFUSED when a guarded part of it was ignored (R427, R437). -/
def Hw.beat (h : Hw) (m : Master) (guard : Bool) : Hw := h.bmx m.id (if guard then 8 else 0)

/-- A channel is disabled, for RD fields: PARKED or STARTING, and ABSENT, whose kept fields R425 opens (R428). -/
def Chan.rdOpen (x : Chan) : Bool := decide (x.st = .parked ∨ x.st = .starting ∨ x.st = .absent)

/-- A write beat to a channel register by the access codes of its fields. -/
def chFields (h : Hw) (m : Master) (c : ChanId) (off : Nat) (d : Word) : Hw :=
  let a := chAddr c off
  if !h.reaches m then h
  else
    let x := h.chan c
    match findReg chRegs off with
    | none => if x.raises then h.bmx m.id 0 else (h.ignored m .cfgRej a).bmx m.id 8
    | some r =>
      if h.lacks m r.guard then h.guarded m a
      else
        let w := r.write (x.reg off) d (h.denied m off) x.rdOpen
        if !x.raises then
          if r.kept = 0 then (h.ignored m .cfgRej a).bmx m.id 8
          else ((h.setChReg c off ((x.reg off &&& ~~~ r.kept) ||| (w.new &&& r.kept))).flagged m { w with rej := false }.flags a).beat m w.guard
        else if x.st = .diag && diagHeld off then (h.ignored m .cfgRej a).bmx m.id 0
        else ((h.setChReg c off w.new).flagged m w.flags a).beat m w.guard

/-- A write beat to a device register by the access codes of its fields. -/
def devFields (h : Hw) (m : Master) (off : Nat) (d : Word) : Hw :=
  let a := devAddr off
  if !h.reachesDev m then h
  else match findReg devRegs off with
    | none => h.bmx m.id 0
    | some r =>
      if h.lacks m r.guard then h.guarded m a
      else
        let w := r.write (h.devReg off) d (if m = .pf1 then 0xFFFFFFFF else 0) true
        ((h.setDevReg off w.new).flagged m w.flags a).beat m w.guard

/-! ## Event registers (R430) -/

/-- A clear of an event word: the flags written as 1 among its WS fields, if the SEQ matches; none for a stale one. -/
def evClear (r : RegDef) (w d : Word) : Option Word :=
  if fieldOf d 31 24 = fieldOf w 31 24 then some (w &&& ~~~ (d &&& maskOf r fun a => decide (a = .ws))) else none

/-- A write beat to an event register of a channel. A watermark's accepted clear restarts HWM from the level (R258, R432). -/
def chClear (h : Hw) (m : Master) (c : ChanId) (off : Nat) (d : Word) : Hw :=
  match findReg chRegs off with
  | none => h
  | some r => chBeat h m c off r.guard fun h =>
      match evClear r (h.chReg c off) d with
      | none => h.ignored m .ackStale (chAddr c off)
      | some w =>
        let h := h.setChReg c off w
        if 0x6080 ≤ off ∧ off < 0x60BC ∧ bitOf d 23 then
          h.setChReg c off (withField (h.chReg c off) 15 0 (h.chField c (off + 0x40) 15 0))
        else h

/-- A write beat to an event register of device space. DEV.FCL_HSTAT keeps its flags in the collector: an accepted clear sets
UNREAD to 0 (R353). -/
def devClear (h : Hw) (m : Master) (off : Nat) (d : Word) : Hw :=
  match findReg devRegs off with
  | none => h
  | some r => devBeat h m off r.guard fun h =>
      if off = 0x4008 then
        if fieldOf d 31 24 = h.dev.fcl.hseq.toNat then
          h.onFcl fun f => { f with hNew := f.hNew && !bitOf d 23, hOvwr := f.hOvwr && !bitOf d 22, unread := 0 }
        else h.ignored m .ackStale (devAddr off)
      else if off = 0x5000 then
        if fieldOf d 31 24 = (h.dev.bank m).wseq.toNat then
          h.onDev fun x => x.onBank m fun b => { b with wflags := b.wflags &&& ~~~ BitVec.ofNat 5 (fieldOf d 23 19), ign := 0 }
        else h.ignored m .ackStale (devAddr off)
      else
        match evClear r (h.devReg off) d with
        | none => h.ignored m .ackStale (devAddr off)
        | some w => h.setDevReg off w

end Sys2Proof.Machine
end

