-- ==== Sys2Proof/Machine/Kinds.lean ====
section
/-!
DEFINITION. Machine/Kinds.lean: the circuit kinds and lane rates: the tables of R56 to R58, R83, R84, R86, R136, R140, R141,
R157, R234 and R249, and the fields of a Circuit Table entry (R156). Times are in tenths of a nanosecond.
-/
namespace Sys2Proof.Machine

/-! ## Lane rates (R136) -/

/-- The line rate of a RATE code in bits per second; 0 for off and for a reserved code. -/
def rateBps : Nat → Nat
  | 1 => 155520000 | 2 => 622080000 | 3 => 2488320000 | 4 => 9953280000 | 5 => 2666057000 | 6 => 10709225000
  | 7 => 11095728000 | 8 => 1250000000 | 9 => 10312500000 | _ => 0

/-- AUG-1 or STS-3 groups of the line (R140); 0 for a rate without positions. -/
def augCount : Nat → Nat
  | 1 => 1 | 2 => 4 | 3 => 16 | 4 => 64 | _ => 0

/-- An SDH or SONET rate. -/
def isSdh (rate : Nat) : Bool := decide (1 ≤ rate ∧ rate ≤ 4)

/-- An OTN rate. -/
def isOtn (rate : Nat) : Bool := decide (5 ≤ rate ∧ rate ≤ 7)

/-- The register CHn.PRT_LANE_p (R480). -/
def laneReg (p : Lane) : Nat := 0x1000 + 0x40 * p.num

/-- RATE of a lane. -/
def Chan.rate (x : Chan) (p : Lane) : Nat := fieldOf (x.reg (laneReg p)) 3 0

/-! ## Kinds -/

/-- What the spec fixes for a circuit kind. -/
structure Kind where
  /-- Block duration and tributary frame (R234). -/
  tb : Nat
  tf : Nat
  /-- BLK in µs (R157). -/
  blkUs : Nat
  /-- A 128-bit tag (R56). -/
  tag128 : Bool
  /-- Payload bytes per block (R58); 0 where they vary. -/
  payload : Nat
  /-- Reclaim bits of a block (R56), the least number (R86), and what the service spends of them (R86). -/
  reclaim : Nat
  cmin : Nat
  spend : Nat
  /-- Candidate block phases (R83). -/
  phases : Nat
  /-- Re-insertion opportunities and bits per opportunity (R84). -/
  ectM : Nat
  ectB : Nat
deriving DecidableEq, Repr

/-- The kind of a KIND code (R157), in the channel's GE_MAXFRAME; none for 0x00 and the reserved codes. -/
def kindOf (geMax : Nat) : Nat → Option Kind
  | 0x01 => some ⟨40000000, 5000000, 4000, false, 773, 168, 168, 0, 8, 8, 2⟩
  | 0x02 => some ⟨20000000, 5000000, 2000, false, 513, 228, 228, 0, 4, 4, 2⟩
  | 0x03 => some ⟨15000000, 1250000, 1500, false, 9072, 192, 192, 0, 12, 12, 8⟩
  | 0x04 => some ⟨15000000, 1250000, 1500, false, 28080, 192, 192, 0, 12, 12, 8⟩
  | 0x05 => some ⟨1250000, 1250000, 125, true, 9360, 232, 232, 0, 1, 1, 8⟩
  | 0x06 => some ⟨1250000, 1250000, 125, true, 37440, 1096, 1096, 0, 1, 1, 8⟩
  | 0x07 => some ⟨1250000, 1250000, 125, true, 149760, 4552, 4552, 0, 1, 1, 8⟩
  | 0x08 => some ⟨20000000, 5000000, 2000, false, 0, 228, 228, 0, 4, 0, 1⟩
  | 0x09 => some ⟨40000000, 5000000, 4000, false, 0, 168, 168, 0, 8, 0, 1⟩
  | 0x0A => some ⟨3917680, 489710, 392, true, 121864, 256, 256, 0, 1, 8, 8⟩
  | 0x0B => some ⟨975280, 121910, 98, true, 121864, 256, 256, 0, 1, 8, 8⟩
  | 0x0C => some ⟨941360, 117670, 95, true, 121864, 256, 256, 0, 1, 8, 8⟩
  | 0x0D => some ⟨16384, 1024, 2, true, 2052, 224, 480, 256, 256, 0, 0⟩
  | 0x0E => some ⟨1966080, (geMax + 16) * 80, 197, false, 24553, 168, 272, 56, 1, 0, 0⟩
  | _ => none

/-- GE_MAXFRAME (R490): the nearer limit outside 64 to 12,000. -/
def Chan.geMax (x : Chan) : Nat := clamp 64 12000 (fieldOf (x.reg 0x4000) 29 16)

/-- A fractional kind. -/
def isFrac (k : Nat) : Bool := decide (k = 8 ∨ k = 9)

/-- A kind of an unchannelized line: OTU1 to 1GE. -/
def isWhole (k : Nat) : Bool := decide (0x0A ≤ k ∧ k ≤ 0x0E)

/-- The tag in bytes. -/
def Kind.tagLen (k : Kind) : Nat := if k.tag128 then 16 else 12

/-- Trailer bits T (R86). -/
def Kind.trailerBits (k : Kind) : Nat := (k.tagLen + 9) * 8

/-- D_enc,min (R234). -/
def Kind.encMin (k : Kind) : Nat := k.tf + 400000

/-- B_dec (R234). -/
def Kind.bDec (k : Kind) : Nat := 2 * k.tb + k.tf + 400000

/-! ## Entries (R156) -/

/-- EN. -/
def Circ.en (c : Circ) : Bool := bitOf c.w0 31
/-- KIND. -/
def Circ.kind (c : Circ) : Nat := fieldOf c.w0 30 26
/-- LCID. -/
def Circ.lcid (c : Circ) : Nat := fieldOf c.w0 23 0
/-- KCTX. -/
def Circ.kctx (c : Circ) : Nat := fieldOf c.w1 31 20
/-- TAG. -/
def Circ.tag (c : Circ) : Bool := bitOf c.w1 19
/-- TFMT. -/
def Circ.tfmt (c : Circ) : Nat := fieldOf c.w1 18 16
/-- The four position indices. -/
def Circ.pos (c : Circ) : Pos :=
  { aug := BitVec.ofNat 6 (fieldOf c.w1 15 10), t3 := BitVec.ofNat 2 (fieldOf c.w1 9 8),
    t2 := BitVec.ofNat 3 (fieldOf c.w1 7 5), tu := BitVec.ofNat 2 (fieldOf c.w1 4 3) }
/-- D_enc. -/
def Circ.dEnc (c : Circ) : Nat := fieldOf c.w2 31 12 * 500
/-- D_dec. -/
def Circ.dDec (c : Circ) : Nat := fieldOf c.w3 31 12 * 500

/-- The kind of a channel's circuit. -/
def Chan.kindOf (x : Chan) (c : Circ) : Option Kind := Sys2Proof.Machine.kindOf x.geMax c.kind

/-- Clear EN of an entry, or set it. -/
def Circ.setEn (c : Circ) (b : Bool) : Circ := { c with w0 := withField c.w0 31 31 (b2n b) }

/-- The window W = D_dec − B_dec (R234). -/
def Chan.window (x : Chan) (c : Circ) : Nat := c.dDec - ((x.kindOf c).map (·.bDec)).getD 0

/-! ## Positions (R140, R141) -/

/-- Width in Slot Map indices of a TU position of a kind: 32 for E1 in VC-12, 24 for T1 in VC-11. -/
def tuWidth (k : Nat) : Nat := if k = 1 ∨ k = 9 then 24 else 32

/-- First Slot Map index of a position (R141). -/
def posIndex (k : Nat) (p : Pos) : Nat :=
  p.aug.toNat * 2016 + p.t3.toNat * 672 + p.t2.toNat * 96 + p.tu.toNat * tuWidth k

/-- AUGs of a concatenated kind. -/
def concat : Nat → Nat
  | 5 => 4 | 6 => 16 | 7 => 64 | _ => 1

/-- Slot Map indices a kind's capacity spans. -/
def capLen (k : Nat) : Nat :=
  if k = 1 ∨ k = 2 ∨ isFrac k then tuWidth k else if k = 3 then 672 else concat k * 2016

/-- The RATE code a whole-line kind must match (R140). -/
def wholeRate : Nat → Nat
  | 0x0A => 5 | 0x0B => 6 | 0x0C => 7 | 0x0D => 9 | 0x0E => 8 | _ => 0

/-- A position is one that R140 allows a circuit of this number and kind on a line of this rate. -/
def posLegal (rate : Nat) (n k : Nat) (p : Pos) : Bool :=
  if isWhole k then decide (n = 0 ∧ p = ⟨0, 0, 0, 0⟩ ∧ rate = wholeRate k)
  else
    decide (p.aug.toNat < augCount rate) &&
    (if k = 1 ∨ k = 2 ∨ isFrac k then
      decide (p.t3.toNat ≤ 2 ∧ p.t2.toNat ≤ 6 ∧ p.tu.toNat ≤ (if tuWidth k = 24 then 3 else 2))
    else if k = 3 then decide (p.t3.toNat ≤ 2 ∧ p.t2 = 0 ∧ p.tu = 0)
    else decide (p.t3 = 0 ∧ p.t2 = 0 ∧ p.tu = 0 ∧ p.aug.toNat % concat k = 0 ∧ p.aug.toNat + concat k ≤ augCount rate))

/-- Two circuits of a line share capacity (R142): their indices overlap, unless they are sub-circuits of one tributary. -/
def capClash (a b : Circ) : Bool :=
  if isFrac a.kind ∧ a.kind = b.kind ∧ a.pos = b.pos then false
  else if isWhole a.kind ∨ isWhole b.kind then true
  else
    let i := posIndex a.kind a.pos
    let j := posIndex b.kind b.pos
    decide (i < j + capLen b.kind ∧ j < i + capLen a.kind)

/-- Two lower-order circuits would put a VC-11 and a VC-12 into one TUG-2 (R142). -/
def tugClash (a b : Circ) : Bool :=
  let lo := fun k => decide (k = 1 ∨ k = 2) || isFrac k
  lo a.kind && lo b.kind && decide (a.pos.aug = b.pos.aug ∧ a.pos.t3 = b.pos.t3 ∧ a.pos.t2 = b.pos.t2
    ∧ tuWidth a.kind ≠ tuWidth b.kind)

/-! ## Line share (R249) -/

/-- The line share of a circuit in bits per second; `slots` are the payload and reclaim slots of a sub-circuit. -/
def share249 (rate slots k : Nat) : Nat :=
  if k = 1 then 1664000 else if k = 2 then 2240000 else if k = 3 then 48960000
  else if k = 4 ∨ k = 5 ∨ k = 6 ∨ k = 7 then concat k * 150336000
  else if isFrac k then 64000 * slots
  else rateBps rate

/-- D_enc,max and L of R235 bound a circuit's delays: the per-circuit limits of R248. -/
def delaysFit (rate dEnc w : Nat) : Bool :=
  decide (dEnc * rateBps rate ≤ 33554432 * 10000000000 ∧ w * rateBps rate ≤ 25165824 * 10000000000 ∧ w ≤ 320000000)

end Sys2Proof.Machine
end

