-- ==== Sys2Proof/Machine/Keystream.lean ====
section
/-!
DEFINITION. Machine/Keystream.lean: the keystream queues of a channel's three cipher engines (R214, R219, R220, R255). How far an
engine runs ahead is the model's choice: to the end of each circuit's next block, as far as 512 entries reach (log entry 74).
-/
namespace Sys2Proof.Machine

/-- The queue of the encrypt engine; that of a black path is `1 + p.num`. -/
def ksEnc : Fin 3 := 0

/-- The queue of a path's decrypt engine. -/
def ksDec : Path → Fin 3
  | .bkw => 1 | .bkp => 2

/-- Entries held by a queue (R258). -/
def ksLevel (l : List KsEnt) : Nat := (l.map (·.blocks)).sum

/-- Change a queue. -/
def Chan.onKs (x : Chan) (e : Fin 3) (f : List KsEnt → List KsEnt) : Chan :=
  { x with cph := { x.cph with ks := x.cph.ks.set e (f x.cph.ks[e]) } }

/-- A flush of the entries that meet a test (R220). -/
def Chan.ksFlush (x : Chan) (e : Fin 3) (sel : KsEnt → Bool) : Chan := x.onKs e fun l => l.filter fun k => !sel k

/-- A flush in all three engines. -/
def Chan.ksFlushAll (x : Chan) (sel : KsEnt → Bool) : Chan :=
  { x with cph := { x.cph with ks := x.cph.ks.map fun l => l.filter fun k => !sel k } }

/-- A block takes its entries. -/
def Chan.ksTake (x : Chan) (e : Fin 3) (k : CircId) (odd : Bool) (seq : Seq) : Chan :=
  x.ksFlush e fun r => decide (r.circ = k ∧ r.odd = odd ∧ r.seq = seq)

/-- An engine runs ahead for a circuit's next block, once for one SEQ of a slot, and no further than the queue's 512 entries;
`bytes` is the payload of that block. -/
def Chan.ksRun (x : Chan) (e : Fin 3) (k : CircId) (odd : Bool) (seq : Seq) (bytes : Nat) : Chan :=
  x.onKs e fun l =>
    let n := min ((bytes + 15) / 16) (512 - ksLevel l)
    if n = 0 || l.any (fun r => decide (r.circ = k ∧ r.odd = odd ∧ r.seq = seq)) then l else l ++ [{ circ := k, odd := odd, seq := seq, blocks := n }]

end Sys2Proof.Machine
end

