-- ==== Sys2Proof/Machine/Queue.lean ====
section
/-!
DEFINITION. Machine/Queue.lean: the command queues: banks, credits and shares (R441, R442), completions (R444), the executor's
time (R445, R446), and the watermarks of a channel's queues (R258).
-/
namespace Sys2Proof.Machine

/-! ## Watermarks -/

/-- The level of a channel's queue changes: LEVEL is kept, HWM follows the peak, and a crossing of MARK sets WM (R258). -/
def Hw.level (h : Hw) (c : ChanId) (q n : Nat) : Hw :=
  let old := h.chField c (0x60C0 + 4 * q) 15 0
  let n := clamp 0 65535 n
  let h := h.setChReg c (0x60C0 + 4 * q) (BitVec.ofNat 32 n)
  let w := h.chReg c (0x6080 + 4 * q)
  let h := if fieldOf w 15 0 < n then h.setChReg c (0x6080 + 4 * q) (withField w 15 0 n) else h
  let mark := h.chField c (0x6040 + 4 * q) 15 0
  if bitOf (h.chReg c (0x6040 + 4 * q)) 31 && decide (old < mark ∧ mark ≤ n) then h.wmEvent c q 0x00800000 else h

/-! ## Queues and banks -/

/-- A command queue. -/
def Hw.queue (h : Hw) : Port → CmdQ
  | .device => h.dev.q
  | .chan c => (h.chan c).q

/-- Change a command queue. -/
def Hw.onQueue (h : Hw) (p : Port) (f : CmdQ → CmdQ) : Hw :=
  match p with
  | .device => h.onDev fun d => { d with q := f d.q }
  | .chan c => h.onChan c fun x => { x with q := f x.q }

/-- A submitter's bank; the debug port and the Malots have none of their own, and a Malot shares the Isund's (R441). -/
def CmdQ.bank (q : CmdQ) : Master → CmdBank
  | .pf0 => q.pf0 | .pf1 => q.pf1 | _ => q.isv

/-- Change a submitter's bank. -/
def CmdQ.onBank (q : CmdQ) (m : Master) (f : CmdBank → CmdBank) : CmdQ :=
  match m with
  | .pf0 => { q with pf0 := f q.pf0 } | .pf1 => { q with pf1 := f q.pf1 } | _ => { q with isv := f q.isv }

/-- A submitter's share of a queue's credits (R442). -/
def Hw.share (h : Hw) (p : Port) (m : Master) : Nat :=
  match p, m with
  | .device, .pf0 => h.devField 0x5024 3 0
  | .device, .pf1 => h.devField 0x5024 7 4
  | .device, _ => h.devField 0x5024 11 8
  | .chan _, .pf0 => h.devField 0x5024 20 16
  | .chan _, .pf1 => h.devField 0x5024 25 21
  | .chan _, _ => h.devField 0x5024 30 26

/-- Credits free to a submitter (R441). -/
def Hw.credit (h : Hw) (p : Port) (m : Master) : Nat := h.share p m - ((h.queue p).bank m).used

/-- The levels of a channel's command and completion queues (R258, queues 13 and 14). -/
def Hw.qLevels (h : Hw) (p : Port) : Hw :=
  match p with
  | .device => h
  | .chan c =>
    let q := h.queue p
    (h.level c 13 (q.wait.length + q.run.length)).level c 14 (q.pf0.cpl.length + q.pf1.cpl.length + q.isv.cpl.length)

/-! ## Completions -/

/-- STATUS codes of a completion (R444). -/
def stDone : Nat := 0
/-- REFUSED. -/
def stRefused : Nat := 1
/-- DISCARDED. -/
def stDiscarded : Nat := 2

/-- A completion (R444). -/
def cplWord (op tag : Byte) (status chan reason result : Nat) : BitVec 64 :=
  BitVec.ofNat 64 (op.toNat * 2 ^ 56 + tag.toNat * 2 ^ 48 + status % 4 * 2 ^ 46 + chan % 64 * 2 ^ 40 + reason % 256 * 2 ^ 32
    + (if status = stDone then result % 2 ^ 32 else 0))

/-- The router source of a port's CPL event (R473, R504). -/
def cplSrc : Port → Nat
  | .device => 619 | .chan c => c.val * 12 + 11

/-- A completion reaches its submitter's bank; the rise of WAIT from 0 is the event (R473). -/
def Hw.deliver (h : Hw) (p : Port) (m : Master) (w : BitVec 64) : Hw :=
  let rise := ((h.queue p).bank m).cpl.isEmpty
  let h := (h.onQueue p fun q => q.onBank m fun b => { b with cpl := b.cpl ++ [w] }).qLevels p
  if rise then
    match m with
    | .pf0 => h.notifyOne .f0 (cplSrc p)
    | .pf1 => h.notifyOne .f1 (cplSrc p)
    | _ => h
  else h

/-- A submitter's credit returns. -/
def Hw.credited (h : Hw) (p : Port) (m : Master) : Hw :=
  h.onQueue p fun q => q.onBank m fun b => { b with used := b.used - 1 }

/-- CHAN of a completion from a queue: the channel, or 63 for what the Isund completed itself (R444). -/
def portChan : Port → Nat
  | .device => 63 | .chan c => c.val

/-- The device command that a forwarded command carries out. -/
def isParent (m : Master) (tag : Byte) (x : Cmd) : Bool := decide (x.by_ = m ∧ x.tag = tag)

/-- A device KEY_LOAD completes: the device blob buffer is zeroed, and routing goes on only for another one (R468). -/
def Hw.kbufDone (h : Hw) : Hw :=
  h.onDev fun d => { d with kbuf := [], routing := (d.q.wait ++ d.q.run).any fun x => decide (x.op = 0x10) }

/-- A command of a queue completes (R444). The completion of a command whose submitter was reset is dropped and its credit
returned (R422). A forwarded command returns the Isund's credit and completes the device command with the same outcome
(R445); the device blob buffer is zeroed when a device KEY_LOAD completes (R468). -/
def Hw.complete (h : Hw) (p : Port) (x : Cmd) (status reason result : Nat) : Hw :=
  match x.parent with
  | none =>
    let h := if p = .device ∧ x.op = 0x10 then h.kbufDone else h
    if x.dropped then h.credited p x.by_
    else h.deliver p x.by_ (cplWord x.op x.tag status (portChan p) reason result)
  | some (m, tag) =>
    let h := h.credited p .isund
    match h.dev.q.run.find? (isParent m tag) with
    | none => h
    | some y =>
      let h := h.onQueue .device fun q => { q with run := q.run.eraseP (isParent m tag) }
      let h := if x.op = 0x10 then h.kbufDone else h
      if y.dropped then h.credited .device m
      else h.deliver .device m (cplWord x.op tag status (portChan p) reason result)

/-- The oldest started command of an opcode, taken out of a queue to be carried out. -/
def Hw.takeRun (h : Hw) (p : Port) (sel : Cmd → Bool) : Option (Cmd × Hw) :=
  match (h.queue p).run.find? sel with
  | none => none
  | some x => some (x, (h.onQueue p fun q => { q with run := q.run.eraseP sel }).qLevels p)

/-- The oldest started command of an opcode whose work has not begun. -/
def fresh (op : Byte) (x : Cmd) : Bool := decide (x.op = op ∧ x.held = false)

/-- The oldest started command that meets a test is carried out; with none, nothing happens. -/
def Hw.carry (h : Hw) (p : Port) (sel : Cmd → Bool) (f : Cmd → Hw → Hw) : Hw :=
  match h.takeRun p sel with
  | none => h
  | some (x, h) => f x h

/-- A command completes DONE with a result. -/
def Hw.done (h : Hw) (p : Port) (x : Cmd) (result : Nat) : Hw := h.complete p x stDone 0 result

/-- A command completes REFUSED with a reason. -/
def Hw.refuse (h : Hw) (p : Port) (x : Cmd) (reason : Nat) : Hw := h.complete p x stRefused reason 0

/-- A started command whose work is under way goes back to wait for its event. -/
def Hw.hold (h : Hw) (p : Port) (x : Cmd) : Hw :=
  (h.onQueue p fun q => { q with run := q.run ++ [{ x with held := true }] }).qLevels p

/-- Every held command of a queue that meets a test completes. -/
def Hw.finish (h : Hw) (p : Port) (sel : Cmd → Bool) (status reason result : Nat) : Hw :=
  let out := (h.queue p).run.filter fun x => x.held && sel x
  let h := h.onQueue p fun q => { q with run := q.run.filter fun x => !(x.held && sel x) }
  (out.foldl (fun h x => h.complete p x status reason result) h).qLevels p

/-- Every command of a queue that meets a test completes DISCARDED (R362). -/
def Hw.discardIf (h : Hw) (p : Port) (sel : Cmd → Bool) : Hw :=
  let q := h.queue p
  let out := q.run.filter sel ++ q.wait.filter sel
  let h := h.onQueue p fun q => { q with run := q.run.filter fun x => !sel x, wait := q.wait.filter fun x => !sel x }
  out.foldl (fun h x => h.complete p x stDiscarded 0 0) h

/-- Every command of a queue completes DISCARDED, and its executor is free (R362, R389). -/
def Hw.discardAll (h : Hw) (p : Port) : Hw := (h.discardIf p fun _ => true).onQueue p fun q => { q with busyTill := 0 }

/-! ## The commands of R445 -/

/-- CK_CTRL cycles, 2.5 ns each, in a tenth of a microsecond. -/
def tenthUs (n : Nat) : Nat := n * 40

/-- A channel opcode (R445). -/
def isChanOp (op : Byte) : Bool := decide (op ∈ [0x10#8, 0x11, 0x12, 0x13, 0x14, 0x20, 0x30, 0x40])

/-- A device opcode (R445). -/
def isDevOp (op : Byte) : Bool := decide (op ∈ [0x60#8, 0x61, 0x62])

/-- Executor time of a command on a channel queue, in cycles (R445). -/
def chanE (op : Byte) : Nat :=
  if op = 0x00 then tenthUs 5 else if op = 0x10 then tenthUs 250 else if op = 0x12 then tenthUs 5000
  else if op = 0x20 then tenthUs 20 else tenthUs 10

/-- The most executor time ahead with which a command is accepted on a channel queue, in cycles (R445). -/
def chanS (op : Byte) (w1 : Word) : Nat :=
  if op = 0x00 then tenthUs 495 else if op = 0x10 then tenthUs 250 else if op = 0x11 then tenthUs 90
  else if op = 0x12 then tenthUs 5000 else if op = 0x13 then (if bitOf w1 24 then tenthUs 90 else tenthUs 500)
  else if op = 0x20 then tenthUs 5000 else tenthUs 500

/-- Executor time on the device queue, forwarding and routing included (R445). -/
def devE (op : Byte) : Nat :=
  if op = 0x00 then tenthUs 5 else if op = 0x10 then tenthUs 50 else tenthUs 20

/-- The most executor time ahead on the device queue (R445). -/
def devS (op : Byte) : Nat :=
  if op = 0x00 then tenthUs 495 else if op = 0x10 then tenthUs 150 else if isDevOp op then tenthUs 1000 else tenthUs 180

/-- E of a command on a queue. -/
def portE : Port → Byte → Nat
  | .device, op => devE op | .chan _, op => chanE op

/-- S of a command on a queue. -/
def portS : Port → Byte → Word → Nat
  | .device, op, _ => devS op | .chan _, op, w1 => chanS op w1

/-- W of R446: what is left of the executing command's E, plus the E of every command waiting. -/
def Hw.owed (h : Hw) (p : Port) : Nat :=
  let q := h.queue p
  (q.busyTill - h.now) + (q.wait.map fun x => portE p x.op).sum

/-! ## Reason codes (R448) -/

/-- CFG_REJ. -/
def rCfgRej : Nat := 0x01
/-- PARAM. -/
def rParam : Nat := 0x02
/-- GUARDED. -/
def rGuarded : Nat := 0x03
/-- QUEUE_LATE. -/
def rQueueLate : Nat := 0x04
/-- OPCODE. -/
def rOpcode : Nat := 0x05
/-- RECLAIM_SHORT. -/
def rReclaimShort : Nat := 0x10
/-- TAG_LEN. -/
def rTagLen : Nat := 0x11
/-- POS_INVALID. -/
def rPosInvalid : Nat := 0x12
/-- TRIB_MISMATCH. -/
def rTribMismatch : Nat := 0x13
/-- LCID_DUP. -/
def rLcidDup : Nat := 0x14
/-- DELAY_SHORT. -/
def rDelayShort : Nat := 0x15
/-- MAP_BUSY. -/
def rMapBusy : Nat := 0x16
/-- SLOT_ROLE. -/
def rSlotRole : Nat := 0x17
/-- CIPHER_OFF. -/
def rCipherOff : Nat := 0x20
/-- KWK_BLANK. -/
def rKwkBlank : Nat := 0x21
/-- BLOB_BIND. -/
def rBlobBind : Nat := 0x22
/-- BLOB_UNWRAP. -/
def rBlobUnwrap : Nat := 0x23
/-- KEY_SERIAL. -/
def rKeySerial : Nat := 0x24
/-- SLOT_BUSY. -/
def rSlotBusy : Nat := 0x25
/-- KCV_MISMATCH. -/
def rKcvMismatch : Nat := 0x26
/-- KEY_REUSE. -/
def rKeyReuse : Nat := 0x27
/-- CTX_RANGE. -/
def rCtxRange : Nat := 0x28
/-- NO_STANDBY. -/
def rNoStandby : Nat := 0x29
/-- CLEAR_FUSE. -/
def rClearFuse : Nat := 0x2A
/-- CLEAR_ARM. -/
def rClearArm : Nat := 0x2B
/-- NO_PATH. -/
def rNoPath : Nat := 0x30
/-- PSW_PREEMPT. -/
def rPswPreempt : Nat := 0x38
/-- PSW_OP. -/
def rPswOp : Nat := 0x39
/-- CH_ABSENT. -/
def rChAbsent : Nat := 0x40
/-- CH_STATE. -/
def rChState : Nat := 0x41
/-- LANE_RATE. -/
def rLaneRate : Nat := 0x42
/-- DISCARDED, of a table-port operation ended by a reaction. -/
def rDiscarded : Nat := 0x7F

end Sys2Proof.Machine
end

