-- ==== Sys2Proof/Machine/Words.lean ====
section
/-!
DEFINITION. Machine/Words.lean: bits and bytes in transmission order (R46), and the W40 words of a channel's pipeline: their
fields, how a stage builds them, and the seal check (R23, R29 to R35).
-/
namespace Sys2Proof.Machine

/-! ## Bits in transmission order (R46) -/

/-- The bits of a number, most significant first. -/
def bitsOf (n v : Nat) : List Bool := (List.range n).map fun i => v.testBit (n - 1 - i)

/-- The number that bits spell, most significant first. -/
def natOf (l : List Bool) : Nat := l.foldl (fun a b => 2 * a + b2n b) 0

/-- Bytes of a bit string, the first bit in bit [7] of byte 0; positions past its end are 0 (R46). -/
def packBits : Nat → List Bool → List Byte
  | 0, _ => []
  | n + 1, l => BitVec.ofNat 8 (natOf ((l ++ List.replicate 8 false).take 8)) :: packBits n (l.drop 8)

/-- The bits of a byte, bit [7] first. -/
def byteBits (b : Byte) : List Bool := bitsOf 8 b.toNat

/-- The bits of a byte string. -/
def bytesBits (l : List Byte) : List Bool := l.flatMap byteBits

/-- A bit string cut or filled with 0 to a length. -/
def fitBits (n : Nat) (l : List Bool) : List Bool := (l ++ List.replicate (n - l.length) false).take n

/-- Parts of a length, as many as there are. -/
def partsOf {α : Type} : Nat → Nat → List α → List (List α)
  | 0, _, _ => []
  | n + 1, w, l => if l.isEmpty then [] else l.take w :: partsOf n w (l.drop w)

/-! ## W40 (R29, R30) -/

/-- A pipeline word. -/
abbrev W40 := BitVec 40

/-- PAYLOAD, bits [39:8]. -/
def W40.payload (w : W40) : Word := w.extractLsb' 8 32
/-- SEAL, bit [7]. -/
def W40.seal (w : W40) : Bool := w.getLsbD 7
/-- KIND, bits [6:5]: 0 payload, 1 overhead, 2 reclaim, 3 fill. -/
def W40.kind (w : W40) : BitVec 2 := w.extractLsb' 5 2
/-- SOB, bit [4]. -/
def W40.sob (w : W40) : Bool := w.getLsbD 4
/-- EOB, bit [3]. -/
def W40.eob (w : W40) : Bool := w.getLsbD 3
/-- SPEC, bit [2]. -/
def W40.spec (w : W40) : Bool := w.getLsbD 2
/-- VCNT, bits [1:0]. -/
def W40.vcnt (w : W40) : BitVec 2 := w.extractLsb' 0 2

/-- A word of up to four bytes, the first at [39:32] and the missing ones 0 (R29, R34). -/
def mkWord (l : List Byte) (sealed : Bool) (kind : Nat) (sob eob spec : Bool) : W40 :=
  BitVec.ofNat 40 (beNat (fit 4 l) * 256 + b2n sealed * 128 + kind % 4 * 32 + b2n sob * 16 + b2n eob * 8 + b2n spec * 4
    + (min 4 l.length - 1) % 4)

/-- The words of a byte string, four bytes a word; only the last has VCNT below 3 (R34). -/
def wordsOf (sealed : Bool) (kind : Nat) (spec : Bool) (l : List Byte) : List W40 :=
  (partsOf (l.length + 1) 4 l).map fun p => mkWord p sealed kind false false spec

/-- The first word of a block takes SOB and the last EOB (R33). -/
def markBlock (l : List W40) : List W40 :=
  l.zipIdx.map fun e =>
    e.1 ||| (if e.2 = 0 then 0x10#40 else 0) ||| (if e.2 + 1 = l.length then 0x08#40 else 0)

/-- A lane's words: 32 line bits a word in arrival order, with SEAL 0, KIND 00 and VCNT 3 (R23 step 1). -/
def laneWords (data : List Word) : List W40 := data.map fun d => mkWord (beBytes 4 d.toNat) false 0 false false false

/-- The words of a block as they reach the seal check (R23 steps 5 to 8): the payload as the cipher leaves it, sealed but for clear
mode; the reclaim words, all zero; and the idle-fill words that go with it, filled to whole words. The block's first word is its
first payload word and its last the last one; where the others stand between is the model's choice (log entry 71). -/
def blockWords (clear spec : Bool) (body rcl idle : List Byte) : List W40 :=
  let pay := wordsOf (!clear) 0 spec body
  let idle := idle ++ List.replicate ((4 - idle.length % 4) % 4) (idle.headD 0)
  markBlock (pay.take 1 ++ wordsOf false 2 spec (rcl.map fun _ => 0) ++ wordsOf false 3 false idle ++ pay.drop 1)

/-! ## The seal check (R35) -/

/-- The seal check's verdict on a word, where the fill generator's output for its position is `fill` (R35, R221). -/
def sealOk (clear : Bool) (fill : Word) (w : W40) : Bool :=
  (decide (w.kind = 0) && (w.seal || clear)) || (decide (w.kind = 2) && !w.seal && decide (w.payload = 0))
    || (decide (w.kind = 3) && !w.seal && decide (w.payload = fill))

/-- Words after a fault has changed bits of some of them. -/
def upsetOf (l : List W40) (ups : List (Nat × W40)) : List W40 :=
  l.zipIdx.map fun e => ups.foldl (fun w u => if u.1 = e.2 then w ^^^ u.2 else w) e.1

/-- What reaches the check at each place: the word that was built, upset by a fault; beyond the block, the fault's own word. -/
def upsetWords (l : List W40) (ups : List (Nat × W40)) : List (W40 × W40) :=
  l.zip (upsetOf l ups) ++ (ups.filter fun u => decide (l.length ≤ u.1)).map fun u => (0, u.2)

/-- The seal check accepts every word. The fill generator's output is the idle code at an idle-fill position and zero at any other
(R166, R531). -/
def sealsOk (clear : Bool) (l : List W40) (ups : List (Nat × W40)) : Bool :=
  (upsetWords l ups).all fun e => sealOk clear (if e.1.kind = 3 then e.1.payload else 0) e.2

end Sys2Proof.Machine
end

