-- ==== Sys2Proof/Machine/Circuits.lean ====
section
/-!
DEFINITION. Machine/Circuits.lean: the operations over circuits: Slot Maps and sub-circuit numbers (R164 to R167), admission
and the enable checks (R87, R142, R160), hold budgets (R248 to R250), the fill log (R494), losing blocks (R55, R247), removal
(R162), and the start and end of a circuit's service.
-/
namespace Sys2Proof.Machine

/-! ## Slot Maps -/

/-- A Slot Map bank: false A, true B. -/
def Chan.bank (x : Chan) (b : Bool) : Table (BitVec 16) := if b then x.map.bankB else x.map.bankA

/-- A Slot Map entry. -/
def Chan.slot (x : Chan) (b : Bool) (i : Nat) : BitVec 16 := tget 0 (x.bank b) i

/-- V of an entry. -/
def slotV (e : BitVec 16) : Bool := e.getLsbD 15
/-- ROLE of an entry. -/
def slotRole (e : BitVec 16) : Nat := e.toNat / 8192 % 4
/-- CIRC of an entry. -/
def slotCirc (e : BitVec 16) : Nat := e.toNat % 8192

/-- The timeslots of a tributary whose role the format fixes as framing (R165). -/
def framingSlot (kind tfmt s : Nat) : Bool := decide (kind = 8) && (decide (s = 0) || (decide (s = 16) && decide (tfmt = 1 ∨ tfmt = 3)))

/-- The configured fractional circuits of a tributary. -/
def Chan.tribCircs (x : Chan) (kind : Nat) (p : Pos) : List (Nat × Circ) :=
  x.circ.filter fun e => decide (e.2.kind = kind ∧ e.2.pos = p)

/-- TFMT of a tributary: that of its lowest configured circuit, 7 with none (R488). -/
def Chan.tribTfmt (x : Chan) (kind : Nat) (p : Pos) : Nat :=
  match x.tribCircs kind p with
  | [] => 7
  | e :: _ => e.2.tfmt

/-- The Slot Map entries of a tributary's timeslots, framing timeslots left out. -/
def Chan.tribSlots (x : Chan) (b : Bool) (kind : Nat) (p : Pos) : List (Nat × BitVec 16) :=
  ((List.range (tuWidth kind)).filter fun s => !framingSlot kind (x.tribTfmt kind p) s).map fun s =>
    (s, x.slot b (posIndex kind p + s))

/-- The circuits numbered on a tributary under a bank, in ascending order of their lowest payload timeslot (R167). -/
def Chan.subs (x : Chan) (b : Bool) (kind : Nat) (p : Pos) : List Nat :=
  (x.tribSlots b kind p).foldl (fun acc e =>
    if slotV e.2 && decide (slotRole e.2 = 0) && !acc.contains (slotCirc e.2) then acc ++ [slotCirc e.2] else acc) []

/-- The number of a circuit on its tributary under a bank, from 1; 0 where it owns no payload slot. -/
def Chan.subNo (x : Chan) (b : Bool) (n : Nat) (c : Circ) : Nat :=
  match (x.subs b c.kind c.pos).idxOf? n with
  | none => 0
  | some i => i + 1

/-- Timeslots of a role that a circuit owns on its own tributary. -/
def Chan.ownSlots (x : Chan) (b : Bool) (role n : Nat) (c : Circ) : Nat :=
  ((x.tribSlots b c.kind c.pos).filter fun e => slotV e.2 && decide (slotRole e.2 = role ∧ slotCirc e.2 = n)).length

/-- The most payload bytes a block of a circuit can hold under a bank (R58, R66). -/
def Chan.payMost (x : Chan) (b : Bool) (n : Nat) (c : Circ) : Nat :=
  if isFrac c.kind then x.ownSlots b 0 n c * (if c.kind = 9 then 33 else 17) else ((x.kindOf c).map (·.payload)).getD 0

/-- A circuit owns a reclaim slot outside its tributary (R87). -/
def Chan.strayReclaim (x : Chan) (b : Bool) (n : Nat) (c : Circ) : Bool :=
  (x.bank b).any fun e => slotV e.2 && decide (slotRole e.2 = 1 ∧ slotCirc e.2 = n)
    && !decide (posIndex c.kind c.pos ≤ e.1 ∧ e.1 < posIndex c.kind c.pos + tuWidth c.kind)

/-! ## Admission (R86, R87) -/

/-- C_min of a circuit that owns `no` as its number and `rs` reclaim slots. -/
def cminOf (k : Kind) (kind no rs : Nat) : Nat :=
  if !isFrac kind then k.cmin
  else if no = 0 then 0
  else if no = 1 then k.cmin
  else rs * (if kind = 8 then 120 else 248)

/-- The admission test of R87 under a bank: none for admitted, or the reason. -/
def Chan.admission (x : Chan) (b : Bool) (n : Nat) (c : Circ) : Option Nat :=
  match x.kindOf c with
  | none => some rReclaimShort
  | some k =>
    if c.tag ≠ k.tag128 then some rTagLen
    else
      let no := if isFrac c.kind then x.subNo b n c else 0
      if isFrac c.kind ∧ 5 ≤ no then some rReclaimShort
      else if isFrac c.kind ∧ 2 ≤ no ∧ x.strayReclaim b n c then some rReclaimShort
      else if cminOf k c.kind no (x.ownSlots b 1 n c) < k.spend + k.trailerBits then some rReclaimShort
      else none

/-! ## The enable checks (R160) -/

/-- Position check of R140 and R142. -/
def Chan.posBad (x : Chan) (n : Nat) (c : Circ) : Bool :=
  !posLegal (x.rate .red) n c.kind c.pos
    || x.circ.any fun e => decide (e.1 ≠ n) && e.2.en && (capClash c e.2 || tugClash c e.2)

/-- A TFMT is valid for a fractional kind (R151). -/
def tfmtValid (kind tfmt : Nat) : Bool := if kind = 8 then decide (tfmt ≤ 3) else decide (tfmt = 4 ∨ tfmt = 5)

/-- Another circuit that owns payload slots on the tributary differs in TFMT, D_ENC or D_DEC (R160). -/
def Chan.tribMismatch (x : Chan) (n : Nat) (c : Circ) : Bool :=
  !tfmtValid c.kind c.tfmt || (x.subs x.map.enc c.kind c.pos).any fun m =>
    decide (m ≠ n) && (let d := tget {} x.circ m; decide (d.tfmt ≠ c.tfmt ∨ d.dEnc ≠ c.dEnc ∨ d.dDec ≠ c.dDec))

/-- DIFF_ALLOW (R259), in tenths of a nanosecond. -/
def Chan.diffAllow (x : Chan) : Nat := clamp 0 32000 (fieldOf (x.reg 0x6000) 14 0) * 10000

/-- A delay below its minimum (R234). -/
def Chan.delayShort (x : Chan) (c : Circ) : Bool :=
  match x.kindOf c with
  | none => false
  | some k => decide (c.dEnc < k.encMin ∨ c.dDec < k.bDec + x.diffAllow)

/-- The checks of an enable in their order (R160): none for accepted, or the reason. -/
def Chan.enableCheck (x : Chan) (n : Nat) (c : Circ) : Option Nat :=
  if (x.kindOf c).isNone then some rReclaimShort
  else if c.drain then some rMapBusy
  else if isFrac c.kind ∧ x.map.pending then some rMapBusy
  else if x.posBad n c then some rPosInvalid
  else
    match x.admission x.map.enc n c with
    | some r => some r
    | none =>
      if isFrac c.kind ∧ x.tribMismatch n c then some rTribMismatch
      else if x.circ.any fun e => decide (e.1 ≠ n) && e.2.en && decide (e.2.kctx = c.kctx ∧ e.2.lcid = c.lcid) then some rLcidDup
      else if x.delayShort c then some rDelayShort
      else if !isFrac c.kind ∧ c.tfmt ≠ 0 then some rTribMismatch
      else none

/-! ## Hold budgets (R248 to R250) -/

/-- What a circuit reserves in each decrypt commit buffer: r_c × B_dec, in bits × 10^10. -/
def Chan.need (x : Chan) (b : Bool) (n : Nat) (c : Circ) : Nat :=
  share249 (x.rate .red) (x.ownSlots b 0 n c + x.ownSlots b 1 n c) c.kind * ((x.kindOf c).map (·.bDec)).getD 0

/-- What every circuit of a channel reserves. -/
def Chan.reservedSum (x : Chan) : Nat := (x.circ.map fun e => e.2.reserved).sum

/-- Capacity of a decrypt commit buffer, 40 Mbit (R248). -/
def cbCapacity : Nat := 41943040 * 10000000000

/-- A circuit's holds fit (R248, R250). -/
def Chan.holdsFit (x : Chan) (b : Bool) (n : Nat) (c : Circ) : Bool :=
  delaysFit (x.rate .red) c.dEnc (x.window c) && decide (x.reservedSum - c.reserved + x.need b n c ≤ cbCapacity)

/-! ## The fill log and its counters (R262, R494) -/

/-- A fill event of one block: FILL_ENC (0), BROKEN_ENC (1) or FILL_DEC (2) counts, and the log takes an entry. -/
def Hw.fill (h : Hw) (c : ChanId) (k : CircId) (dec : Bool) (ctr cause : Nat) : Hw :=
  let h := h.count c 0x11 (4 * ctr) 1
  let p := h.chReg c 0x6018
  let nx := fieldOf p 5 0
  let w := BitVec.ofNat 32 (b2n dec * 2 ^ 31 + cause % 16 * 2 ^ 27 + h.dev.sys.toNat / 2 ^ 24 % 2 ^ 14 * 2 ^ 13 + k.toNat)
  let h := h.setChReg c (0x6100 + 4 * nx) w
  let h := h.setChReg c 0x6018 (withField (withField p 31 8 (satAdd (2 ^ 24 - 1) (fieldOf p 31 8) 1)) 5 0 (nx + 1))
  h.evLat c 0x00100000

/-! ## Losing work -/

/-- A block of the encrypt side is lost: broken when part of it was released, which keeps its released words, else vanished (R55,
R247). Of several causes the lowest code stands (R494). -/
def EncBlk.lose (cause : BitVec 4) (b : EncBlk) : EncBlk :=
  if b.lost ≠ 0 then { b with cause := if cause.toNat < b.cause.toNat ∧ cause ≠ 0 then cause else b.cause }
  else { b with lost := if b.started then 2 else 1, cause := if b.started then 2 else cause, trailer := []
                body := if b.started then b.body.take (4 * b.sent) else [] }

/-- The encrypt blocks of a circuit that meet a test are lost; the successor of a lost last block carries a null trailer
(R54). -/
def Circ.loseEnc (x : Circ) (sel : EncBlk → Bool) (cause : BitVec 4) : Circ :=
  let enc := x.enc.map fun b => if sel b then b.lose cause else b
  { x with
    enc := (enc.zip ((none : Option EncBlk) :: enc.map some)).map fun e =>
      match e.2 with
      | some q => if q.lost ≠ 0 then { e.1 with carries := [] } else e.1
      | none => e.1
    prevTrailer := match enc.getLast? with
      | some b => if b.lost ≠ 0 then [] else x.prevTrailer
      | none => x.prevTrailer }

/-- The deep-store entries of a circuit are freed; their release points will emit fill (R254). Of several causes the lowest code
stands (R494). -/
def Chan.freeStore (x : Chan) (sel : DsEnt → Bool) (cause : BitVec 4) : Chan :=
  { x with store := x.store.map fun e =>
      if sel e then { e with freed := if e.freed = 0 ∨ cause.toNat < e.freed.toNat then cause else e.freed, body := [] } else e }

/-- A receive path of a circuit that is not delineating. The replay windows and KEP stay (R191), and CARRIAGE_BROKEN, which only a
run of 8 good blocks clears (R91). -/
def RxPath.halt (r : RxPath) : RxPath := { winE := r.winE, winO := r.winO, kep := r.kep, cb := r.cb, rd := r.rd }

/-- A receive path of a circuit whose delineation starts, the carriage check with it (R91, R161). -/
def RxPath.begin_ (r : RxPath) : RxPath := { r.halt with blk := .hunt, checking := true }

/-- Both receive paths of a circuit. -/
def Circ.onPaths (x : Circ) (f : RxPath → RxPath) : Circ := { x with w := f x.w, p := f x.p }

/-- One receive path of a circuit. -/
def Circ.rx (x : Circ) : Path → RxPath
  | .bkw => x.w | .bkp => x.p

/-- Change one receive path of a circuit. -/
def Circ.onRx (x : Circ) (p : Path) (f : RxPath → RxPath) : Circ :=
  match p with
  | .bkw => { x with w := f x.w } | .bkp => { x with p := f x.p }

/-- The anchor of a circuit is cleared (R240), and LEAD with it (R261). The differential delay stays: it is kept as BKP less
BKW, whichever path is the anchor (log entry 24). -/
def Circ.unanchor (x : Circ) : Circ :=
  { x with anchor := none, gap := none, dovfRun := 0, lead := false, misses := 0, verifiedSinceMiss := false }

/-! ## Units that watch a circuit -/

/-- The base of unit u's registers (R500). -/
def cvuReg (u : Nat) : Nat := 0xA100 + 0x20 * u

/-- INIT of a unit, held to WIDTH (R337, R344). -/
def Chan.cvuInit (x : Chan) (u : Nat) : Word :=
  x.reg (cvuReg u + 8) &&& fieldMask (fieldOf (x.reg (cvuReg u)) 24 20) 0

/-- The check-value units that follow a circuit in checkpoint mode restart at INIT (R342). -/
def Chan.cvuDrop (x : Chan) (sel : Nat → Bool) : Chan :=
  { x with cvu := { x.cvu with unit := Vector.ofFn fun u : Fin 8 =>
      let w := x.reg (cvuReg u.val)
      let y := x.cvu.unit[u.val]
      if (bitOf w 30 == false) && decide (fieldOf w 29 28 ≤ 1) && sel (fieldOf w 12 0) then { y with run := x.cvuInit u.val } else y } }

/-! ## Clear mode -/

/-- Clear mode of a circuit changes: CLEAR is raised, and CPH_EVT.CLEAR set (R224, R491). A circuit in clear mode takes its SEQs from
the slot that TXP names (R222). -/
def Hw.setClear (h : Hw) (c : ChanId) (k : CircId) (on : Bool) : Hw :=
  let old := ((h.chan c).circ! k).clear
  let h := h.onCirc c k fun y => { y with clear := on, clearNext := none, odd := if on then ((h.chan c).ctx! y.kctx).txp else y.odd }
  if old = on then h
  else (h.raiseChan c 5 clsN 0x27 (k.toNat + (if on then 2 ^ 23 else 0))).evCph c 0x00020000

/-! ## Starting and stopping the service of a circuit -/

/-- A circuit's service is cut: its work in flight vanishes on both sides (R162, R362), its anchor is cleared, the units
that follow it restart, and its clear mode ends (R224, R240, R342). -/
def Hw.cutCirc (h : Hw) (c : ChanId) (k : CircId) (cause : BitVec 4) : Hw :=
  let h := h.setClear c k false
  h.onChan c fun x =>
    let x := x.freeStore (fun e => decide (e.circ = k)) cause
    let x := x.setCirc k (((((x.circ! k).loseEnc (fun _ => true) cause).onPaths RxPath.halt).unanchor))
    (x.ksFlushAll fun r => decide (r.circ = k)).cvuDrop fun n => decide (n = k.toNat)

/-- The state of a circuit whose service starts or starts again: the encrypt side waits for its first block boundary, and
the role guard, delineation and the carriage check begin (R161, R195). -/
def Circ.begin_ (x : Circ) : Circ :=
  { (x.onPaths RxPath.begin_).unanchor with
    live := false, starved := false, guard := true, prevTrailer := [], ge := none, ectAcc := 0, switched := false }

/-- The channel is under an H or a D quarantine (R363, R364). -/
def Chan.quarantined (x : Chan) : Bool := x.flt.hQuar || x.flt.underD

/-- A circuit's service is possible: enabled, not starved and under no quarantine. -/
def Chan.serves (x : Chan) (k : CircId) : Bool :=
  let y := x.circ! k
  x.isActive && y.en && !y.starved && !y.quar && !x.quarantined

/-- A circuit that an enable has accepted, or that is retried, reserves its holds or is starved (R250). -/
def Hw.reserve (h : Hw) (c : ChanId) (k : CircId) : Hw :=
  let x := h.chan c
  let y := x.circ! k
  if x.holdsFit x.map.enc k.toNat y then
    h.onCirc c k fun y =>
      let y := { y with reserved := x.need x.map.enc k.toNat y }
      if x.quarantined then { y.begin_ with w := y.w.halt, p := y.p.halt } else y.begin_
  else
    ((h.onCirc c k fun y => { (y.onPaths RxPath.halt).unanchor with starved := true, live := false, reserved := 0 }).raiseChan c 6 clsN 0x30 k.toNat).evLat c
      0x00400000

/-- Starved circuits are retried in ascending circuit number (R250): those whose holds fit start. -/
def Hw.retryStarved (h : Hw) (c : ChanId) : Hw :=
  (h.chan c).circ.foldl (fun h e =>
    let x := h.chan c
    let y := tget {} x.circ e.1
    if y.en && y.starved && x.holdsFit x.map.enc e.1 y then h.reserve c (BitVec.ofNat 13 e.1) else h) h

/-- ESEQ of a slot. -/
def Circ.eseq (x : Circ) (odd : Bool) : Seq := if odd then x.eseqO else x.eseqE

/-- An accepted enable (R147, R158, R190, R250). -/
def Hw.enable (h : Hw) (c : ChanId) (k : CircId) : Hw :=
  let h := h.onCirc c k fun y =>
    let z := (h.chan c).ctx! y.kctx
    { y.setEn true with
      odd := z.txp
      quar := false, clear := false, clearNext := none, aged := false, stopped := false, diffs := [], delta := none, dovf := false,
      eseqE := if y.eseqE < z.floorE then z.floorE else y.eseqE,
      eseqO := if y.eseqO < z.floorO then z.floorO else y.eseqO }
  h.reserve c k

/-- Count of circuits of a channel that meet a test. -/
def Chan.countCirc (x : Chan) (f : Circ → Bool) : Nat := (x.circ.filter fun e => f e.2).length

/-- A removal (R162): the circuit's work is cut, its quarantine ends, DRAIN is set, and starved circuits are retried. Its
CARRIAGE_BROKEN status ends with it: it is a status of an enabled circuit (DESIGN CHOICE, log entry 78). -/
def Hw.remove (h : Hw) (c : ChanId) (k : CircId) : Hw :=
  let y := (h.chan c).circ! k
  let h := h.cutCirc c k 5
  let h := h.onCirc c k fun y =>
    { (y.onPaths fun r => { r with cb := false }).setEn false with
      live := false, quar := false, starved := false, drain := true, reserved := 0, kaLeft := 0, guard := true }
  let h := if y.w.cb || y.p.cb then h.evRcl c 0x00800000 else h
  h.retryStarved c

/-! ## Levels of the data buffers (R258) -/

/-- KiB held by a number of bytes, rounded up. -/
def kib (n : Nat) : Nat := (n + 1023) / 1024

/-- The levels of the encrypt commit buffer, the decrypt commit buffers, the deep store and the keystream queues follow what they
hold. -/
def Hw.levels (h : Hw) (c : ChanId) : Hw :=
  let x := h.chan c
  let pay := fun (y : Circ) => ((x.kindOf y).map (·.payload)).getD 0
  let enc := (x.circ.map fun e => (e.2.enc.map fun b => b.body.length).sum).sum
  let w := (x.circ.map fun e => (e.2.w.open_.length + e.2.w.wait.length) * pay e.2).sum
  let p := (x.circ.map fun e => (e.2.p.open_.length + e.2.p.wait.length) * pay e.2).sum
  let ds := (x.store.map fun e => e.body.length).sum
  let h := (((h.level c 6 (kib enc)).level c 7 (kib w)).level c 8 (kib p)).level c 9 (kib ds)
  ((h.level c 10 (ksLevel x.cph.ks[0])).level c 11 (ksLevel x.cph.ks[1])).level c 12 (ksLevel x.cph.ks[2])

end Sys2Proof.Machine
end

