-- ==== Sys2Proof/Machine/Checks.lean ====
section
/-!
DEFINITION. Machine/Checks.lean: the stage checks (R329 to R334, R376, R501) and the programmable check-value units (R337 to
R342).
-/
namespace Sys2Proof.Machine

/-! ## Stage checks -/

/-- The fold of a check of `w` bits: the exclusive or of the `w`-bit pieces of V from bit 0 upward (R331). -/
def fold331 : Nat → Nat → Nat → Nat
  | 0, _, _ => 0
  | n + 1, w, v => (v % 2 ^ w) ^^^ fold331 n w (v / 2 ^ w)

/-- V of a block check: LCID, then SEQ or the block's index on its path (R329). -/
def blockV (lcid seq : Nat) : Nat := lcid % 2 ^ 24 * 2 ^ 40 + seq % 2 ^ 40

/-- A check whose unit is a chunk of lane words (R329). -/
def isChunk (k : Fin 16) : Bool := decide (k.val ≤ 2 ∨ 13 ≤ k.val)

/-- A check whose mismatch discards data (R329). -/
def discards (k : Fin 16) : Bool := decide (k.val ∈ [3, 4, 5, 7, 8, 9, 10, 11])

/-- INJ_REACT (R358). -/
def Hw.injReact (h : Hw) : Bool := bitOf (h.devReg 0x4000) 31

/-- A message with INJ set, raised by a unit whose check value was inverted (R376). -/
def Hw.raiseInj (h : Hw) (c : ChanId) (unit cls kind addr : Nat) : Hw :=
  if (h.chan c).raises then h.raiseAny (mkMsg c.val unit cls kind addr ||| 0x8000#64) else h

/-- Check `k` of a channel fails for a circuit: it is counted, reported and raised (R332, R333, R501). An injected failure
counts in STG_ERR only while INJ_REACT is 1 (R376). -/
def Hw.stageFail (h : Hw) (c : ChanId) (circ : CircId) (k : Fin 16) (sealed inj : Bool) : Hw :=
  let addr := if isChunk k then k.val else circ.toNat
  let h := if inj && !h.injReact then h else h.count c 0x13 k.val 1
  let h := h.setChReg c (0xA040 + 4 * k.val) (BitVec.ofNat 32 (b2n inj * 2 ^ 13 + addr))
  let h := h.evCvu c (if sealed then 0x00A00000 else 0x00800000)
  let raise := if inj then h.raiseInj c 10 else h.raiseChan c 10
  if isChunk k then raise clsH 0x51 addr else if sealed then raise clsH 0x52 addr else raise clsC 0x50 addr

/-- The parameters of a unit (R337, R343, R344). -/
structure CvuPar where
  width : Nat
  poly : Nat
  init : Nat
  xorout : Nat
  refin : Bool
  refout : Bool
deriving DecidableEq, Repr

/-- One bit into a CRC register. -/
def crcBit (p : CvuPar) (r : Nat) (b : Bool) : Nat :=
  let top := r.testBit (p.width - 1) != b
  let s := r * 2 % 2 ^ p.width
  if top then s ^^^ p.poly else s

/-- The polynomial of a check as the channel's last start took it (R330, R336). -/
def Chan.stagePar (x : Chan) (k : Fin 16) : CvuPar :=
  let p := fieldOf x.cvu.poly (2 * k.val + 1) (2 * k.val)
  let wp : Nat × Nat := if p = 0 then (8, 0x07) else if p = 1 then (16, 0x1021) else if p = 2 then (24, 0x5D6DCB) else (32, 0x1EDC6F41)
  { width := wp.1, poly := wp.2, init := 0, xorout := 0, refin := false, refout := false }

/-- The words a check covers (R329). -/
def covers (k : Fin 16) (w : W40) : Bool :=
  if k = 4 then decide (w.kind = 0 ∨ w.kind = 2) else if k = 5 ∨ (7 ≤ k.val ∧ k.val ≤ 12) then decide (w.kind = 0) else true

/-- The bits of a word that enter a check value: [39:3] and [1:0], most significant first (R330). -/
def stageBits (w : W40) : List Bool := bitsOf 37 (w.toNat / 8) ++ bitsOf 2 w.toNat

/-- A check value: the covered words, from the fold of V (R330, R331). -/
def stageCrc (p : CvuPar) (k : Fin 16) (v : Nat) (l : List W40) : Nat :=
  ((l.filter (covers k)).flatMap stageBits).foldl (crcBit p) (fold331 8 p.width v)

/-- V of a unit: LCID, then SEQ or the block's index on its path; of a chunk, the lane fold (R329). -/
def stageV (c : ChanId) (k : Fin 16) (lcid idx : Nat) (u : StageUnit) : Nat :=
  if isChunk k then (0xFF0000 + 256 * c.val + (if k.val ≤ 2 then k.val else k.val - 13)) * 2 ^ 40 + u.index.toNat else blockV lcid idx

/-- A unit's check fails: the value recomputed over what left the span is not the one that travelled beside it (R329). -/
def Chan.stageBad (x : Chan) (c : ChanId) (lcid idx : Nat) (u : StageUnit) : Bool :=
  let p := x.stagePar u.check
  let v := stageV c u.check lcid idx u
  decide (stageCrc p u.check (v ^^^ u.stray.toNat) (upsetOf u.words u.upsets) ≠ stageCrc p u.check v u.words ^^^ (u.side.toNat % 2 ^ p.width))

/-- Checks 3 and 4 saw a word with SEAL 1 (R333). -/
def stageSealed (u : StageUnit) : Bool := decide (u.check = 3 ∨ u.check = 4) && (upsetOf u.words u.upsets).any W40.seal

/-- The checks of a block of a circuit, `idx` its SEQ or its index on its path: the units presented with it, and an armed inversion
whose check is generated here (R376). The flag says that the unit's data is discarded. -/
def Hw.stages (h : Hw) (c : ChanId) (circ : CircId) (idx : Nat) (gen : List (Fin 16)) (res : List StageUnit) : Bool × Hw :=
  let x := h.chan c
  let lcid := (x.circ! circ).lcid
  let bad := res.filter fun u => x.stageBad c lcid idx u || stageSealed u
  let h := bad.foldl (fun h u => h.stageFail c circ u.check (stageSealed u) false) h
  let cut := bad.any fun r => discards r.check
  match (h.chan c).cvu.inj with
  | some k =>
    if gen.contains k then
      let h := h.onChan c fun x => { x with cvu := { x.cvu with inj := none } }
      let h := h.onChan c fun x => x.setReg 0xA004 (withField (x.reg 0xA004) 31 31 0)
      (cut || (discards k && h.injReact), h.stageFail c circ k false true)
    else (cut, h)
  | none => (cut, h)

/-! ## Programmable units -/

/-- The parameters of unit `u`. -/
def Chan.cvuPar (x : Chan) (u : Nat) : CvuPar :=
  let w := x.reg (cvuReg u)
  let n := fieldOf w 24 20 + 1
  { width := n, poly := (x.reg (cvuReg u + 4)).toNat % 2 ^ n, init := (x.reg (cvuReg u + 8)).toNat % 2 ^ n
    xorout := (x.reg (cvuReg u + 0xC)).toNat % 2 ^ n, refin := bitOf w 26, refout := bitOf w 25 }

/-- One byte into a CRC register, least significant bit first with REFIN (R337). -/
def crcByte (p : CvuPar) (r : Nat) (b : Byte) : Nat :=
  (List.range 8).foldl (fun r i => crcBit p r (b.getLsbD (if p.refin then i else 7 - i))) r

/-- A byte string into a CRC register. -/
def crcRun (p : CvuPar) (r : Nat) (l : List Byte) : Nat := l.foldl (crcByte p) r

/-- A result: the register, reflected with REFOUT, then XOROUT (R337). -/
def crcResult (p : CvuPar) (r : Nat) : Nat :=
  (if p.refout then (List.range p.width).foldl (fun a i => a * 2 + b2n (r.testBit i)) 0 else r) ^^^ p.xorout

/-- A context latches a result; one not yet read is overwritten (R341). -/
def CvuCtx.latch (k : CvuCtx) (seq : Seq) (v : Nat) : CvuCtx :=
  { k with seq := seq, val := BitVec.ofNat 32 v, valid := true, ovr := k.ovr || k.unread, unread := true }

/-- A unit after a block of a circuit has passed its snoop point (R339, R340), and whether a result was overwritten. -/
def Cvu.block (u : Cvu) (p : CvuPar) (ctl : Word) (circ : CircId) (seq : Seq) (l : List Byte) : Cvu × Bool :=
  let full := crcRun p p.init l
  if bitOf ctl 30 then
    let hit := fun (k : CvuCtx) => k.cen && decide (k.circ = circ)
    ({ u with ctx := u.ctx.map fun k => if hit k then k.latch seq (crcResult p full) else k },
      u.ctx.toList.any fun k => hit k && k.unread)
  else if decide (fieldOf ctl 12 0 = circ.toNat) then
    if bitOf ctl 27 then
      ({ u with run := BitVec.ofNat 32 full, ctx := u.ctx.set 0 ((u.ctx[0]).latch seq (crcResult p full)) }, (u.ctx[0]).unread)
    else ({ u with run := BitVec.ofNat 32 (crcRun p u.run.toNat l) }, false)
  else (u, false)

/-- A block of a circuit passes snoop point 0 or 1: every unit that is on and snoops there takes it (R338). -/
def Hw.cvuBlock (h : Hw) (c : ChanId) (point : Nat) (circ : CircId) (seq : Seq) (l : List Byte) : Hw :=
  let x := h.chan c
  let on := fun u : Fin 8 => let w := x.reg (cvuReg u.val); bitOf w 31 && decide (fieldOf w 29 28 = point)
  let out := fun u : Fin 8 => (x.cvu.unit[u]).block (x.cvuPar u.val) (x.reg (cvuReg u.val)) circ seq l
  let h := h.onChan c fun x => { x with cvu := { x.cvu with unit := Vector.ofFn fun u => if on u then (out u).1 else x.cvu.unit[u] } }
  if (List.finRange 8).any fun u => on u && (out u).2 then h.evCvu c 0x00400000 else h

/-- A unit in checkpoint mode is on and snoops at a point. -/
def snoops (w : Word) (point : Nat) : Bool := bitOf w 31 && !bitOf w 30 && decide (fieldOf w 29 28 = point)

/-- Words of the red receive lane pass RED_RX (R338): every unit that snoops there takes their bytes. -/
def Hw.cvuLine (h : Hw) (c : ChanId) (l : List Byte) : Hw :=
  h.onChan c fun x =>
    let next := fun u : Fin 8 =>
      if snoops (x.reg (cvuReg u.val)) 2 then
        { x.cvu.unit[u] with run := BitVec.ofNat 32 (crcRun (x.cvuPar u.val) (x.cvu.unit[u]).run.toNat l) }
      else x.cvu.unit[u]
    { x with cvu := { x.cvu with unit := Vector.ofFn next } }

/-- Words pass RED_TX: the transmit line's words are not held whole, so the running value of a unit that snoops there is a free
value (log entry 12). -/
def Hw.cvuWords (h : Hw) (c : ChanId) (point : Nat) : Hw :=
  (List.finRange 8).foldl (fun h u =>
    let w := (h.chan c).reg (cvuReg u.val)
    if snoops w point then
      let d := h.draw
      d.2.onChan c fun x => { x with cvu := { x.cvu with unit := x.cvu.unit.set u.val { x.cvu.unit[u.val] with
        run := (d.1.truncate 32) &&& fieldMask (fieldOf w 24 20) 0 } } }
    else h) h

/-- The red lane's episode begins, commits or rewinds: the units at ENC_PT keep, drop or restore their values (R246, R342). -/
def CvuSt.open_ (s : CvuSt) : CvuSt := { s with ckpt := some s.unit }

/-- The episode rewinds. -/
def Chan.cvuRewind (x : Chan) : Chan :=
  match x.cvu.ckpt with
  | none => x
  | some old => { x with cvu := { x.cvu with
      ckpt := none
      unit := Vector.ofFn fun u : Fin 8 => if fieldOf (x.reg (cvuReg u.val)) 29 28 = 0 then old[u] else x.cvu.unit[u] } }

end Sys2Proof.Machine
end

