-- ==== Sys2Proof/Machine/Collect.lean ====
section
/-!
DEFINITION. Machine/Collect.lean: the history (R352, R353), resets of masters (R422, R439), and Midwinter (R371 to R374).
-/
namespace Sys2Proof.Machine

/-! ## History -/

/-- An entry goes into the ring of 32, and DEV.FCL_HSTAT reports it (R352, R353). -/
def Fcl.log (f : Fcl) (e : Hist) : Fcl :=
  { f with
    hist := (e :: f.hist).take 32
    hseq := f.hseq + 1
    hNew := true
    hOvwr := f.hOvwr || decide (f.unread = 32)
    unread := min 32 (f.unread + 1) }

/-- A history entry is written; its source is device source 32. -/
def Hw.log (h : Hw) (e : Hist) : Hw := (h.onFcl (·.log e)).notify 608

/-! ## Resets of masters -/

/-- A burst in progress ends: DEV.BMX_ABORT and DEV.BMX_ABORT_ADDR latch it, and MASTER_ABORT is raised (R439). -/
def Hw.abortBurst (h : Hw) (mid : Nat) (b : Option Burst) : Hw :=
  match b with
  | none => h
  | some b =>
    let w := h.devReg 0x5018
    let h := h.setDevReg 0x5018 (BitVec.ofNat 32 ((fieldOf w 31 24 + 1) % 256 * 2 ^ 24 + mid * 2 ^ 20 + min 65535 b.beats))
    let h := h.setDevReg 0x501C b.addr
    (h.devEvent 0x5020 41 0x00800000).raiseSpine 19 clsN 0x61 (mid * 2 ^ 20 + min 255 b.beats)

/-- A submitter's bank after its reset: completions not yet popped are dropped, and their credits return (R422). -/
def CmdBank.drop (b : CmdBank) : CmdBank := { b with cpl := [], latch := none, used := b.used - b.cpl.length }

/-- A queue after the reset of a submitter: its commands run on, and their completions will be dropped (R422). -/
def CmdQ.drop (q : CmdQ) (m : Master) : CmdQ :=
  let mark := fun (x : Cmd) => if x.by_ = m then { x with dropped := true } else x
  { (q.onBank m CmdBank.drop) with wait := q.wait.map mark, run := q.run.map mark }

/-- The flash window after its owner has reset: an operation in progress completes first (R470). -/
def Flw.ownerReset (w : Flw) (own : BitVec 3) : Flw :=
  if w.owner ≠ own then w else if w.busy then { w with releaseWaits := true } else { w with owner := 0 }

/-- A function's master resets (R422): its bank, completions, port ownership, route bank and MSI-X table; its PEND latches are
cleared (R452), its vectors' hold-offs stay. The state of no channel, key, circuit or record changes. -/
def Hw.resetFunc (h : Hw) (f : Func) (b : Option Burst) : Hw :=
  let m := f.toMaster
  let h := h.abortBurst m.id b
  let h := h.onDev fun d =>
    let d := d.onBank m fun _ => {}
    let d := d.onFunc f fun x => { hold := x.hold, sentAt := x.sentAt, sent := x.sent }
    { d with q := d.q.drop m, flw := d.flw.ownerReset (BitVec.ofNat 3 m.id) }
  let h := h.onAll fun _ x =>
    { x with q := x.q.drop m, map := if m = .pf0 ∧ x.map.tpOwner = 1 then { x.map with tpOwner := 0 } else x.map }
  (List.finRange 48).foldl (fun h c => if (h.chan c).q = {} then h else h.qLevels (.chan c)) h

/-- The link goes down: both function masters reset (R422). -/
def Hw.linkDrop (h : Hw) (b0 b1 : Option Burst) : Hw :=
  let h := (h.resetFunc .f0 b0).resetFunc .f1 b1
  h.onDev fun d => { d with link := { d.link with up := false, training := false, speed := 0, width := 0 } }

/-! ## Midwinter -/

/-- A command that holds no blob any more. -/
def Cmd.blank (x : Cmd) : Cmd := { x with blob := [] }

/-- A circuit whose datapath has stopped for good: its table entry stays, and nothing runs. -/
def Circ.dead (x : Circ) : Circ := { w0 := x.w0, w1 := x.w1, w2 := x.w2, w3 := x.w3, quar := x.quar }

/-- A channel in Midwinter: every key, unwrapped blob and keystream entry is zeroized, its transmitters are idle, its Malot
halts and its datapath stops (R199, R372). -/
def Chan.freeze (x : Chan) : Chan :=
  { x with
    squelch := true
    circ := x.circ.map fun e => (e.1, e.2.dead)
    store := []
    cph := { x.cph with kbuf := [], ks := Vector.replicate 3 [], ctx := [], armed := false }
    q := { x.q with wait := x.q.wait.map Cmd.blank, run := x.q.run.map Cmd.blank }
    mlt := { x.mlt with run := false } }

/-- Midwinter is entered from any state from FUSE_SENSE on (R371, R372): zeroization and the idle outputs, the link down
(R411), then the trigger's history entry at LEVEL 4 and DEV.FCL_MW (R374). `esc` marks a trigger by escalation. -/
def Hw.midwinter (h : Hw) (m : BitVec 64) (ts : BitVec 40) (count : Nat) : Hw :=
  if h.dev.boot.st = .powerOff ∨ h.dev.boot.st = .supplyUp ∨ h.dev.boot.st = .midwinter then h
  else
    let h := (h.linkDrop none none).onAll fun _ x => x.freeze
    let h := h.onDev fun d =>
      { d with
        boot := { d.boot with st := .midwinter, inReset := false }
        kbuf := [], routing := false
        q := { d.q with wait := d.q.wait.map Cmd.blank, run := d.q.run.map Cmd.blank }
        stn := { d.stn with low := Vector.replicate 4 true }
        flw := {}
        link := { d.link with alive := false, mwUp := false } }
    let h := h.log { msg := m, ts := ts, level := 4, esc := decide (msgCls m ≠ clsM), merged := false, quiet := false, count := BitVec.ofNat 16 count }
    h.onFcl fun f => { f with mw := match f.mw with
      | some w => some w
      | none => some (BitVec.ofNat 12 (msgSrc m), BitVec.ofNat 8 (msgKind m), msgInj m) }

/-- A unit's own trigger of Midwinter (R371). -/
def Hw.trigger (h : Hw) (ch unit kind addr : Nat) : Hw :=
  h.midwinter (mkMsg ch unit clsM kind addr) (h.dev.sys.truncate 40) 0

end Sys2Proof.Machine
end

