-- ==== Sys2Proof/Machine/Layout.lean ====
section
/-!
DEFINITION. Machine/Layout.lean: where the payload, the reclaim sequence and the parity of a circuit stand in its container, bit by
bit: VC-12 (R60), VC-11 (R61), VC-3, VC-4 and VC-4-Nc (R63, R64), the ODU (R69, R70); what travels beside them (R149); and parity
regenerated with the far end's violations (R85, R121).

The byte structure of the containers is that of ITU-T G.707 and G.709 (log entry 72).
-/
namespace Sys2Proof.Machine

/-! ## Masks -/

/-- What a byte of a container holds: payload bits, and reclaim bits. -/
structure Mask where
  pay : Byte
  rcl : Byte
deriving DecidableEq, Repr

/-- A byte of a VC-12 multiframe, by subframe 0 to 3 and byte 1 to 35 (R58, R60). -/
def maskVc12 (sub byte : Nat) : Mask :=
  if byte = 1 then ⟨0, 0⟩
  else if byte = 35 then ⟨0, 0xFF⟩
  else if byte = 2 then (if sub = 0 then ⟨0, 0xFF⟩ else if sub = 3 then ⟨0x01, 0x3E⟩ else ⟨0, 0x3F⟩)
  else ⟨0xFF, 0⟩

/-- A byte of a VC-11 multiframe, by subframe 0 to 3 and byte 1 to 26 (R58, R61). -/
def maskVc11 (sub byte : Nat) : Mask :=
  if byte = 1 then ⟨0, 0⟩
  else if byte = 2 then (if sub = 0 then ⟨0, 0xFF⟩ else if sub = 3 then ⟨0x07, 0x38⟩ else ⟨0x02, 0x3D⟩)
  else ⟨0xFF, 0⟩

/-- A byte of a higher-order VC by row and column from 1, with fixed-stuff columns 2 to `n` (R58, R63, R64). -/
def maskHigh (n row col : Nat) : Mask :=
  if col = 1 then (if row = 5 ∨ row = 7 then ⟨0, 0xFF⟩ else ⟨0, 0⟩) else if col ≤ n then ⟨0, 0xFF⟩ else ⟨0xFF, 0⟩

/-- A byte of an ODU frame by row and column from 1 (R58, R69). -/
def maskOdu (row col : Nat) : Mask :=
  if 17 ≤ col ∨ (row = 4 ∧ col = 16) then ⟨0xFF, 0⟩ else if row = 4 ∧ col ≤ 4 then ⟨0, 0xFF⟩ else ⟨0, 0⟩

/-- Bytes of one frame, or multiframe, of a kind's container, and the frames of a block (R56); 0 where the kind has no container
of bytes. -/
def frameLen (k : Nat) : Nat :=
  if k = 1 ∨ k = 9 then 104 else if k = 2 ∨ k = 8 then 140 else if k = 3 then 765 else if k = 4 then 2349 else if k = 5 then 9396
  else if k = 6 then 37584 else if k = 7 then 150336 else if 0x0A ≤ k ∧ k ≤ 0x0C then 15296 else 0

/-- Frames in a block. -/
def blockFrames (k : Nat) : Nat :=
  if k = 1 ∨ k = 9 then 8 else if k = 2 ∨ k = 8 then 4 else if k = 3 ∨ k = 4 then 12 else if 5 ≤ k ∧ k ≤ 7 then 1
  else if 0x0A ≤ k ∧ k ≤ 0x0C then 8 else 0

/-- The mask of byte `i` of a frame of a kind. -/
def layoutOf (k i : Nat) : Mask :=
  if k = 1 ∨ k = 9 then maskVc11 (i / 26) (i % 26 + 1)
  else if k = 2 ∨ k = 8 then maskVc12 (i / 35) (i % 35 + 1)
  else if k = 3 then maskHigh 1 (i / 85 + 1) (i % 85 + 1)
  else if k = 4 then maskHigh 1 (i / 261 + 1) (i % 261 + 1)
  else if k = 5 then maskHigh 4 (i / 1044 + 1) (i % 1044 + 1)
  else if k = 6 then maskHigh 16 (i / 4176 + 1) (i % 4176 + 1)
  else if k = 7 then maskHigh 64 (i / 16704 + 1) (i % 16704 + 1)
  else maskOdu (i / 3824 + 1) (i % 3824 + 1)

/-- The masks of every byte of a block. -/
def masks (k : Nat) : List Mask := (List.range (blockFrames k * frameLen k)).map fun i => layoutOf k (i % frameLen k)

/-! ## Taking and placing bits -/

/-- The bits of a byte under a mask, bit [7] first. -/
def pickBits (m b : Byte) : List Bool := ((byteBits m).zip (byteBits b)).filterMap fun e => if e.1 then some e.2 else none

/-- The bits of a container under its masks, in transmission order (R46). -/
def takeBits (f : Mask → Byte) (ms : List Mask) (l : List Byte) : List Bool := (ms.zip l).flatMap fun e => pickBits (f e.1) e.2

/-- A byte with the bits under a mask replaced by the next of a bit string, and the rest of that string. -/
def putByte (m b : Byte) (bs : List Bool) : Byte × List Bool :=
  let r := ((byteBits m).zip (byteBits b)).foldl (fun (a : Nat × List Bool) e =>
    if e.1 then (a.1 * 2 + b2n (a.2.headD false), a.2.tail) else (a.1 * 2 + b2n e.2, a.2)) (0, bs)
  (BitVec.ofNat 8 r.1, r.2)

/-- A container with the bits under its masks replaced, in transmission order; bits beyond the string are 0. -/
def putBits (f : Mask → Byte) : List Mask → List Byte → List Bool → List Byte
  | m :: ms, b :: l, bs => let r := putByte (f m) b bs; r.1 :: putBits f ms l r.2
  | _, l, _ => l

/-- The payload string of a block: its payload bits packed, with the pad of a VC-12 zero (R46, R58, R59). -/
def payloadOf (k n : Nat) (l : List Byte) : List Byte := packBits n (takeBits Mask.pay (masks k) l)

/-- The reclaim sequence of a block (R46). -/
def reclaimOf (k : Nat) (l : List Byte) : List Bool := takeBits Mask.rcl (masks k) l

/-- A container with a payload and a reclaim sequence in place; every other bit passes unchanged (R149). -/
def placeBlock (k : Nat) (l pay : List Byte) (rec : List Bool) : List Byte :=
  let ms := masks k
  putBits Mask.rcl ms (putBits Mask.pay ms (fit (blockFrames k * frameLen k) l) (bytesBits pay)) rec

/-! ## The reclaim sequence (R47, R54) -/

/-- Bit `i` of the spare pattern: the repeating byte 0x5A, bit [7] first (R47). -/
def spareBit (i : Nat) : Bool := (0x5A : Byte).getLsbD (7 - i % 8)

/-- The spare pattern of `n` bits. -/
def sparePattern (n : Nat) : List Bool := (List.range n).map spareBit

/-- A reclaim sequence of `n` bits that carries a trailer of `tb` bytes, or a null one: the trailer's bits, then the spare
pattern (R47, R54). -/
def reclaimSeq (n tb : Nat) (trl : List Byte) : List Bool := fitBits n (bytesBits (fit tb trl) ++ sparePattern (n - 8 * tb))

/-- A received reclaim sequence: the trailer region's bytes, and whether the spare bits hold their pattern (R47, R91). -/
def splitReclaim (tb : Nat) (l : List Bool) : List Byte × Bool :=
  (packBits tb l, l.drop (8 * tb) == sparePattern (l.length - 8 * tb))

/-! ## Parity (R85, R94, R121, R149) -/

/-- BIP-8 of a byte string: even parity of each bit position. -/
def bip8 (l : List Byte) : Byte := l.foldl (· ^^^ ·) 0

/-- BIP-2 of a byte string in bits [7:6]: of the odd bit positions b1, b3, b5, b7, and of the even ones. -/
def bip2 (l : List Byte) : Byte :=
  let x := bip8 l
  let o := (x.getLsbD 7 != x.getLsbD 5) != (x.getLsbD 3 != x.getLsbD 1)
  let e := (x.getLsbD 6 != x.getLsbD 4) != (x.getLsbD 2 != x.getLsbD 0)
  BitVec.ofNat 8 (b2n o * 128 + b2n e * 64)

/-- Where the parity of a kind's frame stands, and its bits: V5[7:6], B3 (row 2, column 1), or ODU PM BIP-8 (row 3,
column 11). -/
def parityAt (k : Nat) : Nat × Byte :=
  if k = 1 ∨ k = 9 ∨ k = 2 ∨ k = 8 then (0, 0xC0) else if 0x0A ≤ k then (2 * 3824 + 10, 0xFF) else (frameLen k / 9, 0xFF)

/-- The parity of a frame: over the whole VC, or over the OPU area, columns 15 to 3824. -/
def parityOf (k : Nat) (l : List Byte) : Byte :=
  if k = 1 ∨ k = 9 ∨ k = 2 ∨ k = 8 then bip2 l
  else if 0x0A ≤ k then bip8 ((l.zipIdx.filter fun e => decide (14 ≤ e.2 % 3824)).map (·.1))
  else bip8 l

/-- Violations that opportunity `j` of `m` receives for a count of `c` (R85). -/
def reinsert (m c j : Nat) : Nat := (j + 1) * c / m - j * c / m

/-- What R85 adds to the clip counter: the excess over M × b. -/
def ectClip (m b c : Nat) : Nat := c - m * b

/-- The first `v` check bits of a parity byte in transmission order. -/
def firstBits (v : Nat) : Byte := BitVec.ofNat 8 (255 - (255 >>> v))

/-- The frames of a block with their parity regenerated: each holds the parity of the frame before it, `par` before the first, with
the first `v` check bits of opportunity `j` inverted; and the parity that the next block's first frame will hold (R85, R121). -/
def regenFrames (k : Nat) (v : Nat → Nat) : Nat → Nat → Byte → List Byte → List Byte × Byte
  | 0, _, par, _ => ([], par)
  | n + 1, j, par, l =>
    let at_ := parityAt k
    let f := fit (frameLen k) l
    let f := f.modify at_.1 fun b => (b &&& ~~~at_.2) ||| ((par ^^^ firstBits (v j)) &&& at_.2)
    let r := regenFrames k v n (j + 1) (parityOf k f) (l.drop (frameLen k))
    (f ++ r.1, r.2)

/-- A block with its parity regenerated and `c` violations re-inserted, at most M × b of them. -/
def regen (k c : Nat) (par : Byte) (l : List Byte) : List Byte × Byte :=
  let m := blockFrames k
  let b := if (parityAt k).2 = 0xFF then 8 else 2
  regenFrames k (reinsert m (min c (m * b))) m 0 par l

end Sys2Proof.Machine
end

