-- ==== Sys2Proof/Machine/Ge.lean ====
section
/-!
DEFINITION. Machine/Ge.lean: 1GE: 8b/10b code groups (R119), the preamble and idle encoder (R75 to R79), the black block (R76) and
the decoder (R80). The code itself is that of IEEE 802.3 clause 36 (log entry 73).
-/
namespace Sys2Proof.Machine

/-! ## 8b/10b -/

/-- The 6-bit sub-blocks of D.0 to D.31 for negative running disparity, first bit most significant. -/
def code6 : List Nat := [
  0x27, 0x1D, 0x2D, 0x31, 0x35, 0x29, 0x19, 0x38, 0x39, 0x25, 0x15, 0x34, 0x0D, 0x2C, 0x1C, 0x17,
  0x1B, 0x23, 0x13, 0x32, 0x0B, 0x2A, 0x1A, 0x3A, 0x33, 0x26, 0x16, 0x36, 0x0E, 0x2E, 0x1E, 0x2B ]

/-- The 4-bit sub-blocks of .0 to .7 for negative running disparity, with the primary form of .7. -/
def code4 : List Nat := [0xB, 0x9, 0x5, 0xC, 0xD, 0xA, 0x6, 0xE]

/-- Ones in a number of `n` bits. -/
def ones (n v : Nat) : Nat := ((List.range n).map fun i => v / 2 ^ i % 2).sum

/-- A sub-block of `n` bits under a running disparity: complemented under a positive one where it is unbalanced, or is one of the
two balanced sub-blocks with two forms. -/
def subCode (n v two : Nat) (rd : Bool) : Nat := if rd && (2 * ones n v != n || v == two) then 2 ^ n - 1 - v else v

/-- Running disparity after a code or sub-block: positive is true. -/
def rdAfter (n v : Nat) (rd : Bool) : Bool := if n < 2 * ones n v then true else if 2 * ones n v < n then false else rd

/-- The code group of a byte; `k` selects a special code group. -/
def encode10 (k : Bool) (b : Byte) (rd : Bool) : BitVec 10 :=
  let x := b.toNat % 32
  let y := b.toNat / 32
  let a := subCode 6 (if k && x == 28 then 0x0F else code6.getD x 0) 0x38 rd
  let r := rdAfter 6 a rd
  let alt := decide (y = 7) && (k || (if r then decide (x = 11 ∨ x = 13 ∨ x = 14) else decide (x = 17 ∨ x = 18 ∨ x = 20)))
  let v := if alt then 0x7 else code4.getD y 0
  -- the balanced 4-bit sub-blocks of a special code group take the form the disparity picks
  let f := if k && decide (2 * ones 4 v = 4) then (if r then v else 15 - v) else subCode 4 v 0xC r
  BitVec.ofNat 10 (a * 16 + f)

/-- What a received code group is. -/
inductive GeSym where
  | data (b : Byte) | ctl (b : Byte) | bad | gone
deriving DecidableEq, Repr

/-- The special code groups of 1000BASE-X: /K28.5/, /S/, /T/, /R/ and /V/. -/
def ctlCodes : List Byte := [0xBC, 0xFB, 0xFD, 0xF7, 0xFE]

/-- Decode a code group under a running disparity; one that is not of that disparity is invalid (R119). -/
def decode10 (rd : Bool) (v : BitVec 10) : GeSym :=
  match (List.range 256).find? fun b => encode10 false (BitVec.ofNat 8 b) rd == v with
  | some b => .data (BitVec.ofNat 8 b)
  | none =>
    match ctlCodes.find? fun b => encode10 true b rd == v with
    | some b => .ctl b
    | none => .bad

/-- Code groups decoded in turn, and the running disparity after them. -/
def decodeCodes : Bool → List (BitVec 10) → List GeSym × Bool
  | rd, [] => ([], rd)
  | rd, v :: t => let r := decodeCodes (rdAfter 10 v.toNat rd) t; (decode10 rd v :: r.1, r.2)

/-- Symbols encoded in turn, and the running disparity after them. -/
def encodeCodes : Bool → List (Bool × Byte) → List (BitVec 10) × Bool
  | rd, [] => ([], rd)
  | rd, e :: t =>
    let v := encode10 e.1 e.2 rd
    let r := encodeCodes (rdAfter 10 v.toNat rd) t
    (v :: r.1, r.2)

/-! ## Frames and gaps of a red block -/

/-- A part of a red block: a gap, or the part of a frame that lies in it: its preamble byte-times, those still to come after the
block, its bytes, whether it is in error, and whether it goes on in the next block. -/
inductive GeItem where
  | gap (n : Nat)
  | frame (pre left : Nat) (bytes : List Byte) (bad more : Bool)
deriving DecidableEq, Repr

/-- A frame while its code groups arrive. -/
structure GeRun where
  pre : Nat := 0
  left : Nat := 0
  bytes : List Byte := []
  bad : Bool := false
deriving DecidableEq, Repr

/-- The item of a frame. -/
def GeRun.item (r : GeRun) (more : Bool) : GeItem := .frame r.pre r.left r.bytes.reverse r.bad more

/-- The items of a block's symbols (R79): the preamble is any eight byte-times from /S/; /T/ ends a frame, and /K28.5/, /R/ or a
defect end it in error; any other special or invalid code group in it is a byte 0x00 in error. -/
def geScan : Option GeRun → Nat → List GeSym → List GeItem
  | none, g, [] => if g = 0 then [] else [.gap g]
  | some r, _, [] => [r.item true]
  | none, g, s :: t =>
    if s = .ctl 0xFB then (if g = 0 then id else (GeItem.gap g :: ·)) (geScan (some { pre := 1, left := 7 }) 0 t)
    else geScan none (g + 1) t
  | some r, _, s :: t =>
    if s = .gone then ({ r with bad := true } : GeRun).item false :: geScan none 1 t
    else if 0 < r.left then geScan (some { r with left := r.left - 1, pre := r.pre + 1, bad := r.bad || s == .bad }) 0 t
    else
      match s with
      | .data b => geScan (some { r with bytes := b :: r.bytes }) 0 t
      | .ctl 0xFD => r.item false :: geScan none 1 t
      | .ctl 0xBC => ({ r with bad := true } : GeRun).item false :: geScan none 1 t
      | .ctl 0xF7 => ({ r with bad := true } : GeRun).item false :: geScan none 1 t
      | _ => geScan (some { r with bytes := 0 :: r.bytes, bad := true }) 0 t

/-! ## The encoder (R77 to R79) -/

/-- Bytes of a 1GE region (R77). -/
def geRegion : Nat := 24553

/-- Byte-times of a 1GE block (R76). -/
def geTimes : Nat := 24576

/-- A token or the carry field: three bytes. -/
def tok (v : Nat) : List Byte := beBytes 3 v

/-- An idle item of a gap. -/
def geIdle (g : Nat) : List Byte := if g = 0 then [] else tok (2 * 2 ^ 22 + g)

/-- A frame item after a gap: a gap longer than 127 byte-times begins with an idle item (R79). -/
def geFrame (g : Nat) (bytes : List Byte) (x : Bool) : List Byte :=
  geIdle (g - 127) ++ tok (2 ^ 22 + bytes.length * 256 + b2n x * 128 + min g 127) ++ bytes

/-- The items of a block after its carry field, from a gap already pending: the bytes, and the frame still open at the end. A frame
beyond GE_MAXFRAME is carried so far, and the rest of it is idle (R79). -/
def geItems (mx : Nat) : Nat → List GeItem → List Byte × Option GeCtx
  | g, [] => (geIdle g, none)
  | g, .gap n :: t => geItems mx (g + n) t
  | g, .frame _ left bytes bad more :: t =>
    let x := bad || decide (mx < bytes.length)
    let r := geItems mx (bytes.length - mx) t
    (geFrame g (bytes.take mx) x ++ r.1, if t.isEmpty && more then some ⟨left, bytes.length, x⟩ else r.2)

/-- The carry field of a frame that goes on in a block, and its bytes. -/
def geCarry (x : Bool) (p : Nat) (bytes : List Byte) : List Byte :=
  tok (2 ^ 23 + b2n x * 2 ^ 22 + p % 8 * 2 ^ 19 + bytes.length) ++ bytes

/-- The carry field and items of a 1GE block (R77), and the frame still open at its end. A frame that ended with the block before
is confirmed by CONT 0 (R80); one that goes on past GE_MAXFRAME at a block's end takes its X there, with N 0. -/
def geEncode (mx : Nat) (ge : Option GeCtx) (l : List GeItem) : List Byte × Option GeCtx :=
  match ge, l with
  | some c, .frame p left bytes bad more :: t =>
    let n := c.len + bytes.length
    let x := c.bad || bad || decide (mx < n)
    let r := geItems mx (if c.len ≤ mx then n - mx else bytes.length) t
    let head := if (p = 0 ∧ bytes = [] ∧ bad = false ∧ more = false) ∨ mx < c.len then tok 0 else geCarry x p (bytes.take (mx - c.len))
    (head ++ r.1, if t.isEmpty && more then some ⟨left, n, x⟩ else r.2)
  | _, l =>
    let r := geItems mx 0 l
    (tok 0 ++ r.1, r.2)

/-- A red block's code groups as a 1GE region, under a frame open before it: the bytes, the invalid code groups, the frame open after
it, and the running disparity. Spans in defect are idle (R531). -/
def geRegionOf (mx : Nat) (ge : Option GeCtx) (rd : Bool) (gone : List (Nat × Nat)) (l : List (BitVec 10)) :
    List Byte × Nat × Option GeCtx × Bool :=
  let d := decodeCodes rd l
  let s := d.1.zipIdx.map fun e => if gone.any (fun g => decide (g.1 ≤ e.2 ∧ e.2 < g.1 + g.2)) then GeSym.gone else e.1
  let r := geEncode mx ge (geScan (ge.map fun c => { left := c.left }) 0 s)
  (r.1, (s.filter (· == .bad)).length, r.2, d.2)

/-- The region of a block wholly in defect (R531). -/
def geFill (cont : Bool) : List Byte := fit geRegion (tok (if cont then 3 * 2 ^ 22 else 0) ++ tok (2 * 2 ^ 22 + geTimes))

/-! ## The black block (R76) -/

/-- The code groups of a black block: /K28.5/ /D16.2/, the ciphertext, and the trailer of the block before; the running disparity
goes on. -/
def geBlack (rd : Bool) (body trl : List Byte) : List (BitVec 10) × Bool :=
  encodeCodes rd ((true, 0xBC) :: (false, 0x50) :: (fit geRegion body ++ fit 21 trl).map fun b => (false, b))

/-- The running disparity at the start of a black block: the one its /K28.5/ was sent under, or the one carried over. -/
def geStart (rd : Bool) (l : List (BitVec 10)) : Bool :=
  if l.head? = some (encode10 true 0xBC true) then true else if l.head? = some (encode10 true 0xBC false) then false else rd

/-- A received black block: its ciphertext and its trailer region; an invalid code group reads as 0x00. -/
def geRead (rd : Bool) (l : List (BitVec 10)) : (List Byte × List Byte) × Bool :=
  let d := decodeCodes (geStart rd l) l
  let b := d.1.map fun s => match s with
    | .data b => b
    | _ => (0 : Byte)
  ((slice b 2 geRegion, slice b (2 + geRegion) 21), d.2)

/-! ## The decoder (R80) -/

/-- A byte-time of the red output: preamble byte-time `i`, a data byte, /V/, or a gap. -/
inductive GeCell where
  | pre (i : Nat) | data (b : Byte) | err | gap
deriving DecidableEq, Repr

/-- The byte-times of a frame's bytes; in error its last one is /V/. -/
def frameCells (bytes : List Byte) (x : Bool) : List GeCell :=
  let l := bytes.map GeCell.data
  if x then l.take (l.length - 1) ++ [.err] else l

/-- The byte-times of the items of a region, with `n` left in the block, and the error of a frame that reaches its end. -/
def geParse : Nat → Nat → List Byte → List GeCell × Option Bool
  | 0, n, _ => (List.replicate n .gap, none)
  | f + 1, n, l =>
    let t := beNat (l.take 3)
    let kind := t / 2 ^ 22
    if n = 0 then ([], none)
    else if l.length < 3 ∨ kind = 0 ∨ kind = 3 then (List.replicate n .gap, none)
    else if kind = 2 then
      let g := min n (t % 2 ^ 22)
      let r := geParse f (n - g) (l.drop 3)
      (List.replicate g .gap ++ r.1, r.2)
    else
      let len := t / 256 % 2 ^ 14
      let x := t.testBit 7
      let g := t % 128
      let bytes := slice l 3 len
      let head := List.replicate g GeCell.gap ++ (List.range 8).map GeCell.pre
      if n ≤ head.length + len then ((head ++ bytes.map GeCell.data).take n, some x)
      else
        let r := geParse f (n - (head.length + len)) (l.drop (3 + len))
        (head ++ frameCells bytes x ++ r.1, r.2)

/-- The byte-times of a whole region of `n` byte-times, after a frame open from the block before: with CONT 1 it goes on, with CONT 0
it has ended there, in error if its X was set. -/
def geCells (n : Nat) (opened : Option Bool) (l : List Byte) : List GeCell × Option Bool :=
  let c := beNat (l.take 3)
  if c.testBit 23 then
    let p := c / 2 ^ 19 % 8
    let len := c % 2 ^ 14
    let x := c.testBit 22 || opened == some true
    let bytes := slice l 3 len
    let head := ((List.range 8).drop (8 - p)).map GeCell.pre
    if n ≤ p + len then ((head ++ bytes.map GeCell.data).take n, some x)
    else
      let body := if p + len = 0 then (if x then [GeCell.err] else []) else head ++ frameCells bytes (x && decide (0 < len))
      let r := geParse l.length (n - body.length) (l.drop (3 + len))
      (body ++ r.1, r.2)
  else
    let body := if opened = some true then [GeCell.err] else []
    let r := geParse l.length (n - body.length) (l.drop 3)
    (body ++ r.1, r.2)

/-- The code group of a byte-time at position `i` of a block: /T/ and /R/ at the start of a gap so that idles begin at even
positions, then /I1/ or /I2/ as the running disparity requires. -/
def geSym (s : GeTx) (i : Nat) : GeCell → (Bool × Byte) × Nat
  | .pre 0 => ((true, 0xFB), 0)
  | .pre 7 => ((false, 0xD5), 0)
  | .pre _ => ((false, 0x55), 0)
  | .data b => ((false, b), 0)
  | .err => ((true, 0xFE), 0)
  | .gap =>
    if s.st = 0 then ((true, 0xFD), 1)
    else if s.st = 1 then ((true, 0xF7), 2)
    else if s.st = 4 then ((false, 0x50), 3)
    else if s.st = 5 then ((false, 0xC5), 3)
    else if i % 2 = 1 then ((true, 0xF7), 2)
    else ((true, 0xBC), if s.rd then 5 else 4)

/-- The byte-times of a block as code groups. -/
def geSend : GeTx → Nat → List GeCell → List (BitVec 10) × GeTx
  | s, _, [] => ([], s)
  | s, i, c :: t =>
    let e := geSym s i c
    let v := encode10 e.1.1 e.1.2 s.rd
    let r := geSend { s with st := e.2, rd := rdAfter 10 v.toNat s.rd } (i + 1) t
    (v :: r.1, r.2)

/-- A released 1GE block on the red side: its region, or none for fill, where a frame in progress ends with /V/ (R80, R531). -/
def geOut (s : GeTx) (region : Option (List Byte)) : List (BitVec 10) × GeTx :=
  let c := match region with
    | some l => geCells geTimes s.opened l
    | none => ((if s.opened.isSome then [GeCell.err] else []) ++ List.replicate (geTimes - b2n s.opened.isSome) GeCell.gap, none)
  let r := geSend s 0 c.1
  (r.1, { r.2 with opened := c.2 })

end Sys2Proof.Machine
end

