-- ==== Sys2Proof/Machine/Engines.lean ====
section
/-!
DEFINITION. Machine/Engines.lean: qualification, selection, engine states, holdover and the station outputs (R298 to R318).
Offsets are in ppb, output offsets in thousandths of a ppb, temperatures in quarter degrees.
-/
namespace Sys2Proof.Machine

/-! ## Registers of an engine -/

/-- A rate on which only through-timing candidates carry a rank (R300). -/
def thruOnly (rate : Nat) : Bool := decide (5 ≤ rate ∧ rate ≤ 9)

/-- A candidate that R300 allows a synthesizer: RED for SYN_B, BKW and BKP for SYN_R; false is SYN_B. -/
def thruCand (r : Bool) (c : Nat) : Bool := if r then decide (c = 1 ∨ c = 2) else decide (c = 0)

/-- A rank field: 9 to 15 act as 0 (R298). -/
def rankVal (n : Nat) : Nat := if n ≤ 8 then n else 0

/-- The rank of a candidate in a channel's synthesizer (R298, R300, R321). -/
def Chan.rank (x : Chan) (r : Bool) (c : Nat) : Nat :=
  if thruOnly (x.rate .red) && !thruCand r c then 0
  else rankVal (fieldOf (x.reg (if r then 0x8008 else 0x8004)) (4 * c + 3) (4 * c))

/-- The rank of a candidate in the station engine (R327); codes 0 to 2 have none. -/
def Dev.stnRank (d : Dev) (c : Nat) : Nat :=
  if c < 3 then 0 else rankVal (fieldOf (d.reg 0x3028) (4 * (c - 3) + 3) (4 * (c - 3)))

/-- A threshold in 0.1 ppm, 1 to 500, in ppb (R322). -/
def thr (n : Nat) : Int := (clamp 1 500 n : Int) * 100

/-- A hysteresis in 0.1 ppm, below the threshold, in ppb (R322). -/
def hyst (n t : Nat) : Int := ((min n (clamp 1 500 t - 1) : Nat) : Int) * 100

/-- Root hold: the engines suspend their measurements (R293, R294). -/
def Hw.rootHeld (h : Hw) : Bool := h.dev.root.hold

/-! ## Selection (R306) -/

/-- What `select` decides: hold the output, leave the reference, or take a candidate. -/
inductive Pick where
  | hold | none | cand (c : Fin 8)
deriving DecidableEq, Repr

/-- What an engine's selection sees of its eight candidates. -/
structure Cands where
  rank : Vector Nat 8
  qual : Vector Bool 8
  fail : Vector Bool 8
  off : Vector Int 8

/-- The least rank among the qualified candidates of rank 1 to 8; 0 with none. -/
def Cands.best (q : Cands) : Nat :=
  (List.finRange 8).foldl (fun acc c => if q.qual[c] && decide (q.rank[c] ≠ 0) && (decide (acc = 0) || decide (q.rank[c] < acc)) then q.rank[c] else acc) 0

/-- The set E of R306. -/
def Cands.eset (q : Cands) : List (Fin 8) :=
  (List.finRange 8).filter fun c => q.qual[c] && decide (q.rank[c] ≠ 0 ∧ q.rank[c] = q.best)

/-- The member of a list with the smallest offset, the lower code on a tie. -/
def Cands.least (q : Cands) : List (Fin 8) → Pick
  | [] => .none
  | c :: t => .cand (t.foldl (fun m d => if q.off[d].natAbs < q.off[m].natAbs then d else m) c)

/-- `select` of R306. -/
def select (q : Cands) (mode : Nat) (fcand cur : Fin 8) (active : Fin 8) : Pick :=
  if mode = 2 then .hold
  else if mode = 1 ∧ q.fail[fcand] = false then .cand fcand
  else if q.eset = [] then .none
  else if (1 : Fin 8) ∈ q.eset ∧ (2 : Fin 8) ∈ q.eset then .cand active
  else if cur ∈ q.eset then .cand cur
  else q.least q.eset

/-! ## Holdover (R310, R311) -/

/-- At least 60 s of samples (R308). -/
def Eng.histOk (e : Eng) : Bool := decide (60 ≤ e.samples.length)

/-- The temperature model's coefficients: C1 in 0.01 ppb/°C and C2 in 0.001 ppb/°C² (R325). -/
def Hw.tcomp (h : Hw) : Int × Int :=
  let w := h.devReg 0x3008
  (signed 16 (fieldOf w 27 12), signed 12 (fieldOf w 11 0))

/-- The temperature of the sensor that DEV.TIM_TCOMP.SENSOR names, 7 for the mean of all (R310). -/
def Hw.rootTemp (h : Hw) : Int :=
  let s := h.devField 0x3008 31 29
  let t := fun k : Fin 7 => h.dev.power.temp[k].toInt
  if hs : s < 7 then t ⟨s, hs⟩ else ((List.finRange 7).map t).sum / 7

/-- d(T) of R311 in thousandths of a ppb, T and T0 in quarter degrees. -/
def tempDev (c : Int × Int) (t t0 : Int) : Int := (c.1 * 40 * (t - t0) + c.2 * (t - t0) * (t - t0)) / 16

/-- The mean of a list of integers; 0 for none. -/
def meanInt (l : List Int) : Int := if l.length = 0 then 0 else l.sum / l.length

/-- Least-squares slope of values one second apart, the first newest, in value per day. -/
def slopePerDay (l : List Int) : Int :=
  let n : Int := l.length
  let ys := l.reverse.zipIdx
  let sx : Int := (ys.map fun e => (e.2 : Int)).sum
  let sy : Int := (ys.map fun e => e.1).sum
  let sxy : Int := (ys.map fun e => e.1 * (e.2 : Int)).sum
  let sxx : Int := (ys.map fun e => (e.2 : Int) * (e.2 : Int)).sum
  let den := n * sxx - sx * sx
  if den = 0 then 0 else (n * sxy - sx * sy) * 86400 / den

/-- What an engine computes on leaving its reference (R311). -/
def Eng.enterHold (e : Eng) (c : Int × Int) (win : Nat) : Eng :=
  let s := (e.samples.drop 2).take win
  let s := if s.length < win then e.samples else s
  let t0 := meanInt (s.map (·.2))
  let comp := e.samples.map fun v => v.1 * 1000 + tempDev c v.2 t0
  { e with fh := meanInt (s.map fun v => v.1 * 1000), t0 := t0, hoSecs := 0, frozen := 0
           slope := if e.samples.length ≤ 14400 then 0 else slopePerDay comp }

/-! ## Engine states (R309) -/

/-- An engine after `select` has decided (R309). -/
def Eng.followed (e : Eng) (p : Pick) (c : Int × Int) (win : Nat) : Eng :=
  let tracking := decide (e.st = .locked ∨ e.st = .acquiring)
  match p with
  | .cand k =>
    if k = 7 then { e with st := .freeRun, sel := 7, out := 0 }
    else if tracking && decide (e.sel = k) then e
    else { e with st := .acquiring, sel := k }
  | .hold => if tracking then { e.enterHold c win with st := .holdover } else e
  | .none =>
    if !tracking then e
    else if e.histOk then { e.enterHold c win with st := .holdover }
    else if e.everLocked then { e.enterHold c win with st := .lost }
    else { e with st := .freeRun, sel := 7, out := 0 }

/-- An engine after `select` has decided; the condition of SYN_UNLOCK ends with ACQUIRING (R347). -/
def Eng.follow (e : Eng) (p : Pick) (c : Int × Int) (win : Nat) : Eng :=
  let e' := e.followed p c win
  { e' with unl := e'.unl && decide (e'.st = .acquiring) }

/-! ## Channel engines -/

/-- A synthesizer of a channel: false SYN_B, true SYN_R. -/
def Chan.syn (x : Chan) (r : Bool) : Eng := if r then x.tim.r else x.tim.b

/-- Change a synthesizer of a channel. -/
def Hw.onSyn (h : Hw) (c : ChanId) (r : Bool) (f : Eng → Eng) : Hw :=
  h.onChan c fun x => { x with tim := if r then { x.tim with r := f x.tim.r } else { x.tim with b := f x.tim.b } }

/-- A candidate of a channel, codes 0 to 6. -/
def Chan.cand (x : Chan) (i : Fin 7) : Cand := x.tim.cand[i]

/-- Change a candidate of a channel. -/
def Hw.onCand (h : Hw) (c : ChanId) (i : Fin 7) (f : Cand → Cand) : Hw :=
  h.onChan c fun x => { x with tim := { x.tim with cand := x.tim.cand.set i (f (x.cand i)) } }

/-- The station input behind a candidate code of 3 to 6. -/
def stnIn (i : Fin 7) : Fin 4 := ⟨(i.val - 3) % 4, Nat.mod_lt _ (by omega)⟩

/-- FREQ of a station input: 7 acts as off (R326). -/
def Dev.stnFreq (d : Dev) (i : Nat) : Nat :=
  let f := fieldOf (d.reg (0x3010 + 4 * i)) 2 0
  if f = 7 then 0 else f

/-- What a channel's engine sees of its candidates: the station inputs' qualification is the spine's (R302). The offset of a candidate
is that of its last completed 10 s window; one that a 100 ms window has qualified before any 10 s window has offset 0 (DESIGN CHOICE,
log entry 86). -/
def Hw.cands (h : Hw) (c : ChanId) (r : Bool) : Cands :=
  let x := h.chan c
  let st := fun i : Fin 7 => if i.val < 3 then x.cand i else { h.dev.stn.inp[stnIn i] with ppb := (x.cand i).ppb, fast := (x.cand i).fast }
  { rank := Vector.ofFn fun i => x.rank r i.val
    qual := Vector.ofFn fun i : Fin 8 => if hi : i.val < 7 then decide ((st ⟨i.val, hi⟩).qst = .qual) else true
    fail := Vector.ofFn fun i : Fin 8 => if hi : i.val < 7 then (st ⟨i.val, hi⟩).fail || (decide (3 ≤ i.val) && decide (h.dev.stnFreq (i.val - 3) = 0)) else false
    off := Vector.ofFn fun i : Fin 8 => if hi : i.val < 7 then (st ⟨i.val, hi⟩).ppb else 0 }

/-- MODE and FCAND of a synthesizer (R320). -/
def Chan.synMode (x : Chan) (r : Bool) : Nat × Fin 8 :=
  let w := x.reg 0x8000
  if r then (fieldOf w 10 9, ⟨fieldOf w 13 11 % 8, Nat.mod_lt _ (by omega)⟩)
  else (fieldOf w 4 3, ⟨fieldOf w 7 5 % 8, Nat.mod_lt _ (by omega)⟩)

/-- HO_WIN and HO_VALID fields (R322). -/
def hoWin (n : Nat) : Nat := clamp 60 3600 n
/-- HO_VALID in seconds. -/
def hoValid (n : Nat) : Nat := clamp 1 10080 n * 60

/-- A synthesizer evaluates R306, and changes state and selection as R309 gives. -/
def Hw.reselectSyn (h : Hw) (c : ChanId) (r : Bool) : Hw :=
  let x := h.chan c
  let e := x.syn r
  let m := x.synMode r
  let act : Fin 8 := if x.psw.active = .bkp then 2 else 1
  let q := h.cands c r
  let e' := e.follow (select q m.1 m.2 e.sel act) h.tcomp (hoWin (fieldOf (x.reg 0x8010) 11 0))
  let e' := if (q.eset.length ≤ 1) then { e' with disagree := false } else e'
  let h := h.onSyn c r fun _ => e'
  let h := if e'.st ≠ e.st then h.evTim c (if r then 0x00400000 else 0x00800000) else h
  if e'.sel ≠ e.sel then h.evTim c (if r then 0x00100000 else 0x00200000) else h

/-- Both synthesizers of a running channel evaluate R306. -/
def Hw.reselect (h : Hw) (c : ChanId) : Hw :=
  if (h.chan c).isActive then (h.reselectSyn c false).reselectSyn c true else h

/-! ## Line candidates (R303) -/

/-- The lane of a line candidate. -/
def candLane (i : Nat) : Lane := if i = 0 then .red else if i = 1 then .bkw else .bkp

/-- The candidate code of a lane. -/
def laneCand : Lane → Fin 7
  | .red => 0 | .bkw => 1 | .bkp => 2

/-- Offset of a lane's framer registers (R483). -/
def frmReg (p : Lane) (off : Nat) : Nat := 0x2000 + 0x100 * p.num + off

/-- A defect bit of a lane. -/
def LaneSt.def_ (l : LaneSt) (i : Nat) : Bool := l.defects.getLsbD i

/-- A line candidate's signal fails (R303). -/
def Chan.lineFails (x : Chan) (p : Lane) : Bool :=
  let l := x.lane p
  l.def_ 15 || l.def_ 13 || l.def_ 12 || (decide (x.rate p = 9) && l.def_ 14)
    || (bitOf (x.reg (frmReg p 8)) 3 && l.def_ 8)
    || (bitOf (x.reg 0x8014) 0 && isSdh (x.rate p) && decide (fieldOf (x.reg (frmReg p 0x14)) 11 8 = 0xF))

/-- The candidacy of a lane follows its signal: DISQ with FAIL at once, INIT when the condition clears (R303). -/
def Hw.candCheck (h : Hw) (c : ChanId) (p : Lane) : Hw :=
  let x := h.chan c
  let k := x.cand (laneCand p)
  let bad := x.lineFails p
  if !x.isActive || decide (bad = k.fail) then h
  else
    let h := h.onCand c (laneCand p) fun k =>
      if bad then { k with qst := .disq, fail := true, drift := false, overRun := 0, lastFail := true }
      else { k with qst := .init, fail := false }
    (if bad && decide (k.qst = .disq) then h else h.evTim c 0x00040000).reselect c

/-! ## Windows (R304) -/

/-- A candidate after a completed window: `long` for 10 s; `direct` when an INIT candidate goes straight to QUAL. -/
def Cand.window (k : Cand) (long : Bool) (off t hy : Int) (direct wtr0 : Bool) : Cand :=
  let k := if long then { k with ppb := off } else { k with fast := off }
  let enter : Cand := if wtr0 then { k with qst := .qual, drift := false, fresh := false, overRun := 0 } else { k with qst := .pending, drift := false, fresh := false }
  let out : Cand := { k with qst := .disq, drift := true, fresh := false, overRun := 0, lastFail := false }
  match k.qst with
  | .init =>
    if long then k
    else if t < (off.natAbs : Int) then out
    else if direct || k.fresh then { k with qst := .qual, drift := false, fresh := false, overRun := 0 } else enter
  | .qual =>
    if !long then k
    else if t < (off.natAbs : Int) then (if 2 ≤ k.overRun then out else { k with overRun := k.overRun + 1 })
    else { k with overRun := 0 }
  | .disq => if long && k.drift && decide ((off.natAbs : Int) ≤ t - hy) then enter else k
  | .pending => if long && decide (t - hy < (off.natAbs : Int)) then out else k

/-- Two members of E differ beyond the limit, the pair of lowest codes; `num`/`den` scales the limit (R307). -/
def disagreePair (q : Cands) (t lim : Int) (num den : Int) : Option (Fin 8 × Fin 8) :=
  let e := q.eset.filter fun c => decide ((q.off[c].natAbs : Int) ≤ t)
  (e.flatMap fun a => (e.filter fun b => decide (a < b)).map fun b => (a, b)).find? fun ab =>
    decide (lim * num < ((q.off[ab.1] - q.off[ab.2]).natAbs : Int) * den)

/-- Disagreement of a synthesizer over one window (R307). THR is the channel's CHn.TIM_QCFG.QUAL_THR for every member of E, station
inputs too (DESIGN CHOICE, log entry 87). -/
def Hw.disagreeCheck (h : Hw) (c : ChanId) (r : Bool) : Hw :=
  let x := h.chan c
  let w := x.reg 0x800C
  let q := h.cands c r
  let t := thr (fieldOf w 9 0)
  let lim := thr (fieldOf w 30 22)
  let e := x.syn r
  match disagreePair q t lim 1 1 with
  | some ab =>
    if e.disagree then h
    else ((h.onSyn c r fun e => { e with disagree := true }).evTim c 0x00080000).raiseChan c 8 clsN 0x40
      (ab.1.val + 8 * ab.2.val + (if r then 2 ^ 23 else 0))
  | none =>
    if (disagreePair q t lim 8 10).isNone then h.onSyn c r fun e => { e with disagree := false } else h

/-- A 10 s window of a candidate has completed: once every member of E but FREE has completed one, that window is judged. A member's
second window begins a new round (DEDUCED, log entry 92). -/
def Hw.windowDone (h : Hw) (c : ChanId) (r : Bool) (i : Fin 7) : Hw :=
  let k : Fin 8 := ⟨i.val, by omega⟩
  let l := ((h.chan c).syn r).round
  let l := if l.contains k then [k] else l ++ [k]
  if (h.cands c r).eset.all fun m => decide (m = 7) || l.contains m then (h.onSyn c r fun e => { e with round := [] }).disagreeCheck c r
  else h.onSyn c r fun e => { e with round := l }

/-! ## The station engine (R316 to R318) -/

/-- What the station engine sees of its candidates. -/
def Dev.stnCands (d : Dev) : Cands :=
  { rank := Vector.ofFn fun i => if i.val < 3 then 0 else d.stnRank i.val
    qual := Vector.ofFn fun i : Fin 8 => if i.val = 7 then true else if hi : i.val < 7 then decide (i.val ≥ 3 ∧ (d.stn.inp[stnIn ⟨i.val, hi⟩]).qst = .qual) else false
    fail := Vector.ofFn fun i : Fin 8 => if i.val = 7 then false else if hi : i.val < 7 then decide (i.val < 3) || (d.stn.inp[stnIn ⟨i.val, hi⟩]).fail || decide (d.stnFreq (i.val - 3) = 0) else true
    off := Vector.ofFn fun i : Fin 8 => if hi : i.val < 7 then (d.stn.inp[stnIn ⟨i.val, hi⟩]).ppb else 0 }

/-- A station output is driven low (R318). -/
def Hw.stnLow (h : Hw) (j : Nat) : Bool :=
  let w := h.devReg (0x3040 + 4 * j)
  let st := h.dev.stn.eng.st
  decide (h.dev.boot.st ≠ .run) || h.dev.boot.inReset || decide (fieldOf w 2 0 = 0)
    || (decide (1 ≤ fieldOf w 4 3) && decide (st = .freeRun ∨ st = .lost))
    || (decide (2 ≤ fieldOf w 4 3) && decide (st = .holdover))

/-- The station outputs follow their conditions, and DEV.STN_OEVT_j reports each change in RUN (R318, R461). -/
def Hw.stnOutputs (h : Hw) : Hw :=
  (List.finRange 4).foldl (fun h (j : Fin 4) =>
    let low := h.stnLow j.val
    if low = h.dev.stn.low[j] then h
    else
      let h := h.onDev fun d => { d with stn := { d.stn with low := d.stn.low.set j low } }
      if low && decide (h.dev.boot.st ≠ .run) then h
      else h.devEvent (0x3060 + 4 * j.val) (28 + j.val) (if low then 0x00800000 else 0x00400000)) h

/-- The pull toward a new reference's phase begins: the phase it finds is a free value of less than 2^19 ps (R317, log
entry 3). -/
def Hw.stnPullTo (h : Hw) : Hw :=
  let d := h.draw
  d.2.onDev fun x => { x with stn := { x.stn with pull := x.stn.pull + signed 20 (d.1.toNat % 2 ^ 20), slew := true } }

/-- The station engine evaluates R306 and changes as R309 and R317 give. -/
def Hw.reselectStn (h : Hw) : Hw :=
  let d := h.dev
  let e := d.stn.eng
  let w := d.reg 0x3028
  let fc : Fin 8 := if fieldOf w 26 24 ≤ 2 then 7 else ⟨fieldOf w 26 24 % 8, Nat.mod_lt _ (by omega)⟩
  let e' := e.follow (select d.stnCands (fieldOf w 23 22) fc e.sel 1) h.tcomp (hoWin (fieldOf (d.reg 0x3024) 23 12))
  let h := h.onDev fun d => { d with stn := { d.stn with eng := e' } }
  let h := if e'.st ≠ e.st then h.devEvent 0x300C 23 0x00800000 else h
  let h := if e'.sel ≠ e.sel then h.devEvent 0x300C 23 0x00400000 else h
  let h := if e'.st = .acquiring ∧ (e.st ≠ .acquiring ∨ e'.sel ≠ e.sel) then h.stnPullTo else h
  h.stnOutputs

/-- Every engine evaluates R306: a station input's qualification changed. -/
def Hw.reselectAll (h : Hw) : Hw := (List.finRange 48).foldl (fun h c => h.reselect c) h.reselectStn

/-- Change a station input's qualification, and tell every running channel (R302, R496). -/
def Hw.onStnIn (h : Hw) (i : Fin 4) (f : Cand → Cand) : Hw :=
  let old := h.dev.stn.inp[i]
  let new := f old
  let h := h.onDev fun d => { d with stn := { d.stn with inp := d.stn.inp.set i new } }
  if new.qst = old.qst ∧ new.fail = old.fail then h
  else
    let fl : Word := (if new.fail && !old.fail then 0x00800000 else 0) ||| (if new.drift && !old.drift then 0x00400000 else 0)
      ||| (if new.qst = .qual ∧ old.qst ≠ .qual then 0x00200000 else 0)
    let h := if fl = 0 then h else h.devEvent (0x3050 + 4 * i.val) (24 + i.val) fl
    let h := if new.qst = old.qst then h
      else (List.finRange 48).foldl (fun h c => if (h.chan c).isActive then h.evTim c 0x00040000 else h) h
    h.reselectAll

/-- A station input is disqualified with FAIL, and STN_FAIL is raised (R316). It is fresh no more: it requalifies after the WTR. -/
def Hw.stnFail (h : Hw) (i : Fin 4) : Hw :=
  if h.dev.stn.inp[i].fail then h
  else (h.onStnIn i fun k => { k with qst := .disq, fail := true, drift := false, overRun := 0, fresh := false, lastFail := true }).raiseSpine 16 clsN 0x43 i.val

end Sys2Proof.Machine
end

