-- ==== Sys2Proof/Machine/Epoch.lean ====
section
/-!
DEFINITION. Machine/Epoch.lean: key slots and epoch switches (R196 to R213), sequence ages (R192, R193), and what a slot going
EMPTY cuts (R220).
-/
namespace Sys2Proof.Machine

/-! ## Slots -/

/-- A slot of a context: false even, true odd. -/
def Ctx.slot (x : Ctx) (odd : Bool) : KeySlot := if odd then x.odd else x.even

/-- Change a slot of a context. -/
def Ctx.onSlot (x : Ctx) (odd : Bool) (f : KeySlot → KeySlot) : Ctx :=
  if odd then { x with odd := f x.odd } else { x with even := f x.even }

/-- The code of a slot state (R198). -/
def SlotSt.code : SlotSt → Nat
  | .empty => 0 | .standby => 1 | .current => 2 | .draining => 3

/-- The integrity word over a slot's key, state and serial: CRC-32C of the key, the state's code and the serial (R196; PRESUMED, log
entry 76). -/
def KeySlot.check (s : KeySlot) : Word := crc32c (s.key ++ [BitVec.ofNat 8 s.st.code] ++ beBytes 4 s.serial.toNat)

/-- A slot with its integrity word written anew; zeroizing writes zero over it (R199). -/
def KeySlot.stamp (s : KeySlot) : KeySlot := { s with integ := if s.st = .empty then 0 else s.check }

/-- A slot's integrity word, of which a fault has changed some bits, does not match what it covers (R201). -/
def KeySlot.corrupt (s : KeySlot) (upset : Word) : Bool := decide (s.st ≠ .empty) && decide (s.integ ^^^ upset ≠ s.check)

/-- A slot goes to EMPTY: its key and its integrity word are zeroized; its serial and, for KEY_REUSE, its check value are remembered (R199, R200). -/
def KeySlot.empty (s : KeySlot) : KeySlot :=
  if s.st = .empty then s
  else { st := .empty, key := [], kcv := 0, lastKcv := some s.kcv, serial := s.serial, since := 0 }

/-- Blocks of a circuit begun under a slot that goes to EMPTY and not yet tagged are lost (R220). -/
def Circ.slotGone (x : Circ) (odd : Bool) : Circ :=
  x.loseEnc (fun b => !b.done && b.odd == odd && !b.clear) 6

/-- Change every circuit of a context. -/
def Hw.onCtxCircs (h : Hw) (c : ChanId) (n : Nat) (f : Circ → Circ) : Hw :=
  h.onChan c fun x => { x with circ := x.circ.map fun e => if e.2.kctx = n ∧ e.2 ≠ {} then (e.1, f e.2) else e }

/-- The enabled circuits of a context. -/
def Chan.ctxCircs (x : Chan) (n : Nat) : List (Nat × Circ) := x.circ.filter fun e => e.2.en && decide (e.2.kctx = n)

/-! ## Ages -/

/-- The hard stop: ESEQ of the slot in use has reached 2^40 − 1 (R193). -/
def Circ.hardStop (x : Circ) : Bool := decide (x.eseq x.odd = BitVec.ofNat 40 (2 ^ 40 - 1))

/-- A circuit builds blocks, so that a switch of its context waits for it (R209). -/
def Chan.builds (x : Chan) (n : Nat) (y : Circ) : Bool :=
  x.serves (BitVec.ofNat 13 n) && y.live && !y.hardStop
    && (y.clear || decide (((x.ctx! y.kctx).slot y.odd).st ≠ .empty))

/-! ## Switches (R209, R210) -/

/-- An EPOCH_ADVANCE command of a context. -/
def isEpoch (n : Nat) (x : Cmd) : Bool := decide (x.op = 0x13 ∧ fieldOf x.w1 15 0 = n)

/-- The switch of a context completes: the slots change as R199 gives, TXP names the target, and a waiting NOW command
completes DONE. -/
def Hw.switchDone (h : Hw) (c : ChanId) (n : Nat) : Hw :=
  let t := !((h.chan c).ctx! n).txp
  let h := h.onCtx c n fun z =>
    let z := z.onSlot t fun s => KeySlot.stamp { s with st := .current, since := h.now }
    let z := z.onSlot (!t) fun s => if s.st = .current then KeySlot.stamp { s with st := .draining } else s
    { z with txp := t, arm := false, atSeq := none, staleRaised := false }
  let h := h.onCtxCircs c n fun y =>
    { y with odd := t, switched := false, asNow := false, aged := y.aged && y.odd == t, stopped := y.stopped && y.odd == t }
  (h.evCph c 0x00100000).finish (.chan c) (isEpoch n) stDone 0 0

/-- The switch of a context completes if every circuit it waits for has switched. -/
def Hw.switchCheck (h : Hw) (c : ChanId) (n : Nat) : Hw :=
  let x := h.chan c
  if (x.ctx! n).arm && (x.ctxCircs n).all fun e => e.2.switched || !x.builds e.1 e.2 then h.switchDone c n else h

/-- An armed switch is cancelled (R210): TXP names the slot most circuits use, the even one on a tie, and a waiting NOW
command completes. A circuit in clear mode takes its SEQs from the slot that TXP names (R222). -/
def Hw.switchCancel (h : Hw) (c : ChanId) (n : Nat) (status reason : Nat) : Hw :=
  let x := h.chan c
  if !(x.ctx! n).arm then h
  else
    let odds := ((x.ctxCircs n).filter fun e => e.2.odd).length
    let evens := ((x.ctxCircs n).filter fun e => !e.2.odd).length
    let txp := if odds = 0 ∧ evens = 0 then (x.ctx! n).txp else decide (evens < odds)
    let h := h.onCtx c n fun z => { z with txp := txp, arm := false, atSeq := none }
    let h := h.onCtxCircs c n fun y => { y with switched := false, asNow := false, odd := if y.clear then txp else y.odd }
    ((h.raiseChan c 5 clsN 0x25 n).evCph c 0x00080000).finish (.chan c) (isEpoch n) status reason 0

/-- A switch is armed (R209): NOW, or at a SEQ. An earlier armed switch of the context is replaced. A circuit that already uses the
target slot counts as not yet switched, and its AT_SEQ is compared with ESEQ of the slot it uses (DESIGN CHOICE, log entry 85). -/
def Hw.switchArm (h : Hw) (c : ChanId) (n : Nat) (at_ : Option Seq) : Hw :=
  let h := h.onCtx c n fun z => { z with arm := true, atSeq := at_, armAt := h.now + tenthUs 100 }
  let h := h.onCtxCircs c n fun y =>
    { y with switched := false, asNow := match at_ with
        | none => true
        | some v => decide (v ≤ y.eseq y.odd) }
  h.switchCheck c n

/-- A circuit of a context with an armed switch switches at a block it starts now (R209). -/
def switchDue (z : Ctx) (y : Circ) (now : Nat) : Bool :=
  z.arm && !y.switched && (match z.atSeq with
    | none => decide (z.armAt ≤ now)
    | some v => if y.asNow then decide (z.armAt ≤ now) else decide (v ≤ y.eseq y.odd))

/-- A slot goes to EMPTY (R199, R210, R220): a switch that it was the target of is cancelled. -/
def Hw.slotEmpty (h : Hw) (c : ChanId) (n : Nat) (odd : Bool) : Hw :=
  let z := (h.chan c).ctx! n
  if (z.slot odd).st = .empty then h
  else
    let h := (h.onCtx c n (·.onSlot odd KeySlot.empty)).onCtxCircs c n (·.slotGone odd)
    let h := h.onChan c fun x => x.ksFlushAll fun r => decide (r.odd = odd ∧ (x.circ! r.circ).kctx = n)
    let h := if z.arm && (odd != z.txp) then h.switchCancel c n stRefused rNoStandby else h
    h.switchCheck c n

/-! ## Ages (R192, R193) -/

/-- A circuit's ESEQ has reached 2^32: it is counted, SEQ_AGE is raised, and with AUTO_ADV a switch is issued (R192). -/
def Hw.ageCheck (h : Hw) (c : ChanId) (k : CircId) : Hw :=
  let x := h.chan c
  let y := x.circ! k
  if !x.mlt.run || y.aged || decide ((y.eseq y.odd).toNat < 2 ^ 32) then h
  else
    let h := ((h.onCirc c k fun y => { y with aged := true }).raiseChan c 5 clsN 0x23 k.toNat).evCph c 0x00400000
    let z := x.ctx! y.kctx
    if bitOf (x.reg 0x5000) 30 && !z.arm && decide ((z.slot (!z.txp)).st = .standby) then h.switchArm c y.kctx none else h

/-- A circuit is in hard stop: SEQ_STOP is raised once (R193). -/
def Hw.stopCheck (h : Hw) (c : ChanId) (k : CircId) : Hw :=
  let y := (h.chan c).circ! k
  if y.stopped || !y.hardStop then h
  else (((h.onCirc c k fun y => { y with stopped := true }).raiseChan c 5 clsN 0x24 k.toNat).evCph c 0x00200000).switchCheck c y.kctx

end Sys2Proof.Machine
end

