-- ==== Sys2Proof/Machine/Select.lean ====
section
/-!
DEFINITION. Machine/Select.lean: black-side protection: path conditions (R272, R273), the state machine (R277 to R282), the
change of ACTIVE (R270, R278), and what ends protection in a quarantine (R284).
-/
namespace Sys2Proof.Machine

/-! ## Path conditions (R92, R125, R132, R272) -/

/-- A lane is in a loopback (R131): LB 01 terminal, 10 line. -/
def Chan.loops (x : Chan) (p : Lane) : Bool :=
  decide (fieldOf (x.reg (laneReg p)) 9 8 = 1 ∨ fieldOf (x.reg (laneReg p)) 9 8 = 2)

/-- RS-TIM or SM-TIM acts as LOS on a lane (R125). -/
def Chan.timActs (x : Chan) (p : Lane) : Bool := (x.lane p).def_ 8 && bitOf (x.reg (frmReg p 8)) 3

/-- A black path's blocks are not decrypted: LOS, LOF, LOM, AIS, or a TIM that acts (R125, R268). -/
def Chan.pathDead (x : Chan) (p : Lane) : Bool :=
  let l := x.lane p
  l.def_ 15 || l.def_ 13 || l.def_ 12 || l.def_ 11 || x.timActs p

/-- Every enabled circuit is CARRIAGE_BROKEN on a path (R92). -/
def Chan.allBroken (x : Chan) (p : Path) : Bool :=
  x.circ.any (fun e => e.2.en) && x.circ.all fun e => !e.2.en || (e.2.rx p).cb

/-- A black path is in signal fail (R125, R92, R132). -/
def Chan.pathSF (x : Chan) (p : Path) : Bool :=
  let l := x.lane p.lane
  x.pathDead p.lane || l.def_ 4 || l.def_ 5 || (decide (x.rate p.lane = 9) && l.def_ 14) || x.allBroken p || x.loops p.lane

/-- A black path is in signal degrade (R125). -/
def Chan.pathSD (x : Chan) (p : Path) : Bool := (x.lane p.lane).def_ 6

/-- The four conditions in the order SF-W, SF-P, SD-W, SD-P (R272). -/
def Chan.pswConds (x : Chan) : Vector Bool 4 :=
  #v[x.pathSF .bkw, x.pathSF .bkp, x.pathSD .bkw && !x.pathSF .bkp && !x.pathSD .bkp, x.pathSD .bkp]

/-- HOLDOFF (R286), in units of 100 ms. -/
def Chan.holdoff (x : Chan) : Nat := min 100 (fieldOf (x.reg 0x7000) 13 7)

/-- The conditions have changed: each starts its hold-off, or is a request at once with HOLDOFF 0, or ends (R273). -/
def Psw.watch (p : Psw) (cond : Vector Bool 4) (immediate : Bool) : Psw :=
  { p with
    cond := cond
    ho := Vector.ofFn fun i : Fin 4 => cond[i] && (if p.cond[i] then p.ho[i] else !immediate)
    req := Vector.ofFn fun i : Fin 4 => cond[i] && (p.req[i] || (!p.cond[i] && immediate)) }

/-- The path conditions of an ACTIVE channel are taken anew. -/
def Hw.pswInputs (h : Hw) (c : ChanId) : Hw :=
  if (h.chan c).isActive && !(h.chan c).quarantined then
    h.onChan c fun x => { x with psw := x.psw.watch x.pswConds (x.holdoff == 0) }
  else h

/-! ## Requests (R277) -/

/-- Priority of a request, 1 highest. -/
def PswState.prio : PswState → Nat
  | .lo => 1 | .sfP => 2 | .fs => 3 | .sfW => 4 | .sdW => 5 | .ms => 6 | .wtr => 7 | .exer => 8 | .rr => 9 | .dnr => 10 | .nr => 11

/-- Code of a request. -/
def PswState.code : PswState → BitVec 4
  | .lo => 0xF | .sfP => 0xC | .fs => 0xD | .sfW => 0xB | .sdW => 0x9 | .ms => 0x7 | .wtr => 0x5 | .exer => 0x4 | .rr => 0x2
  | .dnr => 0x1 | .nr => 0x0

/-- The path a request names; none for EXER and RR, which name no path of their own (R283). -/
def PswState.path : PswState → Option Path
  | .lo => some .bkw | .sfP => some .bkw | .fs => some .bkp | .sfW => some .bkp | .sdW => some .bkp | .ms => some .bkp
  | .wtr => some .bkp | .exer => none | .rr => none | .dnr => some .bkp | .nr => some .bkw

/-- The request of a code; none for a reserved code. -/
def pswOfCode (v : BitVec 4) : Option PswState :=
  if v = 0xF then some .lo else if v = 0xC then some .sfP else if v = 0xD then some .fs else if v = 0xB then some .sfW
  else if v = 0x9 then some .sdW else if v = 0x7 then some .ms else if v = 0x5 then some .wtr else if v = 0x4 then some .exer
  else if v = 0x2 then some .rr else if v = 0x1 then some .dnr else if v = 0x0 then some .nr else none

/-- The far-end request of R282: none outside 1:1 mode, while RX_VALID is 0, and for RR, EXER and NR. -/
def Psw.far (p : Psw) (one : Bool) : Option PswState :=
  if one && p.rxValid then
    match pswOfCode p.rxCode with
    | some .rr => none | some .exer => none | some .nr => none
    | r => r
  else none

/-- The far end exercises, and 1:1 mode answers it (R282). -/
def Psw.farExer (p : Psw) (one : Bool) : Bool := one && p.rxValid && decide (p.rxCode = 0x4)

/-- The higher of two requests, the first on a tie. -/
def PswState.top (a b : PswState) : PswState := if b.prio < a.prio then b else a

/-- The operator command in force as a request; NR with none. -/
def Psw.cmdReq (p : Psw) : PswState :=
  if p.cmd = 1 then .lo else if p.cmd = 2 then .fs else if p.cmd = 3 then .ms else if p.cmd = 4 then .exer else .nr

/-- The highest of the operator command and the local conditions after hold-off. -/
def Psw.pressing (p : Psw) : PswState :=
  (p.cmdReq.top (if p.req[0] then .sfW else .nr)).top ((if p.req[1] then PswState.sfP else .nr).top (if p.req[2] then .sdW else .nr))

/-- The highest local request, WTR and DNR included. -/
def Psw.local_ (p : Psw) : PswState :=
  (p.pressing.top (if p.wtr then .wtr else .nr)).top (if p.dnr then .dnr else .nr)

/-! ## One evaluation (R278 to R282) -/

/-- What an evaluation needs of CHn.PSW_CFG. -/
structure PswCfg where
  one : Bool
  revert : Bool
  wtrTime : Nat
deriving DecidableEq, Repr

/-- CHn.PSW_CFG (R286). -/
def Chan.pswCfg (x : Chan) : PswCfg :=
  let w := x.reg 0x7000
  { one := bitOf w 31, revert := bitOf w 30, wtrTime := min 720 (fieldOf w 23 14) }

/-- The exit rule of SF-W and SD-W: WTR, NR or DNR (R279). -/
def Psw.leaveFail (p : Psw) (g : PswCfg) (hi : Nat) (now : Nat) : Psw :=
  if decide (p.st = .sfW ∧ p.req[0] = false) || decide (p.st = .sdW ∧ p.req[2] = false) then
    if g.revert then
      if 7 ≤ hi ∧ 0 < g.wtrTime then { p with wtr := true, wtrTo := now + g.wtrTime * 400000000 } else p
    else if 10 ≤ hi then { p with dnr := true } else p
  else p

/-- WTR, DNR, MS and EXER end when a request of higher priority enters (R279, R280); `hi` is the priority of the highest
request among the operator command, the local conditions and the far end. -/
def Psw.yieldTo (p : Psw) (hi : Nat) : Psw :=
  { p with
    wtr := p.wtr && decide (7 ≤ hi)
    dnr := p.dnr && (decide (10 ≤ hi) || decide (hi = 8 ∧ p.cmd = 4))
    cmd := if (p.cmd = 3 ∧ hi < 6) ∨ (p.cmd = 4 ∧ hi < 8) then 0 else p.cmd
    exerOk := if p.cmd = 4 ∧ hi < 8 then false else p.exerOk }

/-- DNR ends when SD-P holds while BKW has neither SF nor SD (R279). -/
def Psw.leaveDnr (p : Psw) (bkwClean : Bool) : Psw :=
  { p with dnr := p.dnr && !(p.st == .dnr && p.req[3] && bkwClean) }

/-- State and path after the flags are settled (R278, R282). The path in force while this end answers a far-end EXER is the one that
ACTIVE named before, also where the local state falls to NR in the same evaluation: ACTIVE stays (DESIGN CHOICE, log entry 90). -/
def Psw.settle (p : Psw) (one : Bool) : Psw :=
  let l := p.local_
  match p.far one with
  | some f =>
    if f.prio < l.prio then { p with st := .rr, active := f.path.getD p.active }
    else { p with st := l, active := l.path.getD p.active }
  | none =>
    if p.farExer one && decide (l = .nr ∨ l = .dnr) then { p with st := .rr }
    else { p with st := l, active := l.path.getD p.active }

/-- One evaluation of the state machine. -/
def Psw.evaluate (p : Psw) (g : PswCfg) (bkwClean : Bool) (now : Nat) : Psw :=
  let hi := min p.pressing.prio (((p.far g.one).map PswState.prio).getD 11)
  ((((p.leaveFail g hi now).leaveDnr bkwClean).yieldTo hi).settle g.one)

/-! ## A change of ACTIVE (R270, R278) -/

/-- The anchor of a circuit is cleared to be set again, and the grid it leaves is remembered (R243, R244). -/
def Circ.reanchor (x : Circ) : Circ :=
  { x.unanchor with gap := match x.anchor with
      | some a => some a.next
      | none => x.gap }

/-- A path of a circuit is in BLK_SYNC (R83). -/
def Circ.inSync (x : Circ) (p : Path) : Bool := decide ((x.rx p).blk = .sync)

/-- The circuits that a change of ACTIVE re-anchors (R270). -/
def Circ.movesWith (x : Circ) (one : Bool) (left : Path) : Bool :=
  x.en && (x.inSync .bkw || x.inSync .bkp)
    && (one || (x.dovf && (match x.anchor with
        | some a => decide (a.path = left)
        | none => false)))

/-- ACTIVE has changed from a path: SWITCH is set, the change counts, the circuits of R270 are re-anchored, and both
synthesizers select again (R306). -/
def Hw.switched (h : Hw) (c : ChanId) (left : Path) : Hw :=
  let h := (h.evPsw c 0x00008000).count c 0x12 12 1
  let h := h.onChan c fun x =>
    { x with circ := x.circ.map fun e => if e.2.movesWith (bitOf (x.reg 0x7000) 31) left then (e.1, e.2.reanchor) else e }
  h.reselect c

/-- A PSW_CMD that is an exercise under way. -/
def isExercise (x : Cmd) : Bool := decide (x.op = 0x40)

/-- The protection state is replaced: what follows from a change of ACTIVE, and from an exercise that has ended. -/
def Hw.pswTake (h : Hw) (c : ChanId) (p : Psw) : Hw :=
  let old := (h.chan c).psw
  let h := h.onChan c fun x => { x with psw := p }
  let h := if old.cmd = 4 ∧ p.cmd ≠ 4 then (h.evPsw c 0x00040000).finish (.chan c) isExercise stDone 0 (b2n p.exerOk) else h
  if p.active = old.active then h else h.switched c old.active

/-- The Malot runs, so that what it does for a channel happens (R44). -/
def Chan.malotRuns (x : Chan) : Bool := x.isActive && x.mlt.run && !x.quarantined

/-- The Malot evaluates the state machine (R278). -/
def Hw.pswEval (h : Hw) (c : ChanId) : Hw :=
  let x := h.chan c
  if x.malotRuns then h.pswTake c (x.psw.evaluate x.pswCfg (!x.pathSF .bkw && !x.pathSD .bkw) h.now) else h

/-- A quarantine ends protection: NR, BKW, no command, no WTR (R284). -/
def Hw.pswReset (h : Hw) (c : ChanId) : Hw :=
  let p := (h.chan c).psw
  h.pswTake c { p with st := .nr, active := .bkw, cmd := 0, wtr := false, dnr := false, exerOk := p.exerOk && decide (p.cmd ≠ 4),
                        ho := Vector.replicate 4 false, req := Vector.replicate 4 false, cond := Vector.replicate 4 false }

end Sys2Proof.Machine
end

