-- ==== Sys2Proof/Machine/Swap.lean ====
section
/-!
DEFINITION. Machine/Swap.lean: defects of a circuit's position (R125, R146, R153, R488), and the bank swap as both directions see
it (R172 to R176).
-/
namespace Sys2Proof.Machine

/-! ## Defects of positions -/

/-- Level codes of CHn.MAP_AUSEL. -/
def lvlNum : PtrLevel → Nat
  | .au => 0 | .tu3 => 1 | .tu => 2

/-- The key of a pointer in the mapper's table: lane, level and position. -/
def ptrKey (p : Lane) (lvl : PtrLevel) (pos : Pos) : Nat := p.num * 2 ^ 20 + lvlNum lvl * 2 ^ 16 + pos.key

/-- A pointer and the VC under it. -/
def Chan.ptr (x : Chan) (p : Lane) (lvl : PtrLevel) (pos : Pos) : PtrSt := tget {} x.map.ptrs (ptrKey p lvl pos)

/-- The key of a fractional tributary on a lane. -/
def tribKey (p : Lane) (pos : Pos) : Nat := p.num * 2 ^ 16 + pos.key

/-- A fractional tributary on a lane. -/
def Chan.trib (x : Chan) (p : Lane) (pos : Pos) : TribSt := tget {} x.map.tribs (tribKey p pos)

/-- CHn.MAP_CFG.SONET (R181). -/
def Chan.sonet (x : Chan) : Bool := bitOf (x.reg 0x3000) 31

/-- A kind carried in a TU-11 or TU-12 (R140). -/
def isLow (k : Nat) : Bool := decide (k = 1 ∨ k = 2) || isFrac k

/-- The position of the AU-4 or STS-1 over a position: an AU-4 spans the AUG, an STS-1 one third of it (R139, R140). -/
def auOf (sonet : Bool) (kind : Nat) (pos : Pos) : Pos :=
  if sonet ∧ (kind = 3 ∨ isLow kind) then { pos with t2 := 0, tu := 0 } else { aug := pos.aug, t3 := 0, t2 := 0, tu := 0 }

/-- A pointer in LOP or AIS. -/
def PtrSt.down (q : PtrSt) : Bool := decide (q.st = 1 ∨ q.st = 2)

/-- The pointer or multiframe structure over a circuit is lost on a lane: LOP, AIS or TU-LOM (R83, R146). -/
def Chan.structLost (x : Chan) (p : Lane) (y : Circ) : Bool :=
  if isWhole y.kind then false
  else
    let au := x.ptr p .au (auOf x.sonet y.kind y.pos)
    au.down || (decide (y.kind = 3) && !x.sonet && (x.ptr p .tu3 { y.pos with t2 := 0, tu := 0 }).down)
      || (isLow y.kind && (au.lom || (x.ptr p .tu y.pos).down))

/-- A circuit is in a pointer, path or tributary defect on a lane (R146, R153). -/
def Chan.circDefect (x : Chan) (p : Lane) (y : Circ) : Bool :=
  x.structLost p y
    || (isLow y.kind && ((x.ptr p .tu y.pos).uneq || (x.ptr p .tu y.pos).plm))
    || (isFrac y.kind && ((x.trib p y.pos).tlof || (x.trib p y.pos).tais))

/-- Every circuit of the channel is in defect on the red lane (R125). -/
def Chan.redDown (x : Chan) : Bool :=
  let l := x.red
  x.pathDead .red || l.def_ 4 || (decide (x.rate .red = 9) && l.def_ 14) || decide (l.fr = .hunt ∨ l.fr = .presync)

/-- A circuit is in defect on a lane's receive path (R488). -/
def Chan.inDefect (x : Chan) (p : Lane) (y : Circ) : Bool :=
  (match p with
    | .red => x.redDown
    | _ => x.pathDead p) || x.circDefect p y

/-- CNT of CHn.MAP_DEFCNT_p. -/
def Chan.defCnt (x : Chan) (p : Lane) : Nat := x.countCirc fun y => y.en && x.inDefect p y

/-- MAP_EVT.DEF: a CHn.MAP_DEFCNT_p left 0 or returned to 0 since `h0` (R488). -/
def Hw.defSync (h h0 : Hw) (c : ChanId) : Hw :=
  let z := fun (h : Hw) (p : Lane) => decide ((h.chan c).defCnt p = 0)
  if [Lane.red, .bkw, .bkp].any fun p => z h p != z h0 p then h.evMap c 0x00200000 else h

/-! ## The bank swap -/

/-- The positions of the fractional tributaries with an enabled sub-circuit (log entry 13). -/
def Chan.fracTribs (x : Chan) : List Pos :=
  ((x.circ.filter fun e => e.2.en && isFrac e.2.kind).map fun e => e.2.pos).dedup

/-- A MAP_SWAP command. -/
def isSwap (x : Cmd) : Bool := decide (x.op = 0x20)

/-- The pending swap completes (R174): both sides use the new bank, the old one becomes the shadow, and starved circuits are
retried (R250). Where a forced swap finds the encrypt side of a tributary not yet switched, that side takes the new bank with it, and
ENC names it: the spec names only the decrypt side and DEC (DESIGN CHOICE, log entry 79). -/
def Hw.swapDone (h : Hw) (c : ChanId) (forced : Bool) : Hw :=
  let h := h.onChan c fun x =>
    let new := !x.map.encWas
    { x with map := { x.map with
        enc := new, dec := new, pending := false
        swaps := x.map.swaps.map fun e => (e.1, { e.2 with encB := new, followed := false }) } }
  ((h.evMap c 0x00800000).finish (.chan c) isSwap stDone 0 (b2n forced)).retryStarved c

/-- The encrypt side of every tributary has switched: ENC changes (R172). -/
def Hw.swapEnc (h : Hw) (c : ChanId) : Hw :=
  let x := h.chan c
  let new := !x.map.encWas
  if x.map.pending && x.fracTribs.all fun t => (tget {} x.map.swaps t.key).encB == new then
    h.onChan c fun x => { x with map := { x.map with enc := new } }
  else h

/-- The swap completes if nothing is left to switch or to follow (R174). -/
def Hw.swapCheck (h : Hw) (c : ChanId) : Hw :=
  let h := h.swapEnc c
  let x := h.chan c
  if x.map.pending && (x.map.enc != x.map.encWas) && x.fracTribs.all fun t => (tget {} x.map.swaps t.key).followed then h.swapDone c false
  else h

/-- A block is counted in CHn.MAP_MEPMIS (R173). -/
def Hw.mepMiss (h : Hw) (c : ChanId) : Hw := (h.setChReg c 0x300C (h.chReg c 0x300C + 1)).evMap c 0x00100000

/-- The lowest enabled sub-circuit of a tributary: the one that decides its epoch for the counts of R173 (log entry 13). -/
def Chan.leadSub (x : Chan) (pos : Pos) : Option Nat :=
  (x.circ.find? fun e => e.2.en && isFrac e.2.kind && decide (e.2.pos = pos)).map (·.1)

/-- A tributary follows the new bank on the decrypt side (R173). -/
def Hw.follow (h : Hw) (c : ChanId) (pos : Pos) : Hw :=
  (h.onChan c fun x =>
    { x with map := { x.map with swaps := tput {} x.map.swaps pos.key { tget ({} : TribSwap) x.map.swaps pos.key with followed := true } } }).swapCheck c

/-- A block of a fractional tributary shows its map epoch (R173): the bank it is demapped under, and what follows. Blocks under
another epoch are counted once a tributary block, at its lowest enabled sub-circuit (log entry 13). -/
def Hw.epochSeen (h : Hw) (c : ChanId) (pos : Pos) (lead ep : Bool) : Bool × Hw :=
  let x := h.chan c
  let t : TribSwap := tget {} x.map.swaps pos.key
  let new := !x.map.encWas
  let miss := if lead then h.mepMiss c else h
  if x.map.pending then
    if ep = new then
      if t.followed then (new, h) else if t.encB = new then (new, h.follow c pos) else (x.map.dec, miss)
    else if t.followed then (new, miss) else (x.map.dec, h)
  else if ep = x.map.dec then (x.map.dec, h) else (x.map.dec, miss)

/-- The epoch of the last block of a tributary on a path. -/
def TribSwap.ep (t : TribSwap) : Path → Option Bool
  | .bkw => t.epW | .bkp => t.epP

/-- The epoch of the last block of a tributary on a path changes. -/
def TribSwap.setEp (t : TribSwap) (p : Path) (e : Option Bool) : TribSwap :=
  match p with
  | .bkw => { t with epW := e } | .bkp => { t with epP := e }

/-- A channel quarantine abandons a pending swap (R176). -/
def Chan.swapAbandon (x : Chan) : Chan :=
  if x.map.pending then
    { x with map := { x.map with
        enc := x.map.encWas, pending := false
        swaps := x.map.swaps.map fun e => (e.1, { e.2 with encB := x.map.encWas, followed := false }) } }
  else x

end Sys2Proof.Machine
end

