-- ==== Sys2Proof/Machine/Pointers.lean ====
section
/-!
DEFINITION. Machine/Pointers.lean: pointer interpretation (R143), the transmit pointer generators (R147, R148), and labels
(R123).
-/
namespace Sys2Proof.Machine

/-! ## Interpretation (R143) -/

/-- A value repeated: the run's length after one more. -/
def runOf {α : Type} [DecidableEq α] (old : α) (n : Nat) (new : α) : Nat := if n ≠ 0 ∧ old = new then n + 1 else 1

/-- An accepted label: PLM is entered when it differs from the expected value and is not 0, and left when it equals it (R123). -/
def plmOf (on : Bool) (acc exp : Nat) : Bool := if acc = exp then false else if acc = 0 then on else true

/-- Offsets of a pointer: 783 of an AU or STS-1, 765 of a TU-3, 140 of a TU-12, 104 of a TU-11 (G.707; log entry 17). -/
def ptrRange (lvl : PtrLevel) (t1 : Bool) : Nat :=
  match lvl with
  | .au => 783 | .tu3 => 765 | .tu => if t1 then 104 else 140

/-- A TU position carries a TU-11: a circuit of kind T1 in VC-11, or a fractional T1, is configured there. -/
def Chan.isTu11 (x : Chan) (pos : Pos) : Bool := x.circ.any fun e => decide ((e.2.kind = 1 ∨ e.2.kind = 9) ∧ e.2.pos = pos)

/-- An enabled VC-4-Nc stands at a position, so that its further AUs must carry the concatenation indication. -/
def Chan.isConc (x : Chan) (pos : Pos) : Bool := x.circ.any fun e => e.2.en && decide ((5 ≤ e.2.kind ∧ e.2.kind ≤ 7) ∧ e.2.pos = pos)

/-- Every run of consecutive indications is broken, but those of one kind. -/
def PtrSt.fresh (q : PtrSt) : PtrSt := { q with candN := 0, badN := 0, ndfN := 0, aisN := 0, lastAdj := min 3 (q.lastAdj + 1) }

/-- A pointer enters NORM at an offset. -/
def PtrSt.norm (q : PtrSt) (v : BitVec 10) : PtrSt := { q.fresh with st := 0, ofs := v }

/-- A run of 8 leads to LOP. -/
def PtrSt.lop8 (q : PtrSt) : PtrSt := if 8 ≤ q.badN ∨ 8 ≤ q.ndfN then { q.fresh with st := 1 } else q

/-- A valid pointer without NDF, at an offset. -/
def PtrSt.valid (q : PtrSt) (v : BitVec 10) : PtrSt :=
  let n := runOf q.cand q.candN v
  if 3 ≤ n then q.norm v else { q.fresh with cand := v, candN := n }

/-- One pointer interval (R143). A pointer not yet interpreted acts as one in LOP (log entry 17). -/
def PtrSt.interval (q : PtrSt) (range : Nat) : PtrInd → PtrSt
  | .same => if q.st = 0 then q.fresh else q.valid q.ofs
  | .incr => if q.st = 0 ∧ 2 ≤ q.lastAdj then { q.fresh with ofs := BitVec.ofNat 10 ((q.ofs.toNat + 1) % range), lastAdj := 0 } else q.fresh
  | .decr =>
    if q.st = 0 ∧ 2 ≤ q.lastAdj then { q.fresh with ofs := BitVec.ofNat 10 ((q.ofs.toNat + range - 1) % range), lastAdj := 0 } else q.fresh
  | .ndf v =>
    let n := q.ndfN + 1
    if q.st = 0 then ({ (q.norm v) with ndfN := n } : PtrSt).lop8
    else if q.st = 2 then { (q.norm v) with ndfN := n }
    else { q.fresh with ndfN := n }
  | .valid v => q.valid v
  | .invalid => ({ q.fresh with badN := q.badN + 1 } : PtrSt).lop8
  | .ndfInvalid => ({ q.fresh with badN := q.badN + 1, ndfN := q.ndfN + 1 } : PtrSt).lop8
  | .ais => if 2 ≤ q.aisN then { q.fresh with st := 2 } else { q.fresh with aisN := q.aisN + 1 }

/-- The concatenation indication of the further AUs of a VC-4-Nc: missing in 3 consecutive frames, the circuit enters LOP. -/
def PtrSt.concat (q : PtrSt) (conc : Bool) : PtrSt :=
  if conc then { q with concN := 0 } else if 2 ≤ q.concN then { q with st := 1, concN := 3 } else { q with concN := q.concN + 1 }

/-! ## Generation (R147, R148) -/

/-- The key of a pointer generator: its side, level and position. -/
def genKey (red : Bool) (lvl : PtrLevel) (pos : Pos) : Nat := b2n red * 2 ^ 22 + lvlNum lvl * 2 ^ 16 + pos.key

/-- A pointer generator. -/
def Chan.gen (x : Chan) (red : Bool) (lvl : PtrLevel) (pos : Pos) : PtrGen := tget {} x.map.gens (genKey red lvl pos)

/-- Change a pointer generator. -/
def Chan.onGen (x : Chan) (red : Bool) (lvl : PtrLevel) (pos : Pos) (f : PtrGen → PtrGen) : Chan :=
  { x with map := { x.map with gens := tput {} x.map.gens (genKey red lvl pos) (f (x.gen red lvl pos)) } }

/-- The offset that a transmitted pointer holds: where the generator started, which the spec leaves open, moved by its
adjustments (log entry 80). -/
def Chan.genOfs (x : Chan) (red : Bool) (lvl : PtrLevel) (pos : Pos) : Nat :=
  let r := ptrRange lvl (x.isTu11 pos)
  (((Config.startOffset x.map.genSeed (genKey red lvl pos) : Int) + (x.gen red lvl pos).shift) % (r : Int)).toNat

/-- The levels and positions of the pointers over a circuit of SDH or SONET (R143, R146). -/
def Chan.ptrsOf (x : Chan) (y : Circ) : List (PtrLevel × Pos) :=
  if isWhole y.kind then []
  else (.au, auOf x.sonet y.kind y.pos) :: ((if y.kind = 3 ∧ !x.sonet then [(.tu3, { y.pos with t2 := 0, tu := 0 })] else [])
    ++ (if isLow y.kind then [(.tu, y.pos)] else []))

/-- The pointer that carries a whole-VC circuit's container (R148). -/
def Chan.ownPtr (x : Chan) (y : Circ) : Option (PtrLevel × Pos) := if isFrac y.kind then none else (x.ptrsOf y).getLast?

/-- The generators over a circuit start with NDF at its enable. -/
def Chan.genEnable (x : Chan) (y : Circ) : Chan :=
  (x.ptrsOf y).foldl (fun x e => (x.onGen false e.1 e.2 fun g => { g with ndf := true }).onGen true e.1 e.2 fun g => { g with ndf := true }) x

/-- Every generator starts with NDF at channel start, at an offset of its own. -/
def Hw.genStart (h : Hw) (c : ChanId) : Hw :=
  h.draw.2.onChan c fun x => { x with map := { x.map with gens := [], genSeed := h.drawn } }

/-- A released fill block sends the AIS of the circuit's pointer on the RED lane; the first released data block resumes with NDF
(R148). -/
def Chan.genAis (x : Chan) (y : Circ) (ais : Bool) : Chan :=
  match x.ownPtr y with
  | none => x
  | some e => x.onGen true e.1 e.2 fun g => if ais then { g with ais := true } else if g.ais then { g with ais := false, ndf := true } else g

/-- A synthesizer is through-timed: the transmit timing of its lanes follows the source of their content (R299). -/
def Chan.thruTimed (x : Chan) (r : Bool) : Bool :=
  let g := x.syn r
  decide (g.st = .acquiring ∨ g.st = .locked) && thruCand r g.sel.val

/-- A generator after one interval of the incoming pointer, which went from `q` to `q'`: through-timed, it performs exactly the
incoming pointer's justifications, and moves with it to a new offset, which it announces with NDF. Otherwise the rate difference
decides, which is left out as timing (log entry 80). -/
def PtrGen.follow (g : PtrGen) (thru : Bool) (q q' : PtrSt) (ind : PtrInd) : PtrGen :=
  let g := { g with ndf := false, gap := min 4 (g.gap + 1) }
  if !thru || decide (q.st ≠ 0) || q'.ofs == q.ofs then g
  else
    match ind with
    | .incr => { g with shift := g.shift + 1, gap := 0 }
    | .decr => { g with shift := g.shift - 1, gap := 0 }
    | _ => { g with shift := g.shift + ((q'.ofs.toNat : Int) - q.ofs.toNat), ndf := true }

/-- An interval of an incoming pointer reaches the generator of the other side: a red pointer that of the black lanes, a pointer of
the path in service that of the RED lane. -/
def Chan.genFollow (x : Chan) (p : Lane) (lvl : PtrLevel) (pos : Pos) (q q' : PtrSt) (ind : PtrInd) : Chan :=
  if p = .red then x.onGen false lvl pos fun g => g.follow (x.thruTimed false) q q' ind
  else if p = x.psw.active.lane then x.onGen true lvl pos fun g => g.follow (x.thruTimed true) q q' ind
  else x

/-- A pointer is interpreted. -/
def Chan.pointer (x : Chan) (p : Lane) (lvl : PtrLevel) (pos : Pos) (ind : PtrInd) (conc : Bool) : Chan :=
  let q := x.ptr p lvl pos
  let q' := q.interval (ptrRange lvl (x.isTu11 pos)) ind
  let q'' := if lvl = .au && x.isConc pos then q'.concat conc else { q' with concN := 0 }
  let x := { x with map := { x.map with ptrs := tput {} x.map.ptrs (ptrKey p lvl pos) q'' } }
  x.genFollow p lvl pos q q'' ind

end Sys2Proof.Machine
end

