-- ==== Sys2Proof/Machine/Reclaim.lean ====
section
/-!
DEFINITION. Machine/Reclaim.lean: the Zyneo trailer (R47 to R54, R184 to R186).
-/
namespace Sys2Proof.Machine

/-! ## The trailer (R49, R50) -/

/-- TYPE of a trailer (R50). -/
def mkType (format : BitVec 2) (kep mep : Bool) (aps : BitVec 4) : Byte :=
  BitVec.ofNat 8 (format.toNat * 64 + b2n kep * 32 + b2n mep * 16 + aps.toNat)

/-- Trailer bytes 0 to 6: TYPE, SEQ and ECT. -/
def trlHead (type : Byte) (seq : Seq) (ect : Nat) : List Byte := [type] ++ beBytes 5 seq.toNat ++ [BitVec.ofNat 8 (min 255 ect)]

/-- The AAD of a block: trailer bytes 0 to 6, then the LCID (R186). -/
def aadOf (head : List Byte) (lcid : Nat) : List Byte := head ++ beBytes 3 lcid

/-- The IV of a block built by an end of a site role (R184). -/
def ivOf (roleB : Bool) (lcid : Nat) (seq : Seq) : List Byte :=
  [if roleB then 0x80 else 0] ++ beBytes 3 lcid ++ [0, 0, 0] ++ beBytes 5 seq.toNat

/-- A whole trailer: head, tag and TCRC (R49, R53). -/
def mkTrailer (head tag : List Byte) (lcid : Nat) : List Byte := head ++ tag ++ beBytes 2 (tcrc (lcid % 65536) (head ++ tag)).toNat

/-- TYPE as received. -/
def trlType (t : List Byte) : Byte := t.getD 0 0
/-- FORMAT. -/
def trlFormat (t : List Byte) : BitVec 2 := BitVec.ofNat 2 ((trlType t).toNat / 64)
/-- KEP. -/
def trlKep (t : List Byte) : Bool := (trlType t).getLsbD 5
/-- MEP. -/
def trlMep (t : List Byte) : Bool := (trlType t).getLsbD 4
/-- APS. -/
def trlAps (t : List Byte) : BitVec 4 := BitVec.ofNat 4 (trlType t).toNat
/-- SEQ. -/
def trlSeq (t : List Byte) : Seq := BitVec.ofNat 40 (beNat (slice t 1 5))
/-- ECT. -/
def trlEct (t : List Byte) : Nat := (t.getD 6 0).toNat
/-- TAG, of `n` bytes. -/
def trlTag (t : List Byte) (n : Nat) : List Byte := slice t 7 n

/-- TCRC is good for a circuit's LCID (R53). -/
def trlGood (lcid n : Nat) (t : List Byte) : Bool :=
  decide (t.length = n + 9) && decide (slice t (n + 7) 2 = beBytes 2 (tcrc (lcid % 65536) (t.take (n + 7))).toNat)

/-- A null trailer: exactly all zero (R54). -/
def trlNull (t : List Byte) : Bool := t.all fun b => b == 0

end Sys2Proof.Machine
end

