-- ==== Sys2Proof/Machine/Trib.lean ====
section
/-!
DEFINITION. Machine/Trib.lean: fractional tributaries bit by bit: where their frames and timeslots lie in a VC-12 or VC-11 (R66, R141,
R164 to R168), compaction and expansion (R168), their framing, its CRCs and the framing built for a lost one (R68, R153), and the
tributary as a transmit lane carries it (R150, R154, R166).

The C bits, frames and CRC procedures are those of ITU-T G.707 and G.704 (log entry 72).
-/
namespace Sys2Proof.Machine

/-! ## Tributary bits -/

/-- The cMajority of a bit over the three subframes that hold C bits: byte 2 of subframes 2 to 4 of a multiframe of subframes of
`w` bytes. -/
def cMajority (w bit : Nat) (l : List Byte) : Bool :=
  decide (2 ≤ b2n ((l.getD (w + 1) 0).getLsbD bit) + b2n ((l.getD (2 * w + 1) 0).getLsbD bit) + b2n ((l.getD (3 * w + 1) 0).getLsbD bit))

/-- The masks of one multiframe's tributary bits: the I bits, and S1 and S2 where their C bits say that they carry data (R59). -/
def tribMask (k : Nat) (l : List Byte) : List Mask :=
  let w := if k = 9 then 26 else 35
  let cut := fun (i : Nat) (m : Byte) =>
    if k = 9 then
      (if i = 79 then (if cMajority w 7 l then ~~~0x04#8 else 0xFF) &&& (if cMajority w 6 l then ~~~0x02#8 else 0xFF) &&& m else m)
    else if i = 106 && cMajority w 7 l then m &&& ~~~0x01#8
    else if i = 107 && cMajority w 6 l then m &&& ~~~0x80#8 else m
  (List.range (frameLen k)).map fun i => { pay := cut i (layoutOf k i).pay, rcl := (layoutOf k i).rcl }

/-- The masks of a block's tributary bits. -/
def tribMasks (k : Nat) (l : List Byte) : List Mask :=
  (partsOf (blockFrames k) (frameLen k) (fit (blockFrames k * frameLen k) l)).flatMap (tribMask k)

/-- The tributary bits of a block. -/
def tribBits (k : Nat) (t : TribSpan) : List Bool := takeBits Mask.pay (tribMasks k t.vc) t.vc

/-- Bits of a tributary frame. -/
def tribFrame (k : Nat) : Nat := if k = 9 then 193 else 256

/-- What begins at a place of the multiframe: nothing, the T1 F-bit, or a timeslot. -/
inductive CellAt where
  | none | fbit | slot (s : Nat)
deriving DecidableEq, Repr

/-- What begins at a place. -/
def cellAt (k pos : Nat) : CellAt :=
  let q := pos % tribFrame k
  if k = 9 then (if q = 0 then .fbit else if (q - 1) % 8 = 0 then .slot ((q - 1) / 8) else .none)
  else if q % 8 = 0 then .slot (q / 8) else .none

/-- An F-bit or a timeslot byte that begins in a block, with its place in the multiframe. -/
inductive Cell where
  | fbit (pos : Nat) (b : Bool)
  | slot (pos s : Nat) (v : Byte)
deriving DecidableEq, Repr

/-- The cells that begin in the next `n` bits. -/
def cellsFrom (k : Nat) : Nat → Nat → List Bool → List Cell
  | _, 0, _ => []
  | pos, n + 1, l =>
    let r := cellsFrom k (pos + 1) n l.tail
    match cellAt k pos with
    | .none => r
    | .fbit => .fbit pos (l.headD false) :: r
    | .slot s => .slot pos s (BitVec.ofNat 8 (natOf (fitBits 8 (l.take 8)))) :: r

/-- The cells of a block: a timeslot belongs to the block that carries its first bit (R66). -/
def tribCells (k : Nat) (t : TribSpan) : List Cell :=
  let b := tribBits k t
  cellsFrom k t.phase b.length (b ++ t.tail)

/-- The bits of a cell. -/
def Cell.bits : Cell → List Bool
  | .fbit _ b => [b]
  | .slot _ _ v => byteBits v

/-! ## Compaction (R168) -/

/-- The bytes of the timeslots that meet a test, in frame order and within a frame in timeslot order. -/
def pickSlots (sel : Nat → Bool) (l : List Cell) : List Byte :=
  l.filterMap fun c => match c with
    | .slot _ s v => if sel s then some v else none
    | .fbit _ _ => none

/-- A timeslot of a tributary has a role and an owner under a bank. -/
def Chan.slotIs (x : Chan) (b : Bool) (kind : Nat) (p : Pos) (role n s : Nat) : Bool :=
  let e := x.slot b (posIndex kind p + s)
  !framingSlot kind (x.tribTfmt kind p) s && slotV e && decide (slotRole e = role ∧ slotCirc e = n)

/-- The compacted payload of a sub-circuit's block under a bank (R168). -/
def Chan.compact (x : Chan) (b : Bool) (n : Nat) (y : Circ) (t : TribSpan) : List Byte :=
  pickSlots (x.slotIs b y.kind y.pos 0 n) (tribCells y.kind t)

/-- The reclaim sequence of a sub-circuit's block under a bank: the tributary's R and O bits for number 1, its own reclaim slots for
2 to 4 (R67). -/
def Chan.subReclaim (x : Chan) (b : Bool) (n : Nat) (y : Circ) (t : TribSpan) : List Bool :=
  if x.subNo b n y = 1 then reclaimOf y.kind t.vc else bytesBits (pickSlots (x.slotIs b y.kind y.pos 1 n) (tribCells y.kind t))

/-- Bytes of a tributary's idle-fill timeslots in a block, which MAP builds with KIND 11 (R166). -/
def Chan.idleBytes (x : Chan) (b : Bool) (kind : Nat) (p : Pos) (t : TribSpan) : Nat :=
  (pickSlots (fun s => let e := x.slot b (posIndex kind p + s); !framingSlot kind (x.tribTfmt kind p) s
    && (!slotV e || decide (slotRole e = 2))) (tribCells kind t)).length

/-- The idle code of a tributary: CHn.MAP_CFG.IDLE_E1 or IDLE_T1 (R166, R181). -/
def Chan.idleCode (x : Chan) (kind : Nat) : Byte :=
  BitVec.ofNat 8 (if kind = 9 then fieldOf (x.reg 0x3000) 25 18 else fieldOf (x.reg 0x3000) 17 10)

/-! ## CRC-4 and CRC-6 (R68, R84) -/

/-- Bits of the span a CRC covers: an E1 sub-multiframe of 8 frames, or a T1 superframe of 24; 0 for a format without CRC (R151). -/
def crcSpan (tfmt : Nat) : Nat := if tfmt ≤ 1 then 2048 else if tfmt = 4 then 4632 else 0

/-- The CRC bit that stands at a place, counted from the first; none at any other bit. -/
def crcSlot (tfmt pos : Nat) : Option Nat :=
  if tfmt ≤ 1 then (if pos % 512 = 0 then some (pos % 2048 / 512) else none)
  else if tfmt = 4 ∧ pos % 193 = 0 ∧ pos / 193 % 4 = 1 then some (pos / 193 % 24 / 4) else none

/-- One bit into the CRC register: x^4 + x + 1, or x^6 + x + 1. -/
def crcStep (tfmt acc : Nat) (b : Bool) : Nat :=
  let w := if tfmt = 4 then 6 else 4
  (acc * 2 % 2 ^ w) ^^^ (if acc.testBit (w - 1) != b then 3 else 0)

/-- Tributary bits from a place on, with their CRC bits regenerated: each span's CRC is sent in the next, its own CRC bits counting
as 0 in an E1 and every F-bit as 1 in a T1; `v j` inverts the first check bit of the `j`-th span that ends (R85). -/
def crcRegen (tfmt : Nat) (v : Nat → Bool) : Nat → Nat → TribCrc → List Bool → List Bool × TribCrc
  | _, _, c, [] => ([], c)
  | pos, j, c, b :: t =>
    let w := if tfmt = 4 then 6 else 4
    let o := match crcSlot tfmt pos with
      | some i => c.send.testBit (w - 1 - i)
      | none => b
    let seen := if tfmt = 4 ∧ pos % 193 = 0 then true else if tfmt ≤ 1 ∧ (crcSlot tfmt pos).isSome then false else o
    let a := crcStep tfmt c.acc seen
    if (pos + 1) % crcSpan tfmt = 0 then
      let r := crcRegen tfmt v (pos + 1) (j + 1) { acc := 0, send := if v j then a ^^^ 2 ^ (w - 1) else a } t
      (o :: r.1, r.2)
    else
      let r := crcRegen tfmt v (pos + 1) j { c with acc := a } t
      (o :: r.1, r.2)

/-- The CRC spans that end in the next `n` bits: the opportunities M of sub-circuit 1 (R84). -/
def crcEnds (tfmt pos n : Nat) : Nat := if crcSpan tfmt = 0 then 0 else (pos % crcSpan tfmt + n) / crcSpan tfmt

/-! ## Framing of its own (R153) -/

/-- TS0 of an E1 built without red framing: FAS in even frames; NFAS with bit 3 at 0 and the Sa bits at 1 in odd ones, and bit [7]
the CRC-4 multiframe alignment signal and E bits at 1, or 1 without CRC-4. -/
def ownTs0 (tfmt pos : Nat) : Byte :=
  let f := pos / 256 % 16
  if f % 2 = 0 then (if tfmt ≤ 1 then 0x1B else 0x9B)
  else if tfmt ≤ 1 ∧ (f = 1 ∨ f = 3 ∨ f = 7) then 0x5F else 0xDF

/-- The F-bit of a T1 built without red framing: the frame pattern 001011 of an ESF with idle flags on its data link, or the Ft and Fs
bits of an SF. A T1's place counts over two superframes, so that its flags go on. -/
def ownF (tfmt pos : Nat) : Bool :=
  let f := pos / 193 % 24
  if tfmt = 4 then
    (if f % 2 = 0 then decide (pos / 386 % 8 ≠ 0 ∧ pos / 386 % 8 ≠ 7) else if f % 4 = 3 then decide (f = 11 ∨ f = 19 ∨ f = 23) else false)
  else
    let g := f % 12
    if g % 2 = 0 then decide (g % 4 = 0) else decide (g = 5 ∨ g = 7 ∨ g = 9)

/-- A cell with the framing that the encrypt side builds itself while the red tributary is in T-LOF or T-AIS. -/
def Cell.own (kind tfmt : Nat) : Cell → Cell
  | .fbit pos _ => .fbit pos (ownF tfmt pos)
  | .slot pos s v =>
    if kind = 8 ∧ s = 0 then .slot pos s (ownTs0 tfmt pos)
    else if framingSlot kind tfmt s then .slot pos s 0xFF else .slot pos s v

/-- A tributary's VC with other cells: the bits before the first cell belong to the block before. -/
def tribPut (k : Nat) (t : TribSpan) (bits : List Bool) : List Byte := putBits Mask.pay (tribMasks k t.vc) t.vc bits

/-- The bits of a block that end a timeslot begun in the block before. -/
def tribLead (k : Nat) (t : TribSpan) : List Bool :=
  let b := tribBits k t
  match (List.range (min 8 b.length)).find? fun i => cellAt k (t.phase + i) != .none with
  | some i => b.take i
  | none => []

/-- A red tributary block with framing of the encrypt side's own. -/
def ownFraming (k tfmt : Nat) (t : TribSpan) : TribSpan :=
  { t with vc := tribPut k t (tribLead k t ++ (tribCells k t).flatMap fun c => (c.own k tfmt).bits) }

/-! ## A tributary on a transmit side -/

/-- The next byte for a timeslot, from what is left of each sub-circuit's bytes. -/
def takeNext (n : Nat) : List (Nat × List Byte × Byte) → Option Byte × List (Nat × List Byte × Byte)
  | [] => (none, [])
  | (m, l, f) :: t =>
    if m = n then (some (l.headD f), (m, l.tail, f) :: t)
    else let r := takeNext n t; (r.1, (m, l, f) :: r.2)

/-- Expansion (R168): each cell takes the next byte of its owner, a framing cell its own value, any other the idle code (R166). -/
def expandCells (owner : Nat → Option (Nat × Nat)) (framing : Nat → Bool) (idle : Byte) :
    List (Nat × List Byte × Byte) → List (Nat × List Byte × Byte) → List Cell → List Cell
  | _, _, [] => []
  | ps, rs, .fbit pos b :: t => .fbit pos b :: expandCells owner framing idle ps rs t
  | ps, rs, .slot pos s v :: t =>
    if framing s then .slot pos s v :: expandCells owner framing idle ps rs t
    else
      match owner s with
      | some (0, n) => let r := takeNext n ps; .slot pos s (r.1.getD idle) :: expandCells owner framing idle r.2 rs t
      | some (_, n) => let r := takeNext n rs; .slot pos s (r.1.getD idle) :: expandCells owner framing idle ps r.2 t
      | none => .slot pos s idle :: expandCells owner framing idle ps rs t

/-- The owner of a timeslot under a bank, with its role: 0 payload, 1 reclaim. -/
def Chan.slotOwner (x : Chan) (b : Bool) (kind : Nat) (p : Pos) (s : Nat) : Option (Nat × Nat) :=
  let e := x.slot b (posIndex kind p + s)
  if slotV e && decide (slotRole e ≤ 1) then some (slotRole e, slotCirc e) else none

/-- A tributary's current block on a transmit side: the VC's bytes, and what the next block starts from. Where every enabled
sub-circuit released a fill block, the red tributary is unframed all ones (R154). Sub-circuit 1's reclaim sequence stands in the
R and O bits; without one they carry a null trailer (R162). -/
def Chan.tribLine (x : Chan) (red : Bool) (kind : Nat) (p : Pos) (o : TribOut) : List Byte × TribOut :=
  let tfmt := x.tribTfmt kind p
  let numbered := o.subs.map fun s => (s, (x.subs o.bank kind p).idxOf? s.circ)
  let own := fun s => x.slotOwner o.bank kind p s
  let ps := o.subs.map fun s => (s.circ, s.pay, s.fill)
  let rs := (numbered.filter fun e => e.2 != some 0).map fun e => (e.1.circ, packBits ((e.1.rcl.length + 7) / 8) e.1.rcl, (0 : Byte))
  let cells := expandCells own (framingSlot kind tfmt) (x.idleCode kind) ps rs (tribCells kind o.span)
  let n := (tribBits kind o.span).length
  let raw := o.lead ++ cells.flatMap Cell.bits
  let allFill := red && !o.subs.isEmpty && o.subs.all (·.fmtFill)
  let one := numbered.find? fun e => e.2 == some 0
  let m := crcEnds tfmt o.span.phase n
  let c := (one.map fun e => e.1.ect).getD 0
  let r := if allFill then (List.replicate n true, o.crc)
    else if crcSpan tfmt = 0 then (fitBits n raw, o.crc)
    else crcRegen tfmt (fun j => decide (0 < reinsert m (min c m) j)) o.span.phase 0 o.crc (fitBits n raw)
  let rec_ := if red then [] else (one.map fun e => e.1.rcl).getD (reclaimSeq (if kind = 9 then 168 else 228) 21 [])
  let vc := putBits Mask.rcl (tribMasks kind o.span.vc) (tribPut kind { o.span with vc := fit (blockFrames kind * frameLen kind) o.span.vc } r.1) rec_
  let g := regenFrames kind (fun _ => 0) (blockFrames kind) 0 o.par vc
  (g.1, { o with subs := [], lead := if allFill then [] else raw.drop n, crc := r.2, par := g.2 })

/-- A sub-circuit puts its block into its tributary: into the current block, or, where it is in that already, into the next. -/
def Chan.tribAdd (x : Chan) (red : Bool) (kind : Nat) (p : Pos) (o : TribOut) (span : Option TribSpan) (bank : Bool) (s : SubOut) : TribOut :=
  let o := if o.subs.any (fun e => decide (e.circ = s.circ)) then (x.tribLine red kind p o).2 else o
  if o.subs.isEmpty then { o with span := span.getD { o.span with tail := [] }, bank := bank, subs := [s] }
  else { o with subs := o.subs ++ [s] }

end Sys2Proof.Machine
end

