-- ==== Sys2Proof/Machine/Xge.lean ====
section
/-!
DEFINITION. Machine/Xge.lean: 10GE: transcoding and its inverse (R71 to R73), the black layout (R74) and the scrambler (R74, R119).
-/
namespace Sys2Proof.Machine

/-! ## The encoder (R71 to R73) -/

/-- The block types of R72, in the order of their CT codes from 0x1. -/
def blockTypes : List Nat := [0x1E, 0x2D, 0x33, 0x66, 0x55, 0x78, 0x4B, 0x87, 0x99, 0xAA, 0xB4, 0xCC, 0xD2, 0xE1, 0xFF]

/-- The block type field of a control block: its first eight bits, which the line sends least significant bit first
(PRESUMED, IEEE 802.3 clause 49; log entry 11). -/
def typeOf (pay : BitVec 64) : Nat := natOf (bitsOf 8 (pay.toNat / 2 ^ 56)).reverse

/-- CT of a block type; none for one that is not in the table (R72). -/
def ctOf (t : Nat) : Option Nat := (blockTypes.idxOf? t).map (· + 1)

/-- An error block: type 0x1E with eight /E/ characters, each sent least significant bit first (R73, log entry 11). -/
def errorBlock : Block66 :=
  { sync := 2, pay := BitVec.ofNat 64 (natOf ((bitsOf 8 0x1E).reverse ++ (List.replicate 8 (bitsOf 7 0x1E).reverse).flatten)) }

/-- A block that R73 replaces: a bad sync header, or a control block of an unknown type. -/
def badBlock (b : Block66) : Bool := decide (b.sync = 0 ∨ b.sync = 3) || (decide (b.sync = 2) && (ctOf (typeOf b.pay)).isNone)

/-- A group of eight blocks as 513 bits (R71). -/
def group513 (g : List Block66) : List Bool :=
  let ix := g.zipIdx
  let ctl := ix.filter fun e => decide (e.1.sync = 2)
  let dat := ix.filter fun e => decide (e.1.sync ≠ 2)
  if ctl.isEmpty then true :: dat.flatMap fun e => bitsOf 64 e.1.pay.toNat
  else
    false :: (ctl.zipIdx.flatMap fun e =>
        [decide (e.2 + 1 < ctl.length)] ++ bitsOf 3 e.1.2 ++ bitsOf 4 ((ctOf (typeOf e.1.1.pay)).getD 0)
          ++ bitsOf 56 (e.1.1.pay.toNat % 2 ^ 56))
      ++ dat.flatMap fun e => bitsOf 64 e.1.pay.toNat

/-- The groups of a block, the last filled with error blocks where content is short. -/
def groups8 : Nat → List Block66 → List (List Block66)
  | 0, _ => []
  | n + 1, l => (l ++ List.replicate 8 errorBlock).take 8 :: groups8 n (l.drop 8)

/-- The plaintext of a 10GE block, and the blocks that R73 replaced. -/
def transcode (l : List Block66) : List Byte × Nat :=
  let m := l.map fun b => if badBlock b then errorBlock else b
  (packBits 2052 ((groups8 32 m).flatMap group513), (l.filter badBlock).length)

/-! ## The decoder (R72) -/

/-- The descriptors of a control group's blocks, at most eight: POS, CT and the 56 payload bits of each, and the rest of the
group's bits (R71). -/
def descrs : Nat → List Bool → List (Nat × Nat × List Bool) × List Bool
  | 0, l => ([], l)
  | n + 1, l =>
    let d := (natOf ((l.drop 1).take 3), natOf ((l.drop 4).take 4), (l.drop 8).take 56)
    if l.headD false then let r := descrs n (l.drop 64); (d :: r.1, r.2) else ([d], l.drop 64)

/-- A control block of a type and 56 payload bits. -/
def ctlBlock (ct : Nat) (pay : List Bool) : Block66 :=
  if ct = 0 then errorBlock
  else { sync := 2, pay := BitVec.ofNat 64 (natOf ((bitsOf 8 (blockTypes.getD (ct - 1) 0)).reverse ++ pay)) }

/-- Eight blocks: a control block stands at its position, and the data payloads fill the others in order. -/
def mergeBlocks (ctl : List (Nat × Nat × List Bool)) : Nat → Nat → List Bool → List Block66
  | 0, _, _ => []
  | n + 1, i, dat =>
    match ctl.find? fun d => decide (d.1 = i) with
    | some d => ctlBlock d.2.1 d.2.2 :: mergeBlocks ctl n (i + 1) dat
    | none => { sync := 1, pay := BitVec.ofNat 64 (natOf (dat.take 64)) } :: mergeBlocks ctl n (i + 1) (dat.drop 64)

/-- The eight blocks of a 513-bit group; CT 0x0 decodes as an error block (R71, R72). -/
def ungroup (l : List Bool) : List Block66 :=
  if l.headD true then mergeBlocks [] 8 0 (l.drop 1)
  else let d := descrs 8 (l.drop 1); mergeBlocks d.1 8 0 d.2

/-- The red 66b blocks of a 10GE block's plaintext, before scrambling. -/
def untranscode (body : List Byte) : List Block66 := (partsOf 32 513 (fitBits 16416 (bytesBits body))).flatMap ungroup

/-- The descriptors with CT 0x0 in a 10GE block's plaintext, which decode as error blocks and are counted (R72). -/
def ct0Count (body : List Byte) : Nat :=
  ((partsOf 32 513 (fitBits 16416 (bytesBits body))).map fun l =>
    if l.headD true then 0 else ((descrs 8 (l.drop 1)).1.filter fun d => decide (d.2.1 = 0)).length).sum

/-! ## Scrambling (R74, R119) -/

/-- A bit sequence through the self-synchronizing scrambler x^58 + x^39 + 1. -/
def scramble : Scr → List Bool → List Bool × Scr
  | r, [] => ([], r)
  | r, b :: t =>
    let o := b != (r.getLsbD 38 != r.getLsbD 57)
    let q := scramble ((r <<< 1) ||| BitVec.ofNat 58 (b2n o)) t
    (o :: q.1, q.2)

/-- A scrambled sequence restored; the register holds the last 58 bits received. -/
def descramble : Scr → List Bool → List Bool × Scr
  | r, [] => ([], r)
  | r, b :: t =>
    let q := descramble ((r <<< 1) ||| BitVec.ofNat 58 (b2n b)) t
    ((b != (r.getLsbD 38 != r.getLsbD 57)) :: q.1, q.2)

/-- The payloads of 66b blocks through a scrambler or its inverse; sync headers pass unchanged. -/
def through (f : Scr → List Bool → List Bool × Scr) : Scr → List Block66 → List Block66 × Scr
  | r, [] => ([], r)
  | r, b :: t =>
    let o := f r (bitsOf 64 b.pay.toNat)
    let q := through f o.2 t
    ({ b with pay := BitVec.ofNat 64 (natOf o.1) } :: q.1, q.2)

/-! ## The black layout (R74) -/

/-- The information stream of a black block: the ciphertext, then the reclaim sequence. -/
def xgeStream (body : List Byte) (rec : List Bool) : List Bool := fitBits 16416 (bytesBits body) ++ fitBits 224 rec

/-- A black 66b block of 65 information bits: the header bit and its complement, then the payload. -/
def xgeBlock (l : List Bool) : Block66 :=
  { sync := if l.headD false then 2 else 1, pay := BitVec.ofNat 64 (natOf (fitBits 64 (l.drop 1))) }

/-- The 256 black 66b blocks of an information stream, before scrambling. -/
def xgeBlocks (l : List Bool) : List Block66 := (partsOf 256 65 l).map xgeBlock

/-- The information stream of 256 descrambled black 66b blocks. -/
def xgeRead (l : List Block66) : List Bool := l.flatMap fun b => b.sync.getLsbD 1 :: bitsOf 64 b.pay.toNat

end Sys2Proof.Machine
end

