-- ==== Sys2Proof/Machine/Emit.lean ====
section
/-!
DEFINITION. Machine/Emit.lean: what a circuit's positions carry on the transmit lanes: blocks with their reclaim sequence and
regenerated overhead, fill, and unequipped positions (R23, R26, R70, R148 to R150, R154, R162, R239, R531).
-/
namespace Sys2Proof.Machine

/-! ## Fill content (R531) -/

/-- A 10GE block of local fault: block type 0x4B, data bytes 0x00, 0x00, 0x01, O code 0 and zero bytes, each byte sent least
significant bit first (R531, log entry 11). -/
def localFault : Block66 :=
  { sync := 2, pay := BitVec.ofNat 64 (natOf (([0x4B, 0, 0, 1, 0, 0, 0, 0].map fun v => (bitsOf 8 v).reverse).flatten)) }

/-- The pad of a VC-12's payload is zero (R59). -/
def zeroPad (kind : Nat) (l : List Byte) : List Byte := if kind = 2 then l.modify 512 fun b => b &&& 0xF0 else l

/-- The fill content of a block wholly in defect, of `n` payload bytes; `cont` says that the previous 1GE block ended inside a
frame (R531). -/
def fillPlain (kind n : Nat) (cont : Bool) : List Byte :=
  if kind = 0x0D then (transcode (List.replicate 256 localFault)).1
  else if kind = 0x0E then geFill cont
  else zeroPad kind (List.replicate n 0xFF)

/-! ## What a circuit's positions carry on the black lanes (R23 steps 9 to 12, R150, R239) -/

/-- What is due at a release point: a block, the governor's fill, or what R150 gives a position that no circuit uses. -/
inductive Due where
  | block (b : EncBlk) | fill | unused
deriving DecidableEq, Repr

/-- Bytes of a circuit's trailer. -/
def Chan.trlLen (x : Chan) (y : Circ) : Nat := ((x.kindOf y).map (·.tagLen)).getD 12 + 9

/-- Reclaim bits of a block of a circuit under a bank: the kind's, or those of a sub-circuit's reclaim slots in a tributary block
(R56, R67). -/
def Chan.reclaimLen (x : Chan) (b : Bool) (n : Nat) (y : Circ) (t : Option TribSpan) : Nat :=
  if isFrac y.kind then (match t with
    | some t => (x.subReclaim b n y t).length
    | none => 0)
  else ((x.kindOf y).map (·.reclaim)).getD 0

/-- A block's payload and reclaim sequence as they leave: whole; of a broken block, its words released before, and fill after
them, in the order of `blockWords` (R247, log entry 71). -/
def Chan.blockBits (x : Chan) (n : Nat) (y : Circ) (b : EncBlk) : List Byte × List Bool :=
  let r := reclaimSeq (x.reclaimLen b.mep n y (b.span.bind LineSpan.toTrib)) (x.trlLen y) b.carries
  if b.lost = 0 then (b.body, r)
  else
    let pay := b.sent - (r.length + 31) / 32
    (b.body.take (4 * (if b.sent = 0 then 0 else max 1 pay)), r.take (32 * (b.sent - 1)))

/-- The key of a tributary's output on the black side, or on the red side. -/
def outKey (red : Bool) (p : Pos) : Nat := b2n red * 65536 + p.key

/-- A sub-circuit puts its part into its tributary's output. -/
def Chan.putSub (x : Chan) (red : Bool) (y : Circ) (span : Option TribSpan) (bank : Bool) (s : SubOut) : Chan :=
  let o := tget {} x.map.outs (outKey red y.pos)
  { x with map := { x.map with outs := tput {} x.map.outs (outKey red y.pos) (x.tribAdd red y.kind y.pos o span bank s) } }

/-- A container of a circuit's kind, all zero. -/
def zeroBlock (kind : Nat) : List Byte := List.replicate (blockFrames kind * frameLen kind) 0

/-- A circuit with a new span on the black lanes. -/
def Circ.sendBlack (y : Circ) (o : LineOut) : Circ := { y with black := o, blackWas := y.black }

/-- A circuit's positions take what is due on the black lanes. A container's pointers are the mapper's, its POH and the overhead
beside payload and reclaim positions are those of the red block, and its parity is regenerated (R121, R149); an unequipped VC is
zero but for its parity (R150). 10GE is laid out as R74 and 1GE as R76; without a circuit they send their service's fill (R150). -/
def Chan.emitBlack (x : Chan) (n : Nat) (k : CircId) (d : Due) : Chan :=
  let y := x.circ! k
  let kind := y.kind
  let put := fun (y : Circ) => x.setCirc k y
  let span := match d with
    | .block b => b.span
    | _ => none
  let bits : List Byte × List Bool := match d with
    | .block b => x.blockBits n y b
    | _ => ([], [])
  let unused := decide (d = .unused)
  if isFrac kind then
    if unused then put (y.sendBlack .none)
    else
      let mep := match d with
        | .block b => b.mep
        | _ => x.map.enc
      let s : SubOut := { circ := n, pay := bits.1, fill := 0, rcl := bits.2 }
      (put (y.sendBlack (.slots s))).putSub false y (span.bind LineSpan.toTrib) mep s
  else if kind = 0x0D then
    let l := if unused then List.replicate 256 localFault else xgeBlocks (xgeStream bits.1 bits.2)
    let r := through scramble y.scr l
    put ({ y with scr := r.2 }.sendBlack (.line (.blocks66 y.scr r.1)))
  else if kind = 0x0E then
    if unused then
      let r := geOut { rd := y.rdB } none
      put ({ y with rdB := r.2.rd }.sendBlack (.line (.codes r.1)))
    else
      let r := geBlack y.rdB bits.1 (match d with
        | .block b => if b.lost = 0 then fit 21 b.carries else []
        | _ => [])
      put ({ y with rdB := r.2 }.sendBlack (.line (.codes r.1)))
  else if isWhole kind && unused then put (y.sendBlack (.line (.bytes ((zeroBlock kind).map fun _ => 0xFF))))
  else if frameLen kind = 0 then put (y.sendBlack .none)
  else
    let base := if unused then [] else ((span.map LineSpan.toBytes).getD [])
    let r := regen kind 0 y.parB (if unused then zeroBlock kind else placeBlock kind base bits.1 bits.2)
    put ({ y with parB := r.2 }.sendBlack (.line (.bytes r.1)))

/-- A circuit's positions on the black lanes take what is due. -/
def Hw.emitBlack (h : Hw) (c : ChanId) (k : CircId) (d : Due) : Hw := h.onChan c fun x => x.emitBlack k.toNat k d

/-! ## What a circuit's positions carry on the RED lane (R26 steps 7 to 9, R148, R154, R531) -/

/-- What is due on the RED lane at a release point: a stored data block; the service's fill, with the fill or keep-alive block that was
released, if one was; or what R150 gives a position that no circuit uses. -/
inductive RedDue where
  | data (e : DsEnt) | fill (e : Option DsEnt) | unused
deriving DecidableEq, Repr

/-- A circuit's positions take what is due on the RED lane: its coding restored and its violations re-inserted; a whole VC's fill is
the AIS of its pointer, a sub-circuit's is 0xFF in its timeslots, ODU AIS is all ones, 10GE sends local fault and 1GE idle. -/
def Chan.emitRed (x : Chan) (n : Nat) (k : CircId) (d : RedDue) : Chan :=
  let y := x.circ! k
  let kind := y.kind
  let put := fun (y : Circ) => x.setCirc k y
  let ent : Option DsEnt := match d with
    | .data e => some e
    | .fill e => e
    | .unused => none
  let pay : Option (List Byte) := match d with
    | .data e => some e.body
    | _ => none
  let ect := (ent.map (·.ect)).getD 0
  let unused := decide (d = .unused)
  if isFrac kind then
    if unused then put { y with red := .none }
    else
      let s : SubOut := { circ := n, pay := pay.getD [], fill := if pay.isSome then 0 else 0xFF, rcl := [], ect := ect,
                          fmtFill := pay.isNone && (match ent with
                            | some e => decide (e.format = 2)
                            | none => false) }
      (put { y with red := .slots s }).putSub true y (ent.bind fun e => e.span.toTrib) ((ent.map (·.epoch)).getD x.map.dec) s
  else if kind = 0x0D then
    let r := through scramble x.red.scr (match pay with
      | some l => untranscode l
      | none => List.replicate 256 localFault)
    let x := put { y with red := .line (.blocks66 x.red.scr r.1) }
    { x with red := { x.red with scr := r.2 } }
  else if kind = 0x0E then
    let r := geOut y.geTx pay
    put { y with red := .line (.codes r.1), geTx := r.2 }
  else if isWhole kind && pay.isNone then put { y with red := .line (.bytes ((zeroBlock kind).map fun _ => 0xFF)) }
  else if frameLen kind = 0 then put { y with red := .none }
  else
    match pay with
    | some l =>
      let r := regen kind ect y.parR (placeBlock kind ((ent.map fun e => e.span.toBytes).getD []) l [])
      put { y with red := .line (.bytes r.1), parR := r.2 }
    | none =>
      if unused then
        let r := regen kind 0 y.parR (zeroBlock kind)
        put { y with red := .line (.bytes r.1), parR := r.2 }
      else put { y with red := .ais }

/-- What is due is the service's fill, or a data block. -/
def RedDue.isFill : RedDue → Option Bool
  | .data _ => some false
  | .fill _ => some true
  | .unused => none

/-- A circuit's positions on the RED lane take what is due, and its pointer generator announces AIS or the end of it (R148). -/
def Hw.emitRed (h : Hw) (c : ChanId) (k : CircId) (d : RedDue) : Hw :=
  h.onChan c fun x =>
    match d.isFill with
    | none => x.emitRed k.toNat k d
    | some f => (x.emitRed k.toNat k d).genAis (x.circ! k) f

/-! ## Loopbacks (R131, R132) -/

/-- A lane is in terminal loopback: its receiver sees its own transmit stream. -/
def Chan.terminal (x : Chan) (p : Lane) : Bool := decide (fieldOf (x.reg (laneReg p)) 9 8 = 1)

/-- What a circuit's positions carry as a span; AIS is all ones. -/
def Chan.sent (x : Chan) (red : Bool) (y : Circ) : LineOut → Option LineSpan
  | .none => none
  | .ais => some (.bytes ((zeroBlock y.kind).map fun _ => 0xFF))
  | .line s => some s
  | .slots _ =>
    let o := tget {} x.map.outs (outKey red y.pos)
    some (.trib { o.span with vc := (x.tribLine red y.kind y.pos o).1 })

/-- What the receiver of a lane sees of a circuit: the line, or its own transmit stream. -/
def Chan.seen (x : Chan) (p : Lane) (y : Circ) (o : LineOut) (line : LineSpan) : LineSpan :=
  if x.terminal p then (x.sent (p == .red) y o).getD line else line

end Sys2Proof.Machine
end

