-- ==== Sys2Proof/Machine/Encrypt.lean ====
section
/-!
DEFINITION. Machine/Encrypt.lean: the encrypt side of a circuit: its start (R161), its blocks from SOB to release (R23, R37,
R48, R51, R183 to R193, R221, R237, R239), and the end of a drain (R162).
-/
namespace Sys2Proof.Machine

/-! ## Starting -/

/-- Candidate block phases of a circuit's kind (R83). -/
def Chan.phases (x : Chan) (y : Circ) : Nat := ((x.kindOf y).map (·.phases)).getD 1

/-- The block phase of a circuit that starts at a frame of its container: an OTN block starts where MFAS[2:0] is 000 (R69); the
sub-circuits of a tributary share the phase of one that is live (R66); any other circuit takes the frame at which it starts, which
is the model's choice (R65, log entry 75). -/
def Chan.startPhase (x : Chan) (y : Circ) (frame : Nat) : Nat :=
  match (if isFrac y.kind then x.circ.find? fun e => e.2.live && decide (e.2.kind = y.kind ∧ e.2.pos = y.pos) else none) with
  | some e => e.2.phase
  | none => if isOtn (wholeRate y.kind) then 0 else frame % x.phases y

/-- Frames of an OTN block, counted by MFAS; 1 where any frame of the phase starts a block. -/
def Chan.atPhase (x : Chan) (y : Circ) (frame : Nat) : Bool :=
  if isOtn (wholeRate y.kind) then decide (frame % 8 = 0) else decide (frame % x.phases y = y.phase)

/-- A circuit reaches its first block boundary (R161), at a frame of its container, counted in J1 bytes, V5 bytes, MFAS or 66b blocks
(R65, R69): it becomes LIVE, keeps the block phase, and its keep-alive span begins. -/
def Hw.circuitStart (h : Hw) (c : ChanId) (k : CircId) (frame : Nat) : Hw :=
  let x := h.chan c
  let y := x.circ! k
  let ph := x.startPhase y frame
  if x.serves k && !y.live && x.atPhase { y with phase := ph } frame then
    h.onCirc c k fun y =>
      { y with live := true, kaLeft := fieldOf (x.reg 0x4000) 15 8, phase := ph, switched := false, prevTrailer := [] }
  else h

/-- CIRCUIT_START. -/
def execCircuitStart (c : ChanId) (k : CircFrame) (s : State) : Host.Outcome State Fault Refusal :=
  onActive s c (·.circuitStart c k.circ k.frame)

/-- DRAIN_END: the last in-flight deadline of a removed circuit has passed, and its positions carry what R150 gives (R162). -/
def execDrainEnd (c : ChanId) (k : CircId) (s : State) : Host.Outcome State Fault Refusal :=
  onActive s c fun h =>
    if ((h.chan c).circ! k).drain then
      (((h.onCirc c k fun y => { y with drain := false, enc := [] }).onChan c fun x =>
        { x with store := x.store.filter fun e => e.circ ≠ k }).emitBlack c k .unused).emitRed c k .unused
    else h

/-! ## The start of a block (R188) -/

/-- A CLEAR_MODE command of a circuit. -/
def isClearMode (k : CircId) (x : Cmd) : Bool := decide (x.op = 0x14 ∧ fieldOf x.w1 15 0 = k.toNat)

/-- A waiting change of clear mode takes effect at the block boundary, and its command completes (R222). -/
def Hw.clearDue (h : Hw) (c : ChanId) (k : CircId) : Hw :=
  match ((h.chan c).circ! k).clearNext with
  | some b => (h.setClear c k b).finish (.chan c) (isClearMode k) stDone 0 0
  | none => h

/-- A circuit that builds blocks switches to the target slot of an armed switch at a block that qualifies (R209). One that builds
none stays on its slot: it counts as switched, and takes the target when the switch completes. So does one in clear mode, whose
blocks take their SEQs from the slot that TXP names (R222). -/
def Hw.epochDue (h : Hw) (c : ChanId) (k : CircId) : Hw :=
  let x := h.chan c
  let y := x.circ! k
  let z := x.ctx! y.kctx
  if switchDue z y h.now && x.builds k.toNat y then
    let h := h.onCirc c k fun y =>
      if y.clear then { y with switched := true } else { y with odd := !z.txp, switched := true, aged := false, stopped := false }
    (h.onChan c (·.ksFlush ksEnc fun r => decide (r.circ = k ∧ r.odd = z.txp))).switchCheck c y.kctx
  else h

/-- The Slot Map bank a circuit's blocks are mapped under on the encrypt side: its tributary's, or ENC (R172). -/
def Chan.encBank (x : Chan) (y : Circ) : Bool :=
  if isFrac y.kind && x.map.pending then (tget {} x.map.swaps y.pos.key).encB else x.map.enc

/-- A block period without a block: for want of a key, or in hard stop (R188, R193, R232, R262). -/
def Hw.noBlock (h : Hw) (c : ChanId) (k : CircId) : Hw :=
  ((h.fill c k false 0 6).count c 0x10 4 1).onCirc c k fun y => { y with prevTrailer := [] }

/-- At a block boundary of a tributary, told by its lowest enabled sub-circuit whether it builds a block or not, the count of blocks
since the tributary's last swap advances (R172, log entry 13). -/
def Chan.tribTick (x : Chan) (k : CircId) (y : Circ) : Chan :=
  if isFrac y.kind && decide (x.leadSub y.pos = some k.toNat) then
    let t : TribSwap := tget {} x.map.swaps y.pos.key
    { x with map := { x.map with swaps := tput {} x.map.swaps y.pos.key { t with blocksSince := min 4 (t.blocksSince + 1) } } }
  else x

/-- The encrypt engine has no more keystream to compute under a slot: a switch that is armed takes effect at the next block
boundary, or may (R219). -/
def Ctx.stopsAhead (z : Ctx) (y : Circ) (next : Seq) : Bool :=
  z.arm && !y.switched && (match z.atSeq with
    | none => true
    | some v => y.asNow || decide (v ≤ next))

/-- The keystream of the block that starts is taken, and the engine runs ahead for the next one (R219). -/
def Chan.ksNext (x : Chan) (k : CircId) (y : Circ) (seq : Seq) : Chan :=
  let x := x.ksTake ksEnc k y.odd seq
  if y.clear || (x.ctx! y.kctx).stopsAhead y (seq + 1) then x
  else x.ksRun ksEnc k y.odd (seq + 1) (x.payMost (x.encBank y) k.toNat y)

/-- The block that starts now takes its SEQ, format and marks; ESEQ and the floor rise (R51, R90, R188, R195). -/
def Hw.buildBlock (h : Hw) (c : ChanId) (k : CircId) : Hw :=
  let x := h.chan c
  let y := x.circ! k
  let seq := y.eseq y.odd
  let gone := x.inDefect .red y
  let b : EncBlk :=
    { seq := seq, odd := y.odd, format := if 0 < y.kaLeft || y.guard then 3 else 1
      clear := y.clear, ect := 0, mep := x.encBank y, aps := 0, carries := y.prevTrailer
      spec := decide (x.red.fr = .runahead), guard := y.guard && decide (y.kaLeft = 0), defAll := gone, defAny := gone }
  let h := h.onCirc c k fun y =>
    { y with
      enc := y.enc ++ [b], kaLeft := y.kaLeft - 1, prevTrailer := []
      eseqE := if y.odd then y.eseqE else seq + 1
      eseqO := if y.odd then seq + 1 else y.eseqO }
  let h := h.onCtx c y.kctx fun z =>
    if y.odd then { z with floorO := if z.floorO < seq + 1 then seq + 1 else z.floorO }
    else { z with floorE := if z.floorE < seq + 1 then seq + 1 else z.floorE }
  let h := h.onChan c (·.ksNext k y seq)
  ((h.ageCheck c k).stopCheck c k).levels c

/-- A circuit reaches a SOB: a frame of its container, counted as `circuitStart` counts them, that its block phase names (R65). The
integrity word of the slot in use is checked (R201). -/
def Hw.encStart (h : Hw) (c : ChanId) (k : CircId) (frame : Nat) : Hw :=
  let x := h.chan c
  let y := x.circ! k
  if !x.atPhase { y with phase := if y.live then y.phase else x.startPhase y frame } frame then h
  else
    let h := (h.onChan c (·.tribTick k y)).clearDue c k
    let x := h.chan c
    if (x.circ! k).en && (x.circ! k).starved && !x.quarantined then h.count c 0x11 28 1
    else if !(x.serves k && (x.circ! k).live) then h
    else
      let h := h.epochDue c k
      let y := (h.chan c).circ! k
      let z := (h.chan c).ctx! y.kctx
      if (z.slot y.odd).corrupt 0 then h.trigger c.val 5 0x2E y.kctx
      else if y.hardStop then (h.noBlock c k).stopCheck c k
      else if (z.slot y.odd).st = .empty ∧ y.clear = false then h.noBlock c k
      else h.buildBlock c k

/-- ENC_BLOCK_START. -/
def execEncBlockStart (c : ChanId) (k : CircId) (frame : Nat) (s : State) : Host.Outcome State Fault Refusal :=
  onActive s c (·.encStart c k frame)

/-! ## The end of a block (R48, R183) -/

/-- A place lies in one of the spans in defect. -/
def inSpans (l : List (Nat × Nat)) (i : Nat) : Bool := l.any fun g => decide (g.1 ≤ i ∧ i < g.1 + g.2)

/-- A sequence with the places in defect replaced by fill content. -/
def fillSpans {α : Type} (l : List (Nat × Nat)) (d : α) (s : List α) : List α := s.zipIdx.map fun e => if inSpans l e.2 then d else e.1

/-- A red block taken apart (R23 steps 4 to 6): its plaintext, the violations of its own coding, whether its 1GE content exceeds the
region (R81), what the next block's coding starts from, and the structure it came in. -/
structure RedBlk where
  plain : List Byte
  viol : Nat := 0
  overrun : Bool := false
  ge : Option GeCtx
  rd : Bool
  span : Option LineSpan := none

/-- The framing of a red tributary is lost: the encrypt side builds its own (R153). -/
def Chan.framingLost (x : Chan) (y : Circ) : Bool := (x.trib .red y.pos).tlof || (x.trib .red y.pos).tais

/-- A red block of a circuit by its kind (R58, R71 to R73, R77 to R79, R153, R168, R531), mapped under a bank; `gone` are the spans in
defect, in payload bytes, 66b blocks or code groups. -/
def Chan.redBlock (x : Chan) (n : Nat) (y : Circ) (mep : Bool) (gone : List (Nat × Nat)) (s : LineSpan) : RedBlk :=
  let kind := y.kind
  let d : RedBlk := { plain := [], ge := y.ge, rd := x.red.rd }
  if kind = 0x0D then
    let r := through descramble s.before s.to66
    let t := transcode (fillSpans gone localFault r.1)
    { d with plain := t.1, viol := t.2 }
  else if kind = 0x0E then
    let r := geRegionOf x.geMax y.ge x.red.rd gone s.toCodes
    { d with plain := fit geRegion r.1, viol := r.2.1, overrun := decide (geRegion < r.1.length), ge := r.2.2.1, rd := r.2.2.2 }
  else if isFrac kind then
    let t := s.toTrib.getD ⟨[], 0, []⟩
    { d with
      plain := fillSpans gone 0xFF (x.compact mep n y t)
      span := some (.trib (if x.framingLost y then ownFraming kind y.tfmt t else t)) }
  else
    let l := s.toBytes
    { d with
      plain := zeroPad kind (fillSpans gone 0xFF (payloadOf kind (((x.kindOf y).map (·.payload)).getD 0) (fit (blockFrames kind * frameLen kind) l)))
      span := some (.bytes l) }

/-- The site role of the channel: CHn.CPH_CFG.ROLE, true for B (R228). -/
def Chan.roleB (x : Chan) : Bool := bitOf (x.reg 0x5000) 31

/-- The trailer of an ended block goes to its successor, or waits for it (R25, R47, R54). -/
def Circ.putTrailer (y : Circ) (i : Nat) (t : List Byte) : Circ :=
  if i + 1 < y.enc.length then { y with enc := y.enc.modify (i + 1) fun b => { b with carries := t } } else { y with prevTrailer := t }

/-- The words of a block of a circuit at the seal check: payload, reclaim and, with sub-circuit 1, the tributary's idle-fill (R23). -/
def Chan.sealWords (x : Chan) (n : Nat) (y : Circ) (b : EncBlk) (body : List Byte) (span : Option LineSpan) : List W40 :=
  let t := span.bind LineSpan.toTrib
  let idle := match t with
    | some t => if x.subNo b.mep n y = 1 then List.replicate (x.idleBytes b.mep y.kind y.pos t) (x.idleCode y.kind) else []
    | none => []
  blockWords b.clear b.spec body (List.replicate ((x.reclaimLen b.mep n y t + 7) / 8) 0) idle

/-- The seal check accepts what reaches it, or triggers Midwinter (R35, R221). -/
def Hw.sealCheck (h : Hw) (c : ChanId) (k : CircId) (clear : Bool) (words : List W40) (upsets : List (Nat × W40)) : Hw :=
  if sealsOk clear words upsets then h else h.trigger c.val 5 0x2F k.toNat

/-- The stage checks of a block of the encrypt side: one that mismatches loses the block (R329, R332). -/
def Hw.encStages (h : Hw) (c : ChanId) (k : CircId) (seq : Seq) (odd : Bool) (checks : List StageUnit) : Hw :=
  let r := h.stages c k seq.toNat [3, 4, 5, 6] checks
  if r.1 then r.2.onCirc c k fun y => y.loseEnc (fun e => decide (e.seq = seq ∧ e.odd = odd)) 3 else r.2

/-- The errors that the checks saw in the words of an episode are reported when it commits (R246). -/
def Hw.heldStages (h : Hw) (c : ChanId) : Hw :=
  let l := (h.chan c).circ.flatMap fun e => e.2.enc.filterMap fun b => if b.spec && !b.held.isEmpty then some (e.1, b) else none
  l.foldl (fun h (e : Nat × EncBlk) => h.encStages c (BitVec.ofNat 13 e.1) e.2.seq e.2.odd e.2.held) h

/-- A block of a circuit reaches its EOB and is not lost: its plaintext is fixed, encrypted and tagged, and its trailer is written.
It is sealed with the key its slot holds now: where a KEY_LOAD has replaced a STANDBY key since the block's SOB, with the new key and
the SEQ drawn before (DESIGN CHOICE, log entry 77). -/
def Hw.encFinish (h : Hw) (c : ChanId) (k : CircId) (i : Nat) (b : EncBlk) (d : RedBlk) (upsets : List (Nat × W40)) (checks : List StageUnit) : Hw :=
  let x := h.chan c
  let y := x.circ! k
  let tl := ((x.kindOf y).map (·.tagLen)).getD 12
  let n := d.plain.length
  let over_ := decide (b.format = 1) && !b.defAll && d.overrun
  let format : BitVec 2 := if b.format = 3 then 3 else if b.defAll || over_ then 2 else 1
  let plain := if format = 3 then List.replicate n 0 else if format = 2 then fillPlain y.kind n y.ge.isSome else d.plain
  let ect := if format = 1 then min 255 (y.ectAcc + d.viol) else 0
  let h := if over_ then ((h.count c 0x20 50 1).raiseChan c 4 clsN 0x18 k.toNat).evRcl c 0x00400000 else h
  let h := if format = 1 && y.kind = 0x0D then h.count c 0x20 53 d.viol else h
  let head := trlHead (mkType format b.odd b.mep x.psw.st.code) b.seq ect
  let key := ((x.ctx! y.kctx).slot b.odd).key
  let sealed := gcmSeal key (ivOf x.roleB y.lcid b.seq) (aadOf head y.lcid) plain tl
  let body := if b.clear then plain else sealed.1
  let trailer := mkTrailer head (if b.clear then List.replicate tl 0 else sealed.2) y.lcid
  let h := h.onCirc c k fun y =>
    (({ y with
        ectAcc := 0
        ge := d.ge
        enc := y.enc.modify i fun b =>
          { b with
            done := true, format := format, ect := ect, aps := x.psw.st.code, body := body, trailer := trailer, span := d.span
            held := if b.spec then checks else [] } } : Circ).putTrailer
      i trailer)
  let h := h.cvuBlock c 0 k b.seq plain
  let h := h.encStages c k b.seq b.odd (if b.spec then [] else checks)
  (h.levels c).sealCheck c k b.clear (x.sealWords k.toNat y b body d.span) upsets

/-- A lost block reaches its EOB. Of a broken one, the words that had left are what its slot's key makes of them. -/
def Hw.encLost (h : Hw) (c : ChanId) (k : CircId) (i : Nat) (b : EncBlk) (d : RedBlk) (upsets : List (Nat × W40)) : Hw :=
  let x := h.chan c
  let y := x.circ! k
  let s := (x.ctx! y.kctx).slot b.odd
  let plain := if b.format = 3 then List.replicate d.plain.length 0 else if b.defAll then fillPlain y.kind d.plain.length y.ge.isSome else d.plain
  let body := if b.lost ≠ 2 then [] else if b.clear then plain
    else if s.st = .empty then [] else gctr (roundKeys s.key) (ivOf x.roleB y.lcid b.seq) plain
  (h.onCirc c k fun y =>
    { y with ectAcc := 0, ge := d.ge, enc := y.enc.modify i fun b => { b with done := true, body := body, span := d.span } }).sealCheck c k b.clear [] upsets

/-- A circuit's red input reaches the end of a block: `sp` is what the RED lane carried, `gone` the spans of it in defect, and `upsets`
what a fault changes of the words at the seal check. -/
def Hw.encEnd (h : Hw) (c : ChanId) (k : CircId) (sp : LineSpan) (gone : List (Nat × Nat)) (upsets : List (Nat × W40)) (checks : List StageUnit) : Hw :=
  let x := h.chan c
  let y := x.circ! k
  let s := x.seen .red y y.red sp
  let o : Option (Nat × EncBlk) := y.enc.zipIdx.findSome? fun e => if e.1.done then none else some (e.2, e.1)
  let g := match o with
    | some (_, b) => if b.defAll then [(0, geTimes)] else if b.defAny then gone else []
    | none => []
  let d := x.redBlock k.toNat y ((o.map fun e => e.2.mep).getD (x.encBank y)) g s
  let h := h.onLane c .red fun l => { l with rd := d.rd }
  match o with
  | none => (h.onCirc c k fun y => { y with ge := d.ge }).sealCheck c k y.clear [] upsets
  | some (i, b) => if b.lost ≠ 0 then h.encLost c k i b d upsets else h.encFinish c k i b d upsets checks

/-- ENC_BLOCK_END. -/
def execEncBlockEnd (c : ChanId) (k : CircId) (x : LineSpan) (f : BlockFault) (checks : List StageUnit) (s : State) :
    Host.Outcome State Fault Refusal :=
  onActive s c (·.encEnd c k x f.gone f.upsets checks)

/-! ## Release (R37, R237, R239) -/

/-- A block misses a release point: wholly before its first word is released, else it is broken from there (R37, R247). -/
def EncBlk.miss (b : EncBlk) : EncBlk :=
  { b with lost := if b.started then 2 else 1, cause := 0, body := if b.started then b.body else [], trailer := [] }

/-- The oldest block of a circuit that is still held leaves the encrypt commit buffer. -/
def Circ.popEnc (y : Circ) : Circ := { y with enc := y.enc.drop 1 }

/-- A lost block at a release point: it is counted once, and the circuit's positions carry its words released before and fill, or
fill alone. -/
def Hw.releaseLost (h : Hw) (c : ChanId) (k : CircId) (b : EncBlk) (last : Bool) : Hw :=
  let h := if b.missed then h else h.fill c k false (if b.lost = 2 then 1 else 0) b.cause.toNat
  let h := h.onCirc c k fun y => { y with enc := y.enc.modify 0 fun b => { b with missed := true } }
  if last then (h.emitBlack c k (if b.lost = 2 then .block b else .fill)).onCirc c k Circ.popEnc else h

/-- What a circuit's positions carry where it has no block: fill while it is live or quarantined, and R150 before its first block,
while it is starved, and once it is disabled (R161, R162, R250, R363). -/
def Chan.idleDue (x : Chan) (y : Circ) : Due := if y.live || (y.en && (y.quar || x.quarantined)) then .fill else .unused

/-- A word of a circuit reaches its release point; `first` and `last` mark the block's SOB and EOB words. -/
def Hw.encRelease (h : Hw) (c : ChanId) (k : CircId) (first last : Bool) : Hw :=
  let x := h.chan c
  let y := x.circ! k
  match y.enc with
  | [] => h.emitBlack c k (x.idleDue y)
  | b :: _ =>
    if b.lost ≠ 0 then (h.releaseLost c k b last).levels c
    else if b.spec || (last && !b.done) then
      let h := h.onCirc c k fun y =>
        let y := { y with enc := y.enc.modify 0 EncBlk.miss }
        { (y.loseEnc (fun _ => false) 0) with prevTrailer := if y.enc.length = 1 then [] else y.prevTrailer }
      (h.releaseLost c k b.miss last).levels c
    else if last then
      let h := (h.emitBlack c k (.block b)).onCirc c k Circ.popEnc
      let h := h.count c 0x10 0 1
      let h := if b.guard then h.count c 0x10 8 1 else h
      h.levels c
    else h.onCirc c k fun y => { y with enc := y.enc.modify 0 fun b => if first || b.started then { b with started := true, sent := b.sent + 1 } else b }

/-- ENC_WORD_RELEASE. -/
def execEncWordRelease (c : ChanId) (k : CircId) (first last : Bool) (s : State) : Host.Outcome State Fault Refusal :=
  onActive s c (·.encRelease c k first last)

end Sys2Proof.Machine
end

