-- ==== Sys2Proof/Machine/Decrypt.lean ====
section
/-!
DEFINITION. Machine/Decrypt.lean: the decrypt side of a circuit: delineation (R83), prediction (R214), the verdict on a block
(R215, R216, R223), the carriage check (R91), the anchor (R240 to R244), the window (R242), the deep store (R266, R271) and
release (R238, R239, R267).
-/
namespace Sys2Proof.Machine

/-! ## Timestamps -/

/-- A difference of two 40-bit timestamps, read as signed: exact below 2^39 units (R240). -/
def tsDiff (a b : BitVec 40) : Int := (a - b).toInt

/-- Tenths of a nanosecond as units of 2.5 ns, rounded down. -/
def units (t : Nat) : Nat := t / 25

/-- SYSCNT[39:0]. -/
def Hw.ts (h : Hw) : BitVec 40 := h.dev.sys.truncate 40

/-- A count of block periods as a signed difference of two SEQs. -/
def seqDiff (a b : Seq) : Int := (a - b).toInt

/-- The SOB arrival that a path's own grid gives for block `s`: recorded, or predicted from a block still open (R241). -/
def RxPath.tsOf (r : RxPath) (s : Seq) : Option (BitVec 40) :=
  match r.seen.find? fun e => decide (e.1 = s) with
  | some e => some e.2
  | none =>
    match r.known with
    | none => none
    | some (q, _, j) => (r.open_.find? fun b => decide (q + BitVec.ofInt 40 ((b.index : Int) - (j : Int)) = s)).map (·.ts)

/-- How far the other path lags the anchor path by Δ (R241). -/
def lagOf (p : Path) (d : Int) : Int := if p = .bkw then d else -d

/-- t_A of block `s` (R240, R241): the anchor path's own, else the other path's less Δ, else none. -/
def Circ.tA (y : Circ) (a : Anchor) (s : Seq) (p : Path) (tp : BitVec 40) : Option (BitVec 40) :=
  if p = a.path then some tp
  else
    match (if (y.rx a.path).blk = .sync then (y.rx a.path).tsOf s else none) with
    | some t => some t
    | none => y.delta.map fun d => tp - BitVec.ofInt 40 (lagOf a.path d)

/-! ## Differential delay (R241, R242) -/

/-- An integer divided by 16, to the nearest, halves away from zero (R241). -/
def div16 (v : Int) : Int := if 0 ≤ v then (v + 8) / 16 else -((-v + 8) / 16)

/-- Both timestamps of block `s` exist: the difference BKP less BKW joins the last 16, and Δ is their mean once there are 16 (DEDUCED, log
entry 93). -/
def Circ.measure (y : Circ) (s : Seq) : Circ :=
  if y.w.blk = .sync ∧ y.p.blk = .sync then
    match y.w.seen.find? (fun e => decide (e.1 = s)), y.p.seen.find? (fun e => decide (e.1 = s)) with
    | some a, some b =>
      let l := (tsDiff b.2 a.2 :: y.diffs).take 16
      { y with diffs := l, delta := if l.length = 16 then some (div16 l.sum) else y.delta }
    | _, _ => y
  else y

/-- Both paths have verified block `s`: DOVF follows Δ over 16 consecutive such blocks (R242). -/
def Circ.dovfStep (y : Circ) (win : Nat) : Circ :=
  match y.anchor, y.delta with
  | some a, some d =>
    let g := lagOf a.path d
    let bad := !decide (0 ≤ g ∧ g * 25 ≤ (win : Int))
    if bad = y.dovf then { y with dovfRun := 0 }
    else if 15 ≤ y.dovfRun then { y with dovf := bad, dovfRun := 0 } else { y with dovfRun := y.dovfRun + 1 }
  | _, _ => y

/-! ## Setting an anchor (R240, R243, R244) -/

/-- The first block from `s` on whose release point has not passed, at most `n` blocks on; `late` is how long ago that of `s`
passed, in units. -/
def skipPast (tb late : Nat) : Nat := if tb = 0 then 0 else (late + tb - 1) / tb

/-- LAT_REANCHOR commands of a circuit. -/
def isReanchor (k : CircId) (x : Cmd) : Bool := decide (x.op = 0x30 ∧ fieldOf x.w1 15 0 = k.toNat)

/-- The anchor of a circuit is set at block `s`, whose SOB arrived on the anchor path at `ts`. After a re-anchor, release
goes on from the first block of the old grid whose new release point lies ahead; blocks between are skipped, and release
points before the old grid's next block are the gap (log entry 14). -/
def Hw.setAnchor (h : Hw) (c : ChanId) (k : CircId) (path : Path) (s : Seq) (ts : BitVec 40) : Hw :=
  let x := h.chan c
  let y := x.circ! k
  let tb := units ((x.kindOf y).map (·.tb) |>.getD 0)
  let dd := units y.dDec
  match y.gap with
  | none =>
    (h.onCirc c k fun y => { y with anchor := some { path := path, ts := ts, seq := s, next := s, gapTo := s } }).finish (.chan c) (isReanchor k)
      stDone 0 (path.num * 2 ^ 31)
  | some g =>
    -- time from now to the new release point of block g, negative when it has passed
    let lead : Int := tsDiff ts h.ts + (dd : Int) + seqDiff g s * (tb : Int)
    let skip : Nat := if lead < 0 then skipPast tb lead.natAbs else 0
    let back : Nat := if 0 < lead ∧ 0 < tb then lead.natAbs / tb else 0
    let next : Seq := if 0 < skip then g + BitVec.ofNat 40 skip else g - BitVec.ofNat 40 back
    let h := h.onCirc c k fun y =>
      { y with gap := none, anchor := some { path := path, ts := ts, seq := s, next := next, gapTo := if 0 < skip then next else g } }
    let h := h.onChan c fun x => { x with store := x.store.filter fun e => !(decide (e.circ = k ∧ e.freed = 0) && decide (seqDiff e.seq next < 0)) }
    let h := ((h.count c 0x11 20 1).count c 0x11 24 skip).evLat c 0x00200000
    h.finish (.chan c) (isReanchor k) stDone 0 (path.num * 2 ^ 31 + min skip (2 ^ 24 - 1))

/-- A block of an unanchored circuit has verified on path `p`: the anchor is set (R240); in 1:1 mode the active path alone sets
it (R271). -/
def Hw.anchorOn (h : Hw) (c : ChanId) (k : CircId) (p : Path) (s : Seq) (tp : BitVec 40) : Hw :=
  let x := h.chan c
  let y := x.circ! k
  if y.anchor.isSome then h
  else if bitOf (x.reg 0x7000) 31 then (if p = x.psw.active then h.setAnchor c k p s tp else h)
  else
    match (if (y.rx p.other).blk = .sync then (y.rx p.other).tsOf s else none) with
    | none => h.setAnchor c k p s tp
    | some t =>
      let d := tsDiff t tp
      if d < 0 ∨ (d = 0 ∧ p = .bkp) then h.setAnchor c k p.other s t else h.setAnchor c k p s tp

/-! ## Delineation (R83) -/

/-- A path of a circuit goes to BLK_HUNT. -/
def RxPath.hunt (r : RxPath) : RxPath :=
  if r.blk = .off then r
  else { winE := r.winE, winO := r.winO, kep := r.kep, cb := r.cb, checking := r.checking, mep := r.mep, rd := r.rd, blk := .hunt }

/-- Delineation after a trailer that is not null, at a candidate phase. A path that leaves BLK_HUNT keeps that phase, and the blocks
begun at it. -/
def RxPath.delineate (r : RxPath) (good : Bool) (phase : Nat) : RxPath :=
  match r.blk with
  | .hunt =>
    if good then { r with blk := .presync, good := 0, phase := phase, open_ := r.open_.filter fun b => decide (b.phase = phase) } else r
  | .presync =>
    if !good then r.hunt
    else if 1 ≤ r.good then
      { r with blk := .sync, good := 0, bad := 0, open_ := r.open_.mapIdx fun i b => { b with index := i }, index := r.open_.length, known := none }
    else { r with good := r.good + 1 }
  | .sync => if good then { r with bad := 0 } else if 3 ≤ r.bad then r.hunt else { r with bad := r.bad + 1 }
  | .off => r

/-! ## Replay (R215) -/

/-- Eligible under a replay window. -/
def Replay.eligible (w : Replay) (s : Seq) : Bool :=
  match w.h with
  | none => true
  | some m => decide (m < s) || (decide (m.toNat - s.toNat ≤ 63) && !w.map.getLsbD (m.toNat - s.toNat))

/-- The window after SEQ `s` has verified, and the SEQs it found missing. -/
def Replay.verify (w : Replay) (s : Seq) : Replay × Nat :=
  match w.h with
  | none => ({ h := some s, map := 1 }, 0)
  | some m =>
    if m < s then ({ h := some s, map := (w.map <<< min 64 (s.toNat - m.toNat)) ||| 1 }, s.toNat - m.toNat - 1)
    else ({ w with map := w.map ||| (1 <<< min 64 (m.toNat - s.toNat)) }, 0)

/-! ## The verdict (R216, R223) -/

/-- Outcomes of R216 for a trailer that is not null. -/
inductive Verdict where
  | hit | keyMissing | replay | authFail | verified (plain : List Byte)
deriving DecidableEq, Repr

/-- The slot of a trailer's KEP. -/
def Chan.kepSlot (x : Chan) (y : Circ) (odd : Bool) : KeySlot := (x.ctx! y.kctx).slot odd

/-- The classification of a block by its trailer and its ciphertext. -/
def Chan.classify (x : Chan) (y : Circ) (p : Path) (t cipher : List Byte) : Verdict :=
  let tl := ((x.kindOf y).map (·.tagLen)).getD 12
  let kep := trlKep t
  if !trlGood y.lcid tl t then .hit
  else if y.clear then (if (trlTag t tl).all (fun b => b == 0) then .verified cipher else .authFail)
  else if (x.kepSlot y kep).st = .empty then .keyMissing
  else if !((if kep then (y.rx p).winO else (y.rx p).winE).eligible (trlSeq t)) then .replay
  else
    match gcmOpen (x.kepSlot y kep).key (ivOf (!x.roleB) y.lcid (trlSeq t)) (aadOf (t.take 7) y.lcid) cipher (trlTag t tl) with
    | none => .authFail
    | some l => .verified l

/-- The mailbox index of a cipher counter of a path (R232, R434). -/
def rxCtr (ctr : Nat) (p : Path) : Nat := 4 * ctr + 1 + p.num

/-! ## The carriage check (R91) -/

/-- A block counts for the carriage check: a run of 8 passes it and clears CARRIAGE_BROKEN. -/
def Hw.carriage (h : Hw) (c : ChanId) (k : CircId) (p : Path) (good : Bool) : Hw :=
  let r := ((h.chan c).circ! k).rx p
  if !good then h.onCirc c k fun y => y.onRx p fun r => { r with run := 0 }
  else if r.run < 7 then h.onCirc c k fun y => y.onRx p fun r => { r with run := r.run + 1 }
  else
    let h := h.onCirc c k fun y => y.onRx p fun r => { r with run := 8, checking := false, cb := false }
    if r.cb then (h.evRcl c 0x00800000).pswInputs c else h

/-! ## A verified copy (R27, R242, R266) -/

/-- Every waiting copy in the deep store is kept by circuit and SEQ: a new one is written, or overwrites a copy of the path
that ACTIVE does not name, or is dropped (R254, R266). -/
def storeCopy (l : List DsEnt) (e : DsEnt) (active : Path) : List DsEnt :=
  if l.any (fun o => decide (o.circ = e.circ ∧ o.seq = e.seq ∧ o.freed = 0)) then
    l.map fun o =>
      if decide (o.circ = e.circ ∧ o.seq = e.seq ∧ o.freed = 0) && decide (o.path ≠ active ∧ e.path = active) then e else o
  else l ++ [e]

/-- A verified copy under a committed alignment enters the deep store if it is usable (R242, R266, R271). -/
def Hw.commitCopy (h : Hw) (c : ChanId) (k : CircId) (p : Path) (b : RxBlk) (t plain : List Byte) (span : LineSpan) (epoch : Bool) : Hw :=
  let s := trlSeq t
  let h := h.onCirc c k fun y => { y with verifiedSinceMiss := true }
  let y := (h.chan c).circ! k
  let h := if 4 ≤ y.misses && y.anchor.isSome then h.onCirc c k Circ.reanchor else h
  let h := h.anchorOn c k p s b.ts
  let x := h.chan c
  let y := x.circ! k
  match y.anchor with
  | none => if bitOf (x.reg 0x7000) 31 && decide (p ≠ x.psw.active) then h.count c 0x12 8 1 else h
  | some a =>
    if bitOf (x.reg 0x7000) 31 && decide (p ≠ x.psw.active) then h.count c 0x12 8 1
    else
      match y.tA a s p b.ts with
      | none => h
      | some ta =>
        let d := tsDiff b.ts ta
        if d < 0 then
          let h := h.count c 0x11 (12 + 1 + p.num) 1
          if p ≠ a.path then h.onCirc c k fun y => { y with lead := true } else h
        else
          let h := if p ≠ a.path then h.onCirc c k fun y => { y with lead := false } else h
          if (x.window y : Int) < d * 25 then h.count c 0x11 (16 + 1 + p.num) 1
          else if seqDiff s a.next < 0 then h
          else
            let e : DsEnt :=
              { circ := k, seq := s, path := p, format := trlFormat t, ect := trlEct t
                body := if trlFormat t = 1 then plain else [], span := span, epoch := epoch
                tout := ta + BitVec.ofNat 40 (units y.dDec) }
            h.onChan c fun x => { x with store := storeCopy x.store e x.psw.active }

/-- A block has verified on a path (R195, R215, R216, R275): counts, window, role guard, APS record. -/
def Hw.verified (h : Hw) (c : ChanId) (k : CircId) (p : Path) (t : List Byte) : Hw :=
  let s := trlSeq t
  let x := h.chan c
  let y := x.circ! k
  let r := y.rx p
  let w := (if trlKep t then r.winO else r.winE).verify s
  let h := h.count c 0x10 (rxCtr 3 p) 1
  let h := if y.clear then h else h.count c 0x10 (rxCtr 8 p) w.2
  let h := if trlFormat t = 0 then h.count c 0x10 (rxCtr 11 p) 1 else h
  let h := h.onCirc c k fun y =>
    { (y.onRx p fun r =>
        { r with
          kep := trlKep t, good_ := (s :: r.good_).take 64
          winE := if trlKep t || y.clear then r.winE else w.1
          winO := if trlKep t && !y.clear then w.1 else r.winO }) with guard := false }
  let now := h.now
  let h := h.onChan c fun x =>
    let old := x.psw.seen.any (fun e => decide (e.2.1 = k ∧ e.2.2.1 = s))
    let sn := if old then x.psw.seen else (now, k, s, trlAps t) :: x.psw.seen
    { x with psw := { x.psw with seen := sn } }
  let y := (h.chan c).circ! k
  if (y.rx p.other).good_.contains s then
    let y' := y.dovfStep (x.window y)
    let h := h.onCirc c k fun _ => y'
    if y'.dovf = y.dovf then h else h.evLat c 0x00800000
  else h

/-! ## A received block taken apart (R26 steps 1 and 2, R47, R59, R173) -/

/-- What a path takes from a black block and its successor: the block's ciphertext, its trailer region, and whether the spare bits
beside that hold their pattern (R91). -/
structure RxParts where
  cipher : List Byte
  trl : List Byte
  spareOk : Bool

/-- The banks a block may be mapped under: DEC, and the new bank while a swap is pending (R173). -/
def Chan.banks (x : Chan) : List Bool := if x.map.pending then [x.map.dec, !x.map.encWas] else [x.map.dec]

/-- The trailer region of a sub-circuit's block, read from the next block of its tributary under a bank. -/
def Chan.subTrailer (x : Chan) (b : Bool) (n : Nat) (y : Circ) (next : TribSpan) : List Byte × Bool := splitReclaim 21 (x.subReclaim b n y next)

/-- The MEP that a tributary's trailers show: the first good one of sub-circuits 1 to 4 under the banks (R173). -/
def Chan.epochFound (x : Chan) (kind : Nat) (pos : Pos) (next : TribSpan) : Option Bool :=
  (List.range 4).findSome? fun j => x.banks.findSome? fun b =>
    match (x.subs b kind pos)[j]? with
    | none => none
    | some m =>
      let y := tget ({} : Circ) x.circ m
      let t := (x.subTrailer b m y next).1
      if !trlNull t && trlGood y.lcid 12 t then some (trlMep t) else none

/-- A fractional circuit's block, demapped under a bank. Its trailer is the good one that a bank gives, for the next block may be
mapped under the new one. -/
def Chan.fracParts (x : Chan) (b : Bool) (n : Nat) (y : Circ) (this next : TribSpan) : RxParts :=
  let r := ((x.banks.map fun b => x.subTrailer b n y next).find? fun t => trlGood y.lcid 12 t.1).getD (x.subTrailer b n y next)
  { cipher := x.compact b n y this, trl := r.1, spareOk := r.2 }

/-- A block of any other kind, and the 1GE running disparity after it. -/
def Chan.wholeParts (x : Chan) (y : Circ) (rd : Bool) (this next : LineSpan) : RxParts × Bool :=
  let kind := y.kind
  let tb := x.trlLen y
  if kind = 0x0D then
    let a := through descramble this.before this.to66
    let b := through descramble a.2 next.to66
    let s := splitReclaim tb ((xgeRead b.1).drop 16416)
    ({ cipher := packBits 2052 ((xgeRead a.1).take 16416), trl := s.1, spareOk := s.2 }, rd)
  else if kind = 0x0E then
    let a := geRead rd this.toCodes
    let b := geRead a.2 next.toCodes
    ({ cipher := a.1.1, trl := b.1.2, spareOk := true }, a.2)
  else
    let s := splitReclaim tb (reclaimOf kind (fit (blockFrames kind * frameLen kind) next.toBytes))
    ({ cipher := payloadOf kind (((x.kindOf y).map (·.payload)).getD 0) (fit (blockFrames kind * frameLen kind) this.toBytes), trl := s.1, spareOk := s.2 },
      rd)

/-- The pad bits of a VC-12's ciphertext, which the line does not carry: the keystream at their positions under the trailer's slot and
SEQ (R59); zero in clear mode. -/
def Chan.padCipher (x : Chan) (y : Circ) (t cipher : List Byte) : List Byte :=
  if y.kind ≠ 2 || y.clear then cipher
  else
    let s := (x.ctx! y.kctx).slot (trlKep t)
    if s.st = .empty then cipher
    else
      let ks := (aesRounds (roundKeys s.key) (ctrBlock (ivOf (!x.roleB) y.lcid (trlSeq t)) 34)).headD 0
      cipher.modify 512 fun b => (b &&& 0xF0) ||| (ks &&& 0x0F)

/-- What a fractional circuit's path does with its tributary's epoch (R173): the bank of the block. Outside BLK_SYNC a block whose
epoch no trailer shows is demapped under DEC. -/
def Hw.epochOf (h : Hw) (c : ChanId) (k : CircId) (p : Path) (next : TribSpan) : Bool × Hw :=
  let x := h.chan c
  let y := x.circ! k
  let t : TribSwap := tget {} x.map.swaps y.pos.key
  let found := x.epochFound y.kind y.pos next
  match (if found.isSome then found else if (y.rx p).blk = .sync then t.ep p else none) with
  | none => (x.map.dec, h)
  | some e =>
    let h := h.onChan c fun x => { x with map := { x.map with swaps := tput {} x.map.swaps y.pos.key (t.setEp p (some e)) } }
    h.epochSeen c y.pos (decide (x.leadSub y.pos = some k.toNat)) e

/-- A block and its successor as a path takes them, with the bank of a fractional one. -/
def Hw.parts (h : Hw) (c : ChanId) (k : CircId) (p : Path) (this next : LineSpan) : RxParts × Bool × Hw :=
  let x := h.chan c
  let y := x.circ! k
  if isFrac y.kind then
    match this.toTrib, next.toTrib with
    | some a, some b =>
      let e := h.epochOf c k p b
      ((e.2.chan c).fracParts e.1 k.toNat y a b, e.1, e.2)
    | _, _ => ({ cipher := [], trl := [], spareOk := false }, x.map.dec, h)
  else
    let r := x.wholeParts y (y.rx p).rd this next
    (r.1, x.map.dec, h.onCirc c k fun y => y.onRx p fun q => { q with rd := r.2 })

/-! ## The trailer -/

/-- A block of BLK_SYNC is classified (R216): its verdict counts, and a verified copy goes on to the deep store. -/
def Hw.judgeBlock (h : Hw) (c : ChanId) (k : CircId) (p : Path) (i : TrlIn) (q : RxParts) (bank : Bool) : Hw :=
  let h := if trlGood ((h.chan c).circ! k).lcid ((h.chan c).trlLen ((h.chan c).circ! k) - 9) q.trl then h.onCirc c k fun y => y.measure (trlSeq q.trl) else h
  let st := h.stages c k i.blk.index (if p = .bkw then [7, 9] else [8, 10]) i.checks
  let h := st.2
  let x := h.chan c
  let y := x.circ! k
  let addr := k.toNat + p.num * 2 ^ 23
  match x.classify y p q.trl (x.padCipher y q.trl q.cipher) with
  | .hit => (h.count c 0x10 (rxCtr 4 p) 1).carriage c k p false
  | .keyMissing => ((h.count c 0x10 (rxCtr 6 p) 1).raiseChan c 5 clsN 0x21 addr).carriage c k p false
  | .replay => ((h.count c 0x10 (rxCtr 7 p) 1).raiseChan c 5 clsN 0x22 addr).carriage c k p false
  | .authFail => ((h.count c 0x10 (rxCtr 5 p) 1).raiseChan c 5 clsN 0x20 addr).carriage c k p false
  | .verified plain =>
    let h := (h.verified c k p q.trl).carriage c k p q.spareOk
    if st.1 then h else h.commitCopy c k p i.blk q.trl plain i.this bank

/-- Delineation takes a trailer that is not null (R83), and what a good one makes known (R214): on entering BLK_SYNC the block after it
has index 0. -/
def Circ.trailerSeen (y : Circ) (p : Path) (i : TrlIn) (t : List Byte) (good : Bool) : Circ :=
  let was := (y.rx p).blk
  y.onRx p fun r =>
    let r := r.delineate good i.blk.phase
    if good then
      { r with
        known := if was = .presync ∧ r.blk = .sync then some (trlSeq t + 1, trlKep t, 0) else some (trlSeq t, trlKep t, i.blk.index)
        mep := trlMep t
        seen := if was = .sync then ((trlSeq t, i.blk.ts) :: r.seen).take 64 else r.seen }
    else r

/-- A block's whole trailer is taken under a committed alignment: the path classifies the block. -/
def Hw.takeTrailer (h : Hw) (c : ChanId) (k : CircId) (p : Path) (i : TrlIn) : Hw :=
  let x := h.chan c
  let y := x.circ! k
  if x.pathDead p.lane || x.circDefect p.lane y then h.count c 0x20 (48 + p.num) 1
  else
    let a := h.parts c k p i.this i.next
    let q := a.1
    let h := a.2.2
    let was := (y.rx p).blk
    if trlNull q.trl then (if was = .sync then h.count c 0x10 (rxCtr 10 p) 1 else h)
    else
      let good := trlGood y.lcid (x.trlLen y - 9) q.trl
      let h := h.onCirc c k fun y => y.trailerSeen p i q.trl good
      if was ≠ .sync then h.carriage c k p false else h.judgeBlock c k p i q a.2.1

/-! ## Commands -/

/-- A lane delivers words (R106). -/
def LaneSt.delivers (l : LaneSt) : Bool := decide (l.fr = .inframe ∨ l.fr = .runahead)

/-- A frame of a circuit's container begins a block at a path's phase: at any candidate phase in BLK_HUNT, at the phase held after it
(R83); an OTN block begins where MFAS[2:0] is 000 (R69). -/
def Chan.rxAt (x : Chan) (y : Circ) (r : RxPath) (frame : Nat) : Bool :=
  if isOtn (wholeRate y.kind) then decide (frame % 8 = 0) else decide (r.blk = .hunt) || decide (frame % x.phases y = r.phase)

/-- The keystream of a block that begins to arrive is taken, and the path's engine runs ahead for the next one under the prediction of
R214. -/
def Chan.ksPredict (x : Chan) (p : Path) (k : CircId) (y : Circ) (index : Nat) : Chan :=
  match (y.rx p).known with
  | none => x
  | some (q, kep, j) =>
    let s := q + BitVec.ofInt 40 ((index : Int) - (j : Int))
    if y.clear || decide ((y.rx p).blk ≠ .sync) || decide (((x.ctx! y.kctx).slot kep).st = .empty) then x
    else (x.ksTake (ksDec p) k kep s).ksRun (ksDec p) k kep (s + 1) (x.payMost x.map.dec k.toNat y)

/-- A block begins to arrive on a path (R26), at a frame of its container, counted as the encrypt side's are. -/
def Hw.decReceive (h : Hw) (c : ChanId) (p : Path) (k : CircId) (frame : Nat) : Hw :=
  let x := h.chan c
  let y := x.circ! k
  let r := y.rx p
  let l := x.lane p.lane
  if !l.delivers || r.blk = .off || !x.rxAt y r frame then h
  else
    let h := h.onCirc c k fun y => y.onRx p fun r =>
      { r with
        open_ := r.open_ ++ [{ index := r.index, phase := frame % x.phases y, ts := h.ts, spec := decide (l.fr = .runahead) }]
        index := r.index + 1 }
    (h.onChan c fun x => x.ksPredict p k y r.index).levels c

/-- DEC_BLOCK_RECEIVE. -/
def execDecBlockReceive (c : ChanId) (p : Path) (k : CircFrame) (s : State) : Host.Outcome State Fault Refusal :=
  onActive s c (·.decReceive c p k.circ k.frame)

/-- Trailer bytes 0 to 5 of the oldest open block are compared with the prediction: on a difference the circuit's keystream of the path
is flushed and computed anew under the received values (R214). -/
def Hw.trlHeadIn (h : Hw) (c : ChanId) (p : Path) (k : CircId) (head : List Byte) : Hw :=
  let y := (h.chan c).circ! k
  let r := y.rx p
  match r.open_, r.known with
  | b :: _, some (q, kep, j) =>
    if r.blk ≠ .sync ∨ trlNull head ∨ b.resynced then h
    else if trlSeq head = q + BitVec.ofInt 40 ((b.index : Int) - (j : Int)) ∧ trlKep head = kep then h
    else
      let h := h.onCirc c k fun y => y.onRx p fun r => { r with open_ := r.open_.modify 0 fun b => { b with resynced := true } }
      let next := trlSeq head + BitVec.ofInt 40 ((r.index : Int) - (b.index : Int))
      let h := h.onChan c fun x =>
        let x := x.ksFlush (ksDec p) fun e => decide (e.circ = k)
        if y.clear || decide (((x.ctx! y.kctx).slot (trlKep head)).st = .empty) then x
        else x.ksRun (ksDec p) k (trlKep head) next (x.payMost x.map.dec k.toNat y)
      (h.count c 0x10 (rxCtr 9 p) 1).levels c
  | _, _ => h

/-- TRAILER_HEAD_RECEIVE. -/
def execTrailerHeadReceive (c : ChanId) (p : Path) (k : CircId) (head : List Byte) (s : State) : Host.Outcome State Fault Refusal :=
  onActive s c (·.trlHeadIn c p k head)

/-- A block is whole, and so is the successor that carries its trailer: the oldest open block that began at the frame's phase. In
terminal loopback the path sees what the channel sends (R131). It is taken, or waits for its alignment to commit (R27). -/
def Hw.trlIn (h : Hw) (c : ChanId) (p : Path) (k : CircId) (frame : Nat) (this next : LineSpan) (checks : List StageUnit) : Hw :=
  let x := h.chan c
  let y := x.circ! k
  let r := y.rx p
  match r.open_.find? (fun b => decide (b.phase = frame % x.phases y)) with
  | none => h
  | some b =>
    let i : TrlIn := { blk := b, this := x.seen p.lane y y.blackWas this, next := x.seen p.lane y y.black next, checks := checks }
    let h := h.onCirc c k fun y => y.onRx p fun r => { r with open_ := r.open_.erase b }
    let h := if (x.lane p.lane).fr = .runahead then h.onCirc c k fun y => y.onRx p fun r => { r with wait := r.wait ++ [i] }
      else h.takeTrailer c k p i
    h.levels c

/-- DEC_TRAILER_RECEIVE. -/
def execDecTrailerReceive (c : ChanId) (p : Path) (k : CircFrame) (this next : LineSpan) (checks : List StageUnit) (s : State) :
    Host.Outcome State Fault Refusal :=
  onActive s c (·.trlIn c p k.circ k.frame this next checks)

/-- The window of a carriage check expires: CARRIAGE_BROKEN (R91). Good blocks received before it expired count in the run of 8 that
clears the status: the run is kept across the expiry (DESIGN CHOICE, log entry 78). -/
def Hw.carriageExpire (h : Hw) (c : ChanId) (p : Path) (k : CircId) : Hw :=
  let y := (h.chan c).circ! k
  let r := y.rx p
  if !y.en || !r.checking then h
  else
    let h := h.onCirc c k fun y => y.onRx p fun r => { r with checking := false, cb := true }
    let h := h.raiseChan c 4 clsN 0x19 (k.toNat + p.num * 2 ^ 23)
    if r.cb then h else (h.evRcl c 0x00800000).pswInputs c

/-- CARRIAGE_BROKEN. -/
def execCarriageBroken (c : ChanId) (p : Path) (k : CircId) (s : State) : Host.Outcome State Fault Refusal :=
  onActive s c (·.carriageExpire c p k)

/-! ## Release (R238, R239, R267) -/

/-- The opportunities of a block, and the check bits of one (R84); none for 10GE and 1GE, for a T1 SF or an E1 without CRC-4, and for
sub-circuits 2 to 4. -/
def Chan.ectRoom (x : Chan) (k : CircId) (y : Circ) (e : DsEnt) : Option (Nat × Nat) :=
  if isFrac y.kind then
    match e.span.toTrib with
    | some t =>
      if x.subNo e.epoch k.toNat y = 1 ∧ crcSpan y.tfmt ≠ 0 then some (crcEnds y.tfmt t.phase (tribBits y.kind t).length, 1) else none
    | none => none
  else (x.kindOf y).bind fun kd => if kd.ectB = 0 then none else some (kd.ectM, kd.ectB)

/-- A stored block is released (R239, R267): its counts, its violations, the check-value units, and its content on the RED lane. -/
def Hw.releaseEnt (h : Hw) (c : ChanId) (k : CircId) (e : DsEnt) : Hw :=
  let x := h.chan c
  let y := x.circ! k
  if e.format ≠ 1 then h.emitRed c k (.fill (some e))
  else
    let h := h.count c 0x12 (1 + e.path.num) 1
    let h := if e.path ≠ x.psw.active then h.count c 0x12 4 1 else h
    let clip := match x.ectRoom k y e with
      | some (m, b) => ectClip m b e.ect
      | none => 0
    let h := if clip = 0 then h else (h.count c 0x20 51 clip).evRcl c 0x00100000
    let h := if y.kind = 0x0D then h.count c 0x20 52 (ct0Count e.body) else h
    (h.cvuBlock c 1 k e.seq e.body).emitRed c k (.data e)

/-- The release point of a circuit's next block on the red side. -/
def Hw.decRelease (h : Hw) (c : ChanId) (k : CircId) (checks : List StageUnit) : Hw :=
  let x := h.chan c
  let y := x.circ! k
  let h :=
    match x.store.find? (fun (e : DsEnt) => decide (e.circ = k ∧ e.freed ≠ 0)) with
    | some e =>
      let h := h.onChan c fun x => { x with store := x.store.erase e }
      (if e.format = 1 then h.fill c k true 2 e.freed.toNat else h).emitRed c k (.fill none)
    | none =>
      match y.anchor with
      | none => h.emitRed c k (if y.en || y.drain then .fill none else .unused)
      | some a =>
        let h := h.onCirc c k fun y => { y with anchor := some { a with next := a.next + 1 } }
        match x.store.find? (fun (e : DsEnt) => decide (e.circ = k ∧ e.seq = a.next ∧ e.freed = 0)) with
        | some e =>
          let st := h.stages c k e.seq.toNat [11, 12] checks
          let h := st.2.onChan c fun x => { x with store := x.store.erase e }
          let h := h.onCirc c k fun y => { y with misses := 0 }
          if st.1 then (if e.format = 1 then h.fill c k true 2 3 else h).emitRed c k (.fill none)
          else h.releaseEnt c k e
        | none =>
          let gap := decide (seqDiff a.next a.gapTo < 0)
          let h := (h.fill c k true 2 (if gap then 8 else 7)).emitRed c k (.fill none)
          h.onCirc c k fun y => { y with misses := if gap then y.misses else y.misses + 1, verifiedSinceMiss := false }
  (h.cvuWords c 3).levels c

/-- DEC_BLOCK_RELEASE. -/
def execDecBlockRelease (c : ChanId) (k : CircId) (checks : List StageUnit) (s : State) : Host.Outcome State Fault Refusal :=
  onActive s c (·.decRelease c k checks)

/-! ## Memory errors (R335) -/

/-- The oldest block of a circuit still in a data buffer of a side is discarded, as R332 gives for the side. -/
def Hw.dataLost (h : Hw) (c : ChanId) (enc : Bool) (k : CircId) : Hw :=
  if enc then
    match ((h.chan c).circ! k).enc.find? fun b => decide (b.lost = 0) with
    | none => h
    | some b => h.onCirc c k fun y => y.loseEnc (fun e => decide (e.seq = b.seq ∧ e.odd = b.odd)) 3
  else
    match (h.chan c).store.find? fun e => decide (e.circ = k ∧ e.freed = 0) with
    | none => h
    | some b => h.onChan c fun x => x.freeStore (fun e => decide (e = b)) 3

/-- A byte string with its 32-bit word `i` zero. -/
def zeroAt (l : List Byte) (i : Nat) : List Byte := l.zipIdx.map fun e => if e.2 / 4 = i then 0 else e.1

/-- The word of a table that an uncorrectable error hit reads as zero: a Circuit Table word, numbered 4 × circuit + word, a
Slot Map entry, or a word of the Malot's instruction SRAM (R335, log entry 16). -/
def Chan.zeroWord (x : Chan) (mem : BitVec 4) (i : Nat) : Chan :=
  if mem = 0 then
    let y := tget {} x.circ (i / 4)
    let y := if i % 4 = 0 then { y with w0 := 0 } else if i % 4 = 1 then { y with w1 := 0 } else if i % 4 = 2 then { y with w2 := 0 } else { y with w3 := 0 }
    { x with circ := tput {} x.circ (i / 4) y }
  else if mem = 1 then { x with map := { x.map with bankA := tdrop x.map.bankA i } }
  else if mem = 2 then { x with map := { x.map with bankB := tdrop x.map.bankB i } }
  else if mem = 9 then { x with mlt := { x.mlt with prog := zeroAt x.mlt.prog i } }
  else x

/-- The unit that owns a memory (R13, R335): MAP, CPH, LAT and MLT in a channel, ISV and FCL in the host spine; none where the part
has no such memory, so that no other source ID ever occurs (R14). -/
def memOwner (spine : Bool) (mem : BitVec 4) : Option Nat :=
  if spine then (if mem = 0xA then some 17 else if mem = 0xB then some 20 else none)
  else if mem.toNat ≤ 2 then some 3
  else if mem = 3 ∨ mem = 8 then some 5
  else if 4 ≤ mem.toNat ∧ mem.toNat ≤ 7 then some 6
  else if mem = 9 then some 9
  else none

/-- A memory of a channel or of the spine reports an error (R335); the data buffers are the governor's. -/
def Hw.memError (h : Hw) (c : Option ChanId) (i : BitVec 20) (e : MemErr) : Hw :=
  let addr := fun (m : BitVec 4) => m.toNat * 2 ^ 20 + i.toNat
  match c, e with
  | some c, .corrected m =>
    match memOwner false m with
    | some u => h.raiseChan c u clsN 0x53 (addr m)
    | none => h
  | some c, .data enc k => (h.dataLost c enc k).raiseChan c 6 clsC 0x54 k.toNat
  | some c, .table m =>
    match memOwner false m with
    | some u => (h.onChan c (·.zeroWord m i.toNat)).raiseChan c u clsH 0x55 (addr m)
    | none => h
  | none, .corrected m =>
    match memOwner true m with
    | some u => h.raiseSpine u clsN 0x53 (addr m)
    | none => h
  | none, .data _ _ => h
  | none, .table m =>
    match memOwner true m with
    | some u => (if m = 0xA then h.onBoot fun b => { b with sram := zeroAt b.sram i.toNat } else h).raiseSpine u clsD 0x55 (addr m)
    | none => h

/-- MEM_ERROR. -/
def execMemError (c : Option ChanId) (i : BitVec 20) (e : MemErr) (s : State) : Host.Outcome State Fault Refusal := live s (·.memError c i e)

end Sys2Proof.Machine
end

