-- ==== Sys2Proof/Machine/Frame.lean ====
section
/-!
DEFINITION. Machine/Frame.lean: the receive framers (R103 to R115), run-ahead episodes and what the later stages do at their start
and end (R109 to R112, R246, R247), received overhead and the defects it brings (R116 to R125), and pointers, paths and
tributaries (R143 to R146, R151 to R153).
-/
namespace Sys2Proof.Machine

/-! ## Framing criteria (R103, R113 to R115) -/

/-- The thresholds of a lane's framer. -/
structure FrCfg where
  slots : Nat
  confirm : Nat
  horizon : Nat
  ifCnt : Nat
  oofCnt : Nat
  doubt : Nat
deriving DecidableEq, Repr

/-- The red lane of a 1GE channel, framed by the clause 36 machine (R115). -/
def geRed (rate : Nat) (p : Lane) : Bool := decide (rate = 8 ∧ p = .red)

/-- A threshold field of CHn.FRM_THR_p; 0 selects the default (R103, R114). -/
def Chan.thrField (x : Chan) (p : Lane) (hi lo dflt : Nat) : Nat :=
  let v := fieldOf (x.reg (frmReg p 4)) hi lo
  if v = 0 then dflt else v

/-- The thresholds of a lane, with CHn.FRM_RA_p as the running hunt or episode took it. -/
def Chan.frCfg (x : Chan) (p : Lane) : FrCfg :=
  let rate := x.rate p
  let ra := (x.lane p).ra
  { slots := fieldOf ra 9 8 + 1
    confirm := clamp 1 4 (fieldOf ra 6 4)
    horizon := clamp 1 8 (fieldOf ra 3 0)
    ifCnt := x.thrField p 7 5 (if rate = 9 then 1 else 2)
    oofCnt := x.thrField p 4 0 (if isSdh rate then 4 else if isOtn rate then 5 else if rate = 9 then 16 else 3)
    doubt := if rate = 9 then x.thrField p 15 12 4 else if geRed rate p then x.thrField p 15 12 2 else 1 }

/-- A pattern is correct at its alignment (R103, R115). -/
def patOk (g : FrCfg) (red36 : Bool) (x : Pattern) : Bool := if red36 then decide (x.errs < g.doubt) else decide (x.errs = 0)

/-! ## Candidate slots (R105) -/

/-- The slot that holds an alignment. -/
def slotOf (l : List (Option FrCand)) (a : Nat) : Option Nat :=
  l.findIdx? fun s => match s with
    | some k => k.align == a
    | none => false

/-- A candidate enters the lowest free slot of slots `lo` to `n − 1`; with every slot full it is ignored. -/
def admitCand (l : List (Option FrCand)) (lo n a : Nat) : List (Option FrCand) :=
  let l := l ++ List.replicate (n - l.length) none
  match ((List.range n).filter fun i => decide (lo ≤ i)).find? fun i => decide ((l.getD i none) = none) with
  | some i => l.set i (some { align := a, good := 1 })
  | none => l

/-- A pattern at an alignment that is not predicted: admitted, counted or dropped. The second part says that the candidate has
completed the in-frame count. -/
def testCand (l : List (Option FrCand)) (lo : Nat) (g : FrCfg) (red36 : Bool) (x : Pattern) : List (Option FrCand) × Bool :=
  let full := fun n => if red36 then x.sync == some true else decide (g.ifCnt ≤ n)
  match slotOf l x.align with
  | some i =>
    if patOk g red36 x then
      let n := ((l.getD i none).map (·.good)).getD 0 + 1
      (l.set i (some { align := x.align, good := n }), full n)
    else (l.set i none, false)
  | none =>
    if patOk g red36 x then
      let l' := admitCand l lo g.slots x.align
      (l', (slotOf l' x.align).isSome && full 1)
    else (l, false)

/-- No slot holds a candidate. -/
def noCand (l : List (Option FrCand)) : Bool := l.all fun s => s.isNone

/-! ## Lanes and circuits together -/

/-- Change one receive path of every circuit. -/
def Chan.onPath (x : Chan) (q : Path) (f : Circ → RxPath → RxPath) : Chan :=
  { x with circ := x.circ.map fun e => (e.1, e.2.onRx q (f e.2)) }

/-- Circuits whose path or structure is lost go to BLK_HUNT on a path (R83). -/
def Chan.huntLost (x : Chan) (q : Path) : Chan :=
  let l := x.lane q.lane
  let line := l.def_ 15 || l.def_ 13 || l.def_ 12
  x.onPath q fun y r => if line || x.structLost q.lane y then r.hunt else r

/-- The blocks in progress of every circuit take what the red input is now: in defect for all of the block, or for some of it (R51). -/
def Chan.markDefects (x : Chan) : Chan :=
  { x with circ := x.circ.map fun e =>
      let d := x.inDefect .red e.2
      (e.1, { e.2 with enc := e.2.enc.map fun b => if b.done then b else { b with defAll := b.defAll && d, defAny := b.defAny || d } }) }

/-- What follows from a change of a lane's state or defects: FRM_EVT, candidacy, path conditions, delineation, MAP_EVT.DEF. -/
def Hw.laneSync (h h0 : Hw) (c : ChanId) (p : Lane) : Hw :=
  let h := if ((h.chan c).lane p).defects = ((h0.chan c).lane p).defects then h else h.evFrm c (BitVec.ofNat 32 (2 ^ (23 - p.num)))
  let h := match p.path? with
    | some q => h.onChan c (·.huntLost q)
    | none => h.onChan c Chan.markDefects
  (((h.candCheck c p).pswInputs c).defSync h0 c)

/-- The bits of a lane's field in CHn.PRT_STAT (R481). -/
def Chan.prtBits (x : Chan) (p : Lane) : Nat :=
  let l := x.lane p
  b2n l.cdrLock + 2 * b2n l.txLock + 4 * b2n l.chkSync + 8 * b2n x.squelch

/-- FRM_EVT.LNE follows a change of a lane's field in CHn.PRT_STAT (R486). -/
def Hw.lneSync (h h0 : Hw) (c : ChanId) (p : Lane) : Hw :=
  if (h.chan c).prtBits p = (h0.chan c).prtBits p then h else h.evFrm c (BitVec.ofNat 32 (2 ^ (20 - p.num)))

/-- Set or clear a defect bit. -/
def LaneSt.setDef (l : LaneSt) (i : Nat) (on : Bool) : LaneSt :=
  { l with defects := if on then l.defects ||| BitVec.ofNat 16 (2 ^ i) else l.defects &&& ~~~ BitVec.ofNat 16 (2 ^ i) }

/-- Step a wrapping 32-bit count register. -/
def Chan.bump (x : Chan) (off n : Nat) : Chan := x.setReg off (x.reg off + BitVec.ofNat 32 n)

/-! ## Overhead (R116, R118, R119, R123, R124) -/

/-- A condition seen or not in one frame, entered after `n` consecutive frames and left after `m`: the new state and counts. -/
def hyst2 (on seen : Bool) (cin cout n m : Nat) : Bool × Nat × Nat :=
  if seen then (if n ≤ cin + 1 then (true, n, 0) else (on, cin + 1, 0))
  else (if m ≤ cout + 1 then (false, 0, m) else (on, 0, cout + 1))

/-- Bytes of a trace format (R485). -/
def trcLen (fmt : Nat) : Nat := if fmt = 0 then 1 else if fmt = 1 then 16 else 64

/-- The first `n` bytes of the trace words at an offset. -/
def Chan.trcBytes (x : Chan) (off n : Nat) : List Byte :=
  ((List.range 16).flatMap fun k => beBytes 4 (x.reg (off + 4 * k)).toNat).take n

/-- Put a trace into the trace words at an offset. -/
def Chan.setTrc (x : Chan) (off : Nat) (l : List Byte) : Chan :=
  (List.range 16).foldl (fun x k => x.setReg (off + 4 * k) (BitVec.ofNat 32 (beNat (slice (fit 64 l) (4 * k) 4)))) x

/-- The bytes a lane's trace comparison covers, and the length of its traces: J0 by FMT, or SM TTI (R485). -/
def Chan.trcForm (x : Chan) (p : Lane) : Nat × Nat :=
  if isOtn (x.rate p) then (32, 64)
  else let n := trcLen (fieldOf (x.reg (frmReg p 0xC)) 1 0); (n, n)

/-- SD or SF after an estimate: entered when it exceeds 10^−e, left when it falls below 10^−(e+1) (R123, R124). -/
def ratioDef (on : Bool) (est e : Nat) : Bool := if est ≤ e then true else if e + 2 ≤ est then false else on

/-- SF_EXP and SD_EXP of a lane (R114). -/
def Chan.sfExp (x : Chan) (p : Lane) : Nat :=
  let v := fieldOf (x.reg (frmReg p 4)) 31 28
  if 3 ≤ v ∧ v ≤ 5 then v else 3
/-- SD_EXP. -/
def Chan.sdExp (x : Chan) (p : Lane) : Nat :=
  let v := fieldOf (x.reg (frmReg p 4)) 27 24
  if 5 ≤ v ∧ v ≤ 9 then v else 6

/-- The integrators after a frame's overhead, MS and SM layers. -/
def Integ.frame (g : Integ) (rate : Nat) (on : Bool) (o : RxOh) : Integ :=
  let ais := if isSdh rate then decide ((o.k2 &&& 7#8) = 7#8) else o.pmStat == 7
  let rdi := decide ((o.k2 &&& 7#8) = 6#8)
  let a := hyst2 on ais g.aisIn g.aisOut 3 3
  let r := hyst2 false rdi g.rdiIn g.rdiOut 5 5
  let b := hyst2 false o.bdi g.bdiIn g.bdiOut 5 5
  { g with
    aisIn := a.2.1, aisOut := a.2.2, rdiIn := r.2.1, rdiOut := r.2.2, bdiIn := b.2.1, bdiOut := b.2.2
    mfasBad := if o.mfasOk then 0 else min 5 (g.mfasBad + 1)
    mfasGood := if o.mfasOk then min 2 (g.mfasGood + 1) else 0
    oom := if o.mfasOk then g.oom && decide (g.mfasGood + 1 < 2) else g.oom || decide (5 ≤ g.mfasBad + 1)
    k1N := min 3 (runOf g.k1 g.k1N o.k1), k1 := o.k1
    k2N := min 3 (runOf g.k2 g.k2N o.k2), k2 := o.k2
    s1N := min 8 (runOf g.s1 g.s1N o.s1), s1 := o.s1
    pmN := min 3 (runOf g.pm g.pmN o.pmStat), pm := o.pmStat
    ptN := match o.pt with
      | some v => min 3 (runOf g.pt g.ptN v)
      | none => g.ptN
    pt := o.pt.getD g.pt
    trcN := match o.trace with
      | some t => min 3 (runOf g.trc g.trcN t)
      | none => g.trcN
    trc := o.trace.getD g.trc }

/-- CHn.FRM_OHRX_p after a frame (R484). -/
def ohrx (w : Word) (rate : Nat) (g : Integ) (o : RxOh) : Word :=
  if isSdh rate then
    let w := if g.k1N = 3 then withField w 31 24 g.k1.toNat else w
    let w := if g.k2N = 3 then withField w 23 16 g.k2.toNat else w
    let w := if g.s1N = 8 then withField w 11 8 g.s1.toNat else w
    withField w 7 0 o.m1.toNat
  else if isOtn rate then
    let w := if g.ptN = 3 then withField w 31 24 g.pt.toNat else w
    let w := if g.pmN = 3 then withField w 23 21 g.pm.toNat else w
    withField (withField (withField w 20 20 (b2n o.bdi)) 19 19 (b2n o.iae)) 3 0 o.m1.toNat
  else w

/-- A trace reaches its third consecutive receipt: it is accepted, and TRC_SEQ and FRM_EVT.TRC follow a new one (R123, R485). -/
def Hw.traceIn (h : Hw) (c : ChanId) (p : Lane) (o : RxOh) : Hw :=
  let x := h.chan c
  let g := (x.lane p).integ
  if o.trace.isNone || decide (g.trcN < 3) || decide (g.trc.length ≠ (x.trcForm p).2) || g.acc == some g.trc then h
  else
    let h := h.onLane c p fun l => { l with integ := { l.integ with acc := some g.trc } }
    let off := frmReg p 0x1C
    let h := h.onChan c fun x => (x.setTrc (frmReg p 0xC0) g.trc).setReg off (withField (x.reg off) 7 0 (fieldOf (x.reg off) 7 0 + 1))
    h.evFrm c (BitVec.ofNat 32 (2 ^ (17 - p.num)))

/-- The defects of a lane after a frame's overhead (R123). -/
def Chan.ohDefects (x : Chan) (p : Lane) (o : RxOh) : LaneSt :=
  let l := x.lane p
  let g := l.integ
  let rate := x.rate p
  let trace := bitOf (x.reg (frmReg p 8)) 2 && (match g.acc with
    | some t => t.take (x.trcForm p).1 != x.trcBytes (frmReg p 0x80) (x.trcForm p).1
    | none => false)
  let sdsf := isSdh rate || isOtn rate || decide (rate = 8 ∧ p ≠ .red)
  let l := if isSdh rate || isOtn rate then l.setDef 11 (if g.aisIn = 3 then true else if g.aisOut = 3 then false else l.def_ 11) else l
  let l := if isSdh rate then l.setDef 10 (if g.rdiIn = 5 then true else if g.rdiOut = 5 then false else l.def_ 10) else l
  let l := if isOtn rate then l.setDef 9 (if g.bdiIn = 5 then true else if g.bdiOut = 5 then false else l.def_ 9) else l
  let l := if isSdh rate || isOtn rate then l.setDef 8 trace else l
  let pt := fieldOf (x.reg (frmReg p 0x14)) 31 24
  let l := if isOtn rate then l.setDef 7 (plmOf (l.def_ 7) pt (fieldOf (x.reg (frmReg p 0x18)) 7 0)) else l
  let l := if sdsf then (l.setDef 6 (ratioDef (l.def_ 6) o.estExp (x.sdExp p))).setDef 5 (ratioDef (l.def_ 5) o.estExp (x.sfExp p)) else l
  if rate = 9 then ((l.setDef 4 o.hiber).setDef 3 o.lf).setDef 2 o.rf else l

/-! ## Paths (R123, R144, R145) -/

/-- Where pointers are interpreted and path overhead is read. -/
def Chan.setPtr (x : Chan) (p : Lane) (lvl : PtrLevel) (pos : Pos) (q : PtrSt) : Chan :=
  { x with map := { x.map with ptrs := tput {} x.map.ptrs (ptrKey p lvl pos) q } }

/-- A higher-order VC after its overhead in one frame (R123, R144). TU-LOM is entered after 8 frames that break the H4 sequence, and left
after 3 that hold it. -/
def PtrSt.high (q : PtrSt) (o : PathOh) (au : Bool) (expC2 : Nat) (fmt : Nat) (tim : Option (List Byte)) : PtrSt :=
  let c2 := o.poh.getD 2 0
  let n := min 5 (runOf q.sigCand q.sigN c2)
  let sig := if n = 5 then c2 else q.sig
  let r := hyst2 q.rdi ((o.poh.getD 3 0).getLsbD 3) (if q.rdi then 0 else q.rdiN) (if q.rdi then q.rdiN else 0) 5 5
  let tN := match o.trace with
    | some t => min 3 (runOf q.trc q.trcN t)
    | none => q.trcN
  let trc := o.trace.getD q.trc
  let acc := if tN = 3 && trc.length == trcLen fmt then trc else q.acc
  let holds := decide ((o.poh.getD 5 0).toNat % 4 = ((q.poh.getD 5 0).toNat + 1) % 4)
  let m := hyst2 q.lom (!holds) (if q.lom then 0 else q.lomN) (if q.lom then q.lomN else 0) 8 3
  { q with
    sigCand := c2, sigN := n, sig := sig, poh := o.poh
    uneq := if n = 5 then decide (c2 = 0) else q.uneq
    plm := decide (expC2 ≠ 255) && plmOf q.plm sig.toNat expC2
    rdi := r.1, rdiN := if r.1 = q.rdi then (if r.1 then r.2.2 else r.2.1) else 0
    lom := au && m.1
    lomN := if m.1 = q.lom then (if q.lom then m.2.2 else m.2.1) else 0
    trc := trc, trcN := tN, acc := acc
    tim := match tim with
      | some e => decide (acc ≠ []) && decide (acc ≠ e)
      | none => false }

/-- A lower-order VC after a multiframe's V5 (R123, R145). -/
def PtrSt.low (q : PtrSt) (o : PathOh) : PtrSt :=
  let v5 := o.poh.getD 0 0
  let v := (v5 >>> 1) &&& 7
  let n := min 5 (runOf q.sigCand q.sigN v)
  let sig := if n = 5 then v else q.sig
  let u := hyst2 q.uneq (v == 0) (if q.uneq then 0 else q.uneqN) (if q.uneq then q.uneqN else 0) 5 5
  let r := hyst2 q.rdi (v5.getLsbD 0) (if q.rdi then 0 else q.rdiN) (if q.rdi then q.rdiN else 0) 5 5
  { q with
    sigCand := v, sigN := n, sig := sig, poh := o.poh
    uneq := u.1, uneqN := if u.1 = q.uneq then (if u.1 then u.2.2 else u.2.1) else 0
    plm := if n = 5 then (if sig = 1 ∨ sig = 2 then false else if sig = 0 then q.plm else true) else q.plm
    rdi := r.1, rdiN := if r.1 = q.rdi then (if r.1 then r.2.2 else r.2.1) else 0 }

/-- Parity violations of a circuit's own path on the red lane join its block's ECT (R84, R120). -/
def Chan.addEct (x : Chan) (sel : Circ → Bool) (n : Nat) : Chan :=
  if n = 0 then x
  else { x with circ := x.circ.map fun e => if e.2.en && sel e.2 then (e.1, { e.2 with ectAcc := min 255 (e.2.ectAcc + n) }) else e }

/-- The kind and position of a circuit whose own VC is the one at a level and position (R140). -/
def ownVc (lvl : PtrLevel) (pos : Pos) (sonet : Bool) (y : Circ) : Bool :=
  decide (y.pos = pos) && (match lvl with
    | .au => decide (4 ≤ y.kind ∧ y.kind ≤ 7) || (sonet && decide (y.kind = 3))
    | .tu3 => decide (y.kind = 3)
    | .tu => decide (y.kind = 1 ∨ y.kind = 2))

/-- A fractional circuit that is sub-circuit 1 of the tributary at a position. -/
def Chan.isSub1 (x : Chan) (pos : Pos) (n : Nat) (y : Circ) : Bool :=
  isFrac y.kind && decide (y.pos = pos) && decide (x.subNo x.map.enc n y = 1)

/-- The ECT of sub-circuit 1 of a tributary (R84, R120). -/
def Chan.addEctSub1 (x : Chan) (pos : Pos) (n : Nat) : Chan :=
  if n = 0 then x
  else { x with circ := x.circ.map fun e => if e.2.en && x.isSub1 pos e.1 e.2 then (e.1, { e.2 with ectAcc := min 255 (e.2.ectAcc + n) }) else e }

/-- CHn.MAP_AUSEL selects a VC on a lane: PATH, LVL and the position (R488). -/
def Chan.auSel (x : Chan) : Lane × PtrLevel × Pos :=
  let w := x.reg 0x3030
  (match fieldOf w 31 30 with
    | 1 => .bkw
    | 2 => .bkp
    | _ => .red,
   match fieldOf w 29 28 with
    | 1 => .tu3
    | 2 => .tu
    | _ => .au,
   posOf (fieldOf w 12 0))

/-- The path overhead of one VC takes effect. -/
def Hw.pathIn (h : Hw) (c : ChanId) (p : Lane) (o : PathOh) : Hw :=
  let x := h.chan c
  let q := x.ptr p o.lvl o.pos
  let fmt := fieldOf (x.reg 0x2304) 1 0
  let tim := if bitOf (x.reg (frmReg p 8)) 2 then some (x.trcBytes 0x2340 (trcLen fmt)) else none
  let q' := match o.lvl with
    | .tu => q.low o
    | .tu3 => q.high o false (fieldOf (x.reg (frmReg p 0x18)) 15 8) fmt tim
    | .au => q.high o true (fieldOf (x.reg (frmReg p 0x18)) 15 8) fmt tim
  let h := h.onChan c fun x => x.setPtr p o.lvl o.pos q'
  let h := if p = .red then
      h.onChan c fun x => x.addEct (ownVc o.lvl o.pos x.sonet) o.errs
    else h
  if q'.acc ≠ q.acc ∧ x.auSel = (p, o.lvl, o.pos) then
    (h.onChan c fun x => x.setTrc 0x2380 q'.acc).evFrm c 0x00004000
  else h

/-! ## Tributaries (R152) -/

/-- Errors among the last four framing bits, the newest in bit 0. -/
def bits4 (n : Nat) : Nat := n % 2 + n / 2 % 2 + n / 4 % 2 + n / 8 % 2

/-- A tributary after one check of its framing. -/
def TribSt.seen (t : TribSt) (tfmt : Nat) (o : TribOh) : TribSt :=
  let t1 := decide (4 ≤ tfmt)
  let hist := (t.lofN * 2 + b2n !o.ok) % 16
  let seq := if !o.ok then 0 else if !o.nfas then (if t.seq = 2 then 3 else 1) else if t.seq = 1 then 2 else 0
  let lof : Bool × Nat :=
    if t.tlof then
      (if t1 then (if !o.ok then (true, 0) else if 23 ≤ t.lofN then (false, 0) else (true, t.lofN + 1)) else (decide (seq ≠ 3), 0))
    else if t1 then (if 2 ≤ bits4 hist then (true, 0) else (false, hist))
    else if o.nfas then (false, t.lofN)
    else if !o.ok then (if 2 ≤ t.lofN then (true, 0) else (false, t.lofN + 1)) else (false, 0)
  let step := fun (on : Bool) (n : Nat) (v : Option Bool) (i j : Nat) =>
    match v with
    | none => (on, n)
    | some s => if s = on then (on, 0) else if (if on then j else i) ≤ n + 1 then (s, 0) else (on, n + 1)
  let a := step t.tais t.aisN o.ais 2 2
  let r := step t.trai t.raiN o.rai (if tfmt = 4 then 16 else if tfmt = 5 then 1 else 3) (if tfmt = 4 then 14 else if tfmt = 5 then 1 else 3)
  let m := step t.cas t.casN o.casErr 2 1
  let f := step t.tlomf t.lomfN o.lomf 1 2
  { tlof := lof.1, lofN := lof.2, seq := if t.tlof && lof.1 && !t1 then seq else 0
    tlomf := if tfmt ≤ 1 then f.1 else false
    lomfN := if tfmt ≤ 1 then f.2 else 0
    cas := if tfmt = 1 ∨ tfmt = 3 then m.1 else false
    casN := if tfmt = 1 ∨ tfmt = 3 then m.2 else 0
    tais := a.1, aisN := a.2, trai := r.1, raiN := r.2 }

/-- The kind of the fractional tributary at a position: that of the circuits configured there, 9 for a T1 format. -/
def Chan.tribKind (x : Chan) (pos : Pos) : Nat := if (x.tribCircs 9 pos).isEmpty then 8 else 9

/-- One framing check of a tributary takes effect; CRC violations of the red side join sub-circuit 1's ECT (R120, R151, R153). -/
def Hw.tribIn (h : Hw) (c : ChanId) (p : Lane) (o : TribOh) : Hw :=
  let x := h.chan c
  let tfmt := x.tribTfmt (x.tribKind o.pos) o.pos
  let t := (x.trib p o.pos).seen tfmt o
  h.onChan c fun x =>
    let x := { x with map := { x.map with tribs := tput {} x.map.tribs (tribKey p o.pos) t } }
    if p = .red && decide (tfmt ∈ [0, 1, 4]) && !t.tlomf then x.addEctSub1 o.pos o.crcErrs else x

/-- A frame's overhead takes effect: counts, acceptance, defects, paths and tributaries. -/
def Hw.applyOh (h : Hw) (c : ChanId) (p : Lane) (o : RxOh) : Hw :=
  let x := h.chan c
  let rate := x.rate p
  let i := 16 * p.num
  let h := h.count c 0x20 i o.cv1
  let h := if isSdh rate then h.count c 0x20 (i + 1) o.cv2 else h
  let h := if isSdh rate || isOtn rate then h.count c 0x20 (i + 2) o.m1.toNat else h
  let h := if isOtn rate && bitOf (x.reg (frmReg p 8)) 1 then (h.count c 0x20 (i + 3) o.fecCorr).count c 0x20 (i + 4) o.fecUnc else h
  let h := h.onLane c p fun l => { l with integ := l.integ.frame rate (l.def_ 11) o, rei := if isSdh rate then o.cv2 else o.cv1 }
  let h := h.onChan c fun x => x.setReg (frmReg p 0x14) (ohrx (x.reg (frmReg p 0x14)) rate (x.lane p).integ o)
  let h := h.traceIn c p o
  let h := h.onChan c fun x => x.setLane p (x.ohDefects p o)
  let h := if isOtn rate && decide (p = .red) then h.onChan c fun x => x.addEct (fun y => isOtn (wholeRate y.kind)) o.cv2 else h
  let h := o.paths.foldl (fun h v => h.pathIn c p v) h
  o.tribs.foldl (fun h v => h.tribIn c p v) h

/-! ## Episodes (R109, R111, R246, R247) -/

/-- The pointers of a lane. -/
def Chan.lanePtrs (x : Chan) (p : Lane) : Table PtrSt := x.map.ptrs.filter fun e => decide (e.1 / 2 ^ 20 = p.num)

/-- A lane's pointers are as they stood. -/
def Chan.putPtrs (x : Chan) (p : Lane) (t : Table PtrSt) : Chan :=
  { x with map := { x.map with ptrs := t.foldl (fun a e => tins e.1 e.2 a) (x.map.ptrs.filter fun e => decide (e.1 / 2 ^ 20 ≠ p.num)) } }

/-- A word of the open episode enters every block in progress. -/
def Circ.markSpec (y : Circ) : Circ := { y with enc := y.enc.map fun b => if b.done then b else { b with spec := true } }

/-- An episode starts: checkpoints are taken, and the blocks in progress hold its words. -/
def Hw.episode (h : Hw) (c : ChanId) (p : Lane) : Hw :=
  let h := h.onChan c fun x => x.setLane p (let l := x.lane p
    { l with ckpt := some { integ := l.integ, ptrs := x.lanePtrs p, rei := l.rei, rd := l.rd }, deferred := [], epWords := 0, epData := [], ra := x.reg (frmReg p 0) })
  match p.path? with
  | none => h.onChan c fun x =>
      { x with
        cvu := x.cvu.open_
        circ := x.circ.map fun e => (e.1, { e.2.markSpec with rckpt := some (e.2.ge, e.2.ectAcc) }) }
  | some q => h.onChan c fun x => x.onPath q fun _ r =>
      { r with open_ := r.open_.mapIdx fun i b => if i + 1 = r.open_.length then { b with spec := true } else b }

/-- An episode commits: what it deferred takes effect in line order, and its blocks are confirmed. -/
def Hw.commit (h : Hw) (c : ChanId) (p : Lane) : Hw :=
  let l := (h.chan c).lane p
  let h := h.onChan c fun x => (x.bump (frmReg p 0x24) 1).setLane p { l with ckpt := none, deferred := [], epWords := 0, epData := [] }
  let h := l.deferred.foldl (fun h o => h.applyOh c p o) h
  match p.path? with
  | none => ((h.cvuLine c l.epData).heldStages c).onChan c fun x =>
      { x with
        cvu := { x.cvu with ckpt := none }
        circ := x.circ.map fun e => (e.1, { e.2 with rckpt := none, enc := e.2.enc.map fun b => { b with spec := false, held := [] } }) }
  | some q =>
    let waits := (h.chan c).circ.flatMap fun e => (e.2.rx q).wait.map fun i => (e.1, i)
    let h := h.onChan c fun x => x.onPath q fun _ r => { r with wait := [], open_ := r.open_.map fun b => { b with spec := false } }
    (waits.foldl (fun h (e : Nat × TrlIn) => h.takeTrailer c (BitVec.ofNat 13 e.1) q e.2) h).levels c

/-- A circuit's encrypt side after a rewind: the blocks that hold the episode's words are lost (R247), and its contexts are as
they stood (R246). -/
def Circ.rewound (y : Circ) : Circ :=
  let y := y.loseEnc (fun b => b.spec) 1
  { y with
    enc := y.enc.map fun b => { b with spec := false, held := [] }
    rckpt := none
    ge := match y.rckpt with
      | some g => g.1
      | none => y.ge
    ectAcc := match y.rckpt with
      | some g => g.2
      | none => y.ectAcc }

/-- An episode rewinds; `words` is how many of its words had been delivered, and `on` says that delivery resumes at once. -/
def Hw.rewind (h : Hw) (c : ChanId) (p : Lane) (words : Nat) (on : Bool) : Hw :=
  let l := (h.chan c).lane p
  let h := h.onChan c fun x =>
    let x := (x.bump (frmReg p 0x20) 1).bump (frmReg p 0x28) words
    let x := match l.ckpt with
      | some k => x.putPtrs p k.ptrs
      | none => x
    x.setLane p { l with
      integ := (l.ckpt.map (·.integ)).getD l.integ, rei := (l.ckpt.map (·.rei)).getD l.rei, rd := (l.ckpt.map (·.rd)).getD l.rd
      ckpt := none, deferred := [], epWords := 0, epData := [], resume := decide (p = .red) && !on }
  match p.path? with
  | none => (h.onChan c fun x => ({ x.cvuRewind with circ := x.cvuRewind.circ.map fun e => (e.1, e.2.rewound) } : Chan).ksFlush ksEnc fun _ => true).levels c
  | some q => (h.onChan c fun x => (x.onPath q fun _ r => { r with open_ := [], wait := [] }).ksFlush (ksDec q) fun _ => true).levels c

/-! ## Framer states (R106) -/

/-- A lane goes to HUNT with every slot free; the hunt takes CHn.FRM_RA_p (R113). -/
def Chan.toHunt (x : Chan) (p : Lane) : Chan :=
  x.setLane p { x.lane p with fr := .hunt, slots := [], confirm := 0, since := 0, won := none, ra := x.reg (frmReg p 0) }

/-- The carriage checks of a black path begin again once its framing has committed after LOS, LOF or LOM cleared (R91). -/
def Hw.carriageBegin (h : Hw) (c : ChanId) (p : Lane) : Hw :=
  let l := (h.chan c).lane p
  if !l.lost || decide (l.fr ≠ .inframe) || l.def_ 15 || l.def_ 13 || l.def_ 12 then h
  else
    let h := h.onLane c p fun l => { l with lost := false }
    match p.path? with
    | none => h
    | some q => h.onChan c fun x => x.onPath q fun y r => if y.en && decide (r.blk ≠ .off) then { r with checking := true, run := 0 } else r

/-- A lane enters INFRAME at an alignment: OOF clears, and on the red lane the block in which delivery resumes after a rewind is
lost (R108, R247). -/
def Hw.toInframe (h : Hw) (c : ChanId) (p : Lane) (a : Nat) : Hw :=
  let was := ((h.chan c).lane p).resume
  let h := h.onLane c p fun l =>
    { l.setDef 14 false with fr := .inframe, cur := a, slots := [], confirm := 0, since := 0, badRun := 0, won := none, resume := false }
  let h := if was then h.onChan c fun x => { x with circ := x.circ.map fun e => (e.1, e.2.loseEnc (fun b => !b.done) 1) } else h
  h.carriageBegin c p

/-- OOF by the criterion of R103 at the current or predicted alignment: the run of errored patterns, or the errors of one
interval, or the clause 36 machine's loss of synchronization. -/
def LaneSt.oof (l : LaneSt) (rate : Nat) (p : Lane) (g : FrCfg) (x : Pattern) : LaneSt :=
  let l := { l with badRun := if patOk g (geRed rate p) x then 0 else l.badRun + 1 }
  let bad := if geRed rate p then x.sync == some false else if rate = 9 then decide (g.oofCnt ≤ x.errs) else decide (g.oofCnt ≤ l.badRun)
  if bad then l.setDef 14 true else l

/-- A pattern at the alignment last held counts for OOF, whatever the framer state (R108). -/
def Hw.oofAt (h : Hw) (c : ChanId) (p : Lane) (g : FrCfg) (i : Pattern) : Hw :=
  let x := h.chan c
  if i.align = (x.lane p).cur then h.onLane c p fun l => l.oof (x.rate p) p g i else h

/-- An alternate completes the in-frame count: the episode rewinds, and delivery goes on under the new alignment. -/
def Hw.alternate (h : Hw) (c : ChanId) (p : Lane) (a : Nat) : Hw := (h.rewind c p ((h.chan c).lane p).epWords true).toInframe c p a

/-- A pattern reaches the framer. In an episode, an alternate that completes while the predicted pattern of the interval can still
confirm waits for it, and yields to it (R107). -/
def Hw.pattern (h : Hw) (c : ChanId) (p : Lane) (i : Pattern) : Hw :=
  let x := h.chan c
  let l := x.lane p
  let g := x.frCfg p
  let r36 := geRed (x.rate p) p
  let h := h.oofAt c p g i
  match l.fr with
  | .hunt =>
    let t := testCand l.slots 0 g r36 i
    if t.2 then h.toInframe c p i.align
    else if noCand t.1 then h else h.onLane c p fun l => { l with fr := .presync, slots := t.1 }
  | .presync =>
    let t := testCand l.slots 0 g r36 i
    if t.2 then h.toInframe c p i.align
    else if noCand t.1 then h.onChan c (·.toHunt p) else h.onLane c p fun l => { l with slots := t.1 }
  | .inframe =>
    if i.align ≠ l.cur ∨ i.errs < g.doubt then h
    else
      (h.episode c p).onLane c p fun l =>
        { l with fr := .runahead, slots := [some { align := l.cur, good := 0 }], confirm := 0, since := 0, won := none }
  | .runahead =>
    let h := h.onLane c p fun l => { l with epWords := l.epWords + i.data.length / 4, epData := l.epData ++ i.data }
    if i.align = l.cur then
      let n := if patOk g r36 i then l.confirm + 1 else 0
      let h := h.onLane c p fun l => { l with confirm := n, since := l.since + 1 }
      if g.confirm ≤ n ∧ l.since + 1 ≤ g.horizon then (h.toInframe c p l.cur).commit c p
      else
        match l.won with
        | some a => h.alternate c p a
        | none => h
    else
      let t := testCand l.slots 1 g r36 i
      if !t.2 then h.onLane c p fun l => { l with slots := t.1 }
      else if g.confirm ≤ l.confirm + 1 ∧ l.since < g.horizon then
        h.onLane c p fun l => { l with slots := t.1, won := some (l.won.getD i.align) }
      else h.alternate c p i.align

/-- The words that come with a pattern pass RED_RX: in INFRAME at once, those of an episode when it commits (R338). -/
def Hw.patternIn (h : Hw) (c : ChanId) (p : Lane) (i : Pattern) : Hw :=
  if ((h.chan c).lane p).def_ 15 then h
  else
    let h' := if p = .red ∧ ((h.chan c).lane p).fr = .inframe then h.cvuLine c i.data else h
    (h'.pattern c p i).laneSync h c p

/-- HORIZON patterns have passed without a commit: the episode rewinds (R106). No alternate waits then: the last of them has
decided it. -/
def Hw.horizonEnd (h : Hw) (c : ChanId) (p : Lane) (words : Nat) : Hw :=
  let x := h.chan c
  let l := x.lane p
  if l.fr ≠ .runahead ∨ l.since < (x.frCfg p).horizon then h
  else
    let left := (l.slots.drop 1).filter (·.isSome)
    let h' := h.rewind c p (l.epWords + words) false
    let h' := if left.isEmpty then h'.onChan c (·.toHunt p)
      else h'.onLane c p fun l => { l with fr := .presync, slots := none :: l.slots.drop 1, confirm := 0, since := 0 }
    h'.laneSync h c p

/-- A lane enters LOS (R126, R128): an open episode rewinds, delivery stops and the framer hunts. -/
def Hw.losIn (h : Hw) (c : ChanId) (p : Lane) (unlock : Bool) (words : Nat) : Hw :=
  let l := (h.chan c).lane p
  if l.def_ 15 then h
  else
    let h' := if l.fr = .runahead then h.rewind c p (l.epWords + words) false else h
    let h' := (h'.onChan c (·.toHunt p)).onLane c p fun l => { l.setDef 15 true with lost := true, cdrLock := l.cdrLock && !unlock }
    let h' := if unlock then h'.onChan c fun x => x.setReg (laneReg p + 0x10) (withField (x.reg (laneReg p + 0x10)) 31 31 0) else h'
    ((h'.count c 0x20 (16 * p.num + 13) 1).laneSync h c p).lneSync h c p

end Sys2Proof.Machine
end

