-- ==== Sys2Proof/Machine/React.lean ====
section
/-!
DEFINITION. Machine/React.lean: what the record registers show and when their SEQ advances (R365, R367, R463, R479), causes
(R347, R364), parking (R389), reactions (R362, R363), the end of a quarantine (R364), and the collector's decision (R359, R360).
-/
namespace Sys2Proof.Machine

/-! ## Causes (R347, R364, R377) -/

/-- A channel number, if it is one. -/
def chanOf (n : Nat) : Option ChanId := if h : n < 48 then some ⟨n, h⟩ else none

/-- The lane of a lane number. -/
def laneOf (n : Nat) : Lane := if n = 0 then .red else if n = 1 then .bkw else .bkp

/-- The cause of a message is present: an injected message and an event kind have none (R347, R364, R377). -/
def Hw.causePresent (h : Hw) (m : BitVec 64) : Bool :=
  let k := msgKind m
  let a := msgAddr m
  if msgInj m then false
  else if k = 0x48 ∨ k = 0x49 ∨ k = 0x4A then h.dev.root.hold || h.dev.root.slew
  else if k = 0x4B then !h.dev.root.bkpOk
  else if k = 0x71 then (if hi : a < 7 then h.dev.power.crit[a] else false)
  else if k = 0x73 then (if hi : a < 4 then !h.dev.power.railOk[a] else false)
  else
    match chanOf (msgChan m) with
    | none => false
    | some c =>
      if k = 0x02 then !((h.chan c).lane (laneOf a)).txLock
      else if k = 0x41 then decide (((h.chan c).syn (decide (2 ^ 23 ≤ a))).st = .acquiring)
      else if k = 0x72 then !(h.chan c).island
      else false

/-! ## What the record registers show -/

/-- The fields of CHn.FLT_REC without SEQ (R365). -/
structure RecView where
  cpend : Bool
  hpend : Bool
  quarH : Bool
  qcond : Bool
  ccirc : CircId
deriving DecidableEq, Repr

/-- CHn.FLT_REC. -/
def Hw.recView (h : Hw) (c : ChanId) : RecView :=
  let f := (h.chan c).flt
  { cpend := f.c.pend, hpend := f.h.pend, quarH := f.hQuar, qcond := f.hQuar && h.causePresent f.hq.cause, ccirc := f.ccirc }

/-- QUAR_H and CQ_CNT of CHn.FLT_QSTAT (R479). -/
def Chan.quarView (x : Chan) : Bool × Nat := (x.flt.hQuar, x.countCirc (·.quar))

/-- DPEND, DQUAR and DCOND of DEV.FCL_DREC (R367). -/
def Hw.drecView (h : Hw) : Bool × Bool × Bool :=
  let f := h.dev.fcl
  (f.d.pend, f.dQuar, f.dQuar && h.causePresent f.dq.cause)

/-- A channel's bits of PEND and QUAR in DEV.FCL_CSUM_g (R463). -/
def Chan.csumBits (x : Chan) : Bool × Bool := (x.flt.c.pend || x.flt.h.pend, x.flt.hQuar || x.circ.any fun e => e.2.quar)

/-- SEQ of CHn.FLT_REC advances. -/
def Hw.recStep (h : Hw) (c : ChanId) : Hw :=
  (h.onChan c fun x => { x with flt := { x.flt with seq := x.flt.seq + 1 } }).chNotify c 0

/-- SEQ of DEV.FCL_DREC advances. -/
def Hw.drecStep (h : Hw) : Hw := (h.onFcl fun f => { f with dseq := f.dseq + 1 }).notify 609

/-- The record registers of a channel follow a change of their fields. -/
def Hw.settleChan (h h0 : Hw) (c : ChanId) : Hw :=
  let h := if h.recView c = h0.recView c then h else h.recStep c
  if (h.chan c).quarView = (h0.chan c).quarView then h
  else (h.onChan c fun x => { x with flt := { x.flt with qseq := x.flt.qseq + 1 } }).chNotify c 1

/-- The channels of a summary group. -/
def groupChans (g : Fin 6) : List ChanId := (List.finRange 8).map fun k => ⟨8 * g.val + k.val, by omega⟩

/-- DEV.FCL_CSUM_g follows a change of its bits. -/
def Hw.settleSum (h h0 : Hw) (g : Fin 6) : Hw :=
  if (groupChans g).all fun c => (h.chan c).csumBits == (h0.chan c).csumBits then h
  else (h.onFcl fun f => { f with csumSeq := f.csumSeq.set g.val (f.csumSeq[g.val] + 1) }).notify (576 + 35 + g.val)

/-- All channel state changes of one step are one event of DEV.CH_EVT_g (R457). -/
def Hw.oneChange (h h0 : Hw) : Hw :=
  (List.range 6).foldl (fun h g =>
    let off := 0x10C0 + 4 * g
    let n := h0.devField off 31 24
    if h.devField off 31 24 = n then h else h.setDevReg off (withField (h.devReg off) 31 24 (n + 1))) h

/-- Every record register follows the changes since `h0`; `cs` are the channels that could have changed. -/
def Hw.settle (h h0 : Hw) (cs : List ChanId) : Hw :=
  let h := h.oneChange h0
  let h := cs.foldl (fun h c => h.settleChan h0 c) h
  let h := if h.drecView = h0.drecView then h else h.drecStep
  ((List.finRange 6).filter fun (g : Fin 6) => cs.any fun c => decide (c.val / 8 = g.val)).foldl (fun h g => h.settleSum h0 g) h

/-- Every channel. -/
def allChans : List ChanId := List.finRange 48

/-- The answer of a command that can change what the record registers of one channel show. -/
def watched (s : State) (c : ChanId) (f : Hw → Hw) : Host.Outcome State Fault Refusal := live s fun h => (f h).settle h [c]

/-- The answer of a command that can change what any record register shows. -/
def watchedAll (s : State) (f : Hw → Hw) : Host.Outcome State Fault Refusal := live s fun h => (f h).settle h allChans

/-! ## The table port's operation in progress (R180, R362) -/

/-- Highest index of a table (R178). -/
def tpLast (t : Nat) : Nat := if t = 0 then 8191 else if t = 3 then 4095 else 129023

/-- The table-port operation in progress ends; INDEX advances under AINC and wraps after the table's last entry (R179). -/
def Chan.tpEnd (x : Chan) : Chan :=
  match x.map.tpOp with
  | none => x
  | some _ =>
    let a := x.reg 0x3014
    let i := fieldOf a 16 0
    let x := if bitOf (x.reg 0x3018) 3 then x.setReg 0x3014 (withField a 16 0 (if tpLast (fieldOf a 31 30) ≤ i then 0 else i + 1)) else x
    let x := x.setReg 0x3018 (withField (x.reg 0x3018) 0 0 0)
    { x with map := { x.map with tpOp := none, tpResult := x.map.tpNext } }

/-- The table-port operation in progress is discarded (R362): an enable that had been accepted is undone. -/
def Chan.tpDrop (x : Chan) : Chan :=
  let x := match x.map.tpOp with
    | some (.enable k) => x.setCirc k { (x.circ! k).setEn false with reserved := 0, live := false, quar := false, starved := false }
    | _ => x
  ({ x with map := { x.map with tpNext := BitVec.ofNat 8 rDiscarded } } : Chan).tpEnd

/-- The table-port operation in progress addresses a circuit's entry. -/
def Chan.tpOn (x : Chan) (k : CircId) : Bool :=
  x.map.tpOp.isSome && decide (fieldOf (x.reg 0x3014) 31 30 = 0 ∧ fieldOf (x.reg 0x3014) 16 0 = k.toNat)

/-! ## Parking (R389, R390) -/

/-- What a register keeps while its channel is parked (R476). -/
def keptReg (off : Nat) (w : Word) : Word :=
  match findReg chRegs off with
  | none => 0
  | some r => (w &&& r.kept) ||| (r.reset &&& ~~~ r.kept)

/-- The registers of a window that the register fabric keeps. -/
def keptRegs (l : Table Word) : Table Word := l.foldl (fun t e => tput (chReset e.1) t e.1 (keptReg e.1 e.2)) []

/-- What is left of a channel once its island is off: the kept registers, KAT_FAIL, and what the collector holds (R365, R389). -/
def Chan.offState (x : Chan) : Chan :=
  { st := if x.wasAbsent then .absent else .parked
    regs := keptRegs x.regs
    cph := { katFail := x.cph.katFail && !x.wasAbsent }
    flt := { ccirc := x.flt.ccirc, seq := x.flt.seq, qseq := x.flt.qseq } }

/-- A device command of an opcode for a channel. -/
def isDevCmd (op : Byte) (c : ChanId) (x : Cmd) : Bool := decide (x.op = op ∧ x.chan.toNat = c.val)

/-- A park completes: the channel is PARKED, or ABSENT again after a diagnosis, and CH_PARK's result is that state (R444). -/
def Hw.parkDone (h : Hw) (c : ChanId) : Hw :=
  ((h.onChan c Chan.offState).chgEvent c).finish .device (isDevCmd 0x61 c) stDone 0 (b2n !(h.chan c).wasAbsent)

/-- A channel's records close without reaction, and every quarantine over it ends (R360, R364). -/
def Flt.close (f : Flt) : Flt := { ccirc := f.ccirc, seq := f.seq, qseq := f.qseq }

/-- An island request joins the queue (R19). -/
def Hw.askIsland (h : Hw) (c : ChanId) (on : Bool) (why : IslWhy) : Hw :=
  h.onPower fun p => { p with islands := p.islands ++ [{ chan := c.val, on := on, why := why }] }

/-- A waiting island request that has not begun to switch. -/
def Hw.waitsOn (h : Hw) (c : ChanId) : Bool := (h.dev.power.islands.drop 1).any fun r => decide (r.chan = c.val) && r.on

/-- A channel is parked: its clear mode ends (R224), its work and its commands go, its lanes are squelched, and its island switches off (R389). A switch-on
that still waits its turn is withdrawn. -/
def Hw.parkBegin (h : Hw) (c : ChanId) : Hw :=
  let h := (h.chan c).circ.foldl (fun h e => h.setClear c (BitVec.ofNat 13 e.1) false) (h.discardAll (.chan c))
  let h := h.onChan c fun x =>
    { x with
      st := .parking, squelch := true, store := []
      circ := x.circ.map fun e => (e.1, { e.2.dead with quar := false })
      map := { x.map with pending := false }
      cph := { katFail := x.cph.katFail }
      mlt := {}
      flt := x.flt.close }
  let h := h.chgEvent c
  if h.waitsOn c then
    (h.onPower fun p => { p with islands := p.islands.take 1 ++ (p.islands.drop 1).filter fun r => !(decide (r.chan = c.val) && r.on) }).parkDone c
  else h.askIsland c false .park

/-- A start is ended by a reaction or a park: CH_START completes DISCARDED and the channel is parked (R390). -/
def Hw.startStop (h : Hw) (c : ChanId) : Hw := (h.discardIf .device (isDevCmd 0x60 c)).parkBegin c

/-! ## Reactions (R362, R363) -/

/-- A command that names a circuit (R362, R445). -/
def namesCirc (k : CircId) (x : Cmd) : Bool := decide ((x.op = 0x14 ∨ x.op = 0x30) ∧ fieldOf x.w1 15 0 = k.toNat)

/-- Circuit quarantine: the circuit's work is cut, and the commands and the table-port operation that name it are discarded. A
circuit that is no longer enabled has nothing to quarantine. -/
def Hw.reactCirc (h : Hw) (c : ChanId) (k : CircId) (m : BitVec 64) : Hw :=
  let h := h.onChan c fun x => { x with flt := { x.flt with c := { x.flt.c with pend := false } } }
  let x := h.chan c
  if !x.isActive || !(x.circ! k).en then h
  else
    let h := (h.discardIf (.chan c) (namesCirc k)).qLevels (.chan c)
    let h := h.cutCirc c k 4
    let h := h.onCirc c k fun y => { y with quar := true, live := false }
    let h := h.onChan c fun x =>
      let x := if x.tpOn k then x.tpDrop else x
      { x with flt := { x.flt with cq := tput {} x.flt.cq k.toNat { cause := m, window := true } } }
    (h.switchCheck c (x.circ! k).kctx).levels c

/-- The Malot's firmware in the image store (R41, R404). -/
def Hw.malotProg (h : Hw) : List Byte := fwBody h.dev.boot.image 0x02

/-- A master that resets while it owns the table port loses it (R177). -/
def Chan.tpFree (x : Chan) (owner : BitVec 3) : Chan := if x.map.tpOwner = owner then { x with map := { x.map with tpOwner := 0 } } else x

/-- The work of a whole channel is discarded (R362): its blocks, anchors, commands, table-port operation, blob buffer, swap,
switches, clear mode and protection; its Malot restarts from the image store (R45, R399). -/
def Hw.chanCut (h : Hw) (c : ChanId) : Hw :=
  let h := (h.discardAll (.chan c)).qLevels (.chan c)
  let h := h.onChan c Chan.tpDrop
  let h := (h.chan c).cph.ctx.foldl (fun h e => h.switchCancel c e.1 stDiscarded 0) h
  let h := (h.chan c).circ.foldl (fun h e =>
    (h.cutCirc c (BitVec.ofNat 13 e.1) 4).onCirc c (BitVec.ofNat 13 e.1) fun y =>
      { y with live := false }) h
  let h := h.onChan c fun x =>
    let x := x.swapAbandon.cvuDrop fun _ => true
    let x := x.ksFlushAll fun _ => true
    ({ x with cph := { x.cph with kbuf := [] }, mlt := { x.mlt with run := true, prog := h.malotProg, hb := 0, hbAt := h.now, csus := true } } : Chan).tpFree 4
  (h.pswReset c).levels c

/-- Channel quarantine (R362); a channel that is STARTING is parked instead, and one that is PARKING goes on (R390). -/
def Hw.reactChan (h : Hw) (c : ChanId) (m : BitVec 64) : Hw :=
  let h := h.onChan c fun x => { x with flt := { x.flt with h := { x.flt.h with pend := false } } }
  match (h.chan c).st with
  | .active => (h.chanCut c).onChan c fun x => { x with flt := { x.flt with hQuar := true, hq := { cause := m, window := true } } }
  | .starting => h.startStop c
  | _ => h

/-- A CH_PARK under way, which a class D reaction lets complete (R390). -/
def parkRuns (x : Cmd) : Bool := decide (x.op = 0x61) && x.held

/-- The class D reaction: every channel is quarantined, every command discarded, and the supervisor restarts (R362). -/
def Hw.reactDev (h : Hw) (m : BitVec 64) : Hw :=
  let h := h.onFcl fun f => { f with d := { f.d with pend := false }, dQuar := true, dq := { cause := m, window := true } }
  let h := allChans.foldl (fun h c =>
    match (h.chan c).st with
    | .active => (h.chanCut c).onChan c fun x => { x with flt := { x.flt with underD := true } }
    | .starting => h.startStop c
    | _ => h) h
  let h := (h.discardIf .device fun x => !parkRuns x).onQueue .device fun q => { q with busyTill := 0 }
  allChans.foldl (fun h c => h.onChan c (·.tpFree 3)) (h.onDev fun d => { d with kbuf := [], routing := false, isvStall := false })

/-! ## The end of a quarantine (R363, R364) -/

/-- A circuit over which no quarantine is left starts again as an accepted enable does (R363). -/
def Chan.restart (x : Chan) (k : CircId) : Chan :=
  let y := x.circ! k
  if x.isActive && y.en && !y.starved && !y.quar && !x.quarantined then x.setCirc k y.begin_ else x

/-- A circuit quarantine is lifted. -/
def Hw.liftCirc (h : Hw) (c : ChanId) (k : CircId) : Hw :=
  h.onChan c fun x =>
    let x := x.setCirc k { x.circ! k with quar := false }
    ({ x with flt := { x.flt with cq := tput {} x.flt.cq k.toNat {} } } : Chan).restart k

/-- The last quarantine over a channel has ended: every receive path starts again from HUNT, and every circuit restarts. -/
def Hw.resume (h : Hw) (c : ChanId) : Hw :=
  let x := h.chan c
  if !x.isActive || x.quarantined then h
  else
    let h' := h.onChan c fun x => x.circ.foldl (fun x e => x.restart (BitVec.ofNat 13 e.1)) (((x.toHunt .red).toHunt .bkw).toHunt .bkp)
    ((h'.laneSync h c .red).laneSync h c .bkw).laneSync h c .bkp

/-- The H quarantine of a channel is lifted. -/
def Hw.liftChan (h : Hw) (c : ChanId) : Hw :=
  (h.onChan c fun x => { x with flt := { x.flt with hQuar := false, hq := {} } }).resume c

/-- The D quarantine is lifted. -/
def Hw.liftDev (h : Hw) : Hw :=
  let h := h.onFcl fun f => { f with dQuar := false, dq := {} }
  allChans.foldl (fun h c =>
    if (h.chan c).flt.underD then (h.onChan c fun x => { x with flt := { x.flt with underD := false } }).resume c else h) h

/-! ## Decision (R355, R359, R360, R369) -/

/-- The circuit a message's address names. -/
def msgCirc (m : BitVec 64) : CircId := BitVec.ofNat 13 (msgAddr m)

/-- Kinds whose address is a circuit (R347). -/
def circKind (k : Nat) : Bool :=
  decide (k ∈ [0x10, 0x11, 0x18, 0x19, 0x20, 0x21, 0x22, 0x23, 0x24, 0x27, 0x2F, 0x30, 0x50, 0x52, 0x54])

/-- A message lies in an open SHADOW window (R369). -/
def Hw.shadowed (h : Hw) (m : BitVec 64) : Bool :=
  h.dev.fcl.dq.window || (match chanOf (msgChan m) with
    | none => false
    | some c =>
      let f := (h.chan c).flt
      f.hq.window || (circKind (msgKind m) && (tget {} f.cq (msgCirc m).toNat).window))

/-- The scope of a message's class is already quarantined (R360). -/
def Hw.scopeQuar (h : Hw) (m : BitVec 64) : Bool :=
  if msgCls m = clsD then h.dev.fcl.dQuar
  else match chanOf (msgChan m) with
    | none => false
    | some c =>
      let x := h.chan c
      x.quarantined || (decide (msgCls m = clsC) && (x.circ! (msgCirc m)).quar)

/-- A real message against a record that an injected one opened (R377). -/
def realOnInj (r : Rec) (m : BitVec 64) : Bool := msgInj r.msg && !msgInj m

/-- Source or kind differs from the message that opened the record (R359, R377). -/
def distinct (r : Rec) (m : BitVec 64) : Bool := realOnInj r m || decide (msgSrc r.msg ≠ msgSrc m ∨ msgKind r.msg ≠ msgKind m)

/-- A record opened by a message, with its timer in units of 0.1 ms. -/
def openRec (m : BitVec 64) (timer now : Nat) : Rec := { pend := true, msg := m, timer := timer, openedAt := now }

/-- What the decision made of a message: the level it reached, and whether it merged. -/
structure Decided where
  level : Nat
  merged : Bool
  hw : Hw

/-- The decision for class D (R359). -/
def Hw.decideD (h : Hw) (m : BitVec 64) (esc coal : Bool) : Decided :=
  let r := h.dev.fcl.d
  if r.pend && !distinct r m then { level := 3, merged := true, hw := h.drecStep }
  else if !esc && (r.pend || coal) then { level := 4, merged := false, hw := h }
  else if r.pend then { level := 3, merged := true, hw := h.drecStep }
  else
    let t := clamp 1 1000 (h.devField 0x4004 29 20) * 50
    { level := 3, merged := false
      hw := (h.onFcl fun f => { f with d := openRec m t h.now }).onBoot fun b => { b with dSinceRun := b.dSinceRun || decide (b.st = .run) } }

/-- Another channel's H record is PENDING. -/
def Hw.otherH (h : Hw) (c : ChanId) : Bool := allChans.any fun o => decide (o ≠ c) && (h.chan o).flt.h.pend

/-- The decision for class H (R359). -/
def Hw.decideH (h : Hw) (c : ChanId) (m : BitVec 64) (esc coal : Bool) : Decided :=
  let r := (h.chan c).flt.h
  if r.pend then { level := 2, merged := true, hw := h.recStep c }
  else if !esc && (h.otherH c || coal) then h.decideD m true coal
  else
    let t := clamp 1 1000 (h.devField 0x4004 19 10) * 10
    { level := 2, merged := false, hw := h.onChan c fun x => { x with flt := { x.flt with h := openRec m t h.now } } }

/-- The decision for class C (R359). -/
def Hw.decideC (h : Hw) (c : ChanId) (m : BitVec 64) (coal : Bool) : Decided :=
  let f := (h.chan c).flt
  let same := !realOnInj f.c m && decide (f.ccirc = msgCirc m)
  if f.c.pend && (same || !distinct f.c m) then { level := 1, merged := true, hw := h.recStep c }
  else if f.c.pend || coal then h.decideH c m true coal
  else
    let t := clamp 1 1000 (h.devField 0x4004 9 0) * 10
    { level := 1, merged := false
      hw := h.onChan c fun x => { x with flt := { x.flt with c := openRec m t h.now, ccirc := msgCirc m } } }

/-- A served message of class C, H or D that opens a record, merges or escalates. A spine source raises neither C nor H (R354):
an injected message that says so is only logged. -/
def Hw.decideMsg (h : Hw) (m : BitVec 64) (coal : Bool) : Decided :=
  if msgCls m = clsD then h.decideD m false coal
  else match chanOf (msgChan m) with
    | none => { level := msgCls m, merged := false, hw := h }
    | some c => if msgCls m = clsH then h.decideH c m false coal else h.decideC c m coal

end Sys2Proof.Machine
end

