-- ==== Sys2Proof/Machine/Cvu.lean ====
section
/-!
DEFINITION. Machine/Cvu.lean: the register writes of the check-value units (R339 to R345).
-/
namespace Sys2Proof.Machine

/-- The bits within a unit's WIDTH (R344). -/
def Chan.cvuMask (x : Chan) (u : Nat) : Word := fieldMask (fieldOf (x.reg (cvuReg u)) 24 20) 0

/-- A unit is in multi-context mode. -/
def Chan.cvuMulti (x : Chan) (u : Nat) : Bool := bitOf (x.reg (cvuReg u)) 30

/-- A unit restarts at INIT, and every VALID is cleared (R342). -/
def Chan.cvuRestart (x : Chan) (u : Fin 8) : Chan :=
  let y : Cvu := x.cvu.unit[u]
  let z : Cvu := { run := x.cvuInit u.val, ctx := y.ctx.map fun k => { k with valid := false, unread := false } }
  { x with cvu := { x.cvu with unit := x.cvu.unit.set u.val z } }

/-- A unit's running value is replaced, in checkpoint mode only (R339, R340). -/
def Chan.cvuRun (x : Chan) (u : Fin 8) (v : Word) : Chan :=
  if x.cvuMulti u.val then x
  else
    let z : Cvu := { x.cvu.unit[u] with run := v &&& x.cvuMask u.val }
    { x with cvu := { x.cvu with unit := x.cvu.unit.set u.val z } }

/-- CKPT copies the running value into CHn.CVU_CKPT_u. -/
def Chan.cvuCkpt (x : Chan) (u : Fin 8) : Chan :=
  if x.cvuMulti u.val then x else x.setReg (cvuReg u.val + 0x14) (x.cvu.unit[u]).run

/-- RESTORE copies CHn.CVU_CKPT_u into the running value. -/
def Chan.cvuBack (x : Chan) (u : Fin 8) : Chan := x.cvuRun u (x.reg (cvuReg u.val + 0x14))

/-- The bits of CHn.CVU_CTL_u whose change restarts the unit: MODE, SNOOP, REFIN, REFOUT, WIDTH and CIRC (R342). -/
def cvuMajor : Word := 0x77F01FFF

/-- A write of CHn.CVU_CTL_u: the fields first, then CKPT, then RESTORE. -/
def Chan.cvuCtl (x : Chan) (u : Fin 8) (d : Word) : Chan :=
  let off := cvuReg u.val
  let y := x.setReg off (d &&& 0xFFF01FFF)
  let y := if y.reg off &&& cvuMajor = x.reg off &&& cvuMajor then y else y.cvuRestart u
  let y := if bitOf d 19 then y.cvuCkpt u else y
  if bitOf d 18 then y.cvuBack u else y

/-- A write of CHn.CVU_POLY_u, CHn.CVU_INIT_u or CHn.CVU_XOR_u: bits above WIDTH are ignored, and a change restarts the unit. -/
def Chan.cvuParam (x : Chan) (u : Fin 8) (off : Nat) (d : Word) : Chan :=
  let k := x.cvuMask u.val
  let w := (x.reg off &&& ~~~ k) ||| (d &&& k)
  if w = x.reg off then x else (x.setReg off w).cvuRestart u

/-- The offset of a parameter register. -/
def cvuOff (u : Fin 8) : CvuReg → Nat
  | .ctl => cvuReg u.val | .poly => cvuReg u.val + 4 | .init => cvuReg u.val + 8 | .xor => cvuReg u.val + 0xC

/-- A write beat to a parameter register of a unit. -/
def cvuWrite (h : Hw) (m : Master) (c : ChanId) (u : Fin 8) (r : CvuReg) (d : Word) : Hw :=
  chBeat h m c (cvuOff u r) .guarded fun h => h.onChan c fun x =>
    match r with
    | .ctl => x.cvuCtl u d
    | _ => x.cvuParam u (cvuOff u r) d

/-- CVU_CTL_WRITE. -/
def execCvuCtlWrite (m : Master) (c : ChanId) (u : Fin 8) (r : CvuReg) (d : Word) (s : State) : Host.Outcome State Fault Refusal :=
  live s fun h => cvuWrite h m c u r d

/-- CVU_CHECKPOINT: a write of 1 to CKPT that leaves the other fields as they are. -/
def execCvuCheckpoint (m : Master) (c : ChanId) (u : Fin 8) (s : State) : Host.Outcome State Fault Refusal :=
  live s fun h => cvuWrite h m c u .ctl (h.chReg c (cvuReg u.val) ||| 0x00080000)

/-- CVU_RESTORE: a write of 1 to RESTORE that leaves the other fields as they are. -/
def execCvuRestore (m : Master) (c : ChanId) (u : Fin 8) (s : State) : Host.Outcome State Fault Refusal :=
  live s fun h => cvuWrite h m c u .ctl (h.chReg c (cvuReg u.val) ||| 0x00040000)

/-- A write beat to CHn.CVU_VAL_u. -/
def cvuVal (h : Hw) (m : Master) (c : ChanId) (u : Fin 8) (d : Word) : Hw :=
  chBeat h m c (cvuReg u.val + 0x10) .guarded fun h => h.onChan c fun x => x.cvuRun u d

/-- CVU_VAL_WRITE. -/
def execCvuValWrite (m : Master) (c : ChanId) (u : Fin 8) (d : Word) (s : State) : Host.Outcome State Fault Refusal :=
  live s fun h => cvuVal h m c u d

/-- A context of a unit is configured: no result has been latched since (R341, R345). -/
def Chan.cvuConf (x : Chan) (u : Fin 8) (d : Word) : Chan :=
  let k : Fin 16 := ⟨fieldOf d 19 16 % 16, Nat.mod_lt _ (by omega)⟩
  let y : Cvu := x.cvu.unit[u]
  let z : CvuCtx := { y.ctx[k] with cen := bitOf d 31, circ := BitVec.ofNat 13 (fieldOf d 12 0), valid := false, unread := false }
  let w : Cvu := { y with ctx := y.ctx.set k.val z }
  { (x.setReg (cvuReg u.val + 0x18) (d &&& 0x800F1FFF)) with cvu := { x.cvu with unit := x.cvu.unit.set u.val w } }

/-- A write beat to CHn.CVU_CCFG_u. -/
def cvuCcfg (h : Hw) (m : Master) (c : ChanId) (u : Fin 8) (d : Word) : Hw :=
  chBeat h m c (cvuReg u.val + 0x18) .guarded fun h => h.onChan c fun x => x.cvuConf u d

/-- CVU_CCFG_WRITE. -/
def execCvuCcfgWrite (m : Master) (c : ChanId) (u : Fin 8) (d : Word) (s : State) : Host.Outcome State Fault Refusal :=
  live s fun h => cvuCcfg h m c u d

end Sys2Proof.Machine
end

