-- ==== Sys2Proof/Machine/Fuses.lean ====
section
/-!
DEFINITION. Machine/Fuses.lean: the fuse array: sensing and its checks (R392, R394), programming by the owner (R395, R396, R419) and
by the Isund (R397).
-/
namespace Sys2Proof.Machine

/-- Change the fuse block. -/
def Hw.onFuses (h : Hw) (f : Fuses → Fuses) : Hw := h.onDev fun d => { d with fuses := f d.fuses }

/-- A latched fuse word. -/
def Hw.fuseWord (h : Hw) (i : Nat) : Word := tget 0 h.dev.fuses.words i

/-- Bits set in a number, among its low `n`. -/
def popcount (n v : Nat) : Nat := ((List.range n).map fun i => b2n (v.testBit i)).sum

/-! ## Sensing (R394) -/

/-- A word of one copy with its odd parity bit. -/
def parityOk (w : BitVec 33) : Bool := decide (popcount 33 w.toNat % 2 = 1)

/-- A thermometer has no unprogrammed step below a programmed one. -/
def thermoOk (lo hi : Word) : Bool :=
  let v := hi.toNat * 2 ^ 32 + lo.toNat
  decide (v &&& (v + 1) = 0)

/-- The word of a sense, without its parity bit. -/
def senseWord (l : List (BitVec 33)) (i : Nat) : Word := (l.getD i 0).truncate 32

/-- A sense fails a check: `old` are the words latched before, `skip` the word that an operation is writing. -/
def senseBad (a b : List (BitVec 33)) (old : Option (Table Word)) (skip : Option Nat) : Bool :=
  let bad := fun i : Nat => decide (skip ≠ some i)
    && (decide (senseWord a i ≠ senseWord b i) || !parityOk (a.getD i 0) || !parityOk (b.getD i 0)
      || (match old with
        | some t => decide (senseWord a i ≠ tget 0 t i)
        | none => false))
  (List.range 64).any bad || !thermoOk (senseWord a 38) (senseWord a 39) || !thermoOk (senseWord a 40) (senseWord a 41)
    || (decide (skip ≠ some 42) && decide (popcount 3 (senseWord a 42).toNat = 1))

/-- FUSE_INTEG: Midwinter. -/
def Hw.fuseInteg (h : Hw) : Hw := h.trigger 63 21 0x7F 0

/-- FUSE_SENSE ends: the words are latched and ROOT_LOCK begins, or a check fails. A programming operation that was under way at a
reset completes first (R395). -/
def Hw.senseDone (h : Hw) (a b : List (BitVec 33)) : Hw :=
  if h.dev.boot.st ≠ .fuseSense ∨ h.dev.fuses.op.isSome = true then h
  else if senseBad a b none none then h.fuseInteg
  else
    (h.onFuses fun f => { f with words := (List.range 64).foldl (fun t i => tput 0 t i (senseWord a i)) [] }).onBoot fun x => { x with st := .rootLock }

/-- FUSE_SENSE_DONE. -/
def execFuseSenseDone (copy0 copy1 : List (BitVec 33)) (s : State) : Host.Outcome State Fault Refusal := live s (·.senseDone copy0 copy1)

/-- The fuses have been sensed since the last reset: every state after FUSE_SENSE. -/
def Hw.fusesLatched (h : Hw) : Bool := decide (h.dev.boot.st ≠ .supplyUp ∧ h.dev.boot.st ≠ .fuseSense)

/-- FUSE_RESENSE: the sense of each second. -/
def execFuseResense (copy0 copy1 : List (BitVec 33)) (s : State) : Host.Outcome State Fault Refusal :=
  live s fun h =>
    if h.fusesLatched && senseBad copy0 copy1 (some h.dev.fuses.words) (h.dev.fuses.op.map (·.1)) then h.fuseInteg else h

/-! ## Programming by the owner (R395, R396, R419) -/

/-- Every word of a field holds a programmed bit (R418). -/
def Hw.fusesSet (h : Hw) (first n : Nat) : Bool := (List.range n).all fun i => decide (h.fuseWord (first + i) ≠ 0)

/-- An owner word that OP 0 may program. -/
def ownerWord (i : Nat) : Bool := decide ((12 ≤ i ∧ i ≤ 31) ∨ (34 ≤ i ∧ i ≤ 36))

/-- VIN is below 3.0 V. -/
def Hw.vinTooLow (h : Hw) : Bool := decide (h.dev.power.vinMv.toNat < 3000)

/-- RESULT is written. -/
def Hw.fusResult (h : Hw) (r : Byte) : Hw := h.onFuses fun f => { f with result := r }

/-- A locked word: LOCKED_WR with its index, DEV.FUS_EVT.LOCKED, and LOCKED in the writer's bank (R395, R428, R429, R459). -/
def Hw.fusLocked (h : Hw) (m : Master) (i : Nat) : Hw :=
  (((h.fusResult 1).raiseSpine 21 clsN 0x62 i).devEvent 0x2004 20 0x00400000).ignored m .locked (devAddr 0x2018)

/-- OP 0: one word is programmed with DATA. -/
def Hw.fusProgram (h : Hw) (m : Master) : Hw :=
  let i := h.devField 0x2010 5 0
  let data := h.dev.fuses.data
  if !ownerWord i || h.sealed || decide (h.fuseWord i ≠ 0) then h.fusLocked m i
  else if h.vinTooLow then h.fusResult 2
  else if data = 0 then h.fusResult 0
  else h.onFuses fun f => { f with op := some (i, data) }

/-- OP SEAL: the three copies are programmed. -/
def Hw.fusSeal (h : Hw) (m : Master) : Hw :=
  if h.sealed then h.fusLocked m 42
  else if h.fusesSet 12 12 && h.fusesSet 24 8 && !h.vinTooLow && decide (h.dev.boot.st = .run ∨ h.dev.boot.st = .bare) then
    h.onFuses fun f => { f with op := some (42, 7) }
  else h.fusResult 3

/-- A write beat to a programming register: only PF0 writes them, and only between operations. PF1's write is turned away as a
guarded write too. -/
def fusBeat (h : Hw) (m : Master) (off : Nat) (f : Hw → Hw) : Hw :=
  if !h.reachesDev m then h
  else if m = .pf1 then (h.flagged m 0x18 (devAddr off)).bmx m.id 8
  else
    let h := h.bmx m.id 0
    if m ≠ .pf0 ∨ h.dev.fuses.op.isSome = true then h.ignored m .cfgRej (devAddr off) else f h

/-- A write beat to DEV.FUS_PGM_ADDR or DEV.FUS_PGM_DATA. -/
def fusWord (h : Hw) (m : Master) (off : Nat) (d : Word) : Hw :=
  fusBeat h m off fun h => if off = 0x2010 then h.setDevReg off (d &&& 0x3F) else h.onFuses fun f => { f with data := d }

/-- A write beat to DEV.FUS_PGM_CTL: GO with KEY starts the operation of OP. -/
def fusCtl (h : Hw) (m : Master) (d : Word) : Hw :=
  fusBeat h m 0x2018 fun h =>
    let h := h.setDevReg 0x2018 (d &&& 4)
    if bitOf d 0 && decide (fieldOf d 31 16 = 0xF05E) then (if bitOf d 2 then h.fusSeal m else h.fusProgram m) else h

/-- FUSE_PROGRAM. -/
def execFuseProgram (m : Master) (d : Word) (s : State) : Host.Outcome State Fault Refusal := live s fun h => fusCtl h m d

/-- FUSE_SEAL. -/
def execFuseSeal (m : Master) (d : Word) (s : State) : Host.Outcome State Fault Refusal := live s fun h => fusCtl h m d

/-- An operation ends. While RESET_N is low the fuse controller then takes the reset (R395). -/
def Hw.fusDone (h : Hw) (readBack : Bool) : Hw :=
  match h.dev.fuses.op with
  | none => h
  | some (i, v) =>
    let waits := h.dev.fuses.resetWaits
    if !readBack then
      (h.onFuses fun f => { f with op := none, data := 0, result := 4, resetWaits := false }).fuseInteg
    else if waits then h.onFuses fun _ => {}
    else
      (h.onFuses fun f => { words := tput 0 f.words i (tget 0 f.words i ||| v), op := none, data := 0, result := 0 }).devEvent 0x2004 20 0x00800000

/-- FUSE_OP_DONE. -/
def execFuseOpDone (readBack : Bool) (s : State) : Host.Outcome State Fault Refusal :=
  answer s fun h => if h.powered && !h.inMw then h.fusDone readBack else h

/-! ## The thermometers (R397) -/

/-- The value of the thermometer whose first word is `i`. -/
def Hw.thermo (h : Hw) (i : Nat) : Nat := popcount 32 (h.fuseWord i).toNat + popcount 32 (h.fuseWord (i + 1)).toNat

/-- The Isund programs a thermometer up to a value. -/
def Hw.setThermo (h : Hw) (i v : Nat) : Hw :=
  let n := 2 ^ v - 1
  h.onFuses fun f => { f with words := tput 0 (tput 0 f.words i (BitVec.ofNat 32 n)) (i + 1) (BitVec.ofNat 32 (n / 2 ^ 32)) }

/-- Byte `i` of the image in use. -/
def Hw.imageByte (h : Hw) (i : Nat) : Nat := (h.dev.boot.image.getD i 0).toNat

/-- A thermometer is behind an image that asks for its advance. -/
def Hw.behind (h : Hw) (i : Nat) (commit : Bool) (v : Nat) : Bool := commit && decide (h.thermo i < v)

/-- RUN has held for 10 s with no class D record opened: both thermometers are advanced, or skipped while VIN is low. -/
def Hw.arbAdvances (h : Hw) : Hw :=
  let b := h.dev.boot
  if b.st ≠ .run ∨ b.dSinceRun = true ∨ b.arbDone = true then h
  else
    let h := h.onBoot fun x => { x with arbDone := true }
    let fw := h.behind 38 ((h.imageByte 133).testBit 0) (h.imageByte 132)
    let cfg := h.behind 40 ((h.imageByte 7).testBit 0) (h.imageByte 13)
    if !fw && !cfg then h
    else if h.vinTooLow then h.devEvent 0x2008 21 0x00200000
    else
      let h := if fw then (h.setThermo 38 (h.imageByte 132)).devEvent 0x2008 21 0x00800000 else h
      if cfg then (h.setThermo 40 (h.imageByte 13)).devEvent 0x2008 21 0x00400000 else h

/-- ARB_ADVANCE. -/
def execArbAdvance (s : State) : Host.Outcome State Fault Refusal := live s Hw.arbAdvances

end Sys2Proof.Machine
end

