-- ==== Sys2Proof/Machine/Faults.lean ====
section
/-!
DEFINITION. Machine/Faults.lean: the fault collector's commands: serving a message (R348 to R352), timers (R354), the ends of
reactions and windows (R362, R369, R370), the duty holder's operations (R364, R366, R367), the supervisor's policy (R357), the
watchdogs (R44) and fault injection (R375 to R378).
-/
namespace Sys2Proof.Machine

/-! ## Serving (R348 to R352) -/

/-- The member of a list with the least measure, the first on a tie. -/
def leastBy {α : Type} (f : α → Nat) : List α → Option α
  | [] => none
  | a :: l => some (l.foldl (fun m b => if f b < f m then b else m) a)

/-- A slot's place in the round robin: by source ID, each real slot before its injection slot. -/
def slotPos (key : Nat) : Nat := 2 * (key % 4096) + key / 4096

/-- The slot served next: one that has waited 1,024 cycles, oldest first; else the highest class, round robin from the slot served
last (R348). -/
def Fcl.pick (f : Fcl) (now : Nat) : Option (Nat × Slot) :=
  match f.slots.filter fun e => decide (1024 ≤ now - e.2.at_) with
  | [] => leastBy (fun (e : Nat × Slot) => (15 - msgCls e.2.msg) * 8192 + (slotPos e.1 + 8191 - f.lastSrc) % 8192) f.slots
  | l => leastBy (fun (e : Nat × Slot) => e.2.order) l

/-- NHOLD in cycles (R350, R358). -/
def Hw.nhold (h : Hw) : Nat := clamp 1 255 (h.devField 0x4000 23 16) * 40000

/-- A class N message of a kind is held off (R350). -/
def Hw.heldOff (h : Hw) (key : Nat) (m : BitVec 64) : Bool :=
  let t := tget 0 h.dev.fcl.servedN (key * 256 + msgKind m)
  decide (msgCls m = clsN) && decide (t ≠ 0) && decide (h.now < t - 1 + h.nhold)

/-- A served message goes into the history (R352). -/
def Hw.logMsg (h : Hw) (m : BitVec 64) (ts : BitVec 40) (count level : Nat) (merged quiet : Bool) : Hw :=
  h.log { msg := m, ts := ts, level := BitVec.ofNat 3 level, esc := decide (msgCls m < level), merged := merged, quiet := quiet
          count := BitVec.ofNat 16 count }

/-- A message that reaches Midwinter: a real one acts, an injected one only under INJ_REACT and while DTEST_OFF is 0 (R378). -/
def Hw.toMidwinter (h : Hw) (m : BitVec 64) (ts : BitVec 40) (count : Nat) : Hw :=
  if !msgInj m || (h.injReact && !h.ctrlFuse 2) then h.midwinter m ts count
  else ((h.onFcl fun f => { f with mBlocked := true }).logMsg m ts count 4 false false).devEvent 0x4024 34 0x00400000

/-- What a served message does (R355, R359, R360, R369, R377). -/
def Hw.deal (h : Hw) (m : BitVec 64) (ts : BitVec 40) (count : Nat) : Hw :=
  let cls := msgCls m
  if cls = clsM then h.toMidwinter m ts count
  else if cls = clsN ∨ (msgInj m && !h.injReact) then h.logMsg m ts count cls false false
  else if h.shadowed m then h.logMsg (m ||| 0x4000#64) ts count 0 false false
  else if h.dev.boot.st ≠ .run ∨ msgKind m = 0x28 ∨ h.scopeQuar m then h.logMsg m ts count cls false true
  else
    let d := h.decideMsg m (decide (1 ≤ count))
    if d.level = 4 then d.hw.toMidwinter m ts count else d.hw.logMsg m ts count d.level d.merged false

/-- CPH_EVT.AUTH: a message of R217 was served (R491). -/
def Hw.authEvent (h : Hw) (m : BitVec 64) : Hw :=
  match chanOf (msgChan m) with
  | some c => if decide (0x20 ≤ msgKind m ∧ msgKind m ≤ 0x22) && !msgInj m then h.evCph c 0x00800000 else h
  | none => h

/-- The collector serves one slot. -/
def Hw.serve (h : Hw) : Hw :=
  match h.dev.fcl.pick h.now with
  | none => h
  | some (key, o) =>
    let m := o.msg
    let held := tget 0 h.dev.fcl.held key
    let off := h.heldOff key m
    let h := h.onFcl fun f =>
      { f with
        slots := tdrop f.slots key
        injBusy := if f.injBusy = some key then none else f.injBusy }
    if off then h.onFcl fun f => ({ f with held := tput 0 f.held key (held + o.count + 1) } : Fcl).coalesce key
    else
      let count := min 65535 (o.count + held)
      let h := h.onFcl fun f =>
        { f with
          lastSrc := slotPos key
          held := tput 0 f.held key 0
          servedN := if msgCls m = clsN then tput 0 f.servedN (key * 256 + msgKind m) (h.now + 1) else f.servedN }
      let h := h.authEvent m
      let h := if msgInj m then h.devEvent 0x4024 34 0x00800000 else h
      h.deal m o.ts count

/-- FAULT_SERVE. -/
def execFaultServe (s : State) : Host.Outcome State Fault Refusal := watchedAll s Hw.serve

/-! ## Timers (R354) -/

/-- The C record's timer expires. -/
def Hw.cExpire (h : Hw) (c : ChanId) : Hw :=
  let f := (h.chan c).flt
  if f.c.pend then h.reactCirc c f.ccirc f.c.msg else h

/-- The H record's timer expires. -/
def Hw.hExpire (h : Hw) (c : ChanId) : Hw :=
  let f := (h.chan c).flt
  if f.h.pend then h.reactChan c f.h.msg else h

/-- The D record's timer expires. -/
def Hw.dExpire (h : Hw) : Hw := if h.dev.fcl.d.pend then h.reactDev h.dev.fcl.d.msg else h

/-- C_TIMER_EXPIRE. -/
def execCTimerExpire (c : ChanId) (s : State) : Host.Outcome State Fault Refusal := watched s c (·.cExpire c)
/-- H_TIMER_EXPIRE. -/
def execHTimerExpire (c : ChanId) (s : State) : Host.Outcome State Fault Refusal := watched s c (·.hExpire c)
/-- D_TIMER_EXPIRE. -/
def execDTimerExpire (s : State) : Host.Outcome State Fault Refusal := watchedAll s Hw.dExpire

/-! ## The end of a reaction and of its window (R362, R369, R370) -/

/-- A reaction completes. -/
def Reaction.complete (r : Reaction) (now : Nat) : Reaction := if r.window && !r.done then { r with done := true, doneAt := now } else r

/-- A reaction's window closes, if the reaction has completed. -/
def Reaction.close (r : Reaction) : Reaction := if r.done then { r with window := false } else r

/-- A reaction completes. With the class D reaction the supervisor runs again from its boot ROM (R45, R465); a burst of its own that
the restart cuts short is aborted (R439). -/
def Hw.reactionDone (h : Hw) (b : Option Burst) : Scope → Hw
  | .circ c k => h.onChan c fun x => { x with flt := { x.flt with cq := tput {} x.flt.cq k.toNat ((tget {} x.flt.cq k.toNat).complete h.now) } }
  | .chan c => h.onChan c fun x => { x with flt := { x.flt with hq := x.flt.hq.complete h.now } }
  | .device =>
    if h.dev.fcl.dq.window && !h.dev.fcl.dq.done then
      ((h.abortBurst 3 b).onFcl fun f => { f with dq := f.dq.complete h.now }).devEvent 0x5030 45 0x00800000
    else h

/-- REACTION_COMPLETE. -/
def execReactionComplete (x : ReactionEnd) (s : State) : Host.Outcome State Fault Refusal := live s (·.reactionDone x.burst x.scope)

/-- The condition kinds of a channel that are still present raise their messages again (R370). -/
def Hw.againChan (h : Hw) (c : ChanId) : Hw :=
  let x := h.chan c
  if !x.isActive then h
  else
    let h := [Lane.red, .bkw, .bkp].foldl (fun h p => if (x.lane p).txLock then h else h.raiseChan c 1 clsH 0x02 p.num) h
    let h := if x.tim.b.unl then h.raiseChan c 8 clsH 0x41 0 else h
    let h := if x.tim.r.unl then h.raiseChan c 8 clsH 0x41 (2 ^ 23) else h
    if x.island then h else h.raiseChan c 11 clsH 0x72 0

/-- The condition kinds of the spine that are still present raise their messages again (R370). -/
def Hw.againDev (h : Hw) : Hw :=
  let d := h.dev
  let bad := d.root.hold || d.root.slew
  let h := if bad && d.root.epStop then h.raiseSpine 16 clsD 0x48 0 else h
  let h := if bad && d.root.epGlitch then h.raiseSpine 16 clsD 0x49 0 else h
  let h := if bad && d.root.epUnlock then h.raiseSpine 16 clsD 0x4A 0 else h
  let h := if d.root.epBkp && !d.root.bkpOk then h.raiseSpine 16 clsD 0x4B 0 else h
  let h := (List.finRange 7).foldl (fun h (i : Fin 7) => if d.power.crit[i] then h.raiseSpine 11 clsD 0x71 i.val else h) h
  (List.finRange 4).foldl (fun h (i : Fin 4) => if d.power.railOk[i] then h else h.raiseSpine 11 clsD 0x73 i.val) h

/-- A window ends 2 ms after its reaction has completed. -/
def Hw.windowEnd (h : Hw) : Scope → Hw
  | .circ c k => h.onChan c fun x =>
      let r : Reaction := (tget {} x.flt.cq k.toNat).close
      { x with flt := { x.flt with cq := tput {} x.flt.cq k.toNat (if (x.circ! k).quar || r.window then r else {}) } }
  | .chan c =>
    let r := (h.chan c).flt.hq
    if r.window && r.done then (h.onChan c fun x => { x with flt := { x.flt with hq := r.close } }).againChan c else h
  | .device =>
    let r := h.dev.fcl.dq
    if r.window && r.done then
      allChans.foldl (fun h c => h.againChan c) ((h.onFcl fun f => { f with dq := r.close }).againDev)
    else h

/-- SHADOW_WINDOW_END. -/
def execShadowWindowEnd (x : Scope) (s : State) : Host.Outcome State Fault Refusal := live s (·.windowEnd x)

/-! ## Operations of the duty holder (R356, R366, R367) -/

/-- The duty of a class: bits 0 to 2 of DEV.FCL_CFG for C, H and D (R358). -/
def Hw.dutyOf (h : Hw) (i : Nat) : Master := if bitOf (h.devReg 0x4000) i then .pf0 else .isund

/-- A write beat of an operation on records: it reaches the register in every channel state, and only the duty holder's write
with the SEQ of the record register acts (R366, R476). -/
def dutyBeat (h : Hw) (m : Master) (a : BitVec 22) (i : Nat) (ok : Bool) (f : Hw → Hw) : Hw :=
  if !h.reaches m then h
  else
    let h := h.bmx m.id 0
    if m ≠ h.dutyOf i then h.ignored m .cfgRej a
    else if !ok then h.ignored m .ackStale a
    else f h

/-- An operation on a channel's records. -/
def fltOp (h : Hw) (m : Master) (c : ChanId) (i : Nat) (seq : Byte) (f : Hw → Hw) : Hw :=
  dutyBeat h m (chAddr c 0x000C) i (decide (seq = (h.chan c).flt.seq)) f

/-- An operation on the D record; a Malot's local bus does not lead there (R42). -/
def drecOp (h : Hw) (m : Master) (seq : Byte) (f : Hw → Hw) : Hw :=
  if m = .malot then h else dutyBeat h m (devAddr 0x4010) 2 (decide (seq = h.dev.fcl.dseq)) f

/-- The C record closes by an acknowledgement. -/
def Hw.doAckC (h : Hw) (c : ChanId) : Hw := h.onChan c fun x => { x with flt := { x.flt with c := { x.flt.c with pend := false } } }
/-- The H record closes by an acknowledgement. -/
def Hw.doAckH (h : Hw) (c : ChanId) : Hw := h.onChan c fun x => { x with flt := { x.flt with h := { x.flt.h with pend := false } } }
/-- The D record closes by an acknowledgement. -/
def Hw.doAckD (h : Hw) : Hw := h.onFcl fun f => { f with d := { f.d with pend := false } }

/-- A circuit quarantine is cleared, if it is in force and its cause is absent; an accepted clear advances SEQ (R364, R366). -/
def Hw.doClrCirc (h : Hw) (c : ChanId) (k : CircId) : Hw :=
  let x := h.chan c
  if (x.circ! k).quar && !h.causePresent (tget {} x.flt.cq k.toNat).cause then (h.liftCirc c k).recStep c else h
/-- The H quarantine is cleared, if it is in force and its cause is absent. -/
def Hw.doClrChan (h : Hw) (c : ChanId) : Hw :=
  let f := (h.chan c).flt
  if f.hQuar && !h.causePresent f.hq.cause then h.liftChan c else h
/-- The D quarantine is cleared, if it is in force and its cause is absent. -/
def Hw.doClrD (h : Hw) : Hw :=
  let f := h.dev.fcl
  if f.dQuar && !h.causePresent f.dq.cause then h.liftDev else h

/-- ACK_C. -/
def execAckC (m : Master) (c : ChanId) (seq : Byte) (s : State) : Host.Outcome State Fault Refusal :=
  watched s c fun h => fltOp h m c 0 seq (·.doAckC c)
/-- ACK_H. -/
def execAckH (m : Master) (c : ChanId) (seq : Byte) (s : State) : Host.Outcome State Fault Refusal :=
  watched s c fun h => fltOp h m c 1 seq (·.doAckH c)
/-- REACT_C. -/
def execReactC (m : Master) (c : ChanId) (seq : Byte) (s : State) : Host.Outcome State Fault Refusal :=
  watched s c fun h => fltOp h m c 0 seq (·.cExpire c)
/-- REACT_H. -/
def execReactH (m : Master) (c : ChanId) (seq : Byte) (s : State) : Host.Outcome State Fault Refusal :=
  watched s c fun h => fltOp h m c 1 seq (·.hExpire c)
/-- CLR_CIRC. -/
def execClrCirc (m : Master) (c : ChanId) (seq : Byte) (k : CircId) (s : State) : Host.Outcome State Fault Refusal :=
  watched s c fun h => fltOp h m c 0 seq (·.doClrCirc c k)
/-- CLR_CHAN. -/
def execClrChan (m : Master) (c : ChanId) (seq : Byte) (s : State) : Host.Outcome State Fault Refusal :=
  watched s c fun h => fltOp h m c 1 seq (·.doClrChan c)
/-- ACK_D. -/
def execAckD (m : Master) (seq : Byte) (s : State) : Host.Outcome State Fault Refusal :=
  watchedAll s fun h => drecOp h m seq Hw.doAckD
/-- REACT_D. -/
def execReactD (m : Master) (seq : Byte) (s : State) : Host.Outcome State Fault Refusal :=
  watchedAll s fun h => drecOp h m seq Hw.dExpire
/-- CLR_D. -/
def execClrD (m : Master) (seq : Byte) (s : State) : Host.Outcome State Fault Refusal :=
  watchedAll s fun h => drecOp h m seq Hw.doClrD

/-! ## The supervisor (R356, R357) -/

/-- The supervisor takes a policy action; DEV.ISV_EVT.ACTION reports it (R465). -/
def Hw.acts (h : Hw) (f : Hw → Hw) : Hw := (f h).devEvent 0x5030 45 0x00400000

/-- The supervisor holds a class's duty and runs. -/
def Hw.supervises (h : Hw) (i : Nat) : Bool := decide (h.dutyOf i = .isund) && !h.dev.isvStall

/-- A record has opened: NOW orders the reaction and TOLERATE acknowledges. -/
def Hw.policy (h : Hw) (x : Scope) : Hw :=
  match x with
  | .circ c k =>
    let a := h.dev.fcl.pol[0].1
    let f := (h.chan c).flt
    if !h.supervises 0 || !f.c.pend || decide (f.ccirc ≠ k) then h
    else if a = 1 then h.acts (·.cExpire c) else if a = 2 then h.acts (·.doAckC c) else h
  | .chan c =>
    let a := h.dev.fcl.pol[1].1
    if !h.supervises 1 || !(h.chan c).flt.h.pend then h
    else if a = 1 then h.acts (·.hExpire c) else if a = 2 then h.acts (·.doAckH c) else h
  | .device =>
    let a := h.dev.fcl.pol[2].1
    if !h.supervises 2 || !h.dev.fcl.d.pend then h
    else if a = 1 then h.acts Hw.dExpire else if a = 2 then h.acts Hw.doAckD else h

/-- SUPERVISOR_POLICY. -/
def execSupervisorPolicy (x : Scope) (s : State) : Host.Outcome State Fault Refusal := watchedAll s (·.policy x)

/-- RECOVER has passed since a reaction completed: the supervisor clears the quarantine once its cause is absent. -/
def Hw.recover (h : Hw) (x : Scope) : Hw :=
  match x with
  | .circ c k =>
    let r : Reaction := tget {} (h.chan c).flt.cq k.toNat
    if h.supervises 0 && r.done && ((h.chan c).circ! k).quar && !h.causePresent r.cause then h.acts (·.doClrCirc c k) else h
  | .chan c =>
    let f := (h.chan c).flt
    if h.supervises 1 && f.hq.done && f.hQuar && !h.causePresent f.hq.cause then h.acts (·.doClrChan c) else h
  | .device =>
    let f := h.dev.fcl
    if h.supervises 2 && f.dq.done && f.dQuar && !h.causePresent f.dq.cause then h.acts Hw.doClrD else h

/-- SUPERVISOR_RECOVER. -/
def execSupervisorRecover (x : Scope) (s : State) : Host.Outcome State Fault Refusal := watchedAll s (·.recover x)

/-! ## Watchdogs (R44) -/

/-- The heartbeat count: one per ms, 400,000 cycles, while the Malot runs (R499). -/
def Mlt.beats (m : Mlt) (now : Nat) : BitVec 24 := if m.run then m.hb + BitVec.ofNat 24 ((now - m.hbAt) / 400000) else m.hb

/-- A Malot has stalled for 4 ms: WDOG of class H, and its interval is suspect (R498). -/
def Hw.malotStall (h : Hw) (c : ChanId) : Hw :=
  if (h.chan c).mlt.run then (h.onChan c fun x => { x with mlt := { x.mlt with run := false, hb := x.mlt.beats h.now, csus := true } }).raiseChan c 9 clsH 0x60 0 else h

/-- MALOT_WATCHDOG. -/
def execMalotWatchdog (c : ChanId) (s : State) : Host.Outcome State Fault Refusal := onActive s c (·.malotStall c)

/-- The supervisor has stalled for 20 ms: WDOG of class D. -/
def Hw.isundStall (h : Hw) : Hw :=
  if h.dev.isvStall then h else (h.onDev fun d => { d with isvStall := true }).raiseSpine 17 clsD 0x60 0

/-- ISUND_WATCHDOG. -/
def execIsundWatchdog (s : State) : Host.Outcome State Fault Refusal := live s Hw.isundStall

/-! ## Injection (R375 to R378) -/

/-- The kind codes of R347. -/
def kindCodes : List Nat :=
  [0x01, 0x02, 0x10, 0x11, 0x12, 0x18, 0x19, 0x20, 0x21, 0x22, 0x23, 0x24, 0x25, 0x26, 0x27, 0x28, 0x2E, 0x2F, 0x30, 0x31, 0x32, 0x38]
    ++ [0x40, 0x41, 0x42, 0x43, 0x48, 0x49, 0x4A, 0x4B, 0x4F, 0x50, 0x51, 0x52, 0x53, 0x54, 0x55, 0x60, 0x61, 0x62, 0x70, 0x71, 0x72]
    ++ [0x73, 0x7E, 0x7F, 0xE0, 0xE1]

/-- A source ID that can occur (R348). -/
def srcOk (ch unit : Nat) : Bool :=
  decide (ch < 48 ∧ 1 ≤ unit ∧ unit ≤ 11) || (decide (ch = 63) && decide (unit ∈ [11, 16, 17, 18, 19, 20, 21, 22]))

/-- The message that DEV.FCL_INJ_HI and DEV.FCL_INJ_LO hold, with INJ 1 and SHADOW and bits [13:0] 0. -/
def Hw.injMsg (h : Hw) : BitVec 64 :=
  (((h.devReg 0x4018).zeroExtend 64 <<< 32) ||| ((h.devReg 0x401C &&& 0xFFFF0000).zeroExtend 64)) ||| 0x8000#64

/-- DEV.FCL_INJCTL.BUSY: the injection slot is occupied. -/
def Fcl.injHeld (f : Fcl) : Bool := f.injBusy.isSome

/-- Why an injection is turned away. -/
def Hw.injBad (h : Hw) (m : BitVec 64) : Bool :=
  h.dev.fcl.injHeld || !srcOk (msgChan m) (msgUnit m) || decide (4 < msgCls m) || !kindCodes.contains (msgKind m)
    || (match chanOf (msgChan m) with
      | some c => !(h.chan c).raises
      | none => false)

/-- A write beat to DEV.FCL_INJCTL; GO injects (R375). -/
def injctlWrite (h : Hw) (m : Master) (d : Word) : Hw :=
  devBeat h m 0x4020 .diagnostic fun h =>
    if !bitOf d 0 then h
    else if h.injBad h.injMsg then h.ignored m .cfgRej (devAddr 0x4020)
    else (h.raiseAny h.injMsg).onFcl fun f => { f with injBusy := some (slotKey h.injMsg) }

/-- FAULT_INJECT: a write of GO. -/
def execFaultInject (m : Master) (s : State) : Host.Outcome State Fault Refusal := live s fun h => injctlWrite h m 1

/-- A write beat to CHn.CVU_STG_INJ; GO 1 arms the check that CHK names (R376). -/
def stgWrite (h : Hw) (m : Master) (c : ChanId) (d : Word) : Hw :=
  chBeat h m c 0xA004 .diagnostic fun h => h.onChan c fun x =>
    let go := bitOf d 31 || bitOf (x.reg 0xA004) 31
    let x := x.setReg 0xA004 (BitVec.ofNat 32 (b2n go * 2 ^ 31 + fieldOf d 3 0))
    if bitOf d 31 then { x with cvu := { x.cvu with inj := some ⟨fieldOf d 3 0 % 16, Nat.mod_lt _ (by omega)⟩ } } else x

/-- STG_INJECT. -/
def execStgInject (m : Master) (c : ChanId) (d : Word) (s : State) : Host.Outcome State Fault Refusal :=
  live s fun h => stgWrite h m c d

/-- FCL_INTEG: a parity error of the collector (R371). -/
def execFclInteg (x : IntegAt) (s : State) : Host.Outcome State Fault Refusal :=
  live s fun h =>
    match x with
    | .chan c => h.raiseSpine 20 clsD 0xE1 c.val
    | .dRecord => h.trigger 63 20 0xE1 63
    | .timers => h.trigger 63 20 0xE1 63
    | .trigger => h.trigger 63 20 0xE1 63

end Sys2Proof.Machine
end

