-- ==== Sys2Proof/Machine/HostPort.lean ====
section
/-!
DEFINITION. Machine/HostPort.lean: the host port: the PCIe link and its functions (R410, R411, R420 to R422), the debug port and JTAG
(R439, R465, R526), the mailbox (R433, R434), the matrix's registers (R435 to R438, R442), the router's tables (R450, R451,
R472), the flash window (R469, R470) and the selectors (R261, R489).
-/
namespace Sys2Proof.Machine

/-! ## The link (R410, R411, R422, R465) -/

/-- The endpoint has power and is not held in reset. -/
def Hw.endpointOn (h : Hw) : Bool := h.powered && !h.dev.boot.inReset

/-- The endpoint's link is up. -/
def Hw.linkOn (h : Hw) : Bool := h.endpointOn && h.dev.link.up

/-- ROOT_LOCK has ended (R410, R408); after a Midwinter trigger the endpoint trains again only once its link drop is over. -/
def Hw.canTrain (h : Hw) : Bool :=
  match h.dev.boot.st with
  | .springLoad => true | .verify => true | .selfTest => true | .bringUp => true | .run => true | .bare => true
  | .midwinter => h.dev.link.mwUp
  | _ => false

/-- An event of DEV.HPT_EVT; in MIDWINTER no register changes. -/
def Hw.hptEvent (h : Hw) (flags : Word) : Hw := if h.inMw then h else h.devEvent 0x502C 44 flags

/-- Change the link's state. -/
def Hw.onLink (h : Hw) (f : Link → Link) : Hw := h.onDev fun d => { d with link := f d.link }

/-- FLR0 or FLR1 of DEV.HPT_EVT. -/
def flrFlag : Func → Word
  | .f0 => 0x00400000 | .f1 => 0x00200000

/-- PCIE_FLR. The function's route table is reset before the event, so that it reaches the other function's routes only (R465). -/
def execPcieFlr (f : Func) (b : Option Burst) (s : State) : Host.Outcome State Fault Refusal :=
  answer s fun h => if h.linkOn then (h.resetFunc f b).hptEvent (flrFlag f) else h

/-- LINK_DOWN: a hot reset or a lost link; the endpoint trains again by itself (log entry 37). -/
def execLinkDown (b0 b1 : Option Burst) (s : State) : Host.Outcome State Fault Refusal :=
  answer s fun h => if h.linkOn then ((h.linkDrop b0 b1).hptEvent 0x00800000).onLink fun l => { l with training := true } else h

/-- PERST_N falls: the endpoint resets, and only it. -/
def execPerstN (b0 b1 : Option Burst) (s : State) : Host.Outcome State Fault Refusal :=
  answer s fun h =>
    if !h.endpointOn then h
    else if h.dev.link.up then (h.linkDrop b0 b1).hptEvent 0x00900000
    else (h.onLink fun l => { l with training := false }).hptEvent 0x00100000

/-- LINK_TRAINING_START. -/
def execLinkTrainingStart (s : State) : Host.Outcome State Fault Refusal :=
  answer s fun h => if h.endpointOn && h.canTrain && !h.dev.link.up then h.onLink fun l => { l with training := true } else h

/-- LINK_UP: training completes. -/
def execLinkUp (speed : BitVec 3) (width : BitVec 4) (s : State) : Host.Outcome State Fault Refusal :=
  answer s fun h =>
    if h.endpointOn && h.dev.link.training then
      (h.onLink fun l => { l with up := true, training := false, speed := speed, width := width }).hptEvent 0x00800000
    else h

/-- LINK_RATE_CHANGE. -/
def execLinkRateChange (speed : BitVec 3) (width : BitVec 4) (s : State) : Host.Outcome State Fault Refusal :=
  answer s fun h =>
    if h.linkOn then (h.onLink fun l => { l with speed := speed, width := width }).hptEvent 0x00080000 else h

/-- MIDWINTER_LINK_RETRAIN: the link drop of Midwinter is over, and the link is up for R373 only. -/
def execMidwinterLinkRetrain (s : State) : Host.Outcome State Fault Refusal :=
  answer s fun h => if h.inMw && !h.dev.link.mwUp then h.onLink fun l => { l with mwUp := true, up := true, training := false } else h

/-- A function enters or leaves D3hot, which changes nothing else (R420). -/
def Hw.setD3 (h : Hw) (f : Func) (on : Bool) : Hw := if h.linkOn then h.onDev fun d => d.onFunc f fun x => { x with d3 := on } else h

/-- D3HOT_ENTER. -/
def execD3hotEnter (f : Func) (s : State) : Host.Outcome State Fault Refusal := answer s (·.setD3 f true)
/-- D3HOT_EXIT. -/
def execD3hotExit (f : Func) (s : State) : Host.Outcome State Fault Refusal := answer s (·.setD3 f false)

/-- POISONED_WRITE: dropped, and reported through AER as a non-fatal Poisoned TLP. -/
def execPoisonedWrite (f : Func) (s : State) : Host.Outcome State Fault Refusal :=
  answer s fun h =>
    if h.linkOn && !(h.dev.func f).d3 then
      match f with
      | .f0 => h.onLink fun l => { l with poisoned0 := l.poisoned0 + 1 }
      | .f1 => h.onLink fun l => { l with poisoned1 := l.poisoned1 + 1 }
    else h

/-- ALIVE_TOGGLE: in RUN, ALIVE changes level. -/
def execAliveToggle (s : State) : Host.Outcome State Fault Refusal :=
  live s fun h => if h.dev.boot.st = .run then h.onLink fun l => { l with alive := !l.alive } else h

/-! ## The debug port and JTAG (R393, R439, R465, R526) -/

/-- The debug port connects: only while it is enabled. -/
def Hw.dbgConnect (h : Hw) : Hw :=
  if h.debugEnabled && !h.dev.link.debugOn then (h.onLink fun l => { l with debugOn := true }).devEvent 0x5020 41 0x00200000 else h

/-- The debug port disconnects; a burst in progress ends, in the same event of DEV.BMX_EVT. -/
def Hw.dbgDisconnect (h : Hw) (b : Option Burst) : Hw :=
  if !h.dev.link.debugOn then h
  else
    let h := h.onLink fun l => { l with debugOn := false }
    match b with
    | none => h.devEvent 0x5020 41 0x00200000
    | some x =>
      let h := h.abortBurst 8 (some x)
      h.setDevReg 0x5020 (h.devReg 0x5020 ||| 0x00200000)

/-- DEBUG_CONNECT. -/
def execDebugConnect (on : Bool) (b : Option Burst) (s : State) : Host.Outcome State Fault Refusal :=
  live s fun h => if on then h.dbgConnect else h.dbgDisconnect b

/-- The instruction that takes hold: EXTEST, CLAMP and HIGHZ only while RESET_N is low outside MIDWINTER, DEBUG only while the
debug port is enabled; any of them acts as BYPASS otherwise. -/
def Hw.jtagActs (h : Hw) (op : JtagOp) : JtagOp :=
  match op with
  | .extest => if h.dev.boot.inReset && !h.inMw then .extest else .bypass
  | .clamp => if h.dev.boot.inReset && !h.inMw then .clamp else .bypass
  | .highz => if h.dev.boot.inReset && !h.inMw then .highz else .bypass
  | .debug => if h.works && h.debugEnabled then .debug else .bypass
  | .bypass => .bypass
  | .idcode => .idcode
  | .sample => .sample

/-- JTAG_INSTRUCTION. DEBUG connects the debug port; the next instruction disconnects it (log entry 38). -/
def execJtagInstruction (op : JtagOp) (s : State) : Host.Outcome State Fault Refusal :=
  answer s fun h =>
    if !h.powered then h
    else
      let was := h.dev.link.jtag
      let now := h.jtagActs op
      let h := h.onLink fun l => { l with jtag := now }
      if now = .debug ∧ was ≠ .debug then h.dbgConnect
      else if was = .debug ∧ now ≠ .debug ∧ h.works = true then h.dbgDisconnect none
      else h

/-! ## The matrix (R435 to R438, R442) -/

/-- BEAT_TIMEOUT: the matrix completes the beat and counts it REFUSED. -/
def execBeatTimeout (mid : Fin 16) (s : State) : Host.Outcome State Fault Refusal :=
  live s fun h => if midUsed mid.val then (h.bmx mid.val 8).devEvent 0x5020 41 0x00400000 else h

/-- The four counters of a master are 0. -/
def Hw.cntClear (h : Hw) (mid : Nat) : Hw := [0, 4, 8, 12].foldl (fun h k => h.setDevReg (0x5100 + 16 * mid + k) 0) h

/-- A write beat to DEV.BMX_CNTCLR. -/
def cntclrWrite (h : Hw) (m : Master) (d : Word) : Hw :=
  devBeat h m 0x5010 .guarded fun h => (List.range 16).foldl (fun h i => if bitOf d i then h.cntClear i else h) h

/-- BMX_CNTCLR. -/
def execBmxCntclr (m : Master) (d : Word) (s : State) : Host.Outcome State Fault Refusal := live s fun h => cntclrWrite h m d

/-- A write beat to DEV.BMX_REMAP: the Isund's first write after RESET_N takes effect; a write of the current value is none
(R428). -/
def remapBeat (h : Hw) (m : Master) (d : Word) : Hw :=
  devBeat h m 0x5014 .plain fun h =>
    if d &&& 1 = h.devReg 0x5014 then h
    else if m = .isund ∧ h.dev.remapSet = false then (h.setDevReg 0x5014 (d &&& 1)).onDev fun x => { x with remapSet := true }
    else h.ignored m .cfgRej (devAddr 0x5014)

/-- REMAP_WRITE. -/
def execRemapWrite (m : Master) (d : Word) (s : State) : Host.Outcome State Fault Refusal := live s fun h => remapBeat h m d

/-- The shares of a write of DEV.HPT_SHARE sum to the queues' sizes. -/
def sharesFit (d : Word) : Bool :=
  decide (fieldOf d 3 0 + fieldOf d 7 4 + fieldOf d 11 8 = 8) && decide (fieldOf d 20 16 + fieldOf d 25 21 + fieldOf d 30 26 = 16)

/-- A write beat to DEV.HPT_SHARE. -/
def shareBeat (h : Hw) (m : Master) (d : Word) : Hw :=
  devBeat h m 0x5024 .plain fun h =>
    let w := d &&& 0x7FFF0FFF
    if w = h.devReg 0x5024 then h
    else if m = .isund ∧ h.dev.shareSet = false ∧ sharesFit d = true then (h.setDevReg 0x5024 w).onDev fun x => { x with shareSet := true }
    else h.ignored m .cfgRej (devAddr 0x5024)

/-- HPT_SHARE_WRITE. -/
def execHptShareWrite (m : Master) (d : Word) (s : State) : Host.Outcome State Fault Refusal := live s fun h => shareBeat h m d

/-! ## The mailbox (R433, R434) -/

/-- What a selector names: nothing, a value, or a value in thousandths of its unit. -/
inductive MbxVal where
  | err | val (v : BitVec 128) | milli (v : Int)
deriving DecidableEq, Repr

/-- An INDEX names a counter of a group of channel counters, and an instance it has (R434, R503). -/
def ctrOk (group i : Nat) : Bool :=
  let path := decide (i % 4 = 1 ∨ i % 4 = 2)
  let one := decide (i % 4 = 0)
  if group = 0x10 then decide (i / 4 < 12) && (if i / 4 < 3 then one else path)
  else if group = 0x11 then decide (i / 4 < 8) && (if i / 4 = 3 ∨ i / 4 = 4 then path else one)
  else if group = 0x12 then decide (i / 4 < 5) && (if i / 4 = 0 then path else one)
  else if group = 0x13 then decide (i < 16)
  else if group = 0x14 then decide (i < 6)
  else if group = 0x20 then decide ((i < 48 ∧ i % 16 < 14) ∨ (48 ≤ i ∧ i < 54))
  else false

/-- The groups of channel counters. -/
def ctrGroup (g : Nat) : Bool := decide (g ∈ [0x10, 0x11, 0x12, 0x13, 0x14, 0x20])

/-- A history entry as 128 bits (R352). -/
def Hist.word (e : Hist) : BitVec 128 :=
  BitVec.ofNat 128 (e.msg.toNat * 2 ^ 64 + e.ts.toNat * 2 ^ 24 + e.level.toNat * 2 ^ 21 + b2n e.esc * 2 ^ 20 + b2n e.merged * 2 ^ 19
    + b2n e.quiet * 2 ^ 18 + e.count.toNat)

/-- A latched CVU result as 128 bits (R341). -/
def CvuCtx.word (k : CvuCtx) : BitVec 128 :=
  BitVec.ofNat 128 (k.seq.toNat * 2 ^ 88 + k.val.toNat * 2 ^ 56 + b2n k.valid * 2 ^ 55 + b2n k.ovr * 2 ^ 54)

/-- An engine's value of group 0x16. -/
def engVal (g : Eng) (off : Nat → Option Int) (i : Nat) : MbxVal :=
  if i = 0 then .milli g.out else if i = 1 then .milli g.fh else if i = 2 then .milli g.slope
  else if 8 ≤ i then match off (i - 8) with
    | some v => .val (BitVec.ofNat 128 (satSigned 64 v))
    | none => .err
  else .err

/-- A timing value. -/
def Hw.timVal (h : Hw) (n i : Nat) : MbxVal :=
  match chanOf n with
  | some c =>
    let x := h.chan c
    let off := fun j => if hj : j < 7 then some (x.tim.cand[j]).ppb else none
    if !x.raises then .err
    else if i / 16 = 0 then engVal x.tim.b off (i % 16) else if i / 16 = 1 then engVal x.tim.r off (i % 16) else .err
  | none =>
    let off := fun j => if hj : 3 ≤ j ∧ j < 7 then some (h.dev.stn.inp[j - 3]'(by omega)).ppb else none
    if n = 63 ∧ i / 16 = 0 then engVal h.dev.stn.eng off (i % 16) else .err

/-- The value that a selector names to a master. -/
def Hw.mbxVal (h : Hw) (m : Master) (sel : Word) : MbxVal :=
  let g := fieldOf sel 30 24
  let n := fieldOf sel 23 18
  let i := fieldOf sel 17 0
  if g = 0x02 then
    if n = 63 ∧ i < 32 then .val ((h.dev.fcl.hist[i]?.map Hist.word).getD 0) else .err
  else if h.inMw then .err
  else if g = 0x01 then (if n = 63 ∧ i = 0 then .val (h.dev.sys.zeroExtend 128) else .err)
  else if g = 0x03 then
    let parked := match chanOf n with
      | some c => !(h.chan c).raises
      | none => false
    if srcOk n (i % 64) && decide (i < 128) && !parked then .val (BitVec.ofNat 128 (tget 0 h.dev.fcl.coal (i / 64 * 4096 + n * 64 + i % 64)))
    else .err
  else if g = 0x15 then
    if m = .pf1 then .val 0
    else match chanOf n with
      | some c => if hi : i < 128 ∧ (h.chan c).raises = true then .val (((h.chan c).cvu.unit[i / 16]'(by omega)).ctx[i % 16]'(by omega)).word else .err
      | none => .err
  else if g = 0x16 then h.timVal n i
  else if ctrGroup g then
    match chanOf n with
    | some c => if ctrOk g i && (h.chan c).raises then .val (BitVec.ofNat 128 (tget 0 (h.chan c).ctr (ctrKey g i))) else .err
    | none => .err
  else .err

/-- The counter a selector names is 0. -/
def Hw.mbxZero (h : Hw) (sel : Word) : Hw :=
  let g := fieldOf sel 30 24
  let n := fieldOf sel 23 18
  let i := fieldOf sel 17 0
  if g = 0x03 then h.onFcl fun f => { f with coal := tdrop f.coal (i / 64 * 4096 + n * 64 + i % 64) }
  else match chanOf n with
    | some c => h.onChan c fun x => { x with ctr := tdrop x.ctr (ctrKey g i) }
    | none => h

/-- The group holds counters. -/
def isCounter (sel : Word) : Bool := decide (fieldOf sel 30 24 = 0x03) || ctrGroup (fieldOf sel 30 24)

/-- A master's selector write is answered: in MIDWINTER by the mailbox too (R373). -/
def Hw.mbxReaches (h : Hw) (m : Master) : Bool :=
  if h.inMw then
    match m with
    | .pf0 => h.dev.link.up && !h.dev.f0.d3
    | .pf1 => h.dev.link.up && !h.dev.f1.d3
    | .debug => h.debugEnabled && h.dev.link.debugOn
    | _ => false
  else h.reachesDev m

/-- A write of DEV.MBX_SEL. While a capture is under way it is turned away (R432); CLR takes and zeroes a counter at once, and is
ignored for PF1. What the data words hold until the capture is a free value (log entry 3). -/
def mbxSelect (h : Hw) (m : Master) (d : Word) : Hw :=
  if !h.mbxReaches m then h
  else
    let h := h.bmx m.id 0
    if (h.dev.bank m).capturing then h.ignored m .cfgRej (devAddr 0x6000)
    else
      let pf1 := decide (m = .pf1) && bitOf d 31
      let h := if pf1 then h.ignored m .guard (devAddr 0x6000) else h
      let sel := if pf1 then d &&& 0x7FFFFFFF else d
      let v := match h.mbxVal m sel with
        | .val v => if bitOf sel 31 && isCounter sel then some v else none
        | _ => none
      let h := if v.isSome then h.mbxZero sel else h
      let a := h.draw
      let b := a.2.draw
      b.2.onDev fun x => x.onBank m fun k =>
        { k with sel := sel, valid := false, err := false, capturing := true, snap := v, data := a.1.zeroExtend 128 ||| (b.1.zeroExtend 128 <<< 64) }

/-- MAILBOX_SELECT. -/
def execMailboxSelect (m : Master) (d : Word) (s : State) : Host.Outcome State Fault Refusal := answer s fun h => mbxSelect h m d

/-- MAILBOX_SNAPSHOT_CLEAR. -/
def execMailboxSnapshotClear (m : Master) (d : Word) (s : State) : Host.Outcome State Fault Refusal := answer s fun h => mbxSelect h m d

/-- A capture ends with a value, or with ERR and zero data. -/
def Hw.mbxPut (h : Hw) (m : Master) (v : Option (BitVec 128)) : Hw :=
  h.onDev fun x => x.onBank m fun k => { k with valid := true, err := v.isNone, capturing := false, snap := none, data := v.getD 0 }

/-- The read of a CVU result clears its OVR (R341). -/
def Hw.cvuRead (h : Hw) (m : Master) (sel : Word) : Hw :=
  let i := fieldOf sel 17 0
  match chanOf (fieldOf sel 23 18) with
  | some c =>
    if hi : i < 128 ∧ fieldOf sel 30 24 = 0x15 ∧ m ≠ .pf1 then h.onChan c fun x =>
      let u : Cvu := x.cvu.unit[i / 16]'(by omega)
      let k : CvuCtx := { (u.ctx[i % 16]'(by omega)) with ovr := false, unread := false }
      let w : Cvu := { u with ctx := u.ctx.set (i % 16) k (by omega) }
      { x with cvu := { x.cvu with unit := x.cvu.unit.set (i / 16) w (by omega) } }
    else h
  | none => h

/-- A value in thousandths of its unit as a whole number: the spec does not say how it is rounded, so it is one of the two
nearest, by a free value (log entry 3). -/
def Hw.rounded (h : Hw) (v : Int) : BitVec 128 × Hw :=
  if v % 1000 = 0 then (BitVec.ofNat 128 (satSigned 64 (v / 1000)), h)
  else
    let a := h.draw
    (BitVec.ofNat 128 (satSigned 64 (v / 1000 + b2n (a.1.getLsbD 0))), a.2)

/-- The selected value is captured. -/
def Hw.mbxCapture (h : Hw) (m : Master) : Hw :=
  let b := h.dev.bank m
  if !b.capturing then h
  else match b.snap with
    | some v => h.mbxPut m (if h.inMw then none else some v)
    | none => match h.mbxVal m b.sel with
      | .err => h.mbxPut m none
      | .val v => (h.cvuRead m b.sel).mbxPut m (some v)
      | .milli v => let r := h.rounded v; r.2.mbxPut m (some r.1)

/-- MAILBOX_CAPTURE_DONE. A Malot has no mailbox. -/
def execMailboxCaptureDone (m : Master) (s : State) : Host.Outcome State Fault Refusal :=
  answer s fun h => if h.endpointOn && decide (m ≠ .malot) then h.mbxCapture m else h

/-! ## The router's tables (R450, R451, R472) -/

/-- The function whose copy of a block banked per function a master sees (R424). -/
def fnOf (m : Master) : Func := if m = .pf1 then .f1 else .f0

/-- Change the function copy that a master sees. -/
def Hw.onFn (h : Hw) (m : Master) (f : FuncSt → FuncSt) : Hw := h.onDev fun d => d.onFunc (fnOf m) f

/-- A write beat to a route entry. Numbers from 628 on are reserved. -/
def routeWrite (h : Hw) (m : Master) (src : Nat) (d : Word) : Hw :=
  devBeat h m (0xA000 + 4 * src) (if guardedSrc src then .guarded else .plain) fun h =>
    if src < 628 then h.onFn m fun f => { f with routes := tput 0 f.routes src (d &&& 0x8000003F) } else h

/-- A write beat to DEV.EVR_VCTL_v. -/
def vctlWrite (h : Hw) (m : Master) (v : Nat) (d : Word) : Hw :=
  devBeat h m (0xB100 + 4 * v) .plain fun h => h.onFn m fun f => { f with hold := tput 0 f.hold v (d.truncate 16) }

/-- The reset value of an MSI-X table word: vector control is masked. -/
def msixReset (i : Nat) : Word := if i % 4 = 3 then 1 else 0

/-- The writable bits of an MSI-X table word (PCI Express; log entry 39). -/
def msixMask (i : Nat) : Word := if i % 4 = 3 then 1 else if i % 4 = 0 then 0xFFFFFFFC else 0xFFFFFFFF

/-- A write beat to the MSI-X table; the PBA is read only. -/
def msixWrite (h : Hw) (m : Master) (i : Nat) (d : Word) : Hw :=
  devBeat h m (0xC000 + 4 * i) .plain fun h =>
    if i < 256 then h.onFn m fun f => { f with msix := tput (msixReset i) f.msix i (d &&& msixMask i) } else h

/-- A vector may send: PEND, no mask, and HOLD passed since its previous message (R451, R452). That MSI-X is enabled is what the
command itself says (log entry 40). -/
def Hw.msixReady (h : Hw) (f : Func) (v : Fin 64) : Bool :=
  let x := h.dev.func f
  let t := tget 0 x.sentAt v.val
  h.linkOn && !h.inMw && !x.d3 && !x.funcMask && x.pend.getLsbD v.val && !bitOf (tget (msixReset (4 * v.val + 3)) x.msix (4 * v.val + 3)) 0
    && (decide (t = 0) || decide (t - 1 + (tget 0 x.hold v.val).toNat * 400 ≤ h.now))

/-- MSIX_SEND. -/
def execMsixSend (f : Func) (v : Fin 64) (s : State) : Host.Outcome State Fault Refusal :=
  answer s fun h =>
    if h.msixReady f v then
      h.onDev fun d => d.onFunc f fun x =>
        { x with pend := x.pend &&& ~~~ (1#64 <<< v.val), sentAt := tput 0 x.sentAt v.val (h.now + 1), sent := x.sent + 1, msixOn := true }
    else h

/-! ## The flash window (R469, R470) -/

/-- OWNER codes; 0 for a master that has none. -/
def flwCode : Master → BitVec 3
  | .pf0 => 1 | .isund => 3 | _ => 0

/-- A write to the block was ignored. -/
def Hw.flwRej (h : Hw) : Hw := h.devEvent 0x9010 51 0x00400000

/-- Change the window. -/
def Hw.onFlw (h : Hw) (f : Flw → Flw) : Hw := h.onDev fun d => { d with flw := f d.flw }

/-- What only the owner may do, and only between operations. -/
def Hw.flwOwner (h : Hw) (m : Master) (off : Nat) (f : Hw → Hw) : Hw :=
  if flwCode m = 0 ∨ h.dev.flw.owner ≠ flwCode m then h.flwRej.ignored m .cfgRej (devAddr off)
  else if h.dev.flw.busy then h.flwRej
  else f h

/-- The window is claimed. -/
def Hw.flwTake (h : Hw) (m : Master) : Hw :=
  if h.dev.boot.st ≠ .run ∧ h.dev.boot.st ≠ .bare then h.flwRej.ignored m .cfgRej (devAddr 0x900C)
  else if flwCode m = 0 ∨ h.dev.flw.owner ≠ 0 then h.flwRej
  else h.onFlw fun w => { w with owner := flwCode m }

/-- An operation starts, with KEY in the same write when it writes. -/
def Hw.flwStart (h : Hw) (d : Word) : Hw :=
  let cmd := h.devReg 0x9004
  if bitOf cmd 15 && decide (fieldOf d 31 16 ≠ 0x4E56) then h.flwRej
  else h.onFlw fun w => { w with busy := true, cmd := cmd, addr := h.devReg 0x9008 }

/-- A write beat to DEV.FLW_CTL. -/
def flwCtl (h : Hw) (m : Master) (d : Word) : Hw :=
  devBeat h m 0x900C .guarded fun h =>
    let claim := bitOf d 4
    let rel := bitOf d 5
    let go := bitOf d 0
    if (claim && rel) || (claim && go) || (rel && go) then h.flwRej
    else if claim then h.flwTake m
    else h.flwOwner m 0x900C fun h => if rel then h.onFlw fun w => { w with owner := 0 } else if go then h.flwStart d else h

/-- A write beat to DEV.FLW_CMD, DEV.FLW_ADDR or a data register. -/
def flwPlain (h : Hw) (m : Master) (off : Nat) (d : Word) : Hw :=
  devBeat h m off .guarded fun h => h.flwOwner m off fun h => h.setDevReg off (if off = 0x9004 then d &&& 0xFFFF807F else d)

/-- FLW_CLAIM. -/
def execFlwClaim (m : Master) (s : State) : Host.Outcome State Fault Refusal := live s fun h => flwCtl h m 0x10
/-- FLW_RELEASE. -/
def execFlwRelease (m : Master) (s : State) : Host.Outcome State Fault Refusal := live s fun h => flwCtl h m 0x20
/-- FLW_GO. -/
def execFlwGo (m : Master) (key : BitVec 16) (s : State) : Host.Outcome State Fault Refusal :=
  live s fun h => flwCtl h m (BitVec.ofNat 32 (key.toNat * 65536 + 1))

/-- A read operation's bytes go into the data registers, byte 4i in bits [31:24] of register i. -/
def Hw.flwData (h : Hw) (l : List Byte) : Hw :=
  l.zipIdx.foldl (fun (h : Hw) (e : Byte × Nat) =>
    let off := 0x9040 + 4 * (e.2 / 4)
    let lo := 24 - 8 * (e.2 % 4)
    h.setDevReg off (withField (h.devReg off) (lo + 7) lo e.1.toNat)) h

/-- FLW_OP_DONE. The read data of a master that reset meanwhile is discarded, and the window released. -/
def execFlwOpDone (data : List Byte) (s : State) : Host.Outcome State Fault Refusal :=
  live s fun h =>
    let w := h.dev.flw
    if !w.busy then h
    else
      let n := min 64 (fieldOf w.cmd 6 0)
      let h := if bitOf w.cmd 15 || w.releaseWaits then h else h.flwData (data.take n)
      (h.onFlw fun w => { w with busy := false, releaseWaits := false, owner := if w.releaseWaits then 0 else w.owner }).devEvent 0x9010 51 0x00800000

/-! ## Selectors (R261, R489) -/

/-- MAP_AUSEL_WRITE. -/
def execMapAuselWrite (m : Master) (c : ChanId) (d : Word) (s : State) : Host.Outcome State Fault Refusal := live s fun h => chFields h m c 0x3030 d
/-- MAP_TRSEL_WRITE. -/
def execMapTrselWrite (m : Master) (c : ChanId) (d : Word) (s : State) : Host.Outcome State Fault Refusal := live s fun h => chFields h m c 0x3038 d
/-- RCL_CSEL_WRITE. -/
def execRclCselWrite (m : Master) (c : ChanId) (d : Word) (s : State) : Host.Outcome State Fault Refusal := live s fun h => chFields h m c 0x400C d
/-- CPH_CSEL_WRITE. -/
def execCphCselWrite (m : Master) (c : ChanId) (d : Word) (s : State) : Host.Outcome State Fault Refusal := live s fun h => chFields h m c 0x5014 d
/-- LAT_DSEL_WRITE. -/
def execLatDselWrite (m : Master) (c : ChanId) (d : Word) (s : State) : Host.Outcome State Fault Refusal := live s fun h => chFields h m c 0x600C d

end Sys2Proof.Machine
end

