-- ==== Sys2Proof/Machine/Submit.lean ====
section
/-!
DEFINITION. Machine/Submit.lean: the command ports: blob buffers (R205, R468), submission and its refusals (R441 to R446), the start
of a command and forwarding (R445), NOP, the routing of a device KEY_LOAD (R208), and the completion registers (R441).
-/
namespace Sys2Proof.Machine

/-! ## The port's words (R441) -/

/-- The offset of a port's CMD_W0. -/
def portBase : Port → Nat
  | .device => 0x7000 | .chan _ => 0xC000

/-- A port register's BAR0 offset. -/
def portAddr (p : Port) (off : Nat) : BitVec 22 :=
  match p with
  | .device => devAddr (portBase p + off) | .chan c => chAddr c (portBase p + off)

/-- A master with a bank of the command ports: PF0, PF1 and the Isund (R441). -/
def submits (m : Master) : Bool := decide (m = .pf0 ∨ m = .pf1 ∨ m = .isund)

/-- A write beat to a command port, before it is counted: a parked, ABSENT or DIAG channel's port accepts none (R425, R476), and the
debug port and the Malots have no bank (R441). -/
def portBeat (h : Hw) (m : Master) (p : Port) (off : Nat) (f : Hw → Hw) : Hw :=
  if !h.reaches m then h
  else
    let a := portAddr p off
    match p with
    | .device => if m = .malot then h else if submits m then f h else (h.ignored m .cfgRej a).bmx m.id 0
    | .chan c =>
      if !(h.chan c).raises then (h.ignored m .cfgRej a).bmx m.id 8
      else if (h.chan c).st = .diag ∨ submits m = false then (h.ignored m .cfgRej a).bmx m.id 0
      else f h

/-- A write of CMD_W0 to CMD_W2. -/
def portWord (h : Hw) (m : Master) (p : Port) (i : Nat) (d : Word) : Hw :=
  portBeat h m p (4 * i) fun h =>
    (h.bmx m.id 0).onQueue p fun q => q.onBank m fun b =>
      if i = 0 then { b with w0 := d } else if i = 1 then { b with w1 := d } else { b with w2 := d }

/-! ## Blob buffers (R205, R468) -/

/-- The 18 words of a blob buffer. -/
def kbufWords (t : Table Word) : List Word := (List.range 18).map fun i => tget 0 t i

/-- The bytes of a captured blob, byte 4i in bits [31:24] of word i. -/
def blobBytes (l : List Word) : List Byte := l.flatMap fun w => beBytes 4 w.toNat

/-- A write of CHn.CPH_KBUFi. -/
def kbufWrite (h : Hw) (m : Master) (c : ChanId) (i : Nat) (d : Word) : Hw :=
  chBeat h m c (0x5040 + 4 * i) .guarded fun h => h.onChan c fun x => { x with cph := { x.cph with kbuf := tput 0 x.cph.kbuf i d } }

/-- A write of DEV.CPH_KBUFi. -/
def devKbufWrite (h : Hw) (m : Master) (i : Nat) (d : Word) : Hw :=
  devBeat h m (0x8000 + 4 * i) .guarded fun h =>
    if h.dev.routing then h.ignored m .cfgRej (devAddr (0x8000 + 4 * i)) else h.onDev fun x => { x with kbuf := tput 0 x.kbuf i d }

/-! ## Refusals at submission (R446) -/

/-- The parameter bits a command uses, in W1, W2 and W3 (R445). -/
def paramMask (op : Byte) : Word × Word × Word :=
  if op = 0x10 then (0x0001FFFF, 0, 0) else if op = 0x11 then (0x0003FFFF, 0, 0)
  else if op = 0x13 then (0x0100FFFF, 0xFFFFFFFF, 0x000000FF) else if op = 0x14 then (0x0001FFFF, 0, 0)
  else if op = 0x30 then (0x0000FFFF, 0, 0) else if op = 0x40 then (0x00000007, 0, 0) else (0, 0, 0)

/-- A parameter is malformed: unused bits, or a slot mask that names no slot (R443, R445). -/
def paramBad (w0 : Word) (x : Cmd) : Bool :=
  let k := paramMask x.op
  decide (fieldOf w0 15 8 ≠ 0) || decide (x.w1 &&& ~~~ k.1 ≠ 0 ∨ x.w2 &&& ~~~ k.2.1 ≠ 0 ∨ x.w3 &&& ~~~ k.2.2 ≠ 0)
    || decide (x.op = 0x11 ∧ fieldOf x.w1 17 16 = 0)

/-- A command of the device queue that acts on the channel CHAN names: not NOP, and not KEY_LOAD, which its blob routes. -/
def namesChan (p : Port) (op : Byte) : Bool := decide (p = .device) && decide (op ≠ 0x10) && (isChanOp op || isDevOp op)

/-- A context or circuit number, or a channel number, out of range. -/
def rangeBad (p : Port) (x : Cmd) : Option Nat :=
  let n := fieldOf x.w1 15 0
  if (x.op = 0x10 ∨ x.op = 0x11 ∨ x.op = 0x13) ∧ 4095 < n then some rCtxRange
  else if (x.op = 0x14 ∨ x.op = 0x30) ∧ 8191 < n then some rPosInvalid
  else if namesChan p x.op ∧ 47 < x.chan.toNat then some rChAbsent
  else none

/-- What LAT_REANCHOR's own rule refuses at once (R244). -/
def Chan.reanchorBad (x : Chan) (k : CircId) : Option Nat :=
  let y := x.circ! k
  if !y.en then some rPosInvalid else if !(y.inSync .bkw || y.inSync .bkp) then some rNoPath else none

/-- Why a command is refused at its submission: the first reason of R446 that applies. -/
def Hw.judge (h : Hw) (p : Port) (w0 : Word) (x : Cmd) : Option Nat :=
  if !(decide (x.op = 0x00) || isChanOp x.op || (decide (p = .device) && isDevOp x.op)) then some rOpcode
  else if x.by_ = .pf1 ∧ x.op ≠ 0x00 then some rGuarded
  else if paramBad w0 x || (namesChan p x.op && decide (x.chan = 0xFF)) then some rParam
  else match rangeBad p x with
    | some r => some r
    | none =>
      match (match p with
          | .chan c => if x.op = 0x30 then (h.chan c).reanchorBad (BitVec.ofNat 13 (fieldOf x.w1 15 0)) else none
          | .device => none) with
      | some r => some r
      | none => if portS p x.op x.w1 < h.owed p then some rQueueLate else none

/-- A CLEAR_MODE command refused before its channel carries it out consumes that channel's arming (R222). -/
def Hw.disarm (h : Hw) (p : Port) (x : Cmd) : Hw :=
  if x.op ≠ 0x14 then h
  else
    let c := match p with
      | .chan c => some c
      | .device => chanOf x.chan.toNat
    match c with
    | some c => h.onChan c fun y => { y with cph := { y.cph with armed := false } }
    | none => h

/-- A command is submitted: its credit is taken, a KEY_LOAD takes its blob, and it is refused at once or joins the queue (R205,
R441, R446, R468). -/
def Hw.enqueue (h : Hw) (p : Port) (w0 : Word) (x : Cmd) : Hw :=
  let h := h.onQueue p fun q => q.onBank x.by_ fun b => { b with used := b.used + 1 }
  let blob := match p with
    | .chan c => if x.op = 0x10 then kbufWords (h.chan c).cph.kbuf else []
    | .device => if x.op = 0x10 then kbufWords h.dev.kbuf else []
  let h := match p with
    | .chan c => if x.op = 0x10 then h.onChan c fun y => { y with cph := { y.cph with kbuf := [] } } else h
    | .device => h
  match h.judge p w0 x with
  | some r => (h.disarm p x).refuse p x r
  | none =>
    let h := h.onQueue p fun q => { q with wait := q.wait ++ [{ x with blob := blob }] }
    let h := if p = .device ∧ x.op = 0x10 then h.onDev fun d => { d with routing := true } else h
    h.qLevels p

/-- The command that a master's bank and a W3 spell. -/
def Hw.cmdOf (h : Hw) (m : Master) (p : Port) (w3 : Word) : Cmd :=
  let b := (h.queue p).bank m
  { op := BitVec.ofNat 8 (fieldOf b.w0 31 24), tag := BitVec.ofNat 8 (fieldOf b.w0 23 16), chan := BitVec.ofNat 8 (fieldOf b.w0 7 0)
    w1 := b.w1, w2 := b.w2, w3 := w3, by_ := m }

/-- The port of a channel that is not ACTIVE accepts no command (R445). -/
def Hw.portRuns (h : Hw) : Port → Bool
  | .device => true
  | .chan c => (h.chan c).isActive

/-- A write of CMD_W3. A guarded command of PF1 is a guarded write besides (R427); W0 to W2 are held until W3 is written (R441). -/
def cmdWrite (h : Hw) (m : Master) (p : Port) (w3 : Word) : Hw :=
  portBeat h m p 12 fun h =>
    let w0 := ((h.queue p).bank m).w0
    let x := h.cmdOf m p w3
    if !h.portRuns p || decide (h.credit p m = 0) then (h.ignored m .cfgRej (portAddr p 12)).bmx m.id 0
    else
      let h := if h.judge p w0 x = some rGuarded then h.guarded m (portAddr p 12) else h.bmx m.id 0
      let h := h.onQueue p fun q => q.onBank m fun b => { b with w0 := 0, w1 := 0, w2 := 0 }
      h.enqueue p w0 x

/-- CMD_SUBMIT. -/
def execCmdSubmit (m : Master) (q : Port) (w3 : Word) (s : State) : Host.Outcome State Fault Refusal :=
  live s fun h => cmdWrite h m q w3

/-! ## The start of a command (R445, R446) -/

/-- The Isund submits a device command to a channel's queue through its own share, or refuses it (R445). -/
def Hw.forwardTo (h : Hw) (c : ChanId) (x : Cmd) : Hw :=
  match (h.chan c).st with
  | .absent => h.refuse .device x rChAbsent
  | .active =>
    if h.credit (.chan c) .isund = 0 then (h.disarm .device x).refuse .device x rQueueLate
    else (h.hold .device x).enqueue (.chan c) 0 { x with by_ := .isund, parent := some (x.by_, x.tag), blob := [], held := false }
  | _ => h.refuse .device x rChState

/-- The channel that a number below 48 names, or channel 0. -/
def chanOr0 (n : Nat) : ChanId := (chanOf n).getD 0

/-- A queue's executor runs: the channel's Malot, or the Isund in RUN and BARE (R41, R441). -/
def Hw.executes (h : Hw) : Port → Bool
  | .device => decide (h.dev.boot.st = .run ∨ h.dev.boot.st = .bare) && !h.dev.isvStall
  | .chan c => (h.chan c).isActive && (h.chan c).mlt.run

/-- The oldest waiting command starts; the Isund forwards a channel command at once. -/
def Hw.startNext (h : Hw) (p : Port) : Hw :=
  match (h.queue p).wait with
  | [] => h
  | x :: t =>
    let h := h.onQueue p fun q => { q with wait := t, busyTill := h.now + portE p x.op }
    match p with
    | .device =>
      if isChanOp x.op && decide (x.op ≠ 0x10) then h.forwardTo (chanOr0 x.chan.toNat) x
      else h.onQueue p fun q => { q with run := q.run ++ [x] }
    | .chan _ => (h.onQueue p fun q => { q with run := q.run ++ [x] }).qLevels p

/-- CMD_START. -/
def execCmdStart (q : Port) (s : State) : Host.Outcome State Fault Refusal :=
  live s fun h => if h.executes q then h.startNext q else h

/-- NOP: DONE with SYSCNT[31:0] (R444). -/
def execNop (q : Port) (s : State) : Host.Outcome State Fault Refusal :=
  live s fun h => if h.executes q then h.carry q (fresh 0x00) fun x h => h.done q x (h.dev.sys.toNat % 2 ^ 32) else h

/-- A device KEY_LOAD is routed by its blob's CH byte (R208); in BARE the cipher is off (R409). -/
def Hw.route (h : Hw) (x : Cmd) : Hw :=
  let n := ((blobBytes x.blob).getD 1 0).toNat
  if h.dev.boot.st = .bare then h.refuse .device x rCipherOff
  else match chanOf n with
    | none => h.refuse .device x rBlobBind
    | some c =>
      if (h.chan c).isActive && decide (h.credit (.chan c) .isund ≠ 0) then
        (h.onChan c fun y => { y with cph := { y.cph with kbuf := x.blob.zipIdx.foldl (fun t e => tput 0 t e.2 e.1) [] } }).forwardTo c x
      else h.forwardTo c x

/-- DEVICE_KEY_LOAD. -/
def execDeviceKeyLoad (s : State) : Host.Outcome State Fault Refusal :=
  live s fun h => if h.executes .device then h.carry .device (fresh 0x10) fun x h => h.route x else h

/-! ## Completion registers (R441) -/

/-- A read beat of a completion register reaches a bank: only the submitters have one, and the port of a parked, ABSENT or DIAG
channel reads 0. -/
def Hw.portReads (h : Hw) (m : Master) : Port → Bool
  | .device => submits m
  | .chan c => submits m && (h.chan c).raises && decide ((h.chan c).st ≠ .diag)

/-- A read of CPL_LO latches the high word of the oldest completion; with none waiting it leaves no latch. -/
def Hw.cplLo (h : Hw) (m : Master) (p : Port) : Hw :=
  if !h.reaches m then h
  else
    let h := h.bmx m.id 0
    if !h.portReads m p then h
    else h.onQueue p fun q => q.onBank m fun b => { b with latch := b.cpl.head?.map fun (w : BitVec 64) => (w >>> 32).truncate 32 }

/-- A read of CPL_HI pops the completion whose high word is latched and returns its credit. -/
def Hw.cplHi (h : Hw) (m : Master) (p : Port) : Hw :=
  if !h.reaches m then h
  else
    let h := h.bmx m.id 0
    if !h.portReads m p || (((h.queue p).bank m).latch).isNone then h
    else (h.onQueue p fun q => q.onBank m fun b => { b with cpl := b.cpl.drop 1, latch := none, used := b.used - 1 }).qLevels p

/-- CPL_LO_READ. -/
def execCplLoRead (m : Master) (q : Port) (s : State) : Host.Outcome State Fault Refusal := live s (·.cplLo m q)
/-- CPL_HI_READ. -/
def execCplHiRead (m : Master) (q : Port) (s : State) : Host.Outcome State Fault Refusal := live s (·.cplHi m q)

end Sys2Proof.Machine
end

