-- ==== Sys2Proof/Machine/Keys.lean ====
section
/-!
DEFINITION. Machine/Keys.lean: the key commands of a channel (R203 to R213, R222), the key store's checks (R201), the rekey schedule
(R213), the arming of clear mode (R230) and LAT_REANCHOR (R244).
-/
namespace Sys2Proof.Machine

/-- A channel command carried out by its Malot: the oldest started one of the opcode (R441, R446). -/
def onCmd (s : State) (c : ChanId) (op : Byte) (f : Cmd → Hw → Hw) : Host.Outcome State Fault Refusal :=
  watched s c fun h => if h.executes (.chan c) then h.carry (.chan c) (fresh op) f else h

/-- The context a key command names. -/
def cmdCtx (x : Cmd) : Nat := fieldOf x.w1 15 0

/-- The cipher of a channel is disabled: a failed self-test, or BARE (R206). -/
def Hw.cipherOff (h : Hw) (c : ChanId) : Bool := (h.chan c).cph.katFail || decide (h.dev.boot.st = .bare)

/-! ## KEY_LOAD (R206) -/

/-- The key-wrapping key of the fuses (R392). -/
def Hw.kwk (h : Hw) : List Byte := (List.range 8).flatMap fun i => beBytes 4 (tget (0 : Word) h.dev.fuses.words (24 + i)).toNat

/-- The key check values R200 forbids to a new key of a slot. -/
def Ctx.usedKcvs (z : Ctx) (odd : Bool) : List (BitVec 24) :=
  let t := z.slot odd
  let o := z.slot (!odd)
  (if o.st = .empty then [] else [o.kcv]) ++ (if t.st = .empty then t.lastKcv.toList else [t.kcv])

/-- The outcome of the checks of a KEY_LOAD, in their order: the reason of the first that fails, or the key, its check value and
its serial. SLOT_CTX is compared whole: bits [14:12] that are not zero fail with BLOB_BIND, while reserved bytes 11 to 15 are
unchecked but by the equality with the wrapped header (DESIGN CHOICE, log entry 84). -/
def keyCheck (kwk : List Byte) (off : Bool) (chan : Nat) (z : Ctx) (n : Nat) (odd : Bool) (blob : List Byte) :
    Nat ⊕ (List Byte × BitVec 24 × Word) :=
  let hdr := blob.take 16
  let serial := beNat (slice hdr 4 4)
  if off then .inl rCipherOff
  else if kwk.all (· == 0) then .inl rKwkBlank
  else if slice hdr 0 4 ≠ [1, BitVec.ofNat 8 chan] ++ beBytes 2 (b2n odd * 32768 + n) then .inl rBlobBind
  else match unwrap kwk (slice blob 16 56) with
    | none => .inl rBlobUnwrap
    | some plain =>
      let key := slice plain 16 32
      if plain.take 16 ≠ hdr then .inl rBlobBind
      else if serial ≤ z.highSerial.toNat then .inl rKeySerial
      else if (z.slot odd).st = .current ∨ (z.slot odd).st = .draining then .inl rSlotBusy
      else if kcvOf key ≠ BitVec.ofNat 24 (beNat (slice hdr 8 3)) then .inl rKcvMismatch
      else if (z.usedKcvs odd).contains (kcvOf key) then .inl rKeyReuse
      else .inr (key, kcvOf key, BitVec.ofNat 32 serial)

/-- The state a slot takes at a load: CURRENT where TXP names an EMPTY slot and the other is not CURRENT, else STANDBY (R198, R199). -/
def Ctx.loadState (z : Ctx) (odd : Bool) : SlotSt :=
  if (z.slot odd).st = .empty ∧ odd = z.txp ∧ (z.slot (!odd)).st ≠ .current then .current else .standby

/-- A path's replay window of a slot is emptied. -/
def RxPath.forget (odd : Bool) (r : RxPath) : RxPath := if odd then { r with winO := {} } else { r with winE := {} }

/-- A circuit of a context after a load of one of its slots (R189, R191). -/
def Circ.loaded (odd : Bool) (y : Circ) : Circ :=
  let y := y.onPaths (RxPath.forget odd)
  let y := if odd then { y with eseqO := 0 } else { y with eseqE := 0 }
  if y.odd = odd then { y with aged := false, stopped := false } else y

/-- A key is stored (R189, R199). -/
def Hw.storeKey (h : Hw) (c : ChanId) (n : Nat) (odd : Bool) (key : List Byte) (kcv : BitVec 24) (serial : Word) : Hw :=
  let h := h.onCtx c n fun z =>
    let z := z.onSlot odd fun s => KeySlot.stamp { st := z.loadState odd, key := key, kcv := kcv, lastKcv := s.lastKcv, serial := serial, since := h.now }
    let z := if odd then { z with floorO := 0 } else { z with floorE := 0 }
    { z with highSerial := serial, staleRaised := z.staleRaised && decide ((z.slot (!odd)).st ≠ .current) }
  (h.onCtxCircs c n (Circ.loaded odd)).onChan c fun x => x.ksFlushAll fun r => decide (r.odd = odd ∧ (x.circ! r.circ).kctx = n)

/-- KEY_LOAD is carried out. -/
def Hw.keyLoad (h : Hw) (c : ChanId) (x : Cmd) : Hw :=
  let n := cmdCtx x
  let odd := bitOf x.w1 16
  match keyCheck h.kwk (h.cipherOff c) c.val ((h.chan c).ctx! n) n odd (blobBytes x.blob) with
  | .inl r => h.refuse (.chan c) x r
  | .inr k => (h.storeKey c n odd k.1 k.2.1 k.2.2).done (.chan c) x k.2.1.toNat

/-- KEY_LOAD. -/
def execKeyLoad (c : ChanId) (s : State) : Host.Outcome State Fault Refusal := onCmd s c 0x10 fun x h => h.keyLoad c x

/-! ## Zeroizing (R199, R207) -/

/-- The slots of a mask go to EMPTY: bit 0 even, bit 1 odd. -/
def Hw.zeroize (h : Hw) (c : ChanId) (n : Nat) (even odd : Bool) : Hw :=
  let h := if even then h.slotEmpty c n false else h
  let h := if odd then h.slotEmpty c n true else h
  h.levels c

/-- KEY_ZEROIZE. -/
def execKeyZeroize (c : ChanId) (s : State) : Host.Outcome State Fault Refusal :=
  onCmd s c 0x11 fun x h => (h.zeroize c (cmdCtx x) (bitOf x.w1 16) (bitOf x.w1 17)).done (.chan c) x 0

/-- KEY_ZEROIZE_ALL. -/
def execKeyZeroizeAll (c : ChanId) (s : State) : Host.Outcome State Fault Refusal :=
  onCmd s c 0x12 fun x h => ((h.chan c).cph.ctx.foldl (fun h e => h.zeroize c e.1 true true) h).done (.chan c) x 0

/-! ## Epochs (R209, R212, R213) -/

/-- AT_SEQ of an EPOCH_ADVANCE. -/
def cmdAtSeq (x : Cmd) : Seq := BitVec.ofNat 40 (fieldOf x.w3 7 0 * 2 ^ 32 + x.w2.toNat)

/-- EPOCH_ADVANCE is carried out: an AT_SEQ command completes at its arming, a NOW command when its switch completes. -/
def Hw.epochAdvance (h : Hw) (c : ChanId) (x : Cmd) : Hw :=
  let n := cmdCtx x
  let z := (h.chan c).ctx! n
  if h.cipherOff c then h.refuse (.chan c) x rCipherOff
  else if (z.slot (!z.txp)).st ≠ .standby then h.refuse (.chan c) x rNoStandby
  else if bitOf x.w1 24 then (h.done (.chan c) x 0).switchArm c n (some (cmdAtSeq x))
  else (h.hold (.chan c) x).switchArm c n none

/-- EPOCH_ADVANCE. -/
def execEpochAdvance (c : ChanId) (s : State) : Host.Outcome State Fault Refusal := onCmd s c 0x13 fun x h => h.epochAdvance c x

/-- OVERLAP has passed since a context's switch: its DRAINING slot becomes EMPTY. -/
def Hw.overlapEnd (h : Hw) (c : ChanId) (n : Nat) : Hw :=
  let z := (h.chan c).ctx! n
  let h := if z.even.st = .draining then h.slotEmpty c n false else h
  (if z.odd.st = .draining then h.slotEmpty c n true else h).levels c

/-- OVERLAP_EXPIRE. -/
def execOverlapExpire (c : ChanId) (x : CtxId) (s : State) : Host.Outcome State Fault Refusal :=
  onActive s c (·.overlapEnd c x.toNat)

/-- The integrity words of a context's slots are checked (R201), after a fault has changed bits of them. -/
def Hw.storeCheck (h : Hw) (c : ChanId) (n : Nat) (even odd : Word) : Hw :=
  let z := (h.chan c).ctx! n
  if z.even.corrupt even || z.odd.corrupt odd then h.trigger c.val 5 0x2E n else h

/-- KEYSTORE_CHECK. -/
def execKeystoreCheck (c : ChanId) (x : CtxId) (u : SlotUpsets) (s : State) : Host.Outcome State Fault Refusal :=
  onActive s c (·.storeCheck c x.toNat u.even u.odd)

/-- CK_CTRL cycles in a second. -/
def cyclesPerS : Nat := 400000000

/-- The slot of a context, if any, that has been CURRENT for PERIOD. -/
def Ctx.due (z : Ctx) (now period : Nat) : Option Bool :=
  let old := fun (s : KeySlot) => decide (s.st = .current ∧ period * cyclesPerS ≤ now - s.since)
  if old z.even then some false else if old z.odd then some true else none

/-- The schedule acts on one context, whose slot `odd` has been CURRENT for PERIOD (R213). The EPOCH_ADVANCE it issues is taken or
refused as R209 gives: where TXP names the STANDBY slot, with NO_STANDBY. -/
def Hw.schedule (h : Hw) (c : ChanId) (n : Nat) (odd : Bool) : Hw :=
  let z := (h.chan c).ctx! n
  if z.arm then h
  else if (z.slot (!odd)).st = .standby then
    (if h.cipherOff c || decide ((z.slot (!z.txp)).st ≠ .standby) then h else h.switchArm c n none)
  else if z.staleRaised then h
  else ((h.onCtx c n fun z => { z with staleRaised := true }).raiseChan c 5 clsN 0x26 n).evCph c 0x00040000

/-- The once-per-second check of every context. -/
def Hw.scheduleAll (h : Hw) (c : ChanId) : Hw :=
  let p := (h.chReg c 0x5004).toNat
  if p = 0 ∨ (h.chan c).mlt.run = false then h
  else (h.chan c).cph.ctx.foldl (fun h (e : Nat × Ctx) => match e.2.due h.now p with
    | some odd => h.schedule c e.1 odd
    | none => h) h

/-- KEY_SCHEDULE_CHECK. -/
def execKeyScheduleCheck (c : ChanId) (s : State) : Host.Outcome State Fault Refusal := onActive s c (·.scheduleAll c)

/-! ## Clear mode (R222, R230) -/

/-- The clear-mode-permitted mask has the channel's bit (R222, R392). -/
def Hw.clearPermit (h : Hw) (c : ChanId) : Bool := bitOf (tget (0 : Word) h.dev.fuses.words (34 + c.val / 32)) (c.val % 32)

/-- CLEAR_MODE is carried out: it consumes the arming, and an accepted one takes effect at the circuit's next block boundary. -/
def Hw.clearMode (h : Hw) (c : ChanId) (x : Cmd) : Hw :=
  let k : CircId := BitVec.ofNat 13 (fieldOf x.w1 15 0)
  let on := bitOf x.w1 16
  let armed := (h.chan c).cph.armed
  let en := ((h.chan c).circ! k).en
  let h := h.onChan c fun y => { y with cph := { y.cph with armed := false } }
  if on && !h.clearPermit c then h.refuse (.chan c) x rClearFuse
  else if on && !armed then h.refuse (.chan c) x rClearArm
  else if on && h.cipherOff c then h.refuse (.chan c) x rCipherOff
  else if !en then (if on then h.refuse (.chan c) x rPosInvalid else h.done (.chan c) x 0)
  else (h.hold (.chan c) x).onCirc c k fun y => { y with clearNext := some on }

/-- CLEAR_MODE. -/
def execClearMode (c : ChanId) (s : State) : Host.Outcome State Fault Refusal := onCmd s c 0x14 fun x h => h.clearMode c x

/-- CLR_ARM_WRITE: a write of CHn.CPH_CLR_ARM. -/
def clrArm (h : Hw) (m : Master) (c : ChanId) (d : Word) : Hw :=
  chBeat h m c 0x5008 .diagnostic fun h =>
    h.onChan c fun x => { x with cph := { x.cph with armed := decide (fieldOf d 31 16 = 0x434C) } }

/-- CLR_ARM_WRITE. -/
def execClrArmWrite (m : Master) (c : ChanId) (d : Word) (s : State) : Host.Outcome State Fault Refusal := live s fun h => clrArm h m c d

/-- CLR_ARM_EXPIRE: 100 ms have passed since the arming. -/
def execClrArmExpire (c : ChanId) (s : State) : Host.Outcome State Fault Refusal :=
  onActive s c fun h => h.onChan c fun x => { x with cph := { x.cph with armed := false } }

/-! ## LAT_REANCHOR (R244) -/

/-- LAT_REANCHOR is carried out: the anchor is cleared, and the command completes when a new one is set. -/
def Hw.latReanchor (h : Hw) (c : ChanId) (x : Cmd) : Hw :=
  let k : CircId := BitVec.ofNat 13 (fieldOf x.w1 15 0)
  match (h.chan c).reanchorBad k with
  | some r => h.refuse (.chan c) x r
  | none => (h.hold (.chan c) x).onCirc c k Circ.reanchor

/-- LAT_REANCHOR. -/
def execLatReanchor (c : ChanId) (s : State) : Host.Outcome State Fault Refusal := onCmd s c 0x30 fun x h => h.latReanchor c x

/-- REANCHOR_TIMEOUT: no block of the circuit has verified within the bound, so that no anchor is set. -/
def execReanchorTimeout (c : ChanId) (k : CircId) (s : State) : Host.Outcome State Fault Refusal :=
  onActive s c fun h =>
    if ((h.chan c).circ! k).anchor.isNone then h.finish (.chan c) (isReanchor k) stRefused rNoPath 0 else h

end Sys2Proof.Machine
end

