-- ==== Sys2Proof/Machine/Lanes.lean ====
section
/-!
DEFINITION. Machine/Lanes.lean: the commands of lanes and framers: LOS, framing, LOF and LOM (R103 to R128), received overhead
(R116 to R125), pointers (R143), failures (R125), transmit PLLs (R130), PRBS (R133 to R135), auto-negotiation (R82), lane queues
(R251, R252) and the eye scan (R481, R482).
-/
namespace Sys2Proof.Machine

/-- The answer of a command on a channel whose lanes run; a timing engine that selects again can end the cause of a quarantine. -/
def onLanesW (s : State) (c : ChanId) (f : Hw → Hw) : Host.Outcome State Fault Refusal :=
  watched s c fun h => if (h.chan c).lanesRun then f h else h

/-- The answer of a command on an ACTIVE channel that can change what its record registers show. -/
def onActiveW (s : State) (c : ChanId) (f : Hw → Hw) : Host.Outcome State Fault Refusal :=
  watched s c fun h => if (h.chan c).isActive then f h else h

/-! ## LOS, framing, LOF, LOM -/

/-- LOS_ENTRY. -/
def execLosEntry (c : ChanId) (p : Lane) (why : LosWhy) (words : Nat) (s : State) : Host.Outcome State Fault Refusal :=
  onLanesW s c (·.losIn c p (why == .cdrUnlock) words)

/-- A lane leaves LOS: transitions present and the CDR locked for 250 µs (R123, R126). -/
def Hw.losOut (h : Hw) (c : ChanId) (p : Lane) : Hw :=
  if !((h.chan c).lane p).def_ 15 then h
  else ((h.onLane c p fun l => { l.setDef 15 false with cdrLock := true }).laneSync h c p).lneSync h c p

/-- LOS_EXIT. -/
def execLosExit (c : ChanId) (p : Lane) (s : State) : Host.Outcome State Fault Refusal := onLanesW s c (·.losOut c p)

/-- FRAMING_PATTERN. -/
def execFramingPattern (c : ChanId) (p : Lane) (x : Pattern) (s : State) : Host.Outcome State Fault Refusal :=
  onLanesW s c (·.patternIn c p x)

/-- RUNAHEAD_HORIZON. -/
def execRunaheadHorizon (c : ChanId) (p : Lane) (words : Nat) (s : State) : Host.Outcome State Fault Refusal :=
  onLanesW s c (·.horizonEnd c p words)

/-- OOF has persisted for LOF_INT (R123): LOF. A hunting framer is out of frame whatever its OOF criterion counted (R108). -/
def Hw.lofIn (h : Hw) (c : ChanId) (p : Lane) : Hw :=
  let l := (h.chan c).lane p
  if l.def_ 13 || !(l.def_ 14 || decide (l.fr = .hunt ∨ l.fr = .presync)) then h
  else (h.onLane c p fun l => { l.setDef 13 true with lost := true }).laneSync h c p

/-- LOF_ENTRY. -/
def execLofEntry (c : ChanId) (p : Lane) (s : State) : Host.Outcome State Fault Refusal := onLanesW s c (·.lofIn c p)

/-- INFRAME has persisted for LOF_INT (R123): LOF clears, and the carriage checks begin (R91). -/
def Hw.lofOut (h : Hw) (c : ChanId) (p : Lane) : Hw :=
  let l := (h.chan c).lane p
  if !l.def_ 13 || decide (l.fr ≠ .inframe) then h
  else ((h.onLane c p fun l => l.setDef 13 false).carriageBegin c p).laneSync h c p

/-- LOF_EXIT. -/
def execLofExit (c : ChanId) (p : Lane) (s : State) : Host.Outcome State Fault Refusal := onLanesW s c (·.lofOut c p)

/-- OOM has persisted for 3 ms on an OTN lane (R104): LOM. -/
def Hw.lomIn (h : Hw) (c : ChanId) (p : Lane) : Hw :=
  let l := (h.chan c).lane p
  if l.def_ 12 || !l.integ.oom || !isOtn ((h.chan c).rate p) then h
  else (h.onLane c p fun l => { l.setDef 12 true with lost := true }).laneSync h c p

/-- LOM_ENTRY. -/
def execLomEntry (c : ChanId) (p : Lane) (s : State) : Host.Outcome State Fault Refusal := onLanesW s c (·.lomIn c p)

/-- IM has persisted for 3 ms (R104): LOM clears. -/
def Hw.lomOut (h : Hw) (c : ChanId) (p : Lane) : Hw :=
  let l := (h.chan c).lane p
  if !l.def_ 12 || l.integ.oom then h
  else ((h.onLane c p fun l => l.setDef 12 false).carriageBegin c p).laneSync h c p

/-- LOM_EXIT. -/
def execLomExit (c : ChanId) (p : Lane) (s : State) : Host.Outcome State Fault Refusal := onLanesW s c (·.lomOut c p)

/-! ## Overhead and pointers -/

/-- A frame is received: in INFRAME its overhead takes effect, in RUNAHEAD its effects wait for the commit (R111). -/
def Hw.frameIn (h : Hw) (c : ChanId) (p : Lane) (o : RxOh) : Hw :=
  let l := (h.chan c).lane p
  match l.fr with
  | .inframe => (h.applyOh c p o).laneSync h c p
  | .runahead => h.onLane c p fun l => { l with deferred := l.deferred ++ [o] }
  | _ => h

/-- RX_FRAME. -/
def execRxFrame (c : ChanId) (p : Lane) (o : RxOh) (s : State) : Host.Outcome State Fault Refusal := onLanesW s c (·.frameIn c p o)

/-- A pointer is interpreted; what it loses or regains follows (R83, R146). -/
def Hw.pointerIn (h : Hw) (c : ChanId) (p : Lane) (lvl : PtrLevel) (pos : Pos) (ind : PtrInd) (conc : Bool) : Hw :=
  let x := h.chan c
  if !(x.lane p).delivers || !isSdh (x.rate p) then h
  else (h.onChan c fun x => x.pointer p lvl pos ind conc).laneSync h c p

/-- POINTER_INTERVAL. -/
def execPointerInterval (c : ChanId) (p : Lane) (lvl : PtrLevel) (pos : Pos) (r : PtrRead) (s : State) :
    Host.Outcome State Fault Refusal :=
  onActiveW s c (·.pointerIn c p lvl pos r.ind r.conc)

/-! ## Failures (R125) -/

/-- The bit of a defect in CHn.FRM_DEFECT_p (R484). -/
def Defect.bit : Sys2Proof.Defect → Nat
  | .los => 15 | .oof => 14 | .lof => 13 | .lom => 12 | .ais => 11 | .rdi => 10 | .bdi => 9 | .tim => 8 | .plm => 7
  | .sd => 6 | .sf => 5 | .hiber => 4 | .lf => 3 | .rf => 2

/-- The Malot declares or clears a failure, if the defect is still as the failure's integration saw it. -/
def Hw.failure (h : Hw) (c : ChanId) (p : Lane) (d : Sys2Proof.Defect) (on : Bool) : Hw :=
  if !(h.chan c).mlt.run || ((h.chan c).lane p).def_ (Defect.bit d) != on then h
  else h.onLane c p fun l =>
    let b := BitVec.ofNat 16 (2 ^ Defect.bit d)
    { l with failures := if on then l.failures ||| b else l.failures &&& ~~~ b }

/-- FAILURE_DECLARE. -/
def execFailureDeclare (c : ChanId) (p : Lane) (d : Sys2Proof.Defect) (s : State) : Host.Outcome State Fault Refusal :=
  onActive s c (·.failure c p d true)

/-- FAILURE_CLEAR. -/
def execFailureClear (c : ChanId) (p : Lane) (d : Sys2Proof.Defect) (s : State) : Host.Outcome State Fault Refusal :=
  onActive s c (·.failure c p d false)

/-! ## Transmit PLLs (R130) -/

/-- A lane's transmit PLL loses lock: the transmitter idles, LOL counts (R481), and TXPLL is raised. -/
def Hw.txLoss (h : Hw) (c : ChanId) (p : Lane) : Hw :=
  if !((h.chan c).lane p).txLock then h
  else
    let off := laneReg p + 0x14
    let h' := (h.onLane c p fun l => { l with txLock := false, txIdle := true }).onChan c fun x =>
      x.setReg off (withField (x.reg off) 15 0 (fieldOf (x.reg off) 15 0 + 1))
    (h'.raiseChan c 1 clsH 0x02 p.num).lneSync h c p

/-- TXPLL. -/
def execTxpll (c : ChanId) (p : Lane) (s : State) : Host.Outcome State Fault Refusal := onLanesW s c (·.txLoss c p)

/-- The PLL has held lock for 1 ms: the transmitter resumes. -/
def Hw.txBack (h : Hw) (c : ChanId) (p : Lane) : Hw :=
  if ((h.chan c).lane p).txLock then h
  else (h.onLane c p fun l => { l with txLock := true, txIdle := false }).lneSync h c p

/-- TX_RESUME. -/
def execTxResume (c : ChanId) (p : Lane) (s : State) : Host.Outcome State Fault Refusal := onLanesW s c (·.txBack c p)

/-! ## PRBS (R133 to R135) -/

/-- CHN.PRT_PRBS_p of a lane. -/
def prbsReg (p : Lane) : Nat := laneReg p + 4

/-- The checker's settings: CHK_EN, INV and PATTERN; the codes 6 and 7 act as off. -/
def prbsSet (w : Word) : Bool × Bool × Nat :=
  (bitOf w 4, bitOf w 5, if 5 < fieldOf w 2 0 then 0 else fieldOf w 2 0)

/-- The checker runs. -/
def prbsOn (w : Word) : Bool := (prbsSet w).1 && decide ((prbsSet w).2.2 ≠ 0)

/-- The generator runs: GEN_EN with a pattern (R135). -/
def genOn (w : Word) : Bool := bitOf w 3 && decide ((prbsSet w).2.2 ≠ 0)

/-- The checker leaves sync outside a PRBS_SYNC_LOSS: what it counted in sync joins its counters, and how much that was no command
says: free values (R134, log entry 18). -/
def Hw.prbsStop (h : Hw) (c : ChanId) (p : Lane) : Hw :=
  if ((h.chan c).lane p).chkSync then
    let a := h.draw
    let b := a.2.draw
    ((b.2.onLane c p fun l => { l with chkSync := false }).count c 0x14 (2 * p.num) (min a.1.toNat b.1.toNat)).count c 0x14 (2 * p.num + 1) b.1.toNat
  else h

/-- A write beat to CHn.PRT_PRBS_p: ERR_INJ inverts one generated bit of a running generator and clears itself, and a changed
checker starts without sync (log entry 18). -/
def prbsWrite (h : Hw) (m : Master) (c : ChanId) (p : Lane) (d : Word) : Hw :=
  let h' := chFields h m c (prbsReg p) d
  let w := h'.chReg c (prbsReg p)
  let h' := h'.setChReg c (prbsReg p) (withField w 6 6 0)
  let h' := if bitOf w 6 && genOn w then h'.onLane c p fun l => { l with flips := l.flips + 1 } else h'
  if prbsSet w = prbsSet (h.chReg c (prbsReg p)) then h'
  else (h'.prbsStop c p).lneSync h c p

/-- PRBS_ERR_INJ. -/
def execPrbsErrInj (m : Master) (c : ChanId) (p : Lane) (d : Word) (s : State) : Host.Outcome State Fault Refusal :=
  live s fun h => prbsWrite h m c p d

/-- The checker gains sync (R134). -/
def Hw.prbsGain (h : Hw) (c : ChanId) (p : Lane) : Hw :=
  if prbsOn (h.chReg c (prbsReg p)) then (h.onLane c p fun l => { l with chkSync := true }).lneSync h c p else h

/-- PRBS_SYNC_GAIN. -/
def execPrbsSyncGain (c : ChanId) (p : Lane) (s : State) : Host.Outcome State Fault Refusal := onLanes s c (·.prbsGain c p)

/-- The checker loses sync; what it counted while in sync joins its counters (R134, log entry 18). -/
def Hw.prbsLoss (h : Hw) (c : ChanId) (p : Lane) (errBits chkBits : Nat) : Hw :=
  if ((h.chan c).lane p).chkSync then
    (((h.onLane c p fun l => { l with chkSync := false }).count c 0x14 (2 * p.num) errBits).count c 0x14 (2 * p.num + 1) chkBits).lneSync h c p
  else h

/-- PRBS_SYNC_LOSS. -/
def execPrbsSyncLoss (c : ChanId) (p : Lane) (errBits chkBits : Nat) (s : State) : Host.Outcome State Fault Refusal :=
  onLanes s c (·.prbsLoss c p errBits chkBits)

/-! ## Auto-negotiation (R82, R490) -/

/-- Clause 37 completes with the partner's base page, or starts again; the page's remote fault bits feed the lane's status
(R82, R123). -/
def Hw.autoNeg (h : Hw) (c : ChanId) (done : Bool) (page : BitVec 16) : Hw :=
  let x := h.chan c
  if x.rate .red ≠ 8 then h
  else
    let w := x.reg 0x4004
    let w := if done then withField (withField w 31 16 page.toNat) 15 15 1 else withField w 15 15 0
    let h' := h.setChReg c 0x4004 w
    let h' := if done then h'.onLane c .red fun l => l.setDef 2 (decide (page &&& 0x3000#16 ≠ 0)) else h'
    (h'.laneSync h c .red).evRcl c 0x00200000

/-- GE_AN_COMPLETE. -/
def execGeAnComplete (c : ChanId) (done : Bool) (page : BitVec 16) (s : State) : Host.Outcome State Fault Refusal :=
  onActiveW s c (·.autoNeg c done page)

/-! ## Queues (R251, R252, R258) -/

/-- A push without credit: the item is dropped, OVF is set, and LQ_OVF is raised. -/
def execLqOvf (c : ChanId) (q : Fin 15) (s : State) : Host.Outcome State Fault Refusal :=
  onActive s c fun h => (h.wmEvent c q.val 0x00200000).raiseChan c 6 clsH 0x31 q.val

/-- A transmit queue pops while empty: UNDERRUN is set, and LQ_UNDER is raised. -/
def execLqUnder (c : ChanId) (p : Lane) (s : State) : Host.Outcome State Fault Refusal :=
  onActive s c fun h => (h.wmEvent c (3 + p.num) 0x00400000).raiseChan c 6 clsH 0x32 p.num

/-! ## The eye scan (R481, R482) -/

/-- CHn.PRT_EYE_RES_k are all 0. -/
def Chan.eyeClear (x : Chan) : Chan := (List.range 64).foldl (fun x k => x.setReg (0x1100 + 4 * k) 0) x

/-- A write beat to CHn.PRT_EYE_CTL: GO starts a scan, and is turned away while one runs. -/
def eyeWrite (h : Hw) (m : Master) (c : ChanId) (d : Word) : Hw :=
  if bitOf (h.chReg c 0x10C8) 31 && bitOf d 31 then chBeat h m c 0x10C4 .plain fun h => h.ignored m .cfgRej (chAddr c 0x10C4)
  else
    let busy := bitOf (h.chReg c 0x10C8) 31
    let h := chFields h m c 0x10C4 d
    let w := h.chReg c 0x10C4
    if busy then h.setChReg c 0x10C4 (withField w 31 31 1)
    else if bitOf w 31 then
      let lane := if fieldOf w 29 28 = 3 then 0 else fieldOf w 29 28
      (h.onChan c Chan.eyeClear).setChReg c 0x10C8 (BitVec.ofNat 32 (2 ^ 31 + lane * 2 ^ 28 + fieldOf w 23 16 * 2 ^ 16))
    else h

/-- EYE_SCAN_START. -/
def execEyeScanStart (m : Master) (c : ChanId) (d : Word) (s : State) : Host.Outcome State Fault Refusal :=
  live s fun h => eyeWrite h m c d

/-- The scan ends: VALID is 1 unless the lane entered LOS. -/
def Hw.eyeEnd (h : Hw) (c : ChanId) (res : List (BitVec 16)) (los : Bool) : Hw :=
  if !bitOf (h.chReg c 0x10C8) 31 then h
  else h.onChan c fun x =>
    let x := res.zipIdx.foldl (fun (x : Chan) (e : BitVec 16 × Nat) => if e.2 < 64 then x.setReg (0x1100 + 4 * e.2) (e.1.zeroExtend 32) else x) x
    (x.setReg 0x10C4 (withField (x.reg 0x10C4) 31 31 0)).setReg 0x10C8 (withField (x.reg 0x10C8) 31 30 (b2n !los))

/-- EYE_SCAN_DONE. -/
def execEyeScanDone (c : ChanId) (res : List (BitVec 16)) (los : Bool) (s : State) : Host.Outcome State Fault Refusal :=
  onLanes s c (·.eyeEnd c res los)

end Sys2Proof.Machine
end

