-- ==== Sys2Proof/Machine/Mapper.lean ====
section
/-!
DEFINITION. Machine/Mapper.lean: the table port (R156 to R163, R170, R177 to R180, R227) and the bank swap's commands (R165, R171 to
R176).
-/
namespace Sys2Proof.Machine

/-! ## Table entries as words (R156, R164, R227) -/

/-- W0 to W3 of a Circuit Table entry, with their status bits. -/
def Chan.circWord (x : Chan) (y : Circ) : Nat → Word
  | 0 => y.w0
  | 1 => y.w1
  | 2 => y.w2 ||| BitVec.ofNat 32 (b2n y.live * 2048 + b2n y.quar * 1024 + b2n (decide (0 < y.kaLeft)) * 512 + b2n y.drain * 256)
  | _ => y.w3 ||| BitVec.ofNat 32 (((x.kindOf y).map (·.blkUs)).getD 0)

/-- W0 to W3 of a key-context status entry. -/
def Ctx.word (z : Ctx) : Nat → Word
  | 0 => BitVec.ofNat 32 (z.even.st.code * 2 ^ 29 + z.odd.st.code * 2 ^ 26 + b2n z.txp * 2 ^ 25 + b2n z.arm * 2 ^ 24 + z.even.kcv.toNat)
  | 1 => BitVec.ofNat 32 z.odd.kcv.toNat
  | 2 => z.even.serial
  | _ => z.odd.serial

/-! ## Operations of the table port -/

/-- Writable bits of W0 to W3, EN left out (R156). -/
def circMask : Nat → Word
  | 0 => 0x7CFFFFFF
  | 1 => 0xFFFFFFF8
  | _ => 0xFFFFF000

/-- The word MAP_TP_Di. -/
def Chan.tpD (x : Chan) (i : Nat) : Word := x.reg (0x3020 + 4 * i)

/-- The written words equal the stored entry in every writable field other than EN (R158). -/
def Chan.sameEntry (x : Chan) (y : Circ) : Bool :=
  decide (x.tpD 0 &&& circMask 0 = y.w0 &&& circMask 0 ∧ x.tpD 1 &&& circMask 1 = y.w1 ∧ x.tpD 2 &&& circMask 2 = y.w2 ∧ x.tpD 3 &&& circMask 3 = y.w3)

/-- What an operation leaves: the hardware, its RESULT, and its kind. -/
structure TpDone where
  hw : Hw
  result : Nat
  op : TpOp

/-- An accepted enable: the pointer generators over the circuit start with NDF (R147). -/
def Hw.enableCirc (h : Hw) (c : ChanId) (k : CircId) : Hw := (h.enable c k).onChan c fun x => x.genEnable (x.circ! k)

/-- A Circuit Table write (R158). -/
def Hw.circWrite (h : Hw) (m : Master) (c : ChanId) (off : Nat) (k : CircId) : TpDone :=
  let x := h.chan c
  let y := x.circ! k
  let en := bitOf (x.tpD 0) 31
  let rej : TpDone := { hw := h.ignored m .cfgRej (chAddr c off), result := rCfgRej, op := .write }
  if y.en then
    if en then rej
    else { hw := ((h.remove c k).switchCheck c y.kctx).swapCheck c, result := 0, op := .write }
  else if en then
    if !x.sameEntry y then { rej with hw := h }
    else match x.enableCheck k.toNat y with
      | some r => { hw := h, result := r, op := .write }
      | none => { hw := h.enableCirc c k, result := 0, op := .enable k }
  else
    { hw := h.onCirc c k fun y =>
        { y with w0 := x.tpD 0 &&& circMask 0, w1 := x.tpD 1 &&& circMask 1, w2 := x.tpD 2 &&& circMask 2, w3 := x.tpD 3 &&& circMask 3 }
      result := 0, op := .write }

/-- A Slot Map write (R170). -/
def Hw.slotWrite (h : Hw) (m : Master) (c : ChanId) (off : Nat) (b : Bool) (i : Nat) : TpDone :=
  let x := h.chan c
  let v : BitVec 16 := (x.tpD 0).truncate 16
  if x.map.enc = b ∨ x.map.dec = b then { hw := h.ignored m .cfgRej (chAddr c off), result := rCfgRej, op := .write }
  else if x.map.pending then { hw := h.ignored m .mapBusy (chAddr c off), result := rMapBusy, op := .write }
  else
    { hw := h.onChan c fun x => { x with map :=
        if b then { x.map with bankB := tput 0 x.map.bankB i v } else { x.map with bankA := tput 0 x.map.bankA i v } }
      result := 0, op := .write }

/-- A read: the data registers take the entry. -/
def Chan.tpFetch (x : Chan) (t i : Nat) : Chan :=
  let put := fun (x : Chan) (f : Nat → Word) => (List.range 4).foldl (fun x j => x.setReg (0x3020 + 4 * j) (f j)) x
  if t = 0 then put x (x.circWord (tget {} x.circ i))
  else if t = 3 then put x (x.ctx! i).word
  else put x fun j => if j = 0 then (x.slot (decide (t = 2)) i).zeroExtend 32 else 0

/-- An operation starts on the addressed entry: its effect happens, and its RESULT waits for its end. A write of the key-context status
with an INDEX above 4,095 fails with POS_INVALID: the INDEX is checked first (DESIGN CHOICE, log entry 83). -/
def Hw.tpRun (h : Hw) (m : Master) (c : ChanId) (off : Nat) (write : Bool) : Hw :=
  let a := h.chReg c 0x3014
  let t := fieldOf a 31 30
  let i := fieldOf a 16 0
  let d : TpDone :=
    if tpLast t < i then { hw := h, result := rPosInvalid, op := if write then .write else .read }
    else if !write then { hw := h.onChan c fun x => x.tpFetch t i, result := 0, op := .read }
    else if t = 0 then h.circWrite m c off (BitVec.ofNat 13 i)
    else if t = 3 then { hw := h, result := rCfgRej, op := .write }
    else h.slotWrite m c off (decide (t = 2)) i
  let h' := d.hw.onChan c fun x => { x with map := { x.map with tpOp := some d.op, tpNext := BitVec.ofNat 8 d.result } }
  (h'.pswInputs c).defSync h c

/-! ## The port's registers (R177 to R180) -/

/-- OWNER codes; 0 for a master that cannot claim the port. -/
def tpCode : Master → BitVec 3
  | .pf0 => 1 | .isund => 3 | .malot => 4 | _ => 0

/-- A write of CLAIM (R177). A write to any port register while BUSY is 1 is turned away (R180). PF1's claim is turned away twice,
as a claim of a master that may not own the port and as a guarded write, in one event. -/
def tpLock (h : Hw) (m : Master) (c : ChanId) (claim : Bool) : Hw :=
  if m = .pf1 ∧ claim = true ∧ h.reaches m = true then (h.flagged m 0x18 (chAddr c 0x3010)).bmx m.id 8
  else chBeat h m c 0x3010 .guarded fun h =>
    let x := h.chan c
    if x.map.tpOp.isSome then h.ignored m .cfgRej (chAddr c 0x3010)
    else if claim then
      if tpCode m = 0 then h.ignored m .cfgRej (chAddr c 0x3010)
      else if x.map.tpOwner = 0 then h.onChan c fun x => { x with map := { x.map with tpOwner := tpCode m } }
      else h
    else if x.map.tpOwner = tpCode m then h.onChan c fun x => { x with map := { x.map with tpOwner := 0 } }
    else h

/-- A write beat to a port register that only the owner may write: another master's write sets TP_BUSY (R177), and one while
BUSY is 1 flags CFG_REJ (R180). -/
def tpBeat (h : Hw) (m : Master) (c : ChanId) (off : Nat) (f : Hw → Hw) : Hw :=
  chBeat h m c off .guarded fun h =>
    let x := h.chan c
    let h := if tpCode m = 0 ∨ x.map.tpOwner ≠ tpCode m then h.onChan c fun x => { x with map := { x.map with tpBusy := true } } else h
    if x.map.tpOp.isSome then h.ignored m .cfgRej (chAddr c off)
    else if tpCode m = 0 ∨ x.map.tpOwner ≠ tpCode m then h
    else f h

/-- A write of CHn.MAP_TP_CTL. -/
def tpCtl (h : Hw) (m : Master) (c : ChanId) (d : Word) : Hw :=
  tpBeat h m c 0x3018 fun h =>
    let h := h.setChReg c 0x3018 (d &&& 0x0000001B)
    if bitOf d 0 then
      (h.onChan c fun x => { x with map := { x.map with tpBusy := false } }).tpRun m c 0x3018 (bitOf d 1)
    else h

/-- A write of CHn.MAP_TP_D0: with TRIG set it starts a write, for Slot Map tables only (R179). -/
def tpD0 (h : Hw) (m : Master) (c : ChanId) (d : Word) : Hw :=
  tpBeat h m c 0x3020 fun h =>
    let h := h.setChReg c 0x3020 d
    let t := h.chField c 0x3014 31 30
    if bitOf (h.chReg c 0x3018) 4 && decide (t = 1 ∨ t = 2) then h.tpRun m c 0x3020 true else h

/-- A write of CHn.MAP_TP_ADDR or of a further data register. -/
def tpPlain (h : Hw) (m : Master) (c : ChanId) (off : Nat) (d : Word) : Hw :=
  tpBeat h m c off fun h => h.setChReg c off (if off = 0x3014 then d &&& 0xC001FFFF else d)

/-- TP_CLAIM. -/
def execTpClaim (m : Master) (c : ChanId) (s : State) : Host.Outcome State Fault Refusal := live s fun h => tpLock h m c true

/-- TP_RELEASE. -/
def execTpRelease (m : Master) (c : ChanId) (s : State) : Host.Outcome State Fault Refusal := live s fun h => tpLock h m c false

/-- TP_READ: a write of CHn.MAP_TP_CTL. -/
def execTpRead (m : Master) (c : ChanId) (ctl : Word) (s : State) : Host.Outcome State Fault Refusal :=
  watched s c fun h => tpCtl h m c ctl

/-- TP_WRITE: a write of CHn.MAP_TP_CTL with GO and OP 1, or of CHn.MAP_TP_D0 under TRIG. -/
def execTpWrite (m : Master) (c : ChanId) (x : TpStart) (s : State) : Host.Outcome State Fault Refusal :=
  watched s c fun h =>
    match x with
    | .go ctl => tpCtl h m c ctl
    | .trig d0 => tpD0 h m c d0

/-- TP_OP_DONE: BUSY clears and RESULT is written. -/
def execTpOpDone (c : ChanId) (s : State) : Host.Outcome State Fault Refusal := live s fun h => h.onChan c Chan.tpEnd

/-! ## Bank swaps -/

/-- The positions of every configured fractional circuit of a kind. -/
def Chan.confTribs (x : Chan) (kind : Nat) : List Pos := ((x.circ.filter fun e => decide (e.2.kind = kind)).map fun e => e.2.pos).dedup

/-- A bank breaks R165 at a tributary. -/
def Chan.roleBad (x : Chan) (b : Bool) (kind : Nat) (p : Pos) : Bool :=
  (List.range (tuWidth kind)).any fun s =>
    let e := x.slot b (posIndex kind p + s)
    let y := tget ({} : Circ) x.circ (slotCirc e)
    slotV e &&
      (if framingSlot kind (x.tribTfmt kind p) s then decide (slotRole e ≤ 1)
        else decide (slotRole e = 3) || (decide (slotRole e ≤ 1) && !decide (y.kind = kind ∧ y.pos = p)))

/-- The checks of a MAP_SWAP against the shadow bank (R171): SLOT_ROLE, then numbering and admission of every enabled circuit. -/
def Chan.swapRefusal (x : Chan) : Option Nat :=
  let b := !x.map.enc
  if (x.confTribs 8).any (x.roleBad b 8) || (x.confTribs 9).any (x.roleBad b 9) then some rSlotRole
  else x.circ.findSome? fun e => if e.2.en then x.admission b e.1 e.2 else none

/-- A swap is armed: PENDING, SWAP_TO is taken (R181), and every tributary still maps under the old bank (R172). -/
def Chan.swapArm (x : Chan) (now : Nat) : Chan :=
  let old := x.map.enc
  { x with map := { x.map with
      pending := true, encWas := old, acceptedAt := now, swapTo := clamp 1 1000 (fieldOf (x.reg 0x3000) 9 0)
      swaps := x.fracTribs.foldl (fun t p => tput {} t p.key { tget {} t p.key with encB := old, followed := false }) x.map.swaps } }

/-- MAP_SWAP on a channel (R171); without fractional tributaries the swap completes at once (R172). -/
def Hw.swapStart (h : Hw) (c : ChanId) : Hw :=
  h.carry (.chan c) (fresh 0x20) fun x h =>
    if (h.chan c).map.pending then h.refuse (.chan c) x rMapBusy
    else match (h.chan c).swapRefusal with
      | some r => h.refuse (.chan c) x r
      | none => ((h.onChan c (·.swapArm h.now)).hold (.chan c) x).swapCheck c

/-- MAP_SWAP. -/
def execMapSwap (c : ChanId) (s : State) : Host.Outcome State Fault Refusal := onActive s c (·.swapStart c)

/-- A sub-circuit's holds are reserved anew under a bank; one that no longer fits is starved (R249, R250), and an armed switch no longer
waits for it (R209). -/
def Hw.rereserve (h : Hw) (c : ChanId) (b : Bool) (k : CircId) : Hw :=
  let x := h.chan c
  let y := x.circ! k
  if y.starved then h
  else if x.holdsFit b k.toNat y then h.onCirc c k fun y => { y with reserved := x.need b k.toNat y }
  else
    let h := h.onCirc c k fun y => { (y.onPaths RxPath.halt).unanchor with starved := true, live := false, reserved := 0 }
    ((h.raiseChan c 6 clsN 0x30 k.toNat).evLat c 0x00400000).switchCheck c y.kctx

/-- A tributary's encrypt side switches to the new bank at a block boundary at least 4 blocks after its previous swap (R172). -/
def Hw.tribSwitch (h : Hw) (c : ChanId) (pos : Pos) : Hw :=
  let x := h.chan c
  let t : TribSwap := tget {} x.map.swaps pos.key
  let new := !x.map.encWas
  if !x.map.pending || !x.fracTribs.contains pos || t.encB == new || decide (t.blocksSince < 4) then h
  else
    let h := h.onChan c fun x => { x with map := { x.map with swaps := tput {} x.map.swaps pos.key { t with encB := new, blocksSince := 0 } } }
    let h := x.circ.foldl (fun h e => if e.2.en && isFrac e.2.kind && decide (e.2.pos = pos) then h.rereserve c new (BitVec.ofNat 13 e.1) else h) h
    h.swapCheck c

/-- TRIB_BANK_SWITCH. -/
def execTribBankSwitch (c : ChanId) (pos : Pos) (s : State) : Host.Outcome State Fault Refusal := onActive s c (·.tribSwitch c pos)

/-- MAP_SKEW is raised for a Slot Map index (R174, R175). -/
def Hw.skew (h : Hw) (c : ChanId) (index : Nat) : Hw := (h.raiseChan c 3 clsN 0x12 index).evMap c 0x00400000

/-- The Slot Map index of timeslot 0 of a fractional tributary. -/
def Chan.tribIndex (x : Chan) (pos : Pos) : Nat := posIndex (x.tribKind pos) pos

/-- The lowest index among the tributaries that have not followed; 0 with none. -/
def Chan.lowestLag (x : Chan) : Nat :=
  (((x.fracTribs.filter fun t => !(tget {} x.map.swaps t.key).followed).map x.tribIndex).min?).getD 0

/-- SWAP_TO has passed: the swap is forced (R174). -/
def Hw.swapForce (h : Hw) (c : ChanId) : Hw :=
  if (h.chan c).map.pending then (h.skew c (h.chan c).lowestLag).swapDone c true else h

/-- MAP_SWAP_FORCED. -/
def execMapSwapForced (c : ChanId) (s : State) : Host.Outcome State Fault Refusal := onActive s c (·.swapForce c)

/-- Foreign epochs for SWAP_TO with no swap pending (R175). -/
def execMapSkewTimeout (c : ChanId) (pos : Pos) (s : State) : Host.Outcome State Fault Refusal :=
  onActive s c fun h =>
    let x := h.chan c
    if x.map.pending || !x.fracTribs.contains pos then h else h.skew c (x.tribIndex pos)

end Sys2Proof.Machine
end

