-- ==== Sys2Proof/Machine/Pm.lean ====
section
/-!
DEFINITION. Machine/Pm.lean: the performance data of a channel's lanes (R498, R499, R503). A PM_SECOND command brings the second
that has just ended; the one that ended 10 s before it is then decided (log entry 35).
-/
namespace Sys2Proof.Machine

/-- The near end or the far end of one second of a lane. -/
structure PmEnd where
  blocks : Nat
  errored : Nat
  defect : Bool
deriving DecidableEq, Repr

/-- The end `i` of a second: the near end of lane i below 3, the far end of lane i − 3 above. Ethernet lanes have no far end. -/
def pmEnd (eth : Fin 3 → Bool) (s : Vector PmSec 3) (i : Fin 6) : PmEnd :=
  let p : Fin 3 := ⟨i.val % 3, Nat.mod_lt _ (by omega)⟩
  let x : PmSec := s[p]
  if i.val < 3 then { blocks := x.blocks, errored := x.errored, defect := x.defect }
  else if eth p then { blocks := x.blocks, errored := 0, defect := false }
  else { blocks := x.blocks, errored := x.feErrored, defect := x.feDefect }

/-- The second is severely errored. -/
def PmEnd.ses (e : PmEnd) : Bool := e.defect || (decide (0 < e.errored) && decide (30 * e.blocks ≤ 100 * e.errored))

/-- What a decided second adds to ES, SES, BBE and UAS. -/
def PmEnd.adds (e : PmEnd) (unavail : Bool) : List Nat :=
  if unavail then [0, 0, 0, 1]
  else [b2n (e.defect || decide (0 < e.errored)), b2n e.ses, if e.ses then 0 else e.errored, 0]

/-- Lane p carries Ethernet. -/
def Chan.pmEth (x : Chan) (p : Fin 3) : Bool := decide (8 ≤ x.rate (laneOf p.val))

/-- The unavailability of an end after a second, whose nine successors are known: it begins with the first of 10 consecutive
SES and ends before the first of 10 consecutive seconds that are not SES. -/
def pmUnavail (was : Bool) (run : List Bool) : Bool := if was then run.any id else run.all id

/-- CHn.MLT_PMCUR_p_c. -/
def pmCur (p k : Nat) : Nat := 0x9040 + 0x20 * p + 4 * k
/-- CHn.MLT_PMPRV_p_c. -/
def pmPrv (p k : Nat) : Nat := 0x90A0 + 0x20 * p + 4 * k
/-- CHn.MLT_TCA_c. -/
def pmTca (k : Nat) : Nat := 0x9020 + 4 * k

/-- A register that counts, saturating. -/
def Chan.addReg (x : Chan) (off n : Nat) : Chan := x.setReg off (BitVec.ofNat 32 (satAdd 0xFFFFFFFF (x.reg off).toNat n))

/-- Parameter `k` of lane `p` counts `n` in the interval in which the second ended, and in its cumulative counter. -/
def Chan.pmAdd (x : Chan) (old p k n : Nat) : Chan :=
  let y := x.count 0x20 (16 * p + 5 + k) n
  if old = 0 then y.addReg (pmCur p k) n else if old = 1 then y.addReg (pmPrv p k) n else y

/-- A count of the current interval that has reached THR sets its HIT bit; with a bit set, MLT_EVT.TCA. -/
def Hw.pmHits (h : Hw) (c : ChanId) : Hw :=
  let hit := fun (x : Chan) (p k : Nat) =>
    let t := fieldOf (x.reg (pmTca k)) 19 0
    decide (t ≠ 0 ∧ t ≤ (x.reg (pmCur p k)).toNat) && !bitOf (x.reg (pmTca k)) (29 + p)
  let new := ((List.range 3).flatMap fun p => (List.range 8).map fun k => (p, k)).filter fun (e : Nat × Nat) => hit (h.chan c) e.1 e.2
  if new.isEmpty then h
  else (h.onChan c fun x => new.foldl (fun (x : Chan) (e : Nat × Nat) => x.setReg (pmTca e.2) (withField (x.reg (pmTca e.2)) (29 + e.1) (29 + e.1) 1)) x).evMlt c 0x00400000

/-- The oldest waiting second is decided, once ten later ones are known. -/
def Hw.pmDecide (h : Hw) (c : ChanId) : Hw :=
  let x := h.chan c
  match x.mlt.wait with
  | [] => h
  | w :: rest =>
    if rest.length < 10 then h
    else
      let ses := fun (i : Fin 6) (e : PmWait) => (pmEnd x.pmEth e.sec i).ses
      let un : Vector Bool 6 := Vector.ofFn fun i => pmUnavail x.mlt.unavail[i] ((w :: rest.take 9).map (ses i))
      let add := fun (x : Chan) (i : Fin 6) =>
        ((pmEnd x.pmEth w.sec i).adds un[i]).zipIdx.foldl (fun (y : Chan) (e : Nat × Nat) => y.pmAdd w.old (i.val % 3) (4 * (i.val / 3) + e.2) e.1) x
      let y := (List.finRange 6).foldl add x
      (h.setChan c { y with mlt := { y.mlt with wait := rest, unavail := un } }).pmHits c

/-- A second ends. While the Malot is stalled it is missed, and the interval is suspect. -/
def Hw.pmSec (h : Hw) (c : ChanId) (s : Vector PmSec 3) : Hw :=
  if !(h.chan c).mlt.run then h.onChan c fun x => { x with mlt := { x.mlt with csus := true } }
  else
    (h.onChan c fun x => { x with mlt := { x.mlt with wait := x.mlt.wait ++ [{ sec := s }], sec := min 899 (x.mlt.sec + 1) } }).pmDecide c

/-- PM_SECOND. -/
def execPmSecond (c : ChanId) (red bkw bkp : PmSec) (s : State) : Host.Outcome State Fault Refusal :=
  onActive s c fun h => h.pmSec c #v[red, bkw, bkp]

/-- The interval ends: PMPRV takes PMCUR, PMCUR and HIT are cleared, and IVL is set. -/
def Hw.pmEndIvl (h : Hw) (c : ChanId) (suspect : Bool) : Hw :=
  let h := h.onChan c fun x =>
    let y := ((List.range 3).flatMap fun p => (List.range 8).map fun k => (p, k)).foldl (fun (y : Chan) (e : Nat × Nat) =>
      (y.setReg (pmPrv e.1 e.2) (y.reg (pmCur e.1 e.2))).setReg (pmCur e.1 e.2) 0) x
    let y := (List.range 8).foldl (fun (y : Chan) k => y.setReg (pmTca k) (withField (y.reg (pmTca k)) 31 29 0)) y
    let m : Mlt := { y.mlt with sec := 0, psus := y.mlt.csus || suspect, csus := false, wait := y.mlt.wait.map fun w => { w with old := w.old + 1 } }
    { y with mlt := m }
  h.evMlt c 0x00800000

/-- PM_INTERVAL_END: the interval has lasted 900 s. -/
def execPmIntervalEnd (c : ChanId) (s : State) : Host.Outcome State Fault Refusal := onActive s c fun h => h.pmEndIvl c false

/-- A write beat to CHn.MLT_PMCTL: SYNC ends the interval now. -/
def pmctlWrite (h : Hw) (m : Master) (c : ChanId) (d : Word) : Hw :=
  chBeat h m c 0x9004 .plain fun h => if bitOf d 31 && (h.chan c).isActive then h.pmEndIvl c true else h

/-- PM_SYNC. -/
def execPmSync (m : Master) (c : ChanId) (s : State) : Host.Outcome State Fault Refusal :=
  live s fun h => pmctlWrite h m c 0x80000000

end Sys2Proof.Machine
end

