-- ==== Sys2Proof/Machine/Timing.lean ====
section
/-!
DEFINITION. Machine/Timing.lean: the commands of the root clock, SYSCNT and its alarms, the synthesizers and the station engine (R290
to R319, R465, R466).
-/
namespace Sys2Proof.Machine

/-! ## The root (R292 to R296) -/

/-- Change the root's state. -/
def Hw.onRoot (h : Hw) (f : Root → Root) : Hw := h.onDev fun d => { d with root := f d.root }

/-- Every engine: root hold begins or ends (R293, R294). -/
def Hw.onEngines (h : Hw) (f : Eng → Eng) : Hw :=
  (h.onAll fun _ x => { x with tim := { x.tim with b := f x.tim.b, r := f x.tim.r } }).onDev fun d =>
    { d with stn := { d.stn with eng := f d.stn.eng } }

/-- Windows in progress are discarded (R293). So is the run of completed windows beyond THR: at the relock the three-window count of
R304 begins anew (DESIGN CHOICE, log entry 88). -/
def Cand.newWindows (k : Cand) : Cand := { k with overRun := 0 }

/-- The root PLL freezes its control word (R293); a freeze that is in force goes on. -/
def Hw.freezeRoot (h : Hw) : Hw :=
  let r := h.dev.root
  if r.hold && !r.slew then h
  else
    let h := h.onRoot fun r => { r with hold := true, slew := false, pllLock := false }
    let h := h.onEngines fun e => { e with rootHold := true }
    h.devEvent 0x3004 22 0x00800000

/-- The root PLL has locked since power-up, so that its monitor has a lock to lose (log entry 4). -/
def Hw.rootRuns (h : Hw) : Bool := h.dev.root.pllLock || h.dev.root.hold

/-- ROOT_STOP: no ROOT_CLK edge. One message per episode (R292). -/
def Hw.rootStops (h : Hw) : Hw :=
  if !h.rootRuns then h
  else
    let h := if h.dev.root.epStop then h else h.raiseSpine 16 clsD 0x48 0
    (h.onRoot fun r => { r with epStop := true, rootOk := false }).freezeRoot

/-- ROOT_GLITCH: a short phase of ROOT_CLK. -/
def Hw.rootGlitches (h : Hw) : Hw :=
  if !h.rootRuns then h
  else
    let h := if h.dev.root.epGlitch then h else h.raiseSpine 16 clsD 0x49 0
    (h.onRoot fun r => { r with epGlitch := true, rootOk := false }).freezeRoot

/-- ROOT_UNLOCK: the lock detector of a PLL that is not frozen declares loss of lock. -/
def Hw.rootUnlocks (h : Hw) : Hw :=
  if !(h.dev.root.pllLock || h.dev.root.slew) then h
  else
    let h := if h.dev.root.epUnlock then h else h.raiseSpine 16 clsD 0x4A 0
    (h.onRoot fun r => { r with epUnlock := true }).freezeRoot

/-- BACKUP_OSC: the backup oscillator is out of its range while the root PLL is locked; BKP_OK falls. -/
def Hw.backupBad (h : Hw) : Hw :=
  if !h.dev.root.pllLock || !h.dev.root.bkpOk then h
  else
    let h := if h.dev.root.epBkp then h else h.raiseSpine 16 clsD 0x4B 0
    (h.onRoot fun r => { r with epBkp := true, bkpOk := false }).devEvent 0x3004 22 0x00200000

/-- The backup oscillator measures inside its range again: BKP_OK rises, and the episode ends. -/
def Hw.backupGood (h : Hw) : Hw := h.onRoot fun r => { r with bkpOk := true, epBkp := false }

/-- ROOT_CLK has been present and free of glitches for 10 ms: ROOT_OK, the ends of both episodes, and a frozen PLL slews toward its
input (R292, R294). -/
def Hw.rootRecovers (h : Hw) : Hw :=
  if !h.dev.root.hold then h
  else h.onRoot fun r => { r with rootOk := true, slew := true, epStop := false, epGlitch := false }

/-- The slewing PLL has locked again: SLEW and HOLD clear, and every engine starts fresh windows (R294). -/
def Hw.rootRelocks (h : Hw) : Hw :=
  if !h.dev.root.slew then h
  else
    let h := h.onRoot fun r => { r with hold := false, slew := false, pllLock := true, epUnlock := false }
    let h := h.onEngines fun e => { e with rootHold := false, round := [] }
    let h := h.onAll fun _ x => { x with tim := { x.tim with cand := x.tim.cand.map Cand.newWindows } }
    let h := h.onDev fun d => { d with stn := { d.stn with inp := d.stn.inp.map Cand.newWindows } }
    h.devEvent 0x3004 22 0x00400000

/-- ROOT_STOP. -/
def execRootStop (s : State) : Host.Outcome State Fault Refusal := watchedAll s Hw.rootStops
/-- ROOT_GLITCH. -/
def execRootGlitch (s : State) : Host.Outcome State Fault Refusal := watchedAll s Hw.rootGlitches
/-- ROOT_UNLOCK. -/
def execRootUnlock (s : State) : Host.Outcome State Fault Refusal := watchedAll s Hw.rootUnlocks
/-- BACKUP_OSC. -/
def execBackupOsc (s : State) : Host.Outcome State Fault Refusal := watchedAll s Hw.backupBad
/-- BACKUP_OSC_OK. -/
def execBackupOscOk (s : State) : Host.Outcome State Fault Refusal := watchedAll s Hw.backupGood
/-- ROOT_RECOVER. -/
def execRootRecover (s : State) : Host.Outcome State Fault Refusal := watchedAll s Hw.rootRecovers
/-- ROOT_RELOCK. -/
def execRootRelock (s : State) : Host.Outcome State Fault Refusal := watchedAll s Hw.rootRelocks
/-- CLK_GLITCH: a shortened cycle triggers Midwinter (R295). -/
def execClkGlitch (s : State) : Host.Outcome State Fault Refusal := live s fun h => h.trigger 63 16 0x4F 0

/-! ## SYSCNT and its alarms (R465, R466) -/

/-- SYSCNT_WRAP. -/
def execSyscntWrap (s : State) : Host.Outcome State Fault Refusal :=
  live s fun h => if h.dev.root.everLocked then h.devEvent 0x5034 46 0x00800000 else h

/-- A write of DEV.SCT_ALM_a: every write arms the alarm. -/
def alarmWrite (h : Hw) (m : Master) (a : Fin 4) (d : Word) : Hw :=
  devBeat h m (0x5040 + 4 * a.val) .plain fun h =>
    (h.setDevReg (0x5040 + 4 * a.val) d).onDev fun x => { x with armed := x.armed.set a.val true }

/-- SCT_ALARM_WRITE. -/
def execSctAlarmWrite (m : Master) (a : Fin 4) (d : Word) (s : State) : Host.Outcome State Fault Refusal :=
  live s fun h => alarmWrite h m a d

/-- An armed alarm's target has come: FIRE is set and ARMED clears. -/
def Hw.alarmFire (h : Hw) (a : Fin 4) : Hw :=
  if h.dev.armed[a] then
    (h.onDev fun x => { x with armed := x.armed.set a.val false }).devEvent (0x5050 + 4 * a.val) (47 + a.val) 0x00800000
  else h

/-- SCT_ALARM_FIRE. -/
def execSctAlarmFire (a : Fin 4) (s : State) : Host.Outcome State Fault Refusal := live s (·.alarmFire a)

/-! ## Engines by name -/

/-- An engine. -/
def Hw.eng (h : Hw) : Engine → Eng
  | .synB c => (h.chan c).tim.b
  | .synR c => (h.chan c).tim.r
  | .stn => h.dev.stn.eng

/-- Change an engine. -/
def Hw.onEng (h : Hw) (e : Engine) (f : Eng → Eng) : Hw :=
  match e with
  | .synB c => h.onSyn c false f
  | .synR c => h.onSyn c true f
  | .stn => h.onDev fun d => { d with stn := { d.stn with eng := f d.stn.eng } }

/-- An engine runs: its channel is ACTIVE; the station engine always (R319). -/
def Hw.engRuns (h : Hw) : Engine → Bool
  | .synB c => (h.chan c).isActive
  | .synR c => (h.chan c).isActive
  | .stn => true

/-- The answer of an event of a running engine; a synthesizer's state can be the cause of a quarantine. -/
def onEngine (s : State) (e : Engine) (f : Hw → Hw) : Host.Outcome State Fault Refusal :=
  match e with
  | .synB c => watched s c fun h => if h.engRuns e then f h else h
  | .synR c => watched s c fun h => if h.engRuns e then f h else h
  | .stn => live s f

/-- An engine changed state: its event, and the station outputs. -/
def Hw.engEvent (h : Hw) : Engine → Hw
  | .synB c => h.evTim c 0x00800000
  | .synR c => h.evTim c 0x00400000
  | .stn => (h.devEvent 0x300C 23 0x00800000).stnOutputs

/-- The synthesizer bit of a message address. -/
def synBit : Engine → Nat
  | .synR _ => 2 ^ 23
  | _ => 0

/-- An ACQUIRING engine locks (R309). -/
def Hw.engLock (h : Hw) (e : Engine) : Hw :=
  if decide ((h.eng e).st = .acquiring) && !h.rootHeld then
    (h.onEng e fun g => { g with st := .locked, everLocked := true, unl := false }).engEvent e
  else h

/-- SYN_LOCKED. -/
def execSynLocked (e : Engine) (s : State) : Host.Outcome State Fault Refusal := onEngine s e (·.engLock e)

/-- An engine has not locked within 10 s: it stays ACQUIRING, and a synthesizer raises SYN_UNLOCK; a spine source raises no class H
message (R309, R347, R354). -/
def Hw.engUnlock (h : Hw) (e : Engine) : Hw :=
  let g := h.eng e
  if decide (g.st = .acquiring) && !g.unl then
    let h := h.onEng e fun g => { g with unl := true }
    match e with
    | .synB c => h.raiseChan c 8 clsH 0x41 (synBit e)
    | .synR c => h.raiseChan c 8 clsH 0x41 (synBit e)
    | .stn => h
  else h

/-- SYN_UNLOCK. -/
def execSynUnlock (e : Engine) (s : State) : Host.Outcome State Fault Refusal := onEngine s e (·.engUnlock e)

/-- The ageing term after the seconds an engine has been in holdover, in thousandths of a ppb. -/
def Eng.ageing (g : Eng) : Int := g.slope * (g.hoSecs : Int) / 86400

/-- Time in holdover reaches HO_VALID: LOST, the ageing term frozen, and TIM_LOST raised (R309, R311, R317). -/
def Hw.engLost (h : Hw) (e : Engine) : Hw :=
  if (h.eng e).st = .holdover then
    let h := (h.onEng e fun g => { g with st := .lost, frozen := g.ageing }).engEvent e
    match e with
    | .synB c => h.raiseChan c 8 clsN 0x42 (synBit e)
    | .synR c => h.raiseChan c 8 clsN 0x42 (synBit e)
    | .stn => h.raiseSpine 16 clsN 0x42 0
  else h

/-- TIM_LOST. -/
def execTimLost (e : Engine) (s : State) : Host.Outcome State Fault Refusal := onEngine s e (·.engLost e)

/-- Samples of 24 h, one a second. -/
def sampleCap : Nat := 86400

/-- A LOCKED engine records a sample with its temperature (R310). -/
def Hw.engSample (h : Hw) (e : Engine) (ppb : Int) : Hw :=
  if decide ((h.eng e).st = .locked) && !h.rootHeld then
    let t := h.rootTemp
    h.onEng e fun g => { g with samples := ((ppb, t) :: g.samples).take sampleCap, out := ppb * 1000 }
  else h

/-- LOCK_SAMPLE. -/
def execLockSample (e : Engine) (ppb : Int) (s : State) : Host.Outcome State Fault Refusal := onEngine s e (·.engSample e ppb)

/-- The output offset of the holdover model: f_h + a × (t − t_h) − d(T) (R311). -/
def Eng.holdOut (g : Eng) (c : Int × Int) (t : Int) : Int :=
  g.fh + (if g.st = .lost then g.frozen else g.ageing) - tempDev c t g.t0

/-- One second in HOLDOVER or LOST; during root hold the DCO word stays (R293). -/
def Hw.engHold (h : Hw) (e : Engine) : Hw :=
  let g := h.eng e
  if g.st = .holdover ∨ g.st = .lost then
    let c := h.tcomp
    let t := h.rootTemp
    let held := h.rootHeld
    h.onEng e fun g =>
      let g := { g with hoSecs := g.hoSecs + 1 }
      if held then g else { g with out := g.holdOut c t }
  else h

/-- HOLDOVER_UPDATE. -/
def execHoldoverUpdate (e : Engine) (s : State) : Host.Outcome State Fault Refusal := onEngine s e (·.engHold e)

/-! ## Qualification (R302 to R304) -/

/-- A WTR in seconds, larger values acting as 3,600 (R320, R326). -/
def wtrOf (n : Nat) : Nat := min 3600 n

/-- CHn.PRT_CDR_p.OFS follows a 100 ms window of its lane's recovered clock, in 0.01 ppm (R481). -/
def Hw.cdrOfs (h : Hw) (c : ChanId) (p : Lane) (ppb : Int) : Hw :=
  if ((h.chan c).lane p).cdrLock then
    h.setChReg c (laneReg p + 0x10) (BitVec.ofNat 32 (2 ^ 31 + satSigned 16 (ppb / 10)))
  else h

/-- A window of a line candidate completes in a channel; a station input's window only measures its offset there (R302). -/
def Hw.chanWindow (h : Hw) (c : ChanId) (i : Fin 7) (long : Bool) (ppb : Int) : Hw :=
  let x := h.chan c
  if h.rootHeld || (decide (x.rank false i.val = 0) && decide (x.rank true i.val = 0)) || (decide (i.val < 3) && (x.cand i).fail) then h
  else
    let w := x.reg 0x800C
    let k := x.cand i
    let k' := if i.val < 3 then
        k.window long ppb (thr (fieldOf w 9 0)) (hyst (fieldOf w 21 16) (fieldOf w 9 0)) (k.lastFail && !bitOf w 31)
          (decide (wtrOf (fieldOf (x.reg 0x8000) 31 20) = 0))
      else if long then { k with ppb := ppb } else { k with fast := ppb }
    let h := h.onCand c i fun _ => k'
    let h := if i.val < 3 ∧ long = false then h.cdrOfs c (candLane i.val) ppb else h
    let h := if k'.qst = k.qst then h else (h.evTim c 0x00040000).reselect c
    if long then (h.windowDone c false i).windowDone c true i else h

/-- A window of a station input completes in the spine; every disqualification requires the WTR (R316). -/
def Hw.spineWindow (h : Hw) (i : Fin 4) (long : Bool) (ppb : Int) : Hw :=
  let k := h.dev.stn.inp[i]
  if h.rootHeld || k.fail || decide (h.dev.stnFreq i.val = 0) then h
  else
    let w := h.devReg 0x3020
    h.onStnIn i fun k => k.window long ppb (thr (fieldOf w 17 8)) (hyst (fieldOf w 7 2) (fieldOf w 17 8)) false
      (decide (wtrOf (h.devField 0x3024 11 0) = 0))

/-- The answer of a qualification event. A station input's result reaches every channel (R20). -/
def onQual (s : State) (q : QualAt) (f : Hw → Hw) : Host.Outcome State Fault Refusal :=
  match q with
  | .chan c => watched s c fun h => if (h.chan c).isActive then f h else h
  | .spine => watchedAll s f

/-- QUAL_WINDOW. In the spine only the candidates 3 to 6 exist. -/
def execQualWindow (q : QualAt) (cand : Fin 7) (long : Bool) (ppb : Int) (s : State) : Host.Outcome State Fault Refusal :=
  onQual s q fun h =>
    match q with
    | .chan c => h.chanWindow c cand long ppb
    | .spine => if cand.val < 3 then h else h.spineWindow (stnIn cand) long ppb

/-- A PENDING candidate whose WTR has expired is QUAL. -/
def Cand.waited (k : Cand) : Cand := if k.qst = .pending then { k with qst := .qual, overRun := 0 } else k

/-- QUAL_WTR_EXPIRE. -/
def execQualWtrExpire (q : QualAt) (cand : Fin 7) (s : State) : Host.Outcome State Fault Refusal :=
  onQual s q fun h =>
    match q with
    | .chan c =>
      if cand.val < 3 ∧ ((h.chan c).cand cand).qst = .pending then ((h.onCand c cand Cand.waited).evTim c 0x00040000).reselect c else h
    | .spine => if cand.val < 3 then h else h.onStnIn (stnIn cand) Cand.waited

/-- STN_FAIL. -/
def execStnFail (i : Fin 4) (s : State) : Host.Outcome State Fault Refusal := watchedAll s (·.stnFail i)

/-- STN_RECOVER: an input that is not off leaves FAIL for INIT (R316). -/
def execStnRecover (i : Fin 4) (s : State) : Host.Outcome State Fault Refusal :=
  watchedAll s fun h =>
    if h.dev.stn.inp[i].fail && decide (h.dev.stnFreq i.val ≠ 0) then h.onStnIn i fun k => { k with qst := .init, fail := false } else h

/-! ## Writes that qualification and selection follow (R300, R304, R316, R320 to R327) -/

/-- A rank write breaks R300: it gives a candidate that is not through-timing a rank. -/
def Chan.rankBad (x : Chan) (r : Bool) (d : Word) : Bool :=
  thruOnly (x.rate .red) && (List.range 8).any fun i => !thruCand r i && decide (rankVal (fieldOf d (4 * i + 3) (4 * i)) ≠ 0)

/-- A mode write breaks R300: it forces a candidate that is not through-timing. -/
def Chan.forceBad (x : Chan) (d : Word) : Bool :=
  thruOnly (x.rate .red)
    && ((decide (fieldOf d 4 3 = 1) && !thruCand false (fieldOf d 7 5)) || (decide (fieldOf d 10 9 = 1) && !thruCand true (fieldOf d 13 11)))

/-- A candidate with rank 0 in both engines is in INIT, with no measurement; a failed one stays disqualified (R303, R304). -/
def Chan.unrank (x : Chan) (i : Fin 7) : Cand :=
  let k : Cand := x.cand i
  let q : Qst := if k.fail then .disq else .init
  if (decide (x.rank false i.val ≠ 0) || decide (x.rank true i.val ≠ 0)) = true then k
  else { qst := q, fail := k.fail, lastFail := k.fail }

/-- The same over the seven candidates. -/
def Hw.unranked (h : Hw) (c : ChanId) : Hw :=
  h.onChan c fun x => { x with tim := { x.tim with cand := Vector.ofFn x.unrank } }

/-- What follows a write of CHn.TIM_CFG, CHn.TIM_RANK_s or CHn.TIM_QL (R303, R306). -/
def Hw.timChanged (h : Hw) (c : ChanId) : Hw :=
  (((((h.unranked c).candCheck c .red).candCheck c .bkw).candCheck c .bkp)).reselect c

/-- What follows a write of DEV.STN_IN_CFG_i: an input whose FREQ is off is disqualified with FAIL (R316). -/
def Hw.stnCfgChanged (h : Hw) (i : Fin 4) : Hw := if h.dev.stnFreq i.val = 0 then h.stnFail i else h

/-! ## Phase steps (R314, R317) -/

/-- A step in ps: bits [20:0] as two's complement. -/
def stepOf (d : Word) : Int := signed 21 (fieldOf d 20 0)

/-- A write of CHn.TIM_PSTEP. One to a channel that is not ACTIVE has no synthesizer to step: it is ignored with CFG_REJ, a case that
R314 does not list (DESIGN CHOICE, log entry 89). -/
def pstepWrite (h : Hw) (m : Master) (c : ChanId) (d : Word) : Hw :=
  chBeat h m c 0x8020 .guarded fun h =>
    let r := bitOf d 31
    let g := (h.chan c).syn r
    let v := stepOf d
    if g.step.isSome || decide (1000000 < v.natAbs) || decide (10000000 < (g.ofs + v).natAbs) || !(h.chan c).isActive then
      h.ignored m .cfgRej (chAddr c 0x8020)
    else (h.setChReg c 0x8020 (d &&& 0x801FFFFF)).onSyn c r fun g => { g with step := some v }

/-- TIM_PSTEP. -/
def execTimPstep (m : Master) (c : ChanId) (d : Word) (s : State) : Host.Outcome State Fault Refusal :=
  live s fun h => pstepWrite h m c d

/-- A phase step completes: OFS holds the accumulated offset. -/
def Hw.stepDone (h : Hw) (c : ChanId) (r : Bool) : Hw :=
  match ((h.chan c).syn r).step with
  | none => h
  | some v => (h.onSyn c r fun g => { g with ofs := g.ofs + v, step := none }).evTim c 0x00020000

/-- PHASE_STEP_DONE. The station outputs have a pull and no step. -/
def execPhaseStepDone (e : Engine) (s : State) : Host.Outcome State Fault Refusal :=
  live s fun h =>
    match e with
    | .synB c => if (h.chan c).isActive then h.stepDone c false else h
    | .synR c => if (h.chan c).isActive then h.stepDone c true else h
    | .stn => h

/-- A write of DEV.STN_PSTEP adds its step to the pull target. -/
def stnPstepWrite (h : Hw) (m : Master) (d : Word) : Hw :=
  devBeat h m 0x3030 .guarded fun h =>
    let v := stepOf d
    if 1000000 < v.natAbs ∨ 100000000 < (h.dev.stn.pull + v).natAbs then h.ignored m .cfgRej (devAddr 0x3030)
    else
      (h.setDevReg 0x3030 (d &&& 0x001FFFFF)).onDev fun x =>
        { x with stn := { x.stn with pull := x.stn.pull + v, slew := x.stn.slew || decide (v ≠ 0) } }

/-- STN_PSTEP. -/
def execStnPstep (m : Master) (d : Word) (s : State) : Host.Outcome State Fault Refusal := live s fun h => stnPstepWrite h m d

/-- The pull reaches its target: SLEW falls. -/
def Hw.pullDone (h : Hw) : Hw :=
  if h.dev.stn.slew then
    (h.onDev fun x => { x with stn := { x.stn with pull := 0, slew := false } }).devEvent 0x300C 23 0x00200000
  else h

/-- STN_PULL_DONE. -/
def execStnPullDone (s : State) : Host.Outcome State Fault Refusal := live s Hw.pullDone

end Sys2Proof.Machine
end

