-- ==== Sys2Proof/Machine/Write.lean ====
section
/-!
DEFINITION. Machine/Write.lean: where a write beat leads: every register of the map by its offset, to the rule of its own or to the
access codes of its fields (R421, R428, R430).
-/
namespace Sys2Proof.Machine

/-! ## Registers whose write does more than its fields say -/

/-- A write beat to CHn.PRT_LANE_p: a reserved RATE is refused (R136), and a loopback shows as the lane's LB status (R131, R484). -/
def laneWrite (h : Hw) (m : Master) (c : ChanId) (p : Lane) (d : Word) : Hw :=
  let off := laneReg p
  let bad := decide (9 < fieldOf d 3 0) && (h.chan c).rdOpen && h.reaches m
  let h' := chFields h m c off (if bad then withField d 3 0 (fieldOf (h.chReg c off) 3 0) else d)
  let h' := if bad then h'.ignored m .cfgRej (chAddr c off) else h'
  let lb := fieldOf (h'.chReg c off) 9 8
  let h' := h'.onLane c p fun l => l.setDef 1 (decide (lb = 1 ∨ lb = 2))
  if ((h'.chan c).lane p).defects = ((h.chan c).lane p).defects then h' else h'.laneSync h c p

/-- A write beat to CHn.RCL_GECFG: a change of PAUSE restarts auto-negotiation (R490). -/
def gecfgWrite (h : Hw) (m : Master) (c : ChanId) (d : Word) : Hw :=
  let h' := chFields h m c 0x4004 d
  let w := h'.chReg c 0x4004
  if fieldOf w 1 0 = fieldOf (h.chReg c 0x4004) 1 0 then h'
  else if (h.chan c).isActive && decide ((h.chan c).rate .red = 8) then (h'.setChReg c 0x4004 (withField w 15 15 0)).evRcl c 0x00200000
  else h'

/-- A write beat to CHn.TIM_CFG, CHn.TIM_RANK_s or CHn.TIM_QL: one that R300 excludes is turned away. -/
def timWrite (h : Hw) (m : Master) (c : ChanId) (off : Nat) (d : Word) : Hw :=
  let x := h.chan c
  let bad := if off = 0x8000 then x.forceBad d else if off = 0x8004 then x.rankBad false d else if off = 0x8008 then x.rankBad true d else false
  if bad then chBeat h m c off .plain fun h => h.ignored m .cfgRej (chAddr c off)
  else
    let h' := chFields h m c off d
    if h'.chReg c off = h.chReg c off then h' else h'.timChanged c

/-- A write beat to CHn.FLT_ACT (R366). -/
def fltActWrite (h : Hw) (m : Master) (c : ChanId) (d : Word) : Hw :=
  let seq : Byte := BitVec.ofNat 8 (fieldOf d 31 24)
  match fieldOf d 23 21 with
  | 1 => fltOp h m c 0 seq (·.doAckC c)
  | 2 => fltOp h m c 1 seq (·.doAckH c)
  | 3 => fltOp h m c 0 seq (·.cExpire c)
  | 4 => fltOp h m c 1 seq (·.hExpire c)
  | 5 => fltOp h m c 0 seq (·.doClrCirc c (BitVec.ofNat 13 (fieldOf d 12 0)))
  | 6 => fltOp h m c 1 seq (·.doClrChan c)
  | _ => if h.reaches m then h.bmx m.id 0 else h

/-- A write beat to DEV.FCL_DACT (R367). -/
def dactWrite (h : Hw) (m : Master) (d : Word) : Hw :=
  let seq : Byte := BitVec.ofNat 8 (fieldOf d 31 24)
  match fieldOf d 23 21 with
  | 1 => drecOp h m seq Hw.doAckD
  | 3 => drecOp h m seq Hw.dExpire
  | 6 => drecOp h m seq Hw.doClrD
  | _ => if h.reachesDev m then h.bmx m.id 0 else h

/-- A write beat to DEV.FCL_CFG: each DUTY is the Isund's to write, once since RESET_N (R356, R428); the rest is guarded. -/
def fclCfgWrite (h : Hw) (m : Master) (d : Word) : Hw :=
  if !h.reachesDev m then h
  else
    let old := h.devReg 0x4000
    let pf1 := decide (m = .pf1)
    let takes := fun i : Fin 3 => decide (m = .isund) && !h.dev.fcl.dutyWritten[i]
    let new := fun i : Fin 3 => bitOf d i.val != bitOf old i.val
    let rej := (List.finRange 3).any fun i => new i && !takes i
    let w := if pf1 then old else (old &&& 0x7) ||| (d &&& 0x80FF0000)
    let w := (List.finRange 3).foldl (fun w i => if new i && takes i then withField w i.val i.val (b2n (bitOf d i.val)) else w) w
    let written := Vector.ofFn fun i : Fin 3 => h.dev.fcl.dutyWritten[i] || (new i && takes i)
    let h := (h.setDevReg 0x4000 w).onFcl fun f => { f with dutyWritten := written }
    (h.flagged m ((if pf1 then 0x08 else 0) ||| (if rej then 0x10 else 0)) (devAddr 0x4000)).beat m pf1

/-- A write beat to DEV.FLW_STAT: a clear by the owner (R430, R470). -/
def flwStat (h : Hw) (m : Master) (d : Word) : Hw :=
  devBeat h m 0x9010 .guarded fun h => h.flwOwner m 0x9010 fun h =>
    if fieldOf d 31 24 = h.devField 0x9010 31 24 then h.setDevReg 0x9010 (h.devReg 0x9010 &&& ~~~ (d &&& 0x00C00000))
    else h.ignored m .ackStale (devAddr 0x9010)

/-- A register whose flags are cleared under R430. -/
def isEvent (l : List RegDef) (off : Nat) : Bool :=
  match findReg l off with
  | some r => r.flds.any fun f => decide (f.acc = .ws)
  | none => false

/-- Offset `off` is one of `n` registers `stride` apart from `base`. -/
def inFam (off base n stride : Nat) : Option Nat :=
  if base ≤ off ∧ off < base + n * stride ∧ (off - base) % stride = 0 then some ((off - base) / stride) else none

/-- A number below four as an index. -/
def fin4 (n : Nat) : Fin 4 := ⟨n % 4, Nat.mod_lt _ (by omega)⟩

/-! ## Device space -/

/-- A write beat to the station's registers (block 0x3). -/
def stnWrite (h : Hw) (m : Master) (off : Nat) (d : Word) : Hw :=
  if off = 0x3030 then stnPstepWrite h m d
  else
    let h' := devFields h m off d
    if h'.devReg off = h.devReg off then h'
    else match inFam off 0x3010 4 4 with
      | some i => (h'.stnCfgChanged (fin4 i)).reselectStn
      | none =>
        if off = 0x3020 ∨ off = 0x3024 ∨ off = 0x3028 then h'.reselectStn
        else if (inFam off 0x3040 4 4).isSome then h'.stnOutputs
        else h'

/-- A write beat to device space. -/
def devWrite (h : Hw) (m : Master) (off : Nat) (d : Word) : Hw :=
  match off / 4096 with
  | 2 =>
    if off = 0x2010 ∨ off = 0x2014 then fusWord h m off d
    else if off = 0x2018 then fusCtl h m d
    else if isEvent devRegs off then devClear h m off d
    else devFields h m off d
  | 3 => if isEvent devRegs off then devClear h m off d else stnWrite h m off d
  | 4 =>
    if off = 0x4000 then fclCfgWrite h m d
    else if off = 0x4010 then dactWrite h m d
    else if off = 0x4020 then injctlWrite h m d
    else if isEvent devRegs off then devClear h m off d
    else devFields h m off d
  | 5 =>
    if off = 0x5010 then cntclrWrite h m d
    else if off = 0x5014 then remapBeat h m d
    else if off = 0x5024 then shareBeat h m d
    else if isEvent devRegs off then devClear h m off d
    else match inFam off 0x5040 4 4 with
      | some a => alarmWrite h m (fin4 a) d
      | none => devFields h m off d
  | 6 => if off = 0x6000 then mbxSelect h m d else devFields h m off d
  | 7 =>
    if off = 0x700C then cmdWrite h m .device d
    else match inFam off 0x7000 3 4 with
      | some i => portWord h m .device i d
      | none => devFields h m off d
  | 8 =>
    match inFam off 0x8000 18 4 with
    | some i => devKbufWrite h m i d
    | none => devFields h m off d
  | 9 =>
    if off = 0x900C then flwCtl h m d
    else if off = 0x9010 then flwStat h m d
    else if off = 0x9004 ∨ off = 0x9008 ∨ (inFam off 0x9040 16 4).isSome then flwPlain h m off d
    else devFields h m off d
  | 0xA => routeWrite h m ((off - 0xA000) / 4) d
  | 0xB =>
    match inFam off 0xB100 64 4 with
    | some v => vctlWrite h m v d
    | none => devFields h m off d
  | 0xC => msixWrite h m ((off - 0xC000) / 4) d
  | _ => if isEvent devRegs off then devClear h m off d else devFields h m off d

/-! ## A channel window -/

/-- The lane of a lane register, and the register's place in the lane's slots. -/
def laneAt (off base stride : Nat) : Lane × Nat := (laneOf ((off - base) / stride), (off - base) % stride)

/-- A write beat to a channel window's CVU block. -/
def cvuBlock (h : Hw) (m : Master) (c : ChanId) (off : Nat) (d : Word) : Hw :=
  if off = 0xA004 then stgWrite h m c d
  else if off = 0xA008 then chClear h m c off d
  else if 0xA100 ≤ off ∧ off < 0xA200 then
    let u : Fin 8 := ⟨(off - 0xA100) / 0x20 % 8, Nat.mod_lt _ (by omega)⟩
    match (off - 0xA100) % 0x20 with
    | 0x00 => cvuWrite h m c u .ctl d
    | 0x04 => cvuWrite h m c u .poly d
    | 0x08 => cvuWrite h m c u .init d
    | 0x0C => cvuWrite h m c u .xor d
    | 0x10 => cvuVal h m c u d
    | 0x18 => cvuCcfg h m c u d
    | _ => chFields h m c off d
  else chFields h m c off d

/-- A write beat to a channel window. -/
def chWrite (h : Hw) (m : Master) (c : ChanId) (off : Nat) (d : Word) : Hw :=
  match off / 4096 with
  | 0 => if off = 0x000C then fltActWrite h m c d else chFields h m c off d
  | 1 =>
    if off = 0x10C4 then eyeWrite h m c d
    else if off < 0x10C0 then
      let l := laneAt off 0x1000 0x40
      if l.2 = 0 then laneWrite h m c l.1 d else if l.2 = 4 then prbsWrite h m c l.1 d else chFields h m c off d
    else chFields h m c off d
  | 3 =>
    if off = 0x3010 then tpLock h m c (bitOf d 0)
    else if off = 0x3018 then tpCtl h m c d
    else if off = 0x3020 then tpD0 h m c d
    else if off = 0x3014 ∨ (inFam off 0x3024 3 4).isSome then tpPlain h m c off d
    else if isEvent chRegs off then chClear h m c off d
    else chFields h m c off d
  | 4 => if off = 0x4004 then gecfgWrite h m c d else if isEvent chRegs off then chClear h m c off d else chFields h m c off d
  | 5 =>
    if off = 0x5008 then clrArm h m c d
    else if isEvent chRegs off then chClear h m c off d
    else match inFam off 0x5040 18 4 with
      | some i => kbufWrite h m c i d
      | none => chFields h m c off d
  | 8 =>
    if off = 0x8020 then pstepWrite h m c d
    else if off = 0x8000 ∨ off = 0x8004 ∨ off = 0x8008 ∨ off = 0x8014 then timWrite h m c off d
    else if isEvent chRegs off then chClear h m c off d
    else chFields h m c off d
  | 9 => if off = 0x9004 then pmctlWrite h m c d else if isEvent chRegs off then chClear h m c off d else chFields h m c off d
  | 0xA => cvuBlock h m c off d
  | 0xC =>
    if off = 0xC00C then cmdWrite h m (.chan c) d
    else match inFam off 0xC000 3 4 with
      | some i => portWord h m (.chan c) i d
      | none => chFields h m c off d
  | _ => if isEvent chRegs off then chClear h m c off d else chFields h m c off d

/-! ## A beat -/

/-- A write beat whose byte enables are not all set is ignored (R421). -/
def partialWrite (h : Hw) (m : Master) (p : Place) (a : BitVec 22) : Hw :=
  match p with
  | .dev _ => if h.reachesDev m then (h.ignored m .cfgRej a).bmx m.id 0 else h
  | .chan c _ => if h.reaches m then (h.ignored m .cfgRej a).bmx m.id (if (h.chan c).raises then 0 else 8) else h

/-- A beat to a place. -/
def placeWrite (h : Hw) (m : Master) (p : Place) (d : Word) : Hw :=
  match p with
  | .dev off => devWrite h m off d
  | .chan c off => chWrite h m c off d

/-- DEV.BMX_WADDR holds the offset as it was written, aliases included (R429). -/
def Hw.asWritten (h h0 : Hw) (m : Master) (a : BitVec 22) : Hw :=
  if (h.dev.bank m).wseq = (h0.dev.bank m).wseq then h else h.onDev fun d => d.onBank m fun b => { b with waddr := a }

/-- A write beat at a BAR0 offset. -/
def Hw.write (h : Hw) (m : Master) (a : BitVec 22) (be : BitVec 4) (d : Word) : Hw :=
  let p := place a
  (if be = 0xF then placeWrite h m p d else partialWrite h m p a).asWritten h m a

/-- The channels whose record registers a write to a place can change. -/
def placeChans : Place → List ChanId
  | .dev _ => allChans
  | .chan c _ => [c]

/-- A write beat, and what follows from it; in MIDWINTER only a mailbox selector is taken (R373). -/
def Hw.beatAt (h : Hw) (m : Master) (a : BitVec 22) (be : BitVec 4) (d : Word) : Hw :=
  if h.works then (h.write m a be d).settle h (placeChans (place a))
  else if h.inMw && decide (place a = .dev 0x6000) && decide (be = 0xF) then mbxSelect h m d
  else h

/-- REGISTER_WRITE. -/
def execRegisterWrite (m : Master) (addr : BitVec 22) (be : BitVec 4) (d : Word) (s : State) : Host.Outcome State Fault Refusal :=
  answer s fun h => h.beatAt m addr be d

/-- EVENT_CLEAR: a write to an event register. -/
def execEventClear (m : Master) (addr : BitVec 22) (d : Word) (s : State) : Host.Outcome State Fault Refusal :=
  answer s fun h => h.beatAt m addr 0xF d

end Sys2Proof.Machine
end

