-- ==== Sys2Proof/Machine/Boot.lean ====
section
/-!
DEFINITION. Machine/Boot.lean: start-up from ROOT_LOCK to RUN or BARE (R386, R399, R400, R407 to R409), the loading of a channel's
configuration (R88, R101, R406) and its release.
-/
namespace Sys2Proof.Machine

/-! ## What a channel is (R386, R409) -/

/-- The channel's bit of CH_EN (R392). -/
def Hw.chEn (h : Hw) (c : ChanId) : Bool := bitOf (h.fuseWord (32 + c.val / 32)) (c.val % 32)

/-- What the image that passed VERIFY declares an enabled channel: 0 ABSENT, 1 PARKED, 2 ACTIVE. -/
def Hw.declared (h : Hw) (c : ChanId) : Nat :=
  if h.dev.boot.imageOk && h.dev.boot.ownerOk && h.chEn c then imgDecl h.dev.boot.image c.val else 0

/-- The state of a channel whose island is off, outside a diagnosis. -/
def Hw.offSt (h : Hw) (c : ChanId) : ChSt := if h.declared c = 0 then .absent else .parked

/-- A channel takes a state; DEV.CH_EVT_g reports a change. -/
def Hw.chState (h : Hw) (c : ChanId) (st : ChSt) : Hw :=
  if (h.chan c).st = st then h else (h.onChan c fun x => { x with st := st }).chgEvent c

/-! ## BARE (R409) -/

/-- BARE is entered: every channel shows PARKED or ABSENT. -/
def Hw.enterBare (h : Hw) : Hw :=
  let h := h.onBoot fun b => { b with st := .bare, runAt := h.now }
  let h := allChans.foldl (fun h c => h.chState c (h.offSt c)) h
  h.devEvent 0x1004 0 0x00400000

/-- Every island that is on, or is switching on, is asked off, in channel order; requests to switch on that have not begun are
withdrawn. -/
def Hw.shutIslands (h : Hw) : Hw :=
  let h := h.onPower fun p => { p with islands := p.islands.take 1 ++ (p.islands.drop 1).filter fun r => !r.on }
  allChans.foldl (fun h c =>
    if (h.chan c).island || h.dev.power.islands.any (fun r => r.on && decide (r.chan = c.val)) then h.askIsland c false .shut else h) h

/-- The time of SPRING_LOAD and VERIFY is over. -/
def Boot.loaded (b : Boot) (now : Nat) : Boot :=
  if b.st = .springLoad ∨ b.st = .verify then { b with loadFor := now - b.loadAt } else b

/-- The module goes to BARE once every island is off. -/
def Hw.toBare (h : Hw) (why : Nat) : Hw :=
  let h := (h.onBoot fun b => { b.loaded h.now with bareWhy := why }).shutIslands
  if h.dev.power.islands.isEmpty then h.enterBare else h

/-- Start-up is not on its way to BARE. -/
def Hw.startsUp (h : Hw) (st : BootSt) : Bool := decide (h.dev.boot.st = st ∧ h.dev.boot.bareWhy = 0)

/-! ## ROOT_LOCK and SPRING_LOAD (R291, R296, R399, R400) -/

/-- The header bytes of a slot: false A, true B. -/
def Hw.slotHdr (h : Hw) (b : Bool) : List Byte := if b then h.dev.boot.flash.hdrB else h.dev.boot.flash.hdrA

/-- The reason of a slot is recorded. -/
def Hw.setWhy (h : Hw) (b : Bool) (why : Byte) : Hw := h.onBoot fun x => if b then { x with whyB := why } else { x with whyA := why }

/-- The read of a slot begins, and the islands of the channels that its header declares ACTIVE are asked on. -/
def Hw.readSlot (h : Hw) (b : Bool) : Hw :=
  let h := h.onBoot fun x => { x with st := .springLoad, slotB := b, image := [] }
  allChans.foldl (fun h c => if imgDecl (h.slotHdr b) c.val = 2 ∧ h.chEn c = true then h.askIsland c true .boot else h) h

/-- The valid slots in the order of R400. -/
def slotOrder (a b : Byte) (arbA arbB : Nat) : List Bool :=
  if a = 0 ∧ b = 0 then (if arbA < arbB then [true, false] else [false, true])
  else if a = 0 then [false] else if b = 0 then [true] else []

/-- Spring load chooses the slot (R400). -/
def Hw.chooseSlot (h : Hw) : Hw :=
  let a := hdrCheck (h.thermo 38) (h.thermo 40) (h.slotHdr false)
  let b := hdrCheck (h.thermo 38) (h.thermo 40) (h.slotHdr true)
  let o := slotOrder a b (imgCfgArb (h.slotHdr false)) (imgCfgArb (h.slotHdr true))
  let h := h.onBoot fun x => { x with whyA := a, whyB := b, toTry := o, firstTried := o.head? }
  match o with
  | [] => h.toBare 1
  | s :: _ => h.readSlot s

/-- KAT of a spine unit at start-up (R226). -/
def Hw.spineKat (h : Hw) : Hw := h.raiseSpine 22 clsD 0x28 0

/-- The root PLL locks in ROOT_LOCK: SYSCNT starts from 0 on the first lock since power-up, and SPRING_LOAD begins with the SHA-384
self-test and the reads of SFDP and of both headers. -/
def Hw.rootLocks (h : Hw) (shaOk : Bool) (flash : FlashView) : Hw :=
  if h.dev.boot.st ≠ .rootLock then h
  else
    let h := h.onDev fun d =>
      { d with
        sys := if d.root.everLocked then d.sys else 0
        root := { d.root with everLocked := true, rootOk := true, pllLock := true, hold := false, slew := false, epStop := false, epGlitch := false, epUnlock := false } }
    let h := h.onBoot fun b => { b with st := .springLoad, loadAt := h.now, flash := flash }
    if !shaOk then h.spineKat.toBare 2
    else if !flash.sfdpOk then ((h.setWhy false 0x0C).setWhy true 0x0C).toBare 1
    else h.chooseSlot

/-- ROOT_LOCK. -/
def execRootLock (shaOk : Bool) (flash : FlashView) (s : State) : Host.Outcome State Fault Refusal := watchedAll s (·.rootLocks shaOk flash)

/-- The read of the slot is complete and every island is on: the image store holds bytes 0 to IMG_LEN − 1. -/
def Hw.loadDone (h : Hw) (bytes : List Byte) : Hw :=
  if h.startsUp .springLoad && h.dev.power.islands.isEmpty then
    h.onBoot fun b => { b with st := .verify, image := bytes.take (imgLen (h.slotHdr b.slotB)) }
  else h

/-- SPRING_LOAD_DONE. -/
def execSpringLoadDone (bytes : List Byte) (s : State) : Host.Outcome State Fault Refusal := live s (·.loadDone bytes)

/-! ## VERIFY (R400, R407) -/

/-- The words of a hash field of the fuses. -/
def Hw.hashWords (h : Hw) (first : Nat) : List Word := (List.range 12).map fun i => h.fuseWord (first + i)

/-- OWN_HASH is blank. -/
def Hw.ownBlank (h : Hw) : Bool := (h.hashWords 12).all fun w => w == 0

/-- VERIFY passes for a slot; a valid slot that was not tried shows 0x0E (R415). -/
def Hw.verifyPass (h : Hw) (s : Bool) (rest : List Bool) : Hw :=
  let fb := decide (h.dev.boot.firstTried ≠ some s)
  let h := rest.foldl (fun h o => h.setWhy o 0x0E) (h.setWhy s 0)
  let own := !h.ownBlank
  let h := h.onBoot fun b =>
    { b.loaded h.now with st := .selfTest, imageOk := true, ownerOk := own, fallback := fb, toTry := [], sram := fwBody b.image 0x01 }
  if fb then h.devEvent 0x1004 0 0x00200000 else h

/-- VERIFY fails for a slot: the image store is discarded, the slot's islands switch off, and the other slot is tried. -/
def Hw.verifyFail (h : Hw) (s : Bool) (why : Byte) (rest : List Bool) : Hw :=
  let h := (h.setWhy s why).onBoot fun b => { b with image := [], toTry := rest }
  match rest with
  | [] => h.toBare 1
  | o :: _ => h.shutIslands.readSlot o

/-- VERIFY ends its checks. -/
def Hw.verifyEnds (h : Hw) (ecdsaOk : Bool) : Hw :=
  match h.dev.boot.toTry with
  | [] => h
  | s :: rest =>
    if !h.startsUp .verify then h
    else if !ecdsaOk then (((h.setWhy s 0x0F).onBoot fun b => { b with image := [] }).spineKat).toBare 2
    else
      let why := verifyImage h.dev.boot.image (h.hashWords 0) (h.hashWords 12)
      if why = 0 then h.verifyPass s rest else h.verifyFail s why rest

/-- VERIFY. -/
def execVerify (ecdsaOk : Bool) (s : State) : Host.Outcome State Fault Refusal := watchedAll s (·.verifyEnds ecdsaOk)

/-! ## SELF_TEST (R225, R226) -/

/-- The cipher self-tests of the channels whose islands are on end. -/
def Hw.selfTested (h : Hw) (failing : List ChanId) : Hw :=
  if !h.startsUp .selfTest then h
  else
    let bad := allChans.filter fun c => decide (c ∈ failing ∧ (h.chan c).st = .starting)
    let h := bad.foldl (fun h c => (h.onChan c fun x => { x with cph := { x.cph with katFail := true } }).evCph c 0x00010000) h
    match bad with
    | c :: _ => (h.raiseChan c 5 clsD 0x28 0).toBare 2
    | [] => if h.dev.boot.ownerOk then h.onBoot fun b => { b with st := .bringUp } else h.toBare 3

/-- SELF_TEST. -/
def execSelfTest (failing : List ChanId) (s : State) : Host.Outcome State Fault Refusal := watchedAll s (·.selfTested failing)

/-! ## Configuration (R88, R101, R406) -/

/-- A configuration record takes effect; `base` is the BAR0 offset of its space. The Isund writes those of DEV_CFG, and a channel's
Malot those of its CH_CFG on its local bus, with the same access rights (R41, R388, R406, log entry 82). -/
def Hw.applyRec (h : Hw) (m : Master) (base : Nat) (r : CfgRec) : Hw :=
  match r with
  | .reg off d => h.write m (BitVec.ofNat 22 (base + off)) 0xF d
  | .policy cls action recover => h.onFcl fun f => { f with pol := f.pol.set cls.val (action, recover) }

/-- The records of every section of a type for a channel, 0xFF for the device, in order. -/
def cfgOf (img : List Byte) (typ chan : Nat) : List CfgRec :=
  ((imgTable img).filter fun e => decide (e.typ = typ ∧ e.chan = chan)).flatMap fun e => (sectRecs img e).getD []

/-- DEV_CFG is applied. -/
def Hw.applyDevCfg (h : Hw) : Hw := (cfgOf h.dev.boot.image 0x40 0xFF).foldl (fun h r => h.applyRec .isund 0 r) h

/-- CH_CFG of a channel is applied. -/
def Hw.applyChCfg (h : Hw) (c : ChanId) : Hw :=
  (cfgOf h.dev.boot.image 0x41 c.val).foldl (fun h r => h.applyRec .malot (0x100000 + c.val * 0x10000) r) h

/-- The rates that R101 excludes: the three differ, or all are off. -/
def Chan.rateBad (x : Chan) : Bool := !decide (x.rate .red = x.rate .bkw ∧ x.rate .bkw = x.rate .bkp) || decide (x.rate .red = 0)

/-- The Slot Map sections of a channel fill its banks. -/
def Chan.loadMaps (x : Chan) (bodies : List (List Byte)) : Chan :=
  bodies.foldl (fun x b =>
    let t := mapEntries b
    let m := x.map
    { x with map := if slotMapBank b = 1 then { m with bankB := t.foldl (fun t e => tput 0 t e.1 e.2) m.bankB }
        else { m with bankA := t.foldl (fun t e => tput 0 t e.1 e.2) m.bankA } }) x

/-- A Circuit Table entry of a section is stored, disabled. -/
def Chan.loadEntry (x : Chan) (e : Nat × List Word) : Chan :=
  let w := fun i => e.2.getD i 0 &&& circMask i
  x.setCirc (BitVec.ofNat 13 e.1) { (x.circ! (BitVec.ofNat 13 e.1)) with w0 := w 0, w1 := w 1, w2 := w 2, w3 := w 3 }

/-- A loaded entry with EN 1 is enabled, if the checks of an enable accept it; a refusal by the admission test raises its message
(R88). -/
def Hw.loadEnable (h : Hw) (c : ChanId) (e : Nat × List Word) : Hw :=
  if !bitOf (e.2.getD 0 0) 31 then h
  else
    let k : CircId := BitVec.ofNat 13 e.1
    match (h.chan c).enableCheck e.1 ((h.chan c).circ! k) with
    | none => h.enableCirc c k
    | some r =>
      if r = rReclaimShort then h.raiseChan c 3 clsN 0x10 e.1
      else if r = rTagLen then h.raiseChan c 3 clsN 0x11 e.1
      else h

/-- The tables of a channel are loaded, and its circuits admitted. -/
def Hw.loadTables (h : Hw) (c : ChanId) : Hw :=
  let img := h.dev.boot.image
  let ents := (chanSects img 0x42 c.val).flatMap circEntries
  let h := h.onChan c fun x => ents.foldl Chan.loadEntry (x.loadMaps (chanSects img 0x43 c.val))
  ents.foldl (fun h e => h.loadEnable c e) h

/-- An engine at channel start (R309). -/
def Eng.start (held : Bool) : Eng := { rootHold := held }

/-- A configured channel is released: it is ACTIVE, its squelch is lifted, its framers hunt, its pointer generators start with NDF
(R147), its engines run free, its stage checks take their polynomials (R336), and its Malot runs; under a class D quarantine it is
quarantined like every other (R364). -/
def Hw.release (h : Hw) (c : ChanId) : Hw :=
  let held := h.dev.root.hold
  let prog := h.malotProg
  let h := ((h.genStart c).onChan c fun x =>
    let x := { x with
      st := .active, squelch := false, red := {}, bkw := {}, bkp := {}, psw := {}
      tim := { b := Eng.start held, r := Eng.start held }
      cvu := { x.cvu with poly := x.reg 0xA000 }
      mlt := { run := true, prog := prog, hbAt := h.now, csus := true } }
    ((x.toHunt .red).toHunt .bkw).toHunt .bkp).chgEvent c
  ((((h.candCheck c .red).candCheck c .bkw).candCheck c .bkp).reselect c).pswInputs c

/-- A STARTING channel is configured and released; rates that R101 excludes are reported by `false`. -/
def Hw.configure (h : Hw) (c : ChanId) : Hw × Bool :=
  let quar := h.dev.fcl.dQuar
  let h := (h.onChan c fun x => { x with flt := { x.flt with underD := quar } }).applyChCfg c
  if (h.chan c).rateBad then ((h.onChan c fun x => { x with flt := { x.flt with underD := false } }).raiseChan c 2 clsN 0x01 0, false)
  else ((h.loadTables c).release c, true)

/-! ## BRING_UP (R408) -/

/-- A channel that start-up has powered is brought up; one whose rates R101 excludes is parked. -/
def Hw.bringChan (h : Hw) (c : ChanId) : Hw :=
  if (h.chan c).st ≠ .starting then h.chState c (h.offSt c)
  else
    let r := h.configure c
    if r.2 then r.1 else (r.1.chState c .parking).askIsland c false .shut

/-- BRING_UP ends: RUN, or BARE when a core fails to start. -/
def Hw.broughtUp (h : Hw) (coreFail : Bool) : Hw :=
  if !h.startsUp .bringUp then h
  else
    let h := h.applyDevCfg
    if coreFail then h.toBare 4
    else
      let h := allChans.foldl Hw.bringChan h
      let h := h.onBoot fun b => { b with st := .run, runAt := h.now, dSinceRun := false, arbDone := false }
      h.stnOutputs.devEvent 0x1004 0 0x00800000

/-- BRING_UP. -/
def execBringUp (coreFail : Bool) (s : State) : Host.Outcome State Fault Refusal := watchedAll s (·.broughtUp coreFail)

end Sys2Proof.Machine
end

