-- ==== Sys2Proof/Machine/Power.lean ====
section
/-!
DEFINITION. Machine/Power.lean: the supply and reset (R379 to R382, R408, R517), the islands (R385), the temperature sensors (R391), VIN
warnings (R457), and the channel power commands (R387 to R390).
-/
namespace Sys2Proof.Machine

/-! ## Supply and reset -/

/-- Everything a loss of supply leaves: the module's registers and keys are gone. -/
def Hw.unpowered (h : Hw) : Hw := { now := h.now, drawn := h.drawn }

/-- The rails begin to ramp, at a VIN in mV. -/
def Hw.supplyUp (h : Hw) (mv : BitVec 16) : Hw :=
  let h := h.unpowered
  { h with dev := { h.dev with boot := { st := .supplyUp, supplyAt := h.now }, power := { vinMv := mv }, root := { bkpOk := true } } }

/-- VIN_RISE. After a thermal trip VIN is still there (R391). -/
def execVinRise (mv : BitVec 16) (s : State) : Host.Outcome State Fault Refusal :=
  answer s fun h => if h.powered || h.dev.boot.tripped then h else h.supplyUp mv

/-- VIN_FALL. -/
def execVinFall (s : State) : Host.Outcome State Fault Refusal := answer s Hw.unpowered

/-- FUSE_SENSE begins: the detectors of the rails and of TAMPER_N act from here on. -/
def Hw.enterFuseSense (h : Hw) : Hw :=
  (h.onBoot fun b => { b with st := .fuseSense, tamperLive := true }).onPower fun p => { p with armed := true }

/-- Every rail is in its window: PGOOD is high, and SUPPLY_UP ends with RESET_N high. -/
def Hw.pgoodRise (h : Hw) : Hw :=
  let h := h.onPower fun p => { p with pgood := true }
  if h.dev.boot.st = .supplyUp ∧ h.dev.boot.inReset = false then h.enterFuseSense else h

/-- RAILS_UP. -/
def execRailsUp (s : State) : Host.Outcome State Fault Refusal :=
  answer s fun h =>
    if h.dev.boot.st = .supplyUp then (h.onPower fun p => { p with railOk := Vector.replicate 4 true }).pgoodRise else h

/-- Rail numbers (R456). -/
def railNum : Rail → Fin 4
  | .vcore => 0 | .vsrd => 1 | .vmem => 2 | .vio => 3

/-- A rail has left its window: PGOOD falls, and from the end of SUPPLY_UP on RAIL_FAULT is raised. -/
def Hw.railOut (h : Hw) (r : Fin 4) : Hw :=
  if !h.powered || !h.dev.power.railOk[r] then h
  else
    let h := h.onPower fun p => { p with railOk := p.railOk.set r false, pgood := false }
    if h.works && h.dev.power.armed then (h.raiseSpine 11 clsD 0x73 r.val).devEvent (0x1080 + 4 * r.val) (14 + r.val) 0x00800000 else h

/-- A rail is back in its window. -/
def Hw.railIn (h : Hw) (r : Fin 4) : Hw :=
  if !h.powered || h.dev.power.railOk[r] || !h.dev.power.armed then h
  else
    let h := h.onPower fun p => { p with railOk := p.railOk.set r true }
    let h := if h.works then h.devEvent (0x1080 + 4 * r.val) (14 + r.val) 0x00400000 else h
    if h.dev.power.railOk.all id then h.pgoodRise else h

/-- The answer of an event of the supply, which also happens while the module is held in reset or in MIDWINTER. -/
def supplied (s : State) (f : Hw → Hw) : Host.Outcome State Fault Refusal :=
  answer s fun h => if h.works then (f h).settle h allChans else f h

/-- RAIL_FAULT. -/
def execRailFault (r : Rail) (s : State) : Host.Outcome State Fault Refusal := supplied s (·.railOut (railNum r))
/-- RAIL_BACK. -/
def execRailBack (r : Rail) (s : State) : Host.Outcome State Fault Refusal := supplied s (·.railIn (railNum r))

/-- V_GLITCH: Midwinter, while the detector is armed. -/
def execVGlitch (r : Rail) (s : State) : Host.Outcome State Fault Refusal :=
  live s fun h => if h.dev.power.armed then h.trigger 63 11 0x7E (railNum r).val else h

/-- TAMPER: Midwinter in every state from the first FUSE_SENSE after power-up on, RESET_N low included (R517). -/
def execTamper (s : State) : Host.Outcome State Fault Refusal :=
  answer s fun h =>
    if h.dev.boot.tamperLive && !h.inMw then (h.onBoot fun b => { b with st := .fuseSense }).trigger 63 20 0xE0 0 else h

/-- What RESET_N leaves: the supply, the root PLL, SYSCNT, and a fuse operation under way. -/
def Hw.resetHw (h : Hw) : Hw :=
  let d := h.dev
  let p := d.power
  let f : Fuses := if d.fuses.op.isSome then { d.fuses with resetWaits := true } else {}
  { now := h.now, drawn := h.drawn
    dev := {
      boot := { st := if d.boot.tamperLive then .fuseSense else .supplyUp, inReset := true, tamperLive := d.boot.tamperLive, supplyAt := d.boot.supplyAt }
      power := { railOk := p.railOk, pgood := p.pgood, armed := p.armed, vinMv := p.vinMv, temp := p.temp, warn := p.warn }
      fuses := f
      root := d.root
      sys := d.sys
      link := { jtag := d.link.jtag } } }

/-- RESET_N_ASSERT: the filter declares a reset. -/
def execResetNAssert (s : State) : Host.Outcome State Fault Refusal :=
  answer s fun h => if h.powered && !h.inMw && !h.dev.boot.inReset then h.resetHw else h

/-- A boundary-scan instruction that holds only while RESET_N is low acts as BYPASS (R526). -/
def jtagReleased (op : JtagOp) : JtagOp :=
  match op with
  | .extest => .bypass | .clamp => .bypass | .highz => .bypass
  | .bypass => .bypass | .idcode => .idcode | .sample => .sample | .debug => .debug

/-- RESET_N is high: start-up proceeds from FUSE_SENSE, or from SUPPLY_UP if the rails are not up (R408). -/
def Hw.resetEnds (h : Hw) : Hw :=
  let h := (h.onBoot fun b => { b with inReset := false }).onLink fun l => { l with jtag := jtagReleased l.jtag }
  if h.dev.power.pgood then h.enterFuseSense else h.onBoot fun b => { b with st := .supplyUp }

/-- RESET_N_RELEASE. -/
def execResetNRelease (s : State) : Host.Outcome State Fault Refusal := answer s fun h => if h.dev.boot.inReset then h.resetEnds else h

/-! ## Temperature (R391, R416, R457) -/

/-- A temperature in whole degrees as quarter degrees. -/
def quarters (n : Nat) : Int := (n : Int) * 4

/-- The warning threshold in quarter degrees. -/
def Hw.warnAt (h : Hw) : Int := quarters (clamp 60 120 (h.devField 0x1010 7 0))

/-- A sample of the seven sensors. -/
abbrev Temps := Vector (BitVec 12) 7

/-- A sensor's reading in quarter degrees. -/
def tempAt (t : Temps) (k : Fin 7) : Int := t[k].toInt

/-- The flags of DEV.PWR_TEVT_k after a sample: `cool` says that the warning episode ends. -/
def tevtFlags (p : Power) (t : Temps) (w : Int) (cool : Bool) (k : Fin 7) : Word :=
  (if quarters 125 ≤ tempAt t k ∧ p.crit[k] = false then 0x00800000 else 0)
    ||| (if w ≤ tempAt t k ∧ p.warned[k] = false then 0x00400000 else 0)
    ||| (if cool && p.warned[k] then 0x00200000 else 0)

/-- A sample reaches the working module: the events of each sensor, and TEMP_WARN and TEMP_CRIT. -/
def Hw.sensed (h : Hw) (t : Temps) (w : Int) (cool : Bool) : Hw :=
  let p := h.dev.power
  let h := (List.finRange 7).foldl (fun (h : Hw) k =>
    let fl := tevtFlags p t w cool k
    if fl = 0 then h else h.devEvent (0x1060 + 4 * k.val) (7 + k.val) fl) h
  let h := if p.warned.any id then h
    else match (List.finRange 7).find? fun k => decide (w ≤ tempAt t k) with
      | some k => h.raiseSpine 11 clsN 0x70 k.val
      | none => h
  let h := (List.finRange 7).foldl (fun (h : Hw) k =>
    if quarters 125 ≤ tempAt t k ∧ p.crit[k] = false then h.raiseSpine 11 clsD 0x71 k.val else h) h
  h.onPower fun p =>
    { p with
      warned := Vector.ofFn fun k : Fin 7 => !cool && (p.warned[k] || decide (w ≤ tempAt t k))
      crit := Vector.ofFn fun k : Fin 7 => decide (quarters 125 ≤ tempAt t k) || (p.crit[k] && decide (quarters 120 ≤ tempAt t k)) }

/-- A sample of every sensor and of VIN. THERM_N follows the warning episode whenever the rails are up. -/
def Hw.sampled (h : Hw) (t : Temps) (mv : BitVec 16) : Hw :=
  let w := h.warnAt
  let hot := (List.finRange 7).any fun k => decide (w ≤ tempAt t k)
  let cool := (List.finRange 7).all fun k => decide (tempAt t k < w - quarters 5)
  let h := h.onPower fun p => { p with temp := t, vinMv := mv, warn := hot || (p.warn && !cool) }
  if h.works && decide (h.dev.boot.st ≠ .supplyUp) then h.sensed t w cool else h

/-- The trip: every rail shuts down, and the comparator holds the module off. -/
def Hw.trip (h : Hw) : Hw :=
  let mw := h.inMw
  let mv := h.dev.power.vinMv
  let h := h.unpowered
  { h with dev := { h.dev with boot := { tripped := true, tripMw := mw }, power := { vinMv := mv } } }

/-- TEMP_SAMPLE. -/
def execTempSample (t : Vector (BitVec 12) 7) (mv : BitVec 16) (s : State) : Host.Outcome State Fault Refusal :=
  answer s fun h =>
    if !h.powered then h
    else if (List.finRange 7).any fun k => decide (quarters 140 ≤ tempAt t k) then h.trip
    else if h.works then (h.sampled t mv).settle h allChans
    else h.sampled t mv

/-- TRIP_RELEASE: every diode reads below 120 °C; a trip in MIDWINTER is not released. -/
def execTripRelease (t : Vector (BitVec 12) 7) (s : State) : Host.Outcome State Fault Refusal :=
  answer s fun h =>
    if h.dev.boot.tripped && !h.dev.boot.tripMw && (List.finRange 7).all (fun k => decide (tempAt t k < quarters 120)) then
      h.supplyUp h.dev.power.vinMv
    else h

/-! ## VIN warnings (R457) -/

/-- VIN_WARN_LOW. -/
def execVinWarnLow (s : State) : Host.Outcome State Fault Refusal :=
  live s fun h => (h.onPower fun p => { p with vinLow := true }).devEvent 0x1018 18 0x00800000

/-- VIN_WARN_OK: after LOW. -/
def execVinWarnOk (s : State) : Host.Outcome State Fault Refusal :=
  live s fun h => if h.dev.power.vinLow then (h.onPower fun p => { p with vinLow := false }).devEvent 0x1018 18 0x00400000 else h

/-! ## Islands (R16, R19, R385, R457) -/

/-- An event of DEV.PWR_IEVT, with its channel. -/
def Hw.islandEvent (h : Hw) (c : ChanId) (flags : Word) : Hw :=
  (h.setDevReg 0x101C (withField (h.devReg 0x101C) 5 0 c.val)).devEvent 0x101C 19 flags

/-- What a switching was for happens. -/
def Hw.switchedFor (h : Hw) (c : ChanId) (r : IslReq) : Hw :=
  match r.why with
  | .boot => h.chState c .starting
  | .start => h
  | .diag =>
    let h := (h.chState c .diag).onChan c fun x => ((x.toHunt .red).toHunt .bkw).toHunt .bkp
    h.finish .device (isDevCmd 0x62 c) stDone 0 5
  | .park => h.parkDone c
  | .shut =>
    let st := h.offSt c
    let old := (h.chan c).st
    let h := h.onChan c fun x => { x.offState with st := st }
    if old = st then h else h.chgEvent c

/-- The island at the head of the queue has switched, and the next request takes its turn; start-up that is on its way to BARE
enters it with the last island off. -/
def Hw.islandDone (h : Hw) : Hw :=
  match h.dev.power.islands with
  | [] => h
  | r :: rest =>
    let c := chanOr0 r.chan
    let h := (h.onPower fun p => { p with islands := rest }).onChan c fun x => { x with island := r.on }
    let h := (h.islandEvent c 0x00800000).switchedFor c r
    if rest.isEmpty && decide (h.dev.boot.bareWhy ≠ 0 ∧ h.dev.boot.st ≠ .bare) then h.enterBare else h

/-- ISLAND_SWITCH_DONE. -/
def execIslandSwitchDone (s : State) : Host.Outcome State Fault Refusal := watchedAll s Hw.islandDone

/-- ISLAND_OC: the switch opens, and ISLAND_OC is raised for the channel. -/
def execIslandOc (c : ChanId) (s : State) : Host.Outcome State Fault Refusal :=
  watched s c fun h =>
    if (h.chan c).island then
      ((h.onChan c fun x => { x with island := false }).islandEvent c 0x00400000).raiseChan c 11 clsH 0x72 0
    else h

/-! ## CH_START, CH_PARK, CH_DIAG (R387 to R390) -/

/-- CH_START begins: the channel is STARTING, and its island is asked on. -/
def Hw.startBegin (h : Hw) (x : Cmd) : Hw :=
  let c := chanOr0 x.chan.toNat
  if h.dev.boot.st ≠ .run then h.refuse .device x rChState
  else match (h.chan c).st with
    | .absent => h.refuse .device x rChAbsent
    | .parked => ((h.hold .device x).chState c .starting).askIsland c true .start
    | _ => h.refuse .device x rChState

/-- A start that a test has refused: the channel returns to PARKED, and the command completes. -/
def Hw.startFails (h : Hw) (c : ChanId) (reason : Nat) : Hw := (h.finish .device (isDevCmd 0x60 c) stRefused reason 0).parkBegin c

/-- The island of a STARTING channel is on: self-tests, configuration and release. A failed self-test raises a class H message that is
logged QUIET (R226, R360). -/
def Hw.startEnds (h : Hw) (c : ChanId) (katOk : Bool) : Hw :=
  let h := h.onChan c fun x => { x with cph := { x.cph with katFail := !katOk } }
  if !katOk then ((h.evCph c 0x00010000).raiseChan c 5 clsH 0x28 0).startFails c rCipherOff
  else
    let r := h.configure c
    if r.2 then r.1.finish .device (isDevCmd 0x60 c) stDone 0 3 else r.1.startFails c rLaneRate

/-- The channel of the oldest CH_START whose island is on. -/
def Hw.startReady (h : Hw) : Option ChanId :=
  (h.dev.q.run.find? fun x =>
    decide (x.op = 0x60) && x.held && decide ((h.chan (chanOr0 x.chan.toNat)).st = .starting) && (h.chan (chanOr0 x.chan.toNat)).island).map
    fun x => chanOr0 x.chan.toNat

/-- CH_START: a started command begins; with none, the oldest start whose island is on ends (log entry 41). -/
def execChStart (katOk : Bool) (s : State) : Host.Outcome State Fault Refusal :=
  watchedAll s fun h =>
    if !h.executes .device then h
    else if h.dev.q.run.any (fresh 0x60) then h.carry .device (fresh 0x60) fun x h => h.startBegin x
    else match h.startReady with
      | some c => h.startEnds c katOk
      | none => h

/-- CH_PARK. -/
def Hw.park (h : Hw) (x : Cmd) : Hw :=
  let c := chanOr0 x.chan.toNat
  match (h.chan c).st with
  | .absent => h.refuse .device x rChAbsent
  | .active => (h.hold .device x).parkBegin c
  | .diag => (h.hold .device x).parkBegin c
  | .starting => (h.hold .device x).startStop c
  | _ => h.refuse .device x rChState

/-- CH_PARK. -/
def execChPark (s : State) : Host.Outcome State Fault Refusal :=
  watchedAll s fun h => if h.executes .device then h.carry .device (fresh 0x61) fun x h => h.park x else h

/-- CH_DIAG: the island is asked on; the channel is in DIAG once it is. -/
def Hw.diag (h : Hw) (x : Cmd) : Hw :=
  let c := chanOr0 x.chan.toNat
  if h.dev.boot.st ≠ .bare then h.refuse .device x rChState
  else if !h.chEn c then h.refuse .device x rChAbsent
  else if !decide ((h.chan c).st = .parked ∨ (h.chan c).st = .absent) || h.dev.power.islands.any (fun r => decide (r.chan = c.val)) then
    h.refuse .device x rChState
  else
    let abs := decide ((h.chan c).st = .absent)
    ((h.hold .device x).onChan c fun y => { y with wasAbsent := abs }).askIsland c true .diag

/-- CH_DIAG. -/
def execChDiag (s : State) : Host.Outcome State Fault Refusal :=
  watchedAll s fun h => if h.executes .device then h.carry .device (fresh 0x62) fun x h => h.diag x else h

end Sys2Proof.Machine
end

