-- ==== Sys2Proof/Machine/Protect.lean ====
section
/-!
DEFINITION. Machine/Protect.lean: the commands of black-side protection: hold-off (R273), the APS majority (R275, R276), the state
machine's evaluations and timers (R278 to R280), operator commands (R281), and the selection check (R283).
-/
namespace Sys2Proof.Machine

/-! ## Hold-off (R273) -/

/-- A condition's place in the order SF-W, SF-P, SD-W, SD-P. -/
def condIdx : Sys2Proof.Cond → Fin 4
  | .sfW => 0 | .sfP => 1 | .sdW => 2 | .sdP => 3

/-- A hold-off ends: the condition becomes a request. -/
def Psw.mature (p : Psw) (i : Fin 4) : Psw :=
  if p.ho[i] && p.cond[i] then { p with ho := p.ho.set i false, req := p.req.set i true } else p

/-- HOLDOFF_EXPIRE. -/
def execHoldoffExpire (c : ChanId) (x : Sys2Proof.Cond) (s : State) : Host.Outcome State Fault Refusal :=
  onActive s c fun h => h.onChan c fun y => { y with psw := y.psw.mature (condIdx x) }

/-! ## The APS code (R275, R276) -/

/-- The window of R275 in cycles: 8 ms. -/
def apsWindow : Nat := 3200000

/-- The code that more than half of a list of codes holds. -/
def majority (l : List (BitVec 4)) : Option (BitVec 4) :=
  (List.finRange 16).findSome? fun i =>
    let v := BitVec.ofNat 4 i.val
    if l.length < 2 * (l.filter (· == v)).length then some v else none

/-- The protection state after an evaluation of the majority at a time; in 1:1 mode an exercise remembers that RR was seen (R281). -/
def Psw.aps (p : Psw) (one : Bool) (now : Nat) : Psw :=
  let seen := p.seen.filter fun e => decide (now - e.1 ≤ apsWindow)
  let m := majority (seen.map fun e => e.2.2.2)
  let p : Psw := { p with rxValid := p.rxValid || !seen.isEmpty, seen := seen, maj := m.isSome, majCode := m.getD 0, majCnt := min 65535 seen.length }
  match m with
  | none => { p with majRun := 0 }
  | some v =>
    if (pswOfCode v).isNone then { p with majRun := 0, rsvSeen := true }
    else
      let n : Nat := if v = p.rxCode then 0 else if p.majRun ≠ 0 ∧ p.majLast = v then p.majRun + 1 else 1
      let p : Psw := { p with rsvSeen := false, majLast := v, majRun := if 3 ≤ n then 0 else n, rxCode := if 3 ≤ n then v else p.rxCode }
      { p with exerSeen := p.exerSeen || (one && decide (p.cmd = 4 ∧ p.rxCode = 0x2)) }

/-- One evaluation of the far end's code. A reserved majority counts, and its first sets RX_RSV. -/
def Hw.apsEval (h : Hw) (c : ChanId) : Hw :=
  let x := h.chan c
  if !x.malotRuns then h
  else
    let old := x.psw
    let p := old.aps x.pswCfg.one h.now
    let h := h.onChan c fun y => { y with psw := p }
    if p.maj && (pswOfCode p.majCode).isNone then
      let h := h.count c 0x12 16 1
      if old.rsvSeen then h else h.evPsw c 0x00020000
    else h

/-- APS_EVALUATION. -/
def execApsEvaluation (c : ChanId) (s : State) : Host.Outcome State Fault Refusal := onActive s c (·.apsEval c)

/-- No trailer has been counted for 50 ms: RX_VALID falls, and an exercise in Equinox mode has not kept it. -/
def Psw.rxLost (p : Psw) (one : Bool) : Psw := { p with rxValid := false, exerSeen := p.exerSeen && one }

/-- RX_VALID_LOSS. -/
def execRxValidLoss (c : ChanId) (s : State) : Host.Outcome State Fault Refusal :=
  onActive s c fun h => h.onChan c fun x => { x with psw := x.psw.rxLost x.pswCfg.one }

/-! ## Evaluations and timers (R278, R279) -/

/-- PSW_EVALUATE. -/
def execPswEvaluate (c : ChanId) (s : State) : Host.Outcome State Fault Refusal := onActiveW s c (·.pswEval c)

/-- The WTR timer expires. -/
def Hw.wtrEnd (h : Hw) (c : ChanId) : Hw :=
  let x := h.chan c
  if x.malotRuns && x.psw.wtr then (h.onChan c fun y => { y with psw := { y.psw with wtr := false } }).pswEval c else h

/-- WTR_EXPIRE. -/
def execWtrExpire (c : ChanId) (s : State) : Host.Outcome State Fault Refusal := onActiveW s c (·.wtrEnd c)

/-- An exercise's 1 s has elapsed: its outcome is kept, and the state it was entered from returns. -/
def Hw.exerEnd (h : Hw) (c : ChanId) : Hw :=
  let x := h.chan c
  if x.malotRuns && decide (x.psw.cmd = 4) then
    (h.pswTake c { x.psw with cmd := 0, exerOk := x.psw.exerSeen }).pswEval c
  else h

/-- EXERCISE_END. -/
def execExerciseEnd (c : ChanId) (s : State) : Host.Outcome State Fault Refusal := onActiveW s c (·.exerEnd c)

/-! ## Operator commands (R280, R281) -/

/-- The operation of a PSW_CMD. -/
def pswOper (x : Cmd) : Nat := fieldOf x.w1 2 0

/-- A started PSW_CMD of an operation that is not under way. -/
def pswSel (ops : List Nat) (x : Cmd) : Bool := fresh 0x40 x && ops.contains (pswOper x)

/-- A PSW_CMD carried out by the Malot; in a quarantine it waits for the next evaluation (R284). -/
def onPsw (s : State) (c : ChanId) (ops : List Nat) (f : Cmd → Hw → Hw) : Host.Outcome State Fault Refusal :=
  watched s c fun h => if (h.chan c).malotRuns then h.carry (.chan c) (pswSel ops) f else h

/-- An operator command replaces the one in force; an exercise under way is cancelled, EXER_OK 0. -/
def Hw.pswPut (h : Hw) (c : ChanId) (v : BitVec 3) : Hw :=
  let p := (h.chan c).psw
  h.pswTake c { p with cmd := v, exerOk := if p.cmd = 4 then false else p.exerOk }

/-- A PSW_CMD completes: EXER_OK in bit 0 of its result (R444). -/
def Hw.pswDone (h : Hw) (c : ChanId) (x : Cmd) : Hw := h.done (.chan c) x (b2n (h.chan c).psw.exerOk)

/-- An accepted command takes its place, and the state machine evaluates it. -/
def Hw.pswAccept (h : Hw) (c : ChanId) (x : Cmd) (v : BitVec 3) : Hw := ((h.pswPut c v).pswEval c).pswDone c x

/-- PSW_LOCKOUT. -/
def execPswLockout (c : ChanId) (s : State) : Host.Outcome State Fault Refusal := onPsw s c [1] fun x h => h.pswAccept c x 1

/-- PSW_FORCED: not in LO and SF-P. -/
def execPswForced (c : ChanId) (s : State) : Host.Outcome State Fault Refusal :=
  onPsw s c [2] fun x h =>
    if (h.chan c).psw.st = .lo ∨ (h.chan c).psw.st = .sfP then h.refuse (.chan c) x rPswPreempt else h.pswAccept c x 2

/-- The states in which MANUAL is accepted. -/
def manualOk (st : PswState) : Bool := decide (st = .nr ∨ st = .dnr ∨ st = .wtr ∨ st = .exer ∨ st = .ms)

/-- PSW_MANUAL. -/
def execPswManual (c : ChanId) (s : State) : Host.Outcome State Fault Refusal :=
  onPsw s c [3] fun x h => if manualOk (h.chan c).psw.st then h.pswAccept c x 3 else h.refuse (.chan c) x rPswPreempt

/-- An exercise begins: the command waits for its end. EXER_OK reads 0 while it runs (DESIGN CHOICE, log entry 91). -/
def Hw.pswExercise (h : Hw) (c : ChanId) (x : Cmd) : Hw :=
  let h := h.hold (.chan c) x
  (h.onChan c fun y =>
    { y with psw := { y.psw with cmd := 4, exerOk := false, exerSeen := if y.pswCfg.one then decide (y.psw.rxCode = 0x2) else y.psw.rxValid } }).pswEval c

/-- PSW_EXERCISE: in NR and DNR. -/
def execPswExercise (c : ChanId) (s : State) : Host.Outcome State Fault Refusal :=
  onPsw s c [4] fun x h =>
    if (h.chan c).psw.st = .nr ∨ (h.chan c).psw.st = .dnr then h.pswExercise c x else h.refuse (.chan c) x rPswPreempt

/-- CLEAR: what each state makes of it (R279). -/
def Psw.cleared (p : Psw) (revert : Bool) : Psw :=
  { p with
    wtr := if p.st = .wtr then false else p.wtr
    dnr := if p.st = .dnr then false else if p.st = .fs ∨ p.st = .ms then !revert else p.dnr }

/-- PSW_CLEAR. -/
def execPswClear (c : ChanId) (s : State) : Host.Outcome State Fault Refusal :=
  onPsw s c [5] fun x h =>
    ((((h.pswPut c 0).onChan c fun y => { y with psw := y.psw.cleared y.pswCfg.revert })).pswEval c).pswDone c x

/-- PSW_OP: an operation that no rule gives. -/
def execPswOp (c : ChanId) (s : State) : Host.Outcome State Fault Refusal :=
  onPsw s c [0, 6, 7] fun x h => h.refuse (.chan c) x rPswOp

/-! ## The selection check (R283) -/

/-- A mismatch holds: in 1:1 mode the far end names the other path. -/
def Chan.misHolds (x : Chan) : Bool :=
  x.pswCfg.one && x.psw.rxValid && (match (pswOfCode x.psw.rxCode).bind PswState.path with
    | some p => decide (p ≠ x.psw.active)
    | none => false)

/-- PSW_MISMATCH: a mismatch has held for 50 ms. -/
def execPswMismatch (c : ChanId) (s : State) : Host.Outcome State Fault Refusal :=
  onActive s c fun h =>
    if (h.chan c).misHolds && !(h.chan c).psw.mismatch then
      ((h.onChan c fun x => { x with psw := { x.psw with mismatch := true } }).evPsw c 0x00010000).raiseChan c 7 clsN 0x38 0
    else h

/-- MISMATCH_CLEAR: 50 ms have passed without a mismatch. -/
def execMismatchClear (c : ChanId) (s : State) : Host.Outcome State Fault Refusal :=
  onActive s c fun h =>
    if (h.chan c).misHolds then h else h.onChan c fun x => { x with psw := { x.psw with mismatch := false } }

end Sys2Proof.Machine
end

