-- ==== Sys2Proof/Machine/Dispatch.lean ====
section
/-!
DEFINITION. Machine/Dispatch.lean: one arm per command of the opcode table, each one call of its meaning.
-/
namespace Sys2Proof.Machine

/-- What a command does to the hardware; the queue stands. -/
def exec (i : Instr) (s : State) : Host.Outcome State Fault Refusal :=
  match i with
  | .vinRise mv => Sys2Proof.Machine.execVinRise mv s
  | .vinFall => Sys2Proof.Machine.execVinFall s
  | .railsUp => Sys2Proof.Machine.execRailsUp s
  | .fuseSenseDone copy0 copy1 => Sys2Proof.Machine.execFuseSenseDone copy0 copy1 s
  | .rootLock shaOk flash => Sys2Proof.Machine.execRootLock shaOk flash s
  | .springLoadDone bytes => Sys2Proof.Machine.execSpringLoadDone bytes s
  | .verify ecdsaOk => Sys2Proof.Machine.execVerify ecdsaOk s
  | .selfTest failing => Sys2Proof.Machine.execSelfTest failing s
  | .bringUp coreFail => Sys2Proof.Machine.execBringUp coreFail s
  | .resetNAssert => Sys2Proof.Machine.execResetNAssert s
  | .resetNRelease => Sys2Proof.Machine.execResetNRelease s
  | .tamper => Sys2Proof.Machine.execTamper s
  | .tempSample t mv => Sys2Proof.Machine.execTempSample t mv s
  | .tripRelease t => Sys2Proof.Machine.execTripRelease t s
  | .railFault r => Sys2Proof.Machine.execRailFault r s
  | .vGlitch r => Sys2Proof.Machine.execVGlitch r s
  | .vinWarnLow => Sys2Proof.Machine.execVinWarnLow s
  | .vinWarnOk => Sys2Proof.Machine.execVinWarnOk s
  | .islandSwitchDone => Sys2Proof.Machine.execIslandSwitchDone s
  | .islandOc c => Sys2Proof.Machine.execIslandOc c s
  | .fuseResense copy0 copy1 => Sys2Proof.Machine.execFuseResense copy0 copy1 s
  | .fuseProgram m d => Sys2Proof.Machine.execFuseProgram m d s
  | .fuseSeal m d => Sys2Proof.Machine.execFuseSeal m d s
  | .fuseOpDone readBack => Sys2Proof.Machine.execFuseOpDone readBack s
  | .arbAdvance => Sys2Proof.Machine.execArbAdvance s
  | .chStart katOk => Sys2Proof.Machine.execChStart katOk s
  | .chPark => Sys2Proof.Machine.execChPark s
  | .chDiag => Sys2Proof.Machine.execChDiag s
  | .rootStop => Sys2Proof.Machine.execRootStop s
  | .rootGlitch => Sys2Proof.Machine.execRootGlitch s
  | .rootUnlock => Sys2Proof.Machine.execRootUnlock s
  | .backupOsc => Sys2Proof.Machine.execBackupOsc s
  | .rootRecover => Sys2Proof.Machine.execRootRecover s
  | .rootRelock => Sys2Proof.Machine.execRootRelock s
  | .clkGlitch => Sys2Proof.Machine.execClkGlitch s
  | .syscntWrap => Sys2Proof.Machine.execSyscntWrap s
  | .sctAlarmWrite m a d => Sys2Proof.Machine.execSctAlarmWrite m a d s
  | .sctAlarmFire a => Sys2Proof.Machine.execSctAlarmFire a s
  | .qualWindow q cand long ppb => Sys2Proof.Machine.execQualWindow q cand long ppb s
  | .qualWtrExpire q cand => Sys2Proof.Machine.execQualWtrExpire q cand s
  | .synLocked e => Sys2Proof.Machine.execSynLocked e s
  | .synUnlock e => Sys2Proof.Machine.execSynUnlock e s
  | .timLost e => Sys2Proof.Machine.execTimLost e s
  | .lockSample e ppb => Sys2Proof.Machine.execLockSample e ppb s
  | .holdoverUpdate e => Sys2Proof.Machine.execHoldoverUpdate e s
  | .timPstep m c d => Sys2Proof.Machine.execTimPstep m c d s
  | .phaseStepDone e => Sys2Proof.Machine.execPhaseStepDone e s
  | .stnFail inp => Sys2Proof.Machine.execStnFail inp s
  | .stnRecover inp => Sys2Proof.Machine.execStnRecover inp s
  | .stnPstep m d => Sys2Proof.Machine.execStnPstep m d s
  | .stnPullDone => Sys2Proof.Machine.execStnPullDone s
  | .losEntry c p why words => Sys2Proof.Machine.execLosEntry c p why words s
  | .losExit c p => Sys2Proof.Machine.execLosExit c p s
  | .framingPattern c p x => Sys2Proof.Machine.execFramingPattern c p x s
  | .runaheadHorizon c p words => Sys2Proof.Machine.execRunaheadHorizon c p words s
  | .lofEntry c p => Sys2Proof.Machine.execLofEntry c p s
  | .lofExit c p => Sys2Proof.Machine.execLofExit c p s
  | .lomEntry c p => Sys2Proof.Machine.execLomEntry c p s
  | .lomExit c p => Sys2Proof.Machine.execLomExit c p s
  | .rxFrame c p o => Sys2Proof.Machine.execRxFrame c p o s
  | .pointerInterval c p lvl pos read => Sys2Proof.Machine.execPointerInterval c p lvl pos read s
  | .failureDeclare c p d => Sys2Proof.Machine.execFailureDeclare c p d s
  | .failureClear c p d => Sys2Proof.Machine.execFailureClear c p d s
  | .txpll c p => Sys2Proof.Machine.execTxpll c p s
  | .txResume c p => Sys2Proof.Machine.execTxResume c p s
  | .prbsErrInj m c p d => Sys2Proof.Machine.execPrbsErrInj m c p d s
  | .prbsSyncGain c p => Sys2Proof.Machine.execPrbsSyncGain c p s
  | .prbsSyncLoss c p errBits chkBits => Sys2Proof.Machine.execPrbsSyncLoss c p errBits chkBits s
  | .geAnComplete c done page => Sys2Proof.Machine.execGeAnComplete c done page s
  | .lqOvf c q => Sys2Proof.Machine.execLqOvf c q s
  | .lqUnder c p => Sys2Proof.Machine.execLqUnder c p s
  | .eyeScanStart m c d => Sys2Proof.Machine.execEyeScanStart m c d s
  | .eyeScanDone c res los => Sys2Proof.Machine.execEyeScanDone c res los s
  | .tpClaim m c => Sys2Proof.Machine.execTpClaim m c s
  | .tpRelease m c => Sys2Proof.Machine.execTpRelease m c s
  | .tpRead m c ctl => Sys2Proof.Machine.execTpRead m c ctl s
  | .tpWrite m c x => Sys2Proof.Machine.execTpWrite m c x s
  | .tpOpDone c => Sys2Proof.Machine.execTpOpDone c s
  | .circuitStart c k => Sys2Proof.Machine.execCircuitStart c k s
  | .drainEnd c k => Sys2Proof.Machine.execDrainEnd c k s
  | .mapSwap c => Sys2Proof.Machine.execMapSwap c s
  | .tribBankSwitch c pos => Sys2Proof.Machine.execTribBankSwitch c pos s
  | .mapSwapForced c => Sys2Proof.Machine.execMapSwapForced c s
  | .mapSkewTimeout c pos => Sys2Proof.Machine.execMapSkewTimeout c pos s
  | .encBlockStart c k frame => Sys2Proof.Machine.execEncBlockStart c k frame s
  | .encBlockEnd c k x fault checks => Sys2Proof.Machine.execEncBlockEnd c k x fault checks s
  | .encWordRelease c k first last => Sys2Proof.Machine.execEncWordRelease c k first last s
  | .memError c index e => Sys2Proof.Machine.execMemError c index e s
  | .decBlockReceive c p k => Sys2Proof.Machine.execDecBlockReceive c p k s
  | .trailerHeadReceive c p k head => Sys2Proof.Machine.execTrailerHeadReceive c p k head s
  | .decTrailerReceive c p k this next checks => Sys2Proof.Machine.execDecTrailerReceive c p k this next checks s
  | .carriageBroken c p k => Sys2Proof.Machine.execCarriageBroken c p k s
  | .decBlockRelease c k checks => Sys2Proof.Machine.execDecBlockRelease c k checks s
  | .keyLoad c => Sys2Proof.Machine.execKeyLoad c s
  | .deviceKeyLoad => Sys2Proof.Machine.execDeviceKeyLoad s
  | .keyZeroize c => Sys2Proof.Machine.execKeyZeroize c s
  | .keyZeroizeAll c => Sys2Proof.Machine.execKeyZeroizeAll c s
  | .epochAdvance c => Sys2Proof.Machine.execEpochAdvance c s
  | .clearMode c => Sys2Proof.Machine.execClearMode c s
  | .overlapExpire c x => Sys2Proof.Machine.execOverlapExpire c x s
  | .keystoreCheck c x upsets => Sys2Proof.Machine.execKeystoreCheck c x upsets s
  | .keyScheduleCheck c => Sys2Proof.Machine.execKeyScheduleCheck c s
  | .clrArmWrite m c d => Sys2Proof.Machine.execClrArmWrite m c d s
  | .clrArmExpire c => Sys2Proof.Machine.execClrArmExpire c s
  | .latReanchor c => Sys2Proof.Machine.execLatReanchor c s
  | .reanchorTimeout c k => Sys2Proof.Machine.execReanchorTimeout c k s
  | .holdoffExpire c x => Sys2Proof.Machine.execHoldoffExpire c x s
  | .apsEvaluation c => Sys2Proof.Machine.execApsEvaluation c s
  | .rxValidLoss c => Sys2Proof.Machine.execRxValidLoss c s
  | .pswEvaluate c => Sys2Proof.Machine.execPswEvaluate c s
  | .wtrExpire c => Sys2Proof.Machine.execWtrExpire c s
  | .exerciseEnd c => Sys2Proof.Machine.execExerciseEnd c s
  | .pswLockout c => Sys2Proof.Machine.execPswLockout c s
  | .pswForced c => Sys2Proof.Machine.execPswForced c s
  | .pswManual c => Sys2Proof.Machine.execPswManual c s
  | .pswExercise c => Sys2Proof.Machine.execPswExercise c s
  | .pswClear c => Sys2Proof.Machine.execPswClear c s
  | .pswOp c => Sys2Proof.Machine.execPswOp c s
  | .pswMismatch c => Sys2Proof.Machine.execPswMismatch c s
  | .mismatchClear c => Sys2Proof.Machine.execMismatchClear c s
  | .faultServe => Sys2Proof.Machine.execFaultServe s
  | .cTimerExpire c => Sys2Proof.Machine.execCTimerExpire c s
  | .hTimerExpire c => Sys2Proof.Machine.execHTimerExpire c s
  | .dTimerExpire => Sys2Proof.Machine.execDTimerExpire s
  | .reactionComplete x => Sys2Proof.Machine.execReactionComplete x s
  | .shadowWindowEnd x => Sys2Proof.Machine.execShadowWindowEnd x s
  | .ackC m c seq => Sys2Proof.Machine.execAckC m c seq s
  | .ackH m c seq => Sys2Proof.Machine.execAckH m c seq s
  | .reactC m c seq => Sys2Proof.Machine.execReactC m c seq s
  | .reactH m c seq => Sys2Proof.Machine.execReactH m c seq s
  | .clrCirc m c seq k => Sys2Proof.Machine.execClrCirc m c seq k s
  | .clrChan m c seq => Sys2Proof.Machine.execClrChan m c seq s
  | .ackD m seq => Sys2Proof.Machine.execAckD m seq s
  | .reactD m seq => Sys2Proof.Machine.execReactD m seq s
  | .clrD m seq => Sys2Proof.Machine.execClrD m seq s
  | .supervisorPolicy x => Sys2Proof.Machine.execSupervisorPolicy x s
  | .supervisorRecover x => Sys2Proof.Machine.execSupervisorRecover x s
  | .malotWatchdog c => Sys2Proof.Machine.execMalotWatchdog c s
  | .isundWatchdog => Sys2Proof.Machine.execIsundWatchdog s
  | .faultInject m => Sys2Proof.Machine.execFaultInject m s
  | .stgInject m c d => Sys2Proof.Machine.execStgInject m c d s
  | .cvuCtlWrite m c u r d => Sys2Proof.Machine.execCvuCtlWrite m c u r d s
  | .cvuCheckpoint m c u => Sys2Proof.Machine.execCvuCheckpoint m c u s
  | .cvuRestore m c u => Sys2Proof.Machine.execCvuRestore m c u s
  | .cvuValWrite m c u d => Sys2Proof.Machine.execCvuValWrite m c u d s
  | .cvuCcfgWrite m c u d => Sys2Proof.Machine.execCvuCcfgWrite m c u d s
  | .pcieFlr f b => Sys2Proof.Machine.execPcieFlr f b s
  | .linkDown b0 b1 => Sys2Proof.Machine.execLinkDown b0 b1 s
  | .perstN b0 b1 => Sys2Proof.Machine.execPerstN b0 b1 s
  | .linkTrainingStart => Sys2Proof.Machine.execLinkTrainingStart s
  | .d3hotEnter f => Sys2Proof.Machine.execD3hotEnter f s
  | .debugConnect on b => Sys2Proof.Machine.execDebugConnect on b s
  | .registerWrite m addr be d => Sys2Proof.Machine.execRegisterWrite m addr be d s
  | .poisonedWrite f => Sys2Proof.Machine.execPoisonedWrite f s
  | .beatTimeout mid => Sys2Proof.Machine.execBeatTimeout mid s
  | .eventClear m addr d => Sys2Proof.Machine.execEventClear m addr d s
  | .mailboxSelect m d => Sys2Proof.Machine.execMailboxSelect m d s
  | .mailboxSnapshotClear m d => Sys2Proof.Machine.execMailboxSnapshotClear m d s
  | .mailboxCaptureDone m => Sys2Proof.Machine.execMailboxCaptureDone m s
  | .cmdSubmit m q w3 => Sys2Proof.Machine.execCmdSubmit m q w3 s
  | .cmdStart q => Sys2Proof.Machine.execCmdStart q s
  | .nop q => Sys2Proof.Machine.execNop q s
  | .cplLoRead m q => Sys2Proof.Machine.execCplLoRead m q s
  | .cplHiRead m q => Sys2Proof.Machine.execCplHiRead m q s
  | .msixSend f v => Sys2Proof.Machine.execMsixSend f v s
  | .bmxCntclr m d => Sys2Proof.Machine.execBmxCntclr m d s
  | .remapWrite m d => Sys2Proof.Machine.execRemapWrite m d s
  | .hptShareWrite m d => Sys2Proof.Machine.execHptShareWrite m d s
  | .flwClaim m => Sys2Proof.Machine.execFlwClaim m s
  | .flwRelease m => Sys2Proof.Machine.execFlwRelease m s
  | .flwGo m key => Sys2Proof.Machine.execFlwGo m key s
  | .flwOpDone data => Sys2Proof.Machine.execFlwOpDone data s
  | .mapAuselWrite m c d => Sys2Proof.Machine.execMapAuselWrite m c d s
  | .mapTrselWrite m c d => Sys2Proof.Machine.execMapTrselWrite m c d s
  | .rclCselWrite m c d => Sys2Proof.Machine.execRclCselWrite m c d s
  | .cphCselWrite m c d => Sys2Proof.Machine.execCphCselWrite m c d s
  | .latDselWrite m c d => Sys2Proof.Machine.execLatDselWrite m c d s
  | .pmSecond c red bkw bkp => Sys2Proof.Machine.execPmSecond c red bkw bkp s
  | .pmIntervalEnd c => Sys2Proof.Machine.execPmIntervalEnd c s
  | .pmSync m c => Sys2Proof.Machine.execPmSync m c s
  | .railBack r => Sys2Proof.Machine.execRailBack r s
  | .backupOscOk => Sys2Proof.Machine.execBackupOscOk s
  | .fclInteg x => Sys2Proof.Machine.execFclInteg x s
  | .linkUp speed width => Sys2Proof.Machine.execLinkUp speed width s
  | .linkRateChange speed width => Sys2Proof.Machine.execLinkRateChange speed width s
  | .d3hotExit f => Sys2Proof.Machine.execD3hotExit f s
  | .midwinterLinkRetrain => Sys2Proof.Machine.execMidwinterLinkRetrain s
  | .aliveToggle => Sys2Proof.Machine.execAliveToggle s
  | .jtagInstruction op => Sys2Proof.Machine.execJtagInstruction op s

end Sys2Proof.Machine
end

