-- ==== Sys2Proof/Machine/Views.lean ====
section
/-!
DEFINITION. Machine/Views.lean: what the outside sees of the state without changing it: what a register read returns, register by
register (R410, R416 to R419, R425, R427, R454 to R504), and the levels of the output pins (R368, R411, R516). The table has no row
for a plain read, so no command uses this file; the two reads that change state have rows of their own (R441).
-/
namespace Sys2Proof.Machine

/-! ## Codes -/

/-- STATE of DEV.BOOT_STAT (R408). -/
def BootSt.code : BootSt → Nat
  | .powerOff => 0 | .supplyUp => 1 | .fuseSense => 2 | .rootLock => 3 | .springLoad => 4 | .verify => 5 | .selfTest => 6
  | .bringUp => 7 | .run => 8 | .bare => 9 | .midwinter => 10

/-- Channel state codes (R386). -/
def ChSt.code : ChSt → Nat
  | .absent => 0 | .parked => 1 | .starting => 2 | .active => 3 | .parking => 4 | .diag => 5

/-- Engine state codes (R323). -/
def EngState.code : EngState → Nat
  | .freeRun => 0 | .acquiring => 1 | .locked => 2 | .holdover => 3 | .lost => 4

/-- Qualification codes (R323). -/
def Qst.code : Qst → Nat
  | .init => 0 | .disq => 1 | .pending => 2 | .qual => 3

/-- Framer state codes (R484). -/
def FrSt.code : FrSt → Nat
  | .hunt => 0 | .presync => 1 | .inframe => 2 | .runahead => 3

/-- Block delineation codes (R490). -/
def BlkSt.code : BlkSt → Nat
  | .hunt => 0 | .presync => 1 | .sync => 2 | .off => 3

/-- A word from its fields: each value at its lowest bit. -/
def word (l : List (Nat × Nat)) : Word := BitVec.ofNat 32 (l.map fun e => e.1 * 2 ^ e.2).sum

/-- A time in cycles of CK_CTRL as whole milliseconds. -/
def msOf (n : Nat) : Nat := n / 400000

/-! ## Event sources (R449, R473, R504) -/

/-- A flag of an event word is set. -/
def flagSet (w : Word) (r : Option RegDef) : Bool :=
  match r with
  | some r => decide (w &&& maskOf r (fun a => decide (a = .ws)) ≠ 0)
  | none => false

/-- The event register of device source `d`, for the sources that have one among the stored registers. -/
def devSrcReg (d : Nat) : Nat :=
  if d = 0 then 0x1004 else if d < 7 then 0x10C0 + 4 * (d - 1) else if d < 14 then 0x1060 + 4 * (d - 7)
  else if d < 18 then 0x1080 + 4 * (d - 14) else if d = 18 then 0x1018 else if d = 19 then 0x101C else if d = 20 then 0x2004
  else if d = 21 then 0x2008 else if d = 22 then 0x3004 else if d = 23 then 0x300C else if d < 28 then 0x3050 + 4 * (d - 24)
  else if d < 32 then 0x3060 + 4 * (d - 28) else if d = 34 then 0x4024 else if d = 41 then 0x5020 else if d = 44 then 0x502C
  else if d = 45 then 0x5030 else if d = 46 then 0x5034 else if d < 51 then 0x5050 + 4 * (d - 47) else 0x9010

/-- A channel of summary group `g` shows a record or a quarantine (R463). -/
def Hw.sumBits (h : Hw) (g : Fin 6) : List (Bool × Bool) := (groupChans g).map fun c => (h.chan c).csumBits

/-- Device source `d` is active, as master `m`'s banks show it; the debug port has no command bank (R441). -/
def Hw.devActive (h : Hw) (m : Master) (d : Nat) : Bool :=
  if d = 32 then h.dev.fcl.hNew || h.dev.fcl.hOvwr
  else if d = 33 then h.dev.fcl.d.pend || h.dev.fcl.dQuar
  else if hd : 35 ≤ d ∧ d < 41 then (h.sumBits ⟨d - 35, by omega⟩).any fun e => e.1 || e.2
  else if d = 42 then decide ((h.dev.bank m).wflags ≠ 0)
  else if d = 43 then decide (m ≠ .debug) && !((h.dev.q.bank m).cpl.isEmpty)
  else flagSet (h.devReg (devSrcReg d)) (findReg devRegs (devSrcReg d))

/-- The event register of channel source `j`. -/
def chSrcReg (j : Nat) : Nat :=
  if j = 2 then 0x2300 else if j = 3 then 0x3008 else if j = 4 then 0x4008 else if j = 5 then 0x5010 else if j = 6 then 0x6014
  else if j = 7 then 0x7008 else if j = 8 then 0x802C else if j = 9 then 0xA008 else 0x9008

/-- Source `j` of a channel is active, as master `m`'s bank shows it; a parked or ABSENT channel's sources are not. -/
def Hw.chActive (h : Hw) (m : Master) (c : ChanId) (j : Nat) : Bool :=
  let x := h.chan c
  x.raises &&
    (if j = 0 then x.flt.c.pend || x.flt.h.pend
    else if j = 1 then x.csumBits.2
    else if j = 11 then decide (m ≠ .debug) && !((x.q.bank m).cpl.isEmpty)
    else flagSet (x.reg (chSrcReg j)) (findReg chRegs (chSrcReg j)))

/-- A source is active in the event status that a master sees; PF1 sees no guarded source (R450). -/
def Hw.srcActive (h : Hw) (m : Master) (src : Nat) : Bool :=
  if m = .pf1 ∧ guardedSrc src = true then false
  else if 628 ≤ src then false
  else if hs : src < 576 then h.chActive m ⟨src / 12, by omega⟩ (src % 12)
  else h.devActive m (src - 576)

/-- `n` bits of a word, each from its number. -/
def numOf (n : Nat) (f : Nat → Bool) : Nat := ((List.range n).map fun i => b2n (f i) * 2 ^ i).sum

/-! ## Device registers -/

/-- Four bytes of the image in use, once VERIFY has passed (R455). -/
def Hw.imageWord (h : Hw) (i : Nat) : Word :=
  if h.dev.boot.imageOk then BitVec.ofNat 32 (beNat (slice (fit (i + 4) (h.dev.boot.image.take (i + 4))) i 4)) else 0

/-- Block 0x0 (R455). -/
def Hw.idView (h : Hw) (m : Master) (off : Nat) : Word :=
  if off = 0x8 then (if m = .pf1 then 0x48320000 else 0x48310000)
  else if off = 0xC then Config.serial.truncate 32
  else if off = 0x10 then (Config.serial >>> 32).truncate 32
  else if off = 0x14 then h.imageWord 128
  else if off = 0x18 then h.imageWord 16
  else if off = 0x20 then Config.grade.zeroExtend 32
  else devReset off

/-- DEV.BOOT_STAT (R414): BARE cause 4 reads as 3 with CORE_FAIL. -/
def Hw.bootStat (h : Hw) : Word :=
  let b := h.dev.boot
  word [(b.st.code, 28), (b2n b.slotB, 27), (b2n b.fallback, 26), (if b.st = .bare then min 3 b.bareWhy else 0, 24),
    (b2n (decide (b.bareWhy = 4)), 23), (b.whyB.toNat, 8), (b.whyA.toNat, 0)]

/-- Block 0x1 (R416, R417, R457). -/
def Hw.pwrView (h : Hw) (off : Nat) : Word :=
  let b := h.dev.boot
  let p := h.dev.power
  if off = 0x1000 then h.bootStat
  else if off = 0x1008 then
    word [(if b.st = .run ∨ b.st = .bare then min 65535 (msOf (b.runAt - b.supplyAt)) else 0, 16), (min 65535 (msOf b.loadFor), 0)]
  else if off = 0x100C then
    word [(b2n p.pgood, 31), (numOf 4 fun i => if hi : i < 4 then p.railOk[i] else false, 27), (b2n p.warn, 26),
      (b2n ((List.finRange 7).any fun k => decide (480 ≤ p.temp[k].toInt)), 25), (b2n (!p.islands.isEmpty), 24), (p.vinMv.toNat, 0)]
  else if off = 0x1020 then
    match p.islands with
    | [] => 0
    | r :: rest => word [(1, 31), (b2n r.on, 30), (r.chan, 24), (min 15 rest.length, 0)]
  else if hk : 0x1040 ≤ off ∧ off < 0x105C then (p.temp[(off - 0x1040) / 4]'(by omega)).zeroExtend 32
  else if hg : 0x10A0 ≤ off ∧ off < 0x10B8 then
    word ((groupChans ⟨(off - 0x10A0) / 4, by omega⟩).map fun c => ((h.chan c).st.code, 4 * (c.val % 8)))
  else h.devReg off

/-- Block 0x2 (R418, R419); the KWK words are never readable (R392). -/
def Hw.fusView (h : Hw) (off : Nat) : Word :=
  let f := h.dev.fuses
  if off = 0x2000 then
    word [(b2n h.sealed, 31), (b2n (h.fusesSet 24 8), 30), (b2n (h.fusesSet 12 12), 29), (b2n (h.fusesSet 0 12), 28),
      (b2n (h.ctrlFuse 0), 27), (b2n (h.ctrlFuse 1), 26), (b2n (h.ctrlFuse 2), 25), (b2n h.debugEnabled, 24), (h.thermo 38, 17),
      (h.thermo 40, 10)]
  else if off = 0x2018 then
    h.devReg off ||| word [(f.result.toNat, 8), (b2n f.op.isSome, 1), (b2n f.op.isSome, 0)]
  else if 0x2100 ≤ off then
    let w := (off - 0x2100) / 4
    if 24 ≤ w ∧ w < 32 then 0 else h.fuseWord w
  else h.devReg off

/-- QST, FAIL and DRIFT of a candidate, from bit 3 down. -/
def Cand.bits (k : Cand) : Nat := k.qst.code * 4 + b2n k.fail * 2 + b2n k.drift

/-- Block 0x3 (R325, R328). -/
def Hw.stnView (h : Hw) (off : Nat) : Word :=
  let r := h.dev.root
  let s := h.dev.stn
  if off = 0x3000 then
    word [(b2n r.rootOk, 7), (b2n r.pllLock, 6), (b2n r.hold, 5), (b2n r.slew, 4), (b2n r.bkpOk, 3)]
  else if off = 0x302C then
    word [(s.eng.st.code, 29), (s.eng.sel.val, 26), (b2n s.eng.histOk, 25), (b2n s.slew, 24), (s.inp[3].bits, 12), (s.inp[2].bits, 8),
      (s.inp[1].bits, 4), (s.inp[0].bits, 0)]
  else h.devReg off

/-- Block 0x4 (R353, R367, R374, R375, R463). -/
def Hw.fclView (h : Hw) (off : Nat) : Word :=
  let f := h.dev.fcl
  if off = 0x4008 then word [(f.hseq.toNat, 24), (b2n f.hNew, 23), (b2n f.hOvwr, 22), (min 32 f.unread, 0)]
  else if off = 0x400C then
    let v := h.drecView
    word [(f.dseq.toNat, 24), (b2n v.1, 23), (b2n v.2.1, 22), (b2n v.2.2, 21), (msgKind f.dq.cause, 0)]
  else if off = 0x4014 then
    match f.mw with
    | none => 0
    | some (src, kind, inj) => word [(b2n h.inMw, 31), (b2n inj, 20), (src.toNat, 8), (kind.toNat, 0)]
  else if off = 0x4020 then word [(b2n f.mBlocked, 2), (b2n f.injBusy.isSome, 1)]
  else if hx : 0x4028 ≤ off ∧ off < 0x4034 then
    let i := (off - 0x4028) / 4
    let q := f.pol[(off - 0x4028) / 4]'(by omega)
    word [(b2n (bitOf (h.devReg 0x4000) i), 31), (q.1.toNat, 16), (q.2.toNat, 0)]
  else if hg : 0x4040 ≤ off ∧ off < 0x4058 then
    let g : Fin 6 := ⟨(off - 0x4040) / 4, by omega⟩
    let l := h.sumBits g
    word [(f.csumSeq[g.val].toNat, 24), (numOf 8 fun k => (l.getD k (false, false)).1, 16), (numOf 8 fun k => (l.getD k (false, false)).2, 8)]
  else h.devReg off

/-- Blocks 0x5 and 0x6 as a master sees its own banks (R429, R433, R465, R466). How many of a master's served beats lost an arbitration,
and the longest wait, are free values (R437, log entry 10). -/
def Hw.bmxView (h : Hw) (m : Master) (off : Nat) : Word :=
  let b := h.dev.bank m
  let l := h.dev.link
  if off = 0x5000 then word [(b.wseq.toNat, 24), (b.wflags.toNat, 19), (b.ign.toNat, 0)]
  else if off = 0x5004 then b.waddr.zeroExtend 32
  else if off = 0x5028 then
    word [(b2n l.up, 31), (if l.up then l.speed.toNat else 0, 28), (if l.up then l.width.toNat else 0, 24), (b2n h.dev.f1.msixOn, 3),
      (b2n h.dev.f0.msixOn, 2), (b2n h.dev.f1.d3, 1), (b2n h.dev.f0.d3, 0)]
  else if ha : 0x5050 ≤ off ∧ off < 0x5060 then h.devReg off ||| word [(b2n (h.dev.armed[(off - 0x5050) / 4]'(by omega)), 0)]
  else if off = 0x6000 then b.sel
  else if off = 0x6004 then word [(b2n b.valid, 31), (b2n b.err, 30)]
  else if 0x6008 ≤ off ∧ off < 0x6018 then (b.data >>> (8 * (off - 0x6008))).truncate 32
  else if 0x5100 ≤ off ∧ off < 0x5200 ∧ (off % 16 = 4 ∨ off % 16 = 12) then
    if h.devReg (off - off % 16) = 0 then 0 else h.draw.1.truncate 32
  else h.devReg off

/-- A command port's registers from CMD_CREDIT on, as its submitter's bank shows them (R441); the debug port has no bank. -/
def Hw.portView (h : Hw) (m : Master) (p : Port) (i : Nat) : Word :=
  let b := (h.queue p).bank m
  if m = .debug then 0
  else if i = 0x10 then word [(h.share p m, 8), (h.credit p m, 0)]
  else if i = 0x14 then ((b.cpl.head?.getD 0).truncate 32)
  else if i = 0x18 then b.latch.getD 0
  else if i = 0x1C then word [(b.cpl.length, 0)]
  else 0

/-- Blocks 0x9 to 0xC (R450, R451, R469, R472). -/
def Hw.evrView (h : Hw) (m : Master) (off : Nat) : Word :=
  let f := h.dev.func (fnOf m)
  if off = 0x900C then word [(h.dev.flw.owner.toNat, 1), (b2n h.dev.flw.busy, 0)]
  else if off = 0x9010 then h.devReg off ||| word [(b2n h.dev.flw.busy, 0)]
  else if 0xA000 ≤ off ∧ off < 0xB000 then
    let src := (off - 0xA000) / 4
    if 628 ≤ src then 0 else tget 0 f.routes src ||| word [(b2n (guardedSrc src), 30)]
  else if 0xB000 ≤ off ∧ off < 0xB050 then BitVec.ofNat 32 (numOf 32 fun b => h.srcActive m (8 * (off - 0xB000) + b))
  else if 0xB100 ≤ off ∧ off < 0xB200 then
    let v := (off - 0xB100) / 4
    word [(b2n (f.pend.getLsbD v), 31), ((tget 0 f.hold v).toNat, 0)]
  else if 0xC000 ≤ off ∧ off < 0xC400 then tget (msixReset ((off - 0xC000) / 4)) f.msix ((off - 0xC000) / 4)
  else if off = 0xC400 then f.pend.truncate 32
  else if off = 0xC404 then (f.pend >>> 32).truncate 32
  else h.devReg off

/-- What a device register shows a master that may read it. -/
def Hw.devView (h : Hw) (m : Master) (off : Nat) : Word :=
  if off < 0x1000 then h.idView m off
  else if off < 0x2000 then h.pwrView off
  else if off < 0x3000 then h.fusView off
  else if off < 0x4000 then h.stnView off
  else if off < 0x5000 then h.fclView off
  else if off < 0x7000 then h.bmxView m off
  else if off < 0x8000 then h.portView m .device (off - 0x7000)
  else h.evrView m off

/-! ## Channel registers -/

/-- A lane's transmitter is electrically idle, for any cause (R130, R136, R137). -/
def Chan.txIdles (x : Chan) (p : Lane) : Bool :=
  (x.lane p).txIdle || bitOf (x.reg (laneReg p)) 6 || x.squelch || decide (x.rate p = 0)

/-- Block 0x0 (R365, R479). -/
def Hw.ctlView (h : Hw) (m : Master) (c : ChanId) (off : Nat) : Word :=
  let x := h.chan c
  if off = 0 then word [(x.st.code, 29), (c.val / 8 + 1, 26), (c.val, 20), (b2n x.island, 19)]
  else if off = 4 then
    BitVec.ofNat 32 (numOf 12 fun j => h.srcActive m (12 * c.val + j))
  else if off = 8 then
    let v := h.recView c
    word [(x.flt.seq.toNat, 24), (b2n v.cpend, 23), (b2n v.hpend, 22), (b2n v.quarH, 21), (b2n v.qcond, 20), (v.ccirc.toNat, 0)]
  else if off = 0x10 then word [(x.flt.qseq.toNat, 24), (b2n x.quarView.1, 23), (x.quarView.2, 0)]
  else 0

/-- Block 0x1 (R135, R136, R481). The setting of an equalizer that adapts is the lane's own: a free value (log entry 3). -/
def Hw.prtView (h : Hw) (c : ChanId) (off : Nat) : Word :=
  let x := h.chan c
  let p := laneOf ((off - 0x1000) / 0x40)
  let l := x.lane p
  let w := x.reg off
  if off = 0x10C0 then word [(x.prtBits .red, 0), (x.prtBits .bkw, 4), (x.prtBits .bkp, 8)]
  else if 0x10C0 ≤ off then w
  else if (off - 0x1000) % 0x40 = 0 then w ||| word [(b2n l.cdrLock, 20)]
  else if (off - 0x1000) % 0x40 = 4 then w ||| word [(b2n l.chkSync, 8)]
  else if (off - 0x1000) % 0x40 = 8 then
    w ||| word [(if bitOf w 8 then fieldOf w 4 0 else h.draw.1.toNat % 32, 16)]
  else if (off - 0x1000) % 0x40 = 0xC then
    if bitOf (x.reg (laneReg p)) 10 then h.draw.1.truncate 32 &&& 0x3FFFFFFF else 0
  else if (off - 0x1000) % 0x40 = 0x14 then
    word [(b2n l.txLock, 31), (b2n (x.txIdles p), 30), (b2n x.squelch, 29), (fieldOf w 15 0, 0)]
  else w

/-- The lane that PATH of a selector names, 3 as 0 (R488). -/
def selLane (w : Word) : Lane := laneOf (fieldOf w 31 30 % 3)

/-- A position lies on a lane's line: within its AUGs, its TU-3 places and its TUG-2s (R140). -/
def Chan.onLine (x : Chan) (p : Lane) (pos : Pos) : Bool :=
  decide (pos.aug.toNat < augCount (x.rate p) ∧ pos.t3.toNat ≤ 2 ∧ pos.t2.toNat ≤ 6)

/-- The pointer that CHn.MAP_AUSEL selects; one outside the line reads as after reset (R489). -/
def Chan.selPtr (x : Chan) : PtrSt :=
  let w := x.reg 0x3030
  let lvl := fieldOf w 29 28
  let pos := posOf (fieldOf w 12 0)
  if x.onLine (selLane w) pos then x.ptr (selLane w) (if lvl = 1 then .tu3 else if lvl = 2 then .tu else .au) pos else {}

/-- Block 0x2 (R484 to R486). -/
def Chan.frmView (x : Chan) (off : Nat) : Word :=
  let p := laneOf ((off - 0x2000) / 0x100)
  let l := x.lane p
  if off < 0x2300 ∧ (off - 0x2000) % 0x100 = 0x10 then l.defects.zeroExtend 32
  else if off < 0x2300 ∧ (off - 0x2000) % 0x100 = 0x1C then
    word [(l.fr.code, 30), (numOf 4 fun i => (l.slots.getD i none).isSome, 26), (fieldOf (x.reg off) 7 0, 0)]
  else if 0x2380 ≤ off ∧ off < 0x23C0 then
    if fieldOf (x.reg 0x3030) 29 28 = 2 then 0
    else BitVec.ofNat 32 (beNat (slice (fit 64 x.selPtr.acc) (off - 0x2380) 4))
  else x.reg off

/-- CHn.MAP_TRSTAT (R488); a tributary without a configured fractional circuit reads as after reset (R489). -/
def Chan.trStat (x : Chan) : Word :=
  let w := x.reg 0x3038
  let pos := posOf (fieldOf w 12 0)
  let k := x.tribKind pos
  let t := x.trib (selLane w) pos
  if x.tribTfmt k pos = 7 then 0x07000000
  else word [(b2n t.tlof, 31), (b2n t.tlomf, 30), (b2n t.cas, 29), (b2n t.tais, 28), (b2n t.trai, 27), (x.tribTfmt k pos, 24),
    (min 7 (x.subs x.map.enc k pos).length, 20)]

/-- Block 0x3 (R177, R179, R182, R488). -/
def Chan.mapView (x : Chan) (off : Nat) : Word :=
  let q := x.selPtr
  if off = 0x3004 then word [(b2n x.map.pending, 2), (b2n x.map.dec, 1), (b2n x.map.enc, 0)]
  else if off = 0x3010 then word [(x.map.tpOwner.toNat, 1)]
  else if off = 0x3018 then
    x.reg off ||| word [(x.map.tpResult.toNat, 8), (b2n x.map.tpBusy, 5), (b2n x.map.tpOp.isSome, 2)]
  else if off = 0x3034 then
    word [(q.st.toNat, 30), (q.ofs.toNat, 20), (q.sig.toNat, 12), (b2n q.uneq, 11), (b2n q.plm, 10), (b2n q.tim, 9), (b2n q.rdi, 8), (b2n q.lom, 7)]
  else if off = 0x303C then x.trStat
  else if 0x3040 ≤ off ∧ off < 0x304C then BitVec.ofNat 32 (x.defCnt (laneOf ((off - 0x3040) / 4)))
  else x.reg off

/-- The circuit a selector names. -/
def Chan.selCirc (x : Chan) (off : Nat) : CircId := BitVec.ofNat 13 (fieldOf (x.reg off) 12 0)

/-- Block 0x4 (R490); a disabled circuit's status reads as after reset (R489), here and in blocks 0x5 and 0x6. -/
def Chan.rclView (x : Chan) (off : Nat) : Word :=
  let k := x.selCirc 0x400C
  let y := x.circ! k
  if off = 0x4010 then
    if !y.en then 0xF0000000 else word [(y.w.blk.code, 30), (y.p.blk.code, 28), (b2n y.w.cb, 27), (b2n y.p.cb, 26), (b2n (decide (0 < y.kaLeft)), 25), (k.toNat, 0)]
  else if off = 0x4014 then word [(x.countCirc (·.p.cb), 16), (x.countCirc (·.w.cb), 0)]
  else x.reg off

/-- A circuit's slot in use is at or above SEQ 2^32 (R192). -/
def Circ.ages (y : Circ) : Bool := y.en && decide (2 ^ 32 ≤ (y.eseq y.odd).toNat)

/-- A circuit is in hard stop (R193). -/
def Circ.stops (y : Circ) : Bool := y.en && y.hardStop

/-- Block 0x5 (R230, R231, R491). -/
def Hw.cphView (h : Hw) (c : ChanId) (off : Nat) : Word :=
  let x := h.chan c
  let k := x.selCirc 0x5014
  let y := x.circ! k
  if off = 0x5008 then word [(b2n x.cph.armed, 14), (x.countCirc (·.clear), 0)]
  else if off = 0x500C then
    word [(b2n (x.cph.katFail && decide (x.st ≠ .absent)), 31), (b2n (bitOf (h.fuseWord (34 + c.val / 32)) (c.val % 32)), 30),
      (x.countCirc Circ.stops, 16), (x.countCirc Circ.ages, 0)]
  else if off = 0x5018 then
    if !y.en then 0 else word [(b2n y.guard, 31), (b2n y.clear, 30), (b2n y.odd, 29), (b2n y.ages, 28), (b2n y.stops, 27), (b2n y.w.kep, 26), (b2n y.p.kep, 25), (k.toNat, 0)]
  else x.reg off

/-- Block 0x6 (R260, R261, R493). -/
def Chan.latView (x : Chan) (off : Nat) : Word :=
  let r := rateBps (x.rate .red)
  let y := x.circ! (x.selCirc 0x600C)
  if off = 0x6004 then
    if r = 0 then 0 else word [(min 32000 (25165824 * 1000000 / r), 16), (min 5242 (33554432 * 100000 / r), 0)]
  else if off = 0x6008 then
    word [((x.reservedSum + 8192 * 10000000000 - 1) / (8192 * 10000000000), 16), (x.countCirc (·.starved), 0)]
  else if off = 0x6010 then
    if !y.en then 0 else word [(b2n y.anchor.isSome, 31), (b2n ((y.anchor.map fun a => decide (a.path = .bkp)).getD false), 30), (b2n y.lead, 29), (b2n y.dovf, 28),
      (satSigned 25 (lagOf ((y.anchor.map (·.path)).getD .bkw) (y.delta.getD 0)), 0)]
  else x.reg off

/-- Block 0x6 of a channel. The occupancy of a lane queue of an ACTIVE channel, and its peak, follow the phases of its two clocks: free
values (R252, R258; log entry 23). -/
def Hw.latView (h : Hw) (c : ChanId) (off : Nat) : Word :=
  let x := h.chan c
  let n := h.draw.1.toNat % 65
  if !x.isActive then x.latView off
  else if 0x60C0 ≤ off ∧ off < 0x60D8 then BitVec.ofNat 32 n
  else if 0x6080 ≤ off ∧ off < 0x6098 then withField (x.reg off) 15 0 n
  else x.latView off

/-- CMD of CHn.PSW_STAT, and the rest of block 0x7 (R287, R495). -/
def Hw.pswView (h : Hw) (c : ChanId) (off : Nat) : Word :=
  let x := h.chan c
  let p := x.psw
  let left := p.wtrTo - h.now
  if off = 0x7004 then
    word [(p.st.code.toNat, 28), (p.rxCode.toNat, 24), (b2n p.rxValid, 23), (b2n (decide (p.active = .bkp)), 22), (p.cmd.toNat, 19), (b2n p.wtr, 18),
      (b2n (p.ho.any id), 17), (b2n p.cond[0], 16), (b2n p.cond[1], 15), (b2n p.cond[2], 14), (b2n p.cond[3], 13), (b2n p.exerOk, 12),
      (b2n p.mismatch, 11), (if p.wtr then min 1023 ((left + 399999999) / 400000000) else 0, 0)]
  else if off = 0x700C then word [(p.majCnt, 16), (b2n p.maj, 4), (if p.maj then p.majCode.toNat else 0, 0)]
  else x.reg off

/-- FR_QL and HO_QL and LINE_QL of CHn.TIM_QL, from the highest field down (R312, R322). -/
def Chan.qls (x : Chan) : Nat × Nat × Nat :=
  let w := x.reg 0x8014
  (fieldOf w 31 28, fieldOf w 27 24, fieldOf w 23 20)

/-- The QL of a candidate (R313). -/
def Hw.candQl (h : Hw) (c : ChanId) (i : Nat) : Nat :=
  let x := h.chan c
  if i < 3 then
    if bitOf (x.reg 0x8014) 0 && isSdh (x.rate (candLane i)) then fieldOf (x.reg (frmReg (candLane i) 0x14)) 11 8 else x.qls.2.2
  else if i < 7 then h.devField (0x3010 + 4 * (i - 3)) 31 28
  else x.qls.1

/-- TX_QL of a synthesizer (R312). -/
def Hw.txQl (h : Hw) (c : ChanId) (r : Bool) : Nat :=
  let x := h.chan c
  let g := x.syn r
  match g.st with
  | .locked => h.candQl c g.sel.val
  | .acquiring => if g.histOk then x.qls.2.1 else x.qls.1
  | .holdover => x.qls.2.1
  | .lost => x.qls.1
  | .freeRun => x.qls.1

/-- CHn.TIM_STAT_s (R323). -/
def Hw.timStat (h : Hw) (c : ChanId) (r : Bool) : Word :=
  let g := (h.chan c).syn r
  let held := decide (g.st = .holdover ∨ g.st = .lost)
  let thru := (g.st = .acquiring ∨ g.st = .locked) ∧ thruCand r g.sel.val = true
  word [(g.st.code, 29), (g.sel.val, 26), (b2n g.histOk, 25), (b2n g.disagree, 24), (b2n g.rootHold, 23), (b2n (decide thru), 22),
    (h.txQl c r, 16), (if held then min 65535 (g.hoSecs / 60) else 0, 0)]

/-- Block 0x8 (R323, R324, R496). -/
def Hw.timView (h : Hw) (c : ChanId) (off : Nat) : Word :=
  let x := h.chan c
  if off = 0x8018 then h.timStat c false
  else if off = 0x801C then h.timStat c true
  else if off = 0x8024 ∨ off = 0x8028 then
    let g := x.syn (decide (off = 0x8028))
    word [(b2n g.step.isSome, 31), (satSigned 25 g.ofs, 0)]
  else if hc : 0x8040 ≤ off ∧ off < 0x805C then
    let i : Fin 7 := ⟨(off - 0x8040) / 4, by omega⟩
    let k := if i.val < 3 then x.cand i else h.dev.stn.inp[stnIn i]
    word [(k.qst.code, 30), (b2n k.fail, 29), (b2n k.drift, 28), (h.candQl c i.val, 24), (satSigned 24 ((x.cand i).ppb / 10), 0)]
  else if hc : 0x8060 ≤ off ∧ off < 0x807C then
    let i : Fin 7 := ⟨(off - 0x8060) / 4, by omega⟩
    word [(satSigned 24 ((x.cand i).fast / 10), 0)]
  else x.reg off

/-- Block 0x9 (R499). -/
def Hw.mltView (h : Hw) (c : ChanId) (off : Nat) : Word :=
  let m := (h.chan c).mlt
  if off = 0x9000 then word [(b2n m.run, 31), ((m.beats h.now).toNat, 0)]
  else if off = 0x9004 then word [(b2n m.psus, 17), (b2n m.csus, 16), (m.sec, 0)]
  else h.chReg c off

/-- Block 0xA (R344, R501). -/
def Chan.cvuView (x : Chan) (off : Nat) : Word :=
  if hk : 0xA040 ≤ off ∧ off < 0xA080 then
    word [(tget 0 x.ctr (ctrKey 0x13 ((off - 0xA040) / 4)) % 65536, 16)] ||| x.reg off
  else if hu : 0xA100 ≤ off ∧ off < 0xA200 then
    let u : Fin 8 := ⟨(off - 0xA100) / 0x20, by omega⟩
    let i := (off - 0xA100) % 0x20
    if i = 0x10 then (x.cvu.unit[u]).run &&& x.cvuMask u.val
    else if i = 0x1C then (x.cvu.unit[u]).ctx[0].val
    else if i = 4 ∨ i = 8 ∨ i = 0xC ∨ i = 0x14 then x.reg off &&& x.cvuMask u.val
    else x.reg off
  else x.reg off

/-- What a channel register shows a master that may read it, while the channel runs. -/
def Hw.chView (h : Hw) (m : Master) (c : ChanId) (off : Nat) : Word :=
  let x := h.chan c
  match off / 4096 with
  | 0 => h.ctlView m c off
  | 1 => h.prtView c off
  | 2 => x.frmView off
  | 3 => x.mapView off
  | 4 => x.rclView off
  | 5 => h.cphView c off
  | 6 => h.latView c off
  | 7 => h.pswView c off
  | 8 => h.timView c off
  | 9 => h.mltView c off
  | 0xA => x.cvuView off
  | _ => h.portView m (.chan c) (off - 0xC000)

/-! ## A read -/

/-- What of a register a master may see: write-only fields read 0, and every RG field reads 0 to PF1 (R427, R428). -/
def RegDef.shown (r : RegDef) (m : Master) (w : Word) : Word :=
  w &&& ~~~ maskOf r (fun a => decide (a = .wo)) &&& ~~~ (if m = .pf1 then maskOf r (fun a => decide (a = .rg)) else 0)

/-- KAT_FAIL and CLR_PERMIT of CHn.CPH_STAT and the other content that the register fabric keeps (R425, R476). -/
def Hw.keptView (h : Hw) (m : Master) (c : ChanId) (off : Nat) (r : RegDef) : Word :=
  let x := h.chan c
  if !x.raises then h.chView m c off &&& r.kept
  else if x.st = .diag ∧ 3 ≤ off / 4096 then (r.reset &&& ~~~ r.kept) ||| (h.chView m c off &&& r.kept)
  else h.chView m c off

/-- The registers that the map does not list as such: the route table, and the MSI-X table with its PBA (R450, R472). -/
def unlisted (off : Nat) : Bool := decide (0xA000 ≤ off ∧ off < 0xB000) || decide (0xC000 ≤ off ∧ off < 0xC408)

/-- A device register as a master reads it. -/
def Hw.devRead (h : Hw) (m : Master) (off : Nat) : Word :=
  match findReg devRegs off with
  | none =>
    if !unlisted off then 0
    else if m = .pf1 ∧ off < 0xB000 ∧ guardedSrc ((off - 0xA000) / 4) = true then 0
    else h.devView m off
  | some r => if h.lacks m r.guard then 0 else r.shown m (h.devView m off)

/-- A channel register as a master reads it. -/
def Hw.chRead (h : Hw) (m : Master) (c : ChanId) (off : Nat) : Word :=
  match findReg chRegs off with
  | none => 0
  | some r => if h.lacks m r.guard then 0 else r.shown m (h.keptView m c off r)

/-- The registers that answer in MIDWINTER (R373). -/
def mwReads (off : Nat) : Bool :=
  decide (off < 0x24) || decide (off ∈ [0x1000, 0x3000, 0x4008, 0x4014]) || decide (0x6000 ≤ off ∧ off < 0x6018)

/-- The registers that answer PF0, PF1 and the debug port before RUN or BARE (R410, R454). -/
def earlyReads (off : Nat) : Bool := decide (off < 0x24 ∨ off = 0x1000)

/-- A master stands on a port that works at all: a function's link, the connected debug port, or the module's own masters. -/
def Hw.onPort (h : Hw) (m : Master) : Bool :=
  h.works && decide (h.dev.boot.st ≠ .supplyUp) && (match m with
    | .pf0 => h.dev.link.up && !h.dev.f0.d3
    | .pf1 => h.dev.link.up && !h.dev.f1.d3
    | .debug => h.debugEnabled && h.dev.link.debugOn
    | .isund => true
    | .malot => true)

/-- What a read of a BAR0 offset returns to a master: 0 wherever nothing answers. -/
def Hw.read (h : Hw) (m : Master) (a : BitVec 22) : Word :=
  match place a with
  | .dev off =>
    if h.inMw then (if h.mbxReaches m && mwReads off then h.devRead m off else 0)
    else if h.reachesDev m then h.devRead m off
    else if h.onPort m && decide (m ≠ .malot) && earlyReads off then h.devRead m off
    else 0
  | .chan c off => if h.reaches m then h.chRead m c off else 0

/-! ## Output pins (R368, R411, R516) -/

/-- What a pin shows. -/
inductive Level where
  | released | low | high
deriving DecidableEq, Repr

/-- A driven level. -/
def Level.of (b : Bool) : Level := if b then .high else .low

/-- Every rail is in its window: VIO with them (R516). -/
def Hw.vioUp (h : Hw) : Bool := h.powered && h.dev.power.railOk[3]

/-- ALIVE toggles in RUN and is released otherwise. -/
def Hw.pinAlive (h : Hw) : Level := if h.works ∧ h.dev.boot.st = .run then Level.of h.dev.link.alive else .released

/-- DEV_OK is high in RUN, low in MIDWINTER, and released otherwise (R372). -/
def Hw.pinDevOk (h : Hw) : Level :=
  if h.inMw then .low else if h.works ∧ h.dev.boot.st = .run then .high else .released

/-- MWINTER_N: low in MIDWINTER, high in every other powered state, released while VIO is outside its window. -/
def Hw.pinMwinter (h : Hw) : Level := if !h.vioUp then .released else Level.of (!h.inMw)

/-- A record of the collector drives FAULT_N: an injected one only while INJ_REACT is 1. -/
def Hw.drives (h : Hw) (r : Rec) : Bool := r.pend && (!msgInj r.msg || h.injReact)

/-- A record is PENDING, or something is quarantined (R368). -/
def Hw.anyFault (h : Hw) : Bool :=
  h.drives h.dev.fcl.d || h.dev.fcl.dQuar
    || allChans.any fun c => h.drives (h.chan c).flt.c || h.drives (h.chan c).flt.h || (h.chan c).csumBits.2

/-- FAULT_N, open drain. -/
def Hw.pinFault (h : Hw) : Level :=
  if h.inMw then .low
  else if h.works && decide (h.dev.boot.st ≠ .supplyUp) && h.anyFault then .low
  else .released

/-- THERM_N, open drain: low in a warning episode whenever VIO is in its window (R391). -/
def Hw.pinTherm (h : Hw) : Level := if h.vioUp && h.dev.power.warn then .low else .released

/-- PGOOD, open drain: low until every rail is good, while VIN lasts (R380). -/
def Hw.pinPgood (h : Hw) : Level := if h.powered && !h.dev.power.pgood then .low else .released

/-- TXDIS of a lane, open drain: low under TX_EN of an ACTIVE channel in RUN, released otherwise (R136, R386). -/
def Hw.pinTxdis (h : Hw) (c : ChanId) (p : Lane) : Level :=
  let x := h.chan c
  if h.works ∧ h.dev.boot.st = .run ∧ x.st = .active ∧ x.squelch = false ∧ bitOf (x.reg (laneReg p)) 7 = true then .low else .released

/-- A lane's transmitter drives the line: in RUN, and as its channel's state and registers allow (R386, R411). -/
def Hw.txDrives (h : Hw) (c : ChanId) (p : Lane) : Bool :=
  h.works && decide (h.dev.boot.st = .run) && (h.chan c).isActive && !(h.chan c).txIdles p

end Sys2Proof.Machine
end

