-- ==== Sys2Proof/Machine/Overhead.lean ====
section
/-!
DEFINITION. Machine/Overhead.lean: what a lane's transmitter sends beside the circuits' content, as a view of the state: nothing,
the received bits, a PRBS or the channel's stream (R130, R131, R134, R137), and the overhead of that stream (R23 step 10, R102, R116
to R119, R147, R149, R150, R312).

Byte places are those of ITU-T G.707 and G.709, the base page that of IEEE 802.3 clause 37 (log entries 72 and 73).
-/
namespace Sys2Proof.Machine

/-! ## Section and line overhead (R116) -/

/-- The section and line overhead that a lane's transmitter chooses: a trace, K2, S1 and M1. K1 and every byte that R116 does not
name are 0x00. -/
structure TxSoh where
  j0 : List Byte
  k2 : Byte
  s1 : Byte
  m1 : Byte
deriving DecidableEq, Repr

/-- CRC-7 of G.707 over a bit string, x^7 + x^3 + 1. -/
def crc7 (l : List Bool) : Nat :=
  l.foldl (fun a b => (a * 2 % 128) ^^^ (if a.testBit 6 != b then 0x09 else 0)) 0

/-- A 16-byte trace with byte 0 in place: the marker bit, then the CRC-7 of the trace before it, its own byte counting as the marker
alone (R485). -/
def trace16 (l : List Byte) : List Byte :=
  let t := fit 15 (l.drop 1)
  BitVec.ofNat 8 (128 + crc7 ((0x80 :: t).flatMap byteBits)) :: t

/-- The J0 trace of a lane: one byte, 16 with CRC-7, or 64 (R116, R485). -/
def Chan.j0Out (x : Chan) (p : Lane) : List Byte :=
  let w := x.reg (frmReg p 0xC)
  match fieldOf w 1 0 with
  | 0 => [BitVec.ofNat 8 (fieldOf w 15 8)]
  | 1 => trace16 (x.trcBytes (frmReg p 0x40) 16)
  | _ => x.trcBytes (frmReg p 0x40) 64

/-- The synthesizer that times a lane: SYN_R for RED, SYN_B for BKW and BKP (R312). -/
def synOf (p : Lane) : Bool := decide (p = .red)

/-- S1 of a lane: the TX_QL of its synthesizer, or 0xF where the lane's own receive is the selected reference (R312). -/
def Hw.s1Out (h : Hw) (c : ChanId) (p : Lane) : Byte :=
  let g := (h.chan c).syn (synOf p)
  if (g.st = .acquiring ∨ g.st = .locked) ∧ g.sel.val = p.num then 0x0F else BitVec.ofNat 8 (h.txQl c (synOf p) % 16)

/-- A lane's receive is in LOS, LOF or MS-AIS: its transmitter sends MS-RDI (R116). -/
def LaneSt.sendsRdi (l : LaneSt) : Bool := l.def_ 15 || l.def_ 13 || l.def_ 11

/-- The section and line overhead of a lane's next frame. Nothing of another lane enters it (R102), and K2 never carries MS-AIS
(R117). -/
def Hw.sohOut (h : Hw) (c : ChanId) (p : Lane) : TxSoh :=
  let l := (h.chan c).lane p
  { j0 := (h.chan c).j0Out p, k2 := if l.sendsRdi then 6 else 0, s1 := h.s1Out c p, m1 := BitVec.ofNat 8 (min 255 l.rei) }

/-- BIP-8 of B1, over a whole transmitted frame, and BIP-24N of B2, over its bytes but for the regenerator section overhead; `cols`
is the bytes of a row, `n` the AUG-1s. -/
def b1Of (frame : List Byte) : Byte := bip8 frame

/-- B2's bytes. -/
def b2Of (n cols : Nat) (frame : List Byte) : List Byte :=
  let l := (frame.zipIdx.filter fun e => decide (3 * cols ≤ e.2) || decide (9 * n ≤ e.2 % cols)).map (·.1)
  (List.range (3 * n)).map fun i => bip8 ((l.zipIdx.filter fun e => decide (e.2 % (3 * n) = i)).map (·.1))

/-- The overhead byte at a row and a column, from 1, of a frame of `n` AUG-1s that carries trace byte `j` and the parities of the
frame before; row 4 is the pointers', which the mapper generates. -/
def sohByte (n row col : Nat) (o : TxSoh) (j : Nat) (b1 : Byte) (b2 : List Byte) : Byte :=
  if row = 1 then (if col ≤ 3 * n then 0xF6 else if col ≤ 6 * n then 0x28 else if col = 6 * n + 1 then o.j0.getD (j % max 1 o.j0.length) 0 else 0)
  else if row = 2 then (if col = 1 then b1 else 0)
  else if row = 5 then (if col ≤ 3 * n then b2.getD (col - 1) 0 else if col = 6 * n + 1 then o.k2 else 0)
  else if row = 9 then (if col = 1 then o.s1 else if col = 3 * n + 3 then o.m1 else 0)
  else 0

/-! ## OTU overhead (R118) -/

/-- The OTU overhead that a lane's transmitter chooses: the TTI, BEI and BDI; IAE, GCC0 and RES are 0, and the FEC area holds
parity or zeros. -/
structure TxOtu where
  tti : List Byte
  bei : BitVec 4
  bdi : Bool
  fec : Bool
deriving DecidableEq, Repr

/-- A lane's receive is in LOS, LOF, LOM, or SM-TIM that acts as LOS: its transmitter sends BDI (R118). -/
def Chan.sendsBdi (x : Chan) (p : Lane) : Bool :=
  let l := x.lane p
  l.def_ 15 || l.def_ 13 || l.def_ 12 || (l.def_ 8 && bitOf (x.reg (frmReg p 8)) 3)

/-- The OTU overhead of a lane's next frame. -/
def Chan.otuOut (x : Chan) (p : Lane) : TxOtu :=
  { tti := x.trcBytes (frmReg p 0x40) 64, bei := BitVec.ofNat 4 (min 8 (x.lane p).rei), bdi := x.sendsBdi p, fec := bitOf (x.reg (frmReg p 8)) 0 }

/-- SM bytes of a frame with MFAS `m`: TTI byte, BIP-8 of the OPU area of the frame before, and BEI, BDI and IAE. -/
def smBytes (o : TxOtu) (m : Nat) (bip : Byte) : List Byte :=
  [o.tti.getD (m % 64) 0, bip, BitVec.ofNat 8 (o.bei.toNat * 16 + b2n o.bdi * 8)]

/-- Multiplication by x in the field of RS(255,239), x^8 + x^4 + x^3 + x^2 + 1. -/
def rsX (a : Byte) : Byte := (a <<< 1) ^^^ (if a.getLsbD 7 then 0x1D else 0)

/-- Multiplication in that field. -/
def rsMul (a b : Byte) : Byte :=
  (List.range 8).foldl (fun (r : Byte × Byte) i => (if b.getLsbD i then r.1 ^^^ r.2 else r.1, rsX r.2)) (0, a) |>.1

/-- The generator polynomial of RS(255,239) less its leading term: the product of x − α^i for i = 0 to 15, highest power
first. -/
def rsGen : List Byte :=
  let step := fun (g : List Byte) (r : Byte) => List.zipWith (· ^^^ ·) (g.drop 1 ++ [0]) (g.map (rsMul r))
  let full := (List.range 16).foldl (fun (e : List Byte × Byte) _ =>
    (e.1.headD 0 :: (step e.1 e.2), rsX e.2)) ([1], 1)
  full.1.drop 1

/-- The 16 parity bytes of a codeword's 239 data bytes. -/
def rsParity (l : List Byte) : List Byte :=
  l.foldl (fun r b =>
    let f := b ^^^ r.headD 0
    List.zipWith (· ^^^ ·) (r.drop 1 ++ [0]) (rsGen.map (rsMul f))) (List.replicate 16 0)

/-- The FEC area of a row of 3,824 bytes: 16 codewords byte-interleaved, or zeros. -/
def fecArea (fec : Bool) (row : List Byte) : List Byte :=
  if fec then
    let ps := (List.range 16).map fun i => rsParity ((row.zipIdx.filter fun e => decide (e.2 % 16 = i)).map (·.1))
    (List.range 16).flatMap fun j => ps.map fun p => p.getD j 0
  else List.replicate 256 0

/-! ## Path overhead and positions that no circuit owns (R149, R150) -/

/-- The path overhead of a structured VC or SPE as it is passed on: J1, C2, G1, F2, F3, K3 and N1 unchanged, B3 over the transmitted
content, and H4 with the multiframe phase of the incoming signal. -/
def structPoh (poh : List Byte) (b3 : Byte) : List Byte :=
  let f := fit 9 poh
  [f.getD 0 0, b3, f.getD 2 0, f.getD 3 0, f.getD 4 0, 0xFC ||| (f.getD 5 0 &&& 3), f.getD 6 0, f.getD 7 0, f.getD 8 0]

/-- What a lane carries at a higher-order position. -/
inductive VcOut where
  | circuit (k : Nat) | structured (poh : List Byte) | unequipped
deriving DecidableEq, Repr

/-- A higher-order position lies over a circuit of its own, over an enabled lower-order circuit, or over none. The structured one passes
the path overhead that arrived on the RED lane, or on the path in service; `b3` is the parity of what is sent. -/
def Chan.vcOut (x : Chan) (red : Bool) (pos : Pos) (b3 : Byte) : VcOut :=
  match x.circ.find? fun e => e.2.en && ownVc .au pos x.sonet e.2 with
  | some e => .circuit e.1
  | none =>
    if x.circ.any fun e => e.2.en && !isWhole e.2.kind && decide (auOf x.sonet e.2.kind e.2.pos = pos) then
      .structured (structPoh (x.ptr (if red then x.psw.active.lane else .red) .au pos).poh b3)
    else .unequipped

/-- What a lane carries at a position that no enabled circuit owns: zero but for its parity, C2 and the signal label 0 among it. -/
def unequippedVc (kind : Nat) : List Byte := (regen kind 0 0 (zeroBlock kind)).1

/-! ## PRBS (R133) -/

/-- The taps of a pattern: the sequence's polynomial is x^a + x^b + 1. -/
def prbsTaps : Nat → Option (Nat × Nat)
  | 1 => some (7, 6)
  | 2 => some (9, 5)
  | 3 => some (15, 14)
  | 4 => some (23, 18)
  | 5 => some (31, 28)
  | _ => none

/-- The next bit of a sequence after its last 31 bits, the newest in bit 0. -/
def prbsNext (a b : Nat) (r : BitVec 31) : Bool := r.getLsbD (a - 1) != r.getLsbD (b - 1)

/-- The next `n` bits of a sequence, inverted under INV. -/
def prbsBits (a b : Nat) (inv : Bool) : Nat → BitVec 31 → List Bool
  | 0, _ => []
  | n + 1, r => let v := prbsNext a b r; (v != inv) :: prbsBits a b inv n ((r <<< 1) ||| (if v then 1 else 0))

/-! ## A lane's transmitter -/

/-- What a lane's transmitter sends: nothing while it is squelched or electrically idle; the bits its own lane receives; a PRBS with
its taps and INV; or the channel's stream with the overhead of its line. -/
inductive LaneTx where
  | silent | received | prbs (a b : Nat) (inv : Bool) | sdh (o : TxSoh) | otn (o : TxOtu) | ethernet
deriving DecidableEq, Repr

/-- What a lane's transmitter sends. The spine's squelch comes first (R137), then TX_SQ and a lost transmit PLL (R130); line loopback
and the PRBS generator discard the channel's stream (R131, R134). No remote indication goes out on Ethernet (R125). -/
def Hw.laneTx (h : Hw) (c : ChanId) (p : Lane) : LaneTx :=
  let x := h.chan c
  let w := x.reg (laneReg p)
  let g := x.reg (laneReg p + 4)
  if x.squelch || !x.raises || bitOf w 6 || (x.lane p).txIdle then .silent
  else if fieldOf w 9 8 = 2 then .received
  else
    match (if bitOf g 3 then prbsTaps (fieldOf g 2 0) else none) with
    | some t => .prbs t.1 t.2 (bitOf g 5)
    | none => if isSdh (x.rate p) then .sdh (h.sohOut c p) else if isOtn (x.rate p) then .otn (x.otuOut p) else .ethernet

/-- TXDIS of a lane is driven low: TX_EN, unless the spine releases it (R136, R137). -/
def Chan.txEnabled (x : Chan) (p : Lane) : Bool := bitOf (x.reg (laneReg p)) 7 && !x.squelch

/-! ## Auto-negotiation (R82) -/

/-- The base page that a red 1GE lane advertises: full duplex, the PAUSE bits of CHn.RCL_GECFG and remote fault 00. -/
def Chan.basePage (x : Chan) : BitVec 16 := BitVec.ofNat 16 (0x20 + fieldOf (x.reg 0x4004) 1 0 * 0x80)

/-- The null message page that answers a next page. -/
def nullPage : BitVec 16 := 0x2001

end Sys2Proof.Machine
end

