-- ==== Sys2Proof/Safety.lean ====
section
/-!
DEFINITION. Safety.lean: what a safe state is and what a command's completion is, in the terms the statements use.
-/
namespace Sys2Proof.Machine

/-- No key slot of a context holds a key. -/
def Ctx.blank (x : Ctx) : Bool := decide (x.even.st = .empty ∧ x.even.key = [] ∧ x.odd.st = .empty ∧ x.odd.key = [])

/-- A channel holds no key, no keystream and no captured blob (R372). -/
def Chan.blank (x : Chan) : Bool :=
  x.cph.ctx.all (fun e => e.2.blank) && x.cph.ks.toList.all (fun l => l.isEmpty) && x.cph.kbuf.isEmpty && x.q.wait.all (fun y => y.blob.isEmpty)
    && x.q.run.all (fun y => y.blob.isEmpty)

/-- The module holds no key anywhere (R372). -/
def Hw.keyless (h : Hw) : Prop := h.dev.kbuf = [] ∧ ∀ c : ChanId, (h.chan c).blank = true

/-- A step ends neither in a fault nor in a refusal. -/
def stepsOn (s : State) : Prop := ∃ t, step s = .next t

/-- A command completes: it answers a next state, leaves the queue of waiting commands, and brings the hardware where `P`
holds. -/
def Completes (i : Instr) (s : State) (P : Hw → Prop) : Prop := ∃ t, exec i s = .next t ∧ t.pending = s.pending ∧ P t.hw

/-! ## Apart from what is raised and reported

A message in its ingress slot, a PEND latch of the router, and the SEQ of a record register move beside a command's own
effect. `Hw.quiet` is the hardware without them. -/

/-- A function without its PEND latches. -/
def FuncSt.quiet (f : FuncSt) : FuncSt := { f with pend := 0 }

/-- The collector without its ingress slots and the SEQ of its record registers. -/
def Fcl.quiet (f : Fcl) : Fcl := { f with slots := [], coal := [], raised := 0, dseq := 0, csumSeq := Vector.replicate 6 0 }

/-- A channel without the SEQ of its record registers. -/
def Chan.quiet (x : Chan) : Chan := { x with flt := { x.flt with seq := 0, qseq := 0 } }

/-- The spines without ingress slots, PEND latches and the SEQ of record registers. -/
def Dev.quiet (d : Dev) : Dev := { d with fcl := d.fcl.quiet, f0 := d.f0.quiet, f1 := d.f1.quiet }

/-- The hardware without ingress slots, PEND latches and the SEQ of record registers. -/
def Hw.quiet (h : Hw) : Hw := { h with dev := h.dev.quiet, chans := h.chans.map Chan.quiet }

/-- The hardware is as given, everywhere but in ingress slots, PEND latches and the SEQ of record registers. -/
def Hw.is (t e : Hw) : Prop := t.quiet = e.quiet

/-- Message `m` of the hardware `h` has entered its ingress slot, and no other message (R346, R348, R349). -/
def Hw.tookMsg (t h : Hw) (m : BitVec 64) : Prop := t.dev.fcl.slots = (h.dev.fcl.enter m (h.dev.sys.truncate 40) h.now).slots

/-- No message has been raised. -/
def Hw.noMsg (t h : Hw) : Prop := t.dev.fcl.slots = h.dev.fcl.slots

/-- Midwinter has been entered by a trigger (R371, R372, R374, R411): no key is left, no transmitter drives, the link is down,
and DEV.FCL_MW names the first trigger. -/
structure Hw.MidwinterBy (t h : Hw) (m : BitVec 64) : Prop where
  entered : t.inMw = true
  noKeys : t.keyless
  idle : ∀ c : ChanId, (t.chan c).squelch = true
  linkDown : t.dev.link.up = false
  trigger : h.dev.fcl.mw = none → t.dev.fcl.mw = some (BitVec.ofNat 12 (msgSrc m), BitVec.ofNat 8 (msgKind m), msgInj m)

/-- Another channel than `c`, and the spine outside the collector, the registers and the command queue, stand as they were. -/
structure Hw.Local (t h : Hw) (c : ChanId) : Prop where
  others : ∀ d : ChanId, d ≠ c → t.chan d = h.chan d
  boot : t.dev.boot = h.dev.boot
  power : t.dev.power = h.dev.power
  fuses : t.dev.fuses = h.dev.fuses
  root : t.dev.root = h.dev.root
  stn : t.dev.stn = h.dev.stn
  sys : t.dev.sys = h.dev.sys
  link : t.dev.link = h.dev.link
  flw : t.dev.flw = h.dev.flw
  now : t.now = h.now

/-- The Malot of an ACTIVE channel has a started command next to carry out, the oldest that meets a test, submitted on the channel's own port by a master
that has not been reset (R441, R446). -/
structure Hw.Runs (h : Hw) (c : ChanId) (sel : Cmd → Bool) (x : Cmd) : Prop where
  works : h.works = true
  executes : h.executes (.chan c) = true
  next : (h.chan c).q.run.find? sel = some x
  own : x.parent = none
  kept : x.dropped = false

/-- A channel's command has been carried out and has completed: it has left the queue, its completion is the newest of its submitter's
bank (R444), and nothing beyond the channel has changed. -/
structure Hw.Completed (t h : Hw) (c : ChanId) (sel : Cmd → Bool) (x : Cmd) (status reason result : Nat) : Prop where
  run : (t.chan c).q.run = (h.chan c).q.run.eraseP sel
  cpl : ((t.chan c).q.bank x.by_).cpl = ((h.chan c).q.bank x.by_).cpl ++ [cplWord x.op x.tag status c.val reason result]
  here : t.Local h c

/-- A channel's command is under way: it waits for its event, with no completion yet. -/
structure Hw.Waits (t h : Hw) (c : ChanId) (sel : Cmd → Bool) (x : Cmd) : Prop where
  run : (t.chan c).q.run = (h.chan c).q.run.eraseP sel ++ [{ x with held := true }]
  cpl : ((t.chan c).q.bank x.by_).cpl = ((h.chan c).q.bank x.by_).cpl
  here : t.Local h c

/-! ## What a circuit's positions carry -/

/-- A circuit's positions on the black lanes carry a payload and a reclaim sequence, with `base` what its container held beside them
and `trl` the trailer of a 1GE block: a sub-circuit's slots, a 10GE block scrambled from where the circuit's last ended, a 1GE
block's code groups, or the container with its parity regenerated (R23, R31, R48, R74, R76, R149). -/
def Circ.carries (y : Circ) (base pay : List Byte) (rec : List Bool) (trl : List Byte) (o : LineOut) : Prop :=
  (isFrac y.kind = true → ∃ p : SubOut, o = .slots p ∧ p.pay = pay ∧ p.rcl = rec ∧ p.fill = 0)
  ∧ (y.kind = 0x0D → o = .line (.blocks66 y.scr (through scramble y.scr (xgeBlocks (xgeStream pay rec))).1))
  ∧ (y.kind = 0x0E → o = .line (.codes (geBlack y.rdB pay trl).1))
  ∧ (isFrac y.kind = false → frameLen y.kind ≠ 0 → o = .line (.bytes (regen y.kind 0 y.parB (placeBlock y.kind base pay rec)).1))

/-- A circuit's positions on the RED lane carry its service's fill: 0xFF in a sub-circuit's slots, local fault, 1GE idle, ODU AIS, or the
AIS of the VC's pointer (R100, R148, R154, R531); `scr` is the lane's scrambler. -/
def Circ.sendsFill (y : Circ) (scr : Scr) (o : LineOut) : Prop :=
  (isFrac y.kind = true → ∃ p : SubOut, o = .slots p ∧ p.pay = [] ∧ p.fill = 0xFF)
  ∧ (y.kind = 0x0D → o = .line (.blocks66 scr (through scramble scr (List.replicate 256 localFault)).1))
  ∧ (y.kind = 0x0E → o = .line (.codes (geOut y.geTx none).1))
  ∧ (isWhole y.kind = true → frameLen y.kind ≠ 0 → o = .line (.bytes (List.replicate (blockFrames y.kind * frameLen y.kind) 0xFF)))
  ∧ (isFrac y.kind = false → isWhole y.kind = false → frameLen y.kind ≠ 0 → o = .ais)

/-- A circuit's positions on the RED lane carry a stored data block, its coding restored and its violations re-inserted (R26, R85). -/
def Circ.sendsData (y : Circ) (scr : Scr) (e : DsEnt) (o : LineOut) : Prop :=
  (isFrac y.kind = true → ∃ p : SubOut, o = .slots p ∧ p.pay = e.body ∧ p.ect = e.ect)
  ∧ (y.kind = 0x0D → o = .line (.blocks66 scr (through scramble scr (untranscode e.body)).1))
  ∧ (y.kind = 0x0E → o = .line (.codes (geOut y.geTx (some e.body)).1))
  ∧ (isFrac y.kind = false → frameLen y.kind ≠ 0 → o = .line (.bytes (regen y.kind e.ect y.parR (placeBlock y.kind e.span.toBytes e.body [])).1))

/-- The module is in MIDWINTER, not held in reset and not tripped, with no key left, and no command waits that takes its supply away: VIN
does not fall, and no diode reads 140 °C (R372, R391, R408). -/
structure State.inMidwinter (s : State) : Prop where
  entered : s.hw.inMw = true
  released : s.hw.dev.boot.inReset = false
  supplied : s.hw.dev.boot.tripped = false
  noKeys : s.hw.keyless
  stays : ∀ i ∈ s.pending, i ≠ .vinFall ∧ ∀ t mv, i = .tempSample t mv → ∀ k : Fin 7, t[k].toInt < 560

end Sys2Proof.Machine
end

