-- ==== Sys2Proof/Certificates/Slice0/Obligations.lean ====
section
/-!
DEFINITION. Certificates/Slice0/Obligations.lean: the statements, for the provers.
-/
section
open Sys2Proof Sys2Proof.Machine

/-! ## The block -/

/-- A step runs the command at the front of the queue on the state with the queue's rest, and every other command waits on
in its order (the host's interface of the block). -/
def Obligations.StepRunsFront : Prop :=
  ∀ (s : State) (c : Instr) (rest : List Instr), s.pending = c :: rest → step s = exec c { s with pending := rest }

/-- On an empty queue nobody acts and one CK_CTRL cycle passes: SYSCNT counts it from the first root lock after power-up on
(R296), and nothing else of the hardware changes. That a step on an empty queue is one cycle is the model's choice (log
entry 2). -/
def Obligations.IdleStepIsOneCycle : Prop :=
  ∀ s : State, s.pending = [] →
    step s = .next { s with hw := { s.hw with
      now := s.hw.now + 1
      dev := { s.hw.dev with sys := if s.hw.dev.boot.st ≠ .powerOff ∧ s.hw.dev.root.everLocked = true then s.hw.dev.sys + 1 else s.hw.dev.sys } } }

/-- No command is refused and none faults, in any state and with any operands, and none touches the queue: an order the spec
does not let act is answered and changes nothing it may not (log entries 4 and 5). -/
def Obligations.EveryCommandAnswers : Prop :=
  ∀ (i : Instr) (s : State), Completes i s fun _ => True

/-- Before VIN rises the module is in POWER_OFF (R408) with every channel ABSENT and squelched, no key anywhere, no record
open, no fuse latched, no link, empty queues, and nothing waiting; every register holds the Reset value of its register
map (R408, R425). -/
def Obligations.ResetIsPowerOff : Prop :=
  State.reset.pending = [] ∧ State.reset.hw.dev.boot.st = .powerOff ∧ State.reset.hw.keyless
    ∧ State.reset.hw.dev.fuses.words = [] ∧ State.reset.hw.dev.link.up = false
    ∧ State.reset.hw.dev.fcl.d.pend = false ∧ State.reset.hw.dev.fcl.hist = [] ∧ State.reset.hw.dev.q = {}
    ∧ (∀ o, State.reset.hw.devReg o = devReset o)
    ∧ ∀ c, (State.reset.hw.chan c).st = .absent ∧ (State.reset.hw.chan c).squelch = true ∧ (State.reset.hw.chan c).q = {}
      ∧ (State.reset.hw.chan c).store = [] ∧ (State.reset.hw.chan c).circ = [] ∧ (State.reset.hw.chan c).flt.h.pend = false
      ∧ ∀ o, State.reset.hw.chReg c o = chReset o

/-! ## Supply and reset -/

/-- VIN_RISE leads from POWER_OFF to SUPPLY_UP (R408), TRIP_RELEASE does so after a thermal trip outside Midwinter once every
diode reads below 120 °C (R391), VIN_FALL and a diode at 140 °C or more lead to POWER_OFF: each leaves every register,
key, record, queue and channel at its reset value, but for what is named.
RAILS_UP ends SUPPLY_UP with PGOOD high (R380, R408). RESET_N_ASSERT holds the powered module in reset: the supply, the root
PLL and SYSCNT go on, a fuse operation under way goes on, and everything else is at its reset value (R395, R517).
RESET_N_RELEASE lets start-up proceed from FUSE_SENSE with the rails up, else from SUPPLY_UP, and ends the boundary-scan
instructions that need RESET_N low (R408, R526). -/
def Obligations.SupplyAndReset : Prop :=
  (
    (∀ (s : State) (mv : BitVec 16), s.hw.dev.boot.st = .powerOff → s.hw.dev.boot.tripped = false →
      exec (.vinRise mv) s = .next { s with hw := { now := s.hw.now, drawn := s.hw.drawn, dev :=
        { boot := { st := .supplyUp, supplyAt := s.hw.now }, power := { vinMv := mv }, root := { bkpOk := true } } } })
    ∧ (∀ s : State, exec .vinFall s = .next { s with hw := { now := s.hw.now, drawn := s.hw.drawn } })
    ∧ (∀ (s : State) (t : Vector (BitVec 12) 7) (mv : BitVec 16), s.hw.dev.boot.st ≠ .powerOff → (∃ k : Fin 7, 560 ≤ t[k].toInt) →
      exec (.tempSample t mv) s = .next { s with hw := { now := s.hw.now, drawn := s.hw.drawn, dev :=
        { boot := { tripped := true, tripMw := decide (s.hw.dev.boot.st = .midwinter) }, power := { vinMv := s.hw.dev.power.vinMv } } } })
    ∧ ∀ (s : State) (t : Vector (BitVec 12) 7), s.hw.dev.boot.tripped = true → s.hw.dev.boot.tripMw = false →
      (∀ k : Fin 7, t[k].toInt < 480) →
      exec (.tripRelease t) s = .next { s with hw := { now := s.hw.now, drawn := s.hw.drawn, dev :=
        { boot := { st := .supplyUp, supplyAt := s.hw.now }, power := { vinMv := s.hw.dev.power.vinMv }, root := { bkpOk := true } } } })
  ∧
  (
    (∀ s : State, s.hw.dev.boot.st = .supplyUp → s.hw.dev.boot.inReset = false →
      exec .railsUp s = .next { s with hw := (s.hw.onPower fun p =>
        { p with railOk := Vector.replicate 4 true, pgood := true, armed := true }).onBoot fun b => { b with st := .fuseSense, tamperLive := true } })
    ∧ (∀ s : State, s.hw.dev.boot.st = .supplyUp → s.hw.dev.boot.inReset = true →
      exec .railsUp s = .next { s with hw := s.hw.onPower fun p => { p with railOk := Vector.replicate 4 true, pgood := true } })
    ∧ (∀ s : State, s.hw.works = true →
      exec .resetNAssert s = .next { s with hw := { now := s.hw.now, drawn := s.hw.drawn, dev :=
        { boot := { st := if s.hw.dev.boot.tamperLive then .fuseSense else .supplyUp, inReset := true
                    tamperLive := s.hw.dev.boot.tamperLive, supplyAt := s.hw.dev.boot.supplyAt }
          power := { railOk := s.hw.dev.power.railOk, pgood := s.hw.dev.power.pgood, armed := s.hw.dev.power.armed
                     vinMv := s.hw.dev.power.vinMv, temp := s.hw.dev.power.temp, warn := s.hw.dev.power.warn }
          fuses := if s.hw.dev.fuses.op.isSome then { s.hw.dev.fuses with resetWaits := true } else {}
          root := s.hw.dev.root, sys := s.hw.dev.sys, link := { jtag := s.hw.dev.link.jtag } } } })
    ∧ (∀ s : State, s.hw.dev.boot.inReset = true → s.hw.dev.power.pgood = true →
      exec .resetNRelease s = .next { s with hw := { s.hw with dev := { s.hw.dev with
        boot := { s.hw.dev.boot with inReset := false, st := .fuseSense, tamperLive := true }
        power := { s.hw.dev.power with armed := true }
        link := { s.hw.dev.link with jtag := if s.hw.dev.link.jtag = .idcode ∨ s.hw.dev.link.jtag = .sample ∨ s.hw.dev.link.jtag = .debug
          then s.hw.dev.link.jtag else .bypass } } } })
    ∧ ∀ s : State, s.hw.dev.boot.inReset = true → s.hw.dev.power.pgood = false →
      exec .resetNRelease s = .next { s with hw := { s.hw with dev := { s.hw.dev with
        boot := { s.hw.dev.boot with inReset := false, st := .supplyUp }
        link := { s.hw.dev.link with jtag := if s.hw.dev.link.jtag = .idcode ∨ s.hw.dev.link.jtag = .sample ∨ s.hw.dev.link.jtag = .debug
          then s.hw.dev.link.jtag else .bypass } } } })

/-- A rail that leaves its window drops PGOOD, sets FAULT in its event register and raises RAIL_FAULT of class D with the
rail's number; a rail that comes back sets RECOVERED, and with all four back PGOOD rises (R380, R381, R456). VIN warnings set
LOW and, after LOW, OK (R457).
A sample of the sensors is what the temperature registers show; the warning episode of THERM_N opens with a sensor at WARN or
more and closes with all seven 5 °C below it (R391). -/
def Obligations.SupplyMonitored : Prop :=
  (
    (∀ (s : State) (r : Rail), s.hw.works = true → s.hw.dev.power.armed = true → s.hw.dev.power.railOk[railNum r] = true →
      Completes (.railFault r) s fun t =>
        t.is ((s.hw.onPower fun p => { p with railOk := p.railOk.set (railNum r) false, pgood := false }).setDevReg
          (0x1080 + 4 * (railNum r).val) (evWord (s.hw.devReg (0x1080 + 4 * (railNum r).val)) 0x00800000))
        ∧ t.tookMsg s.hw (mkMsg 63 11 clsD 0x73 (railNum r).val))
    ∧ (∀ (s : State) (r : Rail), s.hw.works = true → s.hw.dev.boot.st ≠ .supplyUp → s.hw.dev.power.armed = true →
      s.hw.dev.power.railOk[railNum r] = false →
      Completes (.railBack r) s fun t =>
        t.is ((s.hw.onPower fun p =>
            { p with railOk := p.railOk.set (railNum r) true, pgood := p.pgood || (p.railOk.set (railNum r) true).all id }).setDevReg
          (0x1080 + 4 * (railNum r).val) (evWord (s.hw.devReg (0x1080 + 4 * (railNum r).val)) 0x00400000))
        ∧ t.noMsg s.hw)
    ∧ (∀ s : State, s.hw.works = true →
      Completes .vinWarnLow s fun t =>
        t.is ((s.hw.onPower fun p => { p with vinLow := true }).setDevReg 0x1018 (evWord (s.hw.devReg 0x1018) 0x00800000)) ∧ t.noMsg s.hw)
    ∧ ∀ s : State, s.hw.works = true → s.hw.dev.power.vinLow = true →
      Completes .vinWarnOk s fun t =>
        t.is ((s.hw.onPower fun p => { p with vinLow := false }).setDevReg 0x1018 (evWord (s.hw.devReg 0x1018) 0x00400000)) ∧ t.noMsg s.hw)
  ∧
  (
    ∀ (s : State) (t : Vector (BitVec 12) 7) (mv : BitVec 16), s.hw.dev.boot.st ≠ .powerOff → (∀ k : Fin 7, t[k].toInt < 560) →
      Completes (.tempSample t mv) s fun u =>
        u.dev.power.temp = t ∧ u.dev.power.vinMv = mv ∧ u.dev.power.railOk = s.hw.dev.power.railOk
        ∧ ((∃ k : Fin 7, s.hw.warnAt ≤ t[k].toInt) → u.dev.power.warn = true)
        ∧ ((∀ k : Fin 7, t[k].toInt < s.hw.warnAt - 20) → u.dev.power.warn = false)
        ∧ ((∃ k : Fin 7, s.hw.warnAt - 20 ≤ t[k].toInt) → (∀ k : Fin 7, t[k].toInt < s.hw.warnAt) → u.dev.power.warn = s.hw.dev.power.warn)
        ∧ u.dev.boot = s.hw.dev.boot ∧ u.dev.fuses = s.hw.dev.fuses ∧ u.dev.root = s.hw.dev.root ∧ u.dev.sys = s.hw.dev.sys
        ∧ ∀ c, (u.chan c).quiet = (s.hw.chan c).quiet)

/-- The triggers of Midwinter in the supply, the fuses, the clock and the tamper pin: an armed detector's glitch, TAMPER_N from the
first FUSE_SENSE on, RESET_N low included, a shortened cycle of CK_CTRL, a sense that fails a check, and a programmed word that
does not read back; each erases every key, idles every transmitter, takes the link down and is named by DEV.FCL_MW (R295, R371,
R372, R374, R382, R394, R395, R411, R517). -/
def Obligations.MidwinterTriggers : Prop :=
  (∀ (s : State) (r : Rail), s.hw.works = true → s.hw.dev.boot.st ≠ .supplyUp → s.hw.dev.power.armed = true →
    Completes (.vGlitch r) s fun t => t.MidwinterBy s.hw (mkMsg 63 11 clsM 0x7E (railNum r).val))
  ∧ (∀ s : State, s.hw.dev.boot.tamperLive = true → s.hw.inMw = false →
    Completes .tamper s fun t => t.MidwinterBy s.hw (mkMsg 63 20 clsM 0xE0 0))
  ∧ (∀ s : State, s.hw.works = true → s.hw.dev.boot.st ≠ .supplyUp →
    Completes .clkGlitch s fun t => t.MidwinterBy s.hw (mkMsg 63 16 clsM 0x4F 0))
  ∧ (∀ (s : State) (a b : List (BitVec 33)), s.hw.works = true → s.hw.dev.boot.st = .fuseSense → s.hw.dev.fuses.op = none →
    senseBad a b none none = true → Completes (.fuseSenseDone a b) s fun t => t.MidwinterBy s.hw (mkMsg 63 21 clsM 0x7F 0))
  ∧ (∀ (s : State) (a b : List (BitVec 33)), s.hw.works = true → s.hw.dev.boot.st ≠ .supplyUp → s.hw.dev.boot.st ≠ .fuseSense →
    senseBad a b (some s.hw.dev.fuses.words) (s.hw.dev.fuses.op.map (·.1)) = true →
    Completes (.fuseResense a b) s fun t => t.MidwinterBy s.hw (mkMsg 63 21 clsM 0x7F 0))
  ∧ ∀ s : State, s.hw.dev.boot.st ≠ .powerOff → s.hw.dev.boot.st ≠ .supplyUp → s.hw.inMw = false → s.hw.dev.fuses.op.isSome = true →
    Completes (.fuseOpDone false) s fun t =>
      t.MidwinterBy s.hw (mkMsg 63 21 clsM 0x7F 0) ∧ t.dev.fuses.op = none ∧ t.dev.fuses.data = 0 ∧ t.dev.fuses.result = 4

/-- An island switches: the request at the head of the queue is served, DEV.PWR_IEVT names its channel, and for a park the channel
is left PARKED, or ABSENT after a diagnosis of an ABSENT one, with its registers' kept parts, its KAT_FAIL and its record SEQ only
(R19, R385, R389). An overcurrent opens a closed switch and raises ISLAND_OC of class H (R385). -/
def Obligations.IslandsSwitch : Prop :=
  (∀ (s : State) (r : IslReq) (rest : List IslReq) (c : ChanId), s.hw.works = true → s.hw.dev.power.islands = r :: rest → r.chan = c.val →
    r.why = .start → s.hw.dev.boot.bareWhy = 0 →
    Completes .islandSwitchDone s fun t =>
      t.dev.power = { s.hw.dev.power with islands := rest } ∧ (t.chan c).quiet = { (s.hw.chan c).quiet with island := r.on }
      ∧ (∀ d, d ≠ c → (t.chan d).quiet = (s.hw.chan d).quiet)
      ∧ bitOf (t.devReg 0x101C) 23 = true ∧ fieldOf (t.devReg 0x101C) 5 0 = c.val)
  ∧ (∀ (s : State) (r : IslReq) (rest : List IslReq) (c : ChanId), s.hw.works = true → s.hw.dev.power.islands = r :: rest → r.chan = c.val →
    r.why = .park → s.hw.dev.boot.bareWhy = 0 →
    Completes .islandSwitchDone s fun t =>
      t.dev.power = { s.hw.dev.power with islands := rest }
      ∧ (t.chan c).quiet = (s.hw.chan c).offState.quiet
      ∧ (t.chan c).st = (if (s.hw.chan c).wasAbsent then .absent else .parked) ∧ (t.chan c).blank = true
      ∧ (∀ d, d ≠ c → (t.chan d).quiet = (s.hw.chan d).quiet))
  ∧ ∀ (s : State) (c : ChanId), s.hw.works = true → (s.hw.chan c).raises = true → (s.hw.chan c).island = true →
    Completes (.islandOc c) s fun t =>
      t.is ((s.hw.onChan c fun x => { x with island := false }).setDevReg 0x101C
        (evWord (withField (s.hw.devReg 0x101C) 5 0 c.val) 0x00400000))
      ∧ t.tookMsg s.hw (mkMsg c.val 11 clsH 0x72 0)

/-! ## Start-up, fuses, channel power -/

/-- FUSE_SENSE latches the words of a sense that passes its checks and leads to ROOT_LOCK; a sense of the running module that passes
changes nothing (R394). A finished read of the slot whose islands are all on leads from SPRING_LOAD to VERIFY with bytes 0 to
IMG_LEN − 1 in the image store (R399). -/
def Obligations.SenseAndLoad : Prop :=
  (∀ (s : State) (a b : List (BitVec 33)), s.hw.works = true → s.hw.dev.boot.st = .fuseSense → s.hw.dev.fuses.op = none →
    senseBad a b none none = false →
    Completes (.fuseSenseDone a b) s fun t =>
      (∀ i < 64, t.fuseWord i = (a.getD i 0).truncate 32) ∧ t.dev.boot = { s.hw.dev.boot with st := .rootLock }
      ∧ t.dev.fuses = { s.hw.dev.fuses with words := t.dev.fuses.words } ∧ t.dev.regs = s.hw.dev.regs ∧ t.dev.fcl = s.hw.dev.fcl
      ∧ t.dev.root = s.hw.dev.root ∧ t.dev.power = s.hw.dev.power ∧ t.dev.sys = s.hw.dev.sys ∧ t.chans = s.hw.chans)
  ∧ (∀ (s : State) (a b : List (BitVec 33)), s.hw.works = true →
    senseBad a b (some s.hw.dev.fuses.words) (s.hw.dev.fuses.op.map (·.1)) = false → exec (.fuseResense a b) s = .next s)
  ∧ ∀ (s : State) (bytes : List Byte), s.hw.works = true → s.hw.dev.boot.st = .springLoad → s.hw.dev.boot.bareWhy = 0 →
    s.hw.dev.power.islands = [] →
    exec (.springLoadDone bytes) s = .next { s with hw := { s.hw with dev := { s.hw.dev with boot :=
      { s.hw.dev.boot with st := .verify, image := bytes.take (imgLen (s.hw.slotHdr s.hw.dev.boot.slotB)) } } } }

/-- The root PLL locks: SYSCNT starts from 0 on the first lock since power-up and goes on otherwise (R291, R296); SPRING_LOAD begins
with the slot that R400 chooses, of two valid ones B when its CFG_ARB is the greater and A otherwise, of one valid one that one;
with none, or with a flash that has no SFDP table, the module goes to BARE with reason 1, and with a failed SHA-384 self-test
with reason 2 (R399, R400, R402, R409, R415). -/
def Obligations.RootLockChoosesSlot : Prop :=
  ∀ (s : State) (sha : Bool) (f : FlashView), s.hw.works = true → s.hw.dev.boot.st = .rootLock → s.hw.dev.power.islands = [] →
    (∀ c, (s.hw.chan c).island = false) →
    let a := hdrCheck (s.hw.thermo 38) (s.hw.thermo 40) f.hdrA
    let b := hdrCheck (s.hw.thermo 38) (s.hw.thermo 40) f.hdrB
    Completes (.rootLock sha f) s fun t =>
      t.dev.root.pllLock = true ∧ t.dev.root.everLocked = true ∧ t.dev.root.rootOk = true ∧ t.dev.root.hold = false
      ∧ t.dev.root.slew = false ∧ t.dev.sys = (if s.hw.dev.root.everLocked then s.hw.dev.sys else 0)
      ∧ t.dev.boot.loadAt = s.hw.now ∧ t.dev.fuses = s.hw.dev.fuses
      ∧ (sha = true → f.sfdpOk = true → a = 0 ∨ b = 0 →
          t.dev.boot.st = .springLoad ∧ t.dev.boot.whyA = a ∧ t.dev.boot.whyB = b
          ∧ t.dev.boot.slotB = decide (b = 0 ∧ (a = 0 → imgCfgArb f.hdrA < imgCfgArb f.hdrB)))
      ∧ (sha = true → f.sfdpOk = true → a ≠ 0 → b ≠ 0 →
          t.dev.boot.st = .bare ∧ t.dev.boot.bareWhy = 1 ∧ t.dev.boot.whyA = a ∧ t.dev.boot.whyB = b)
      ∧ (sha = true → f.sfdpOk = false → t.dev.boot.st = .bare ∧ t.dev.boot.bareWhy = 1 ∧ t.dev.boot.whyA = 0x0C ∧ t.dev.boot.whyB = 0x0C)
      ∧ (sha = false → t.dev.boot.st = .bare ∧ t.dev.boot.bareWhy = 2)

/-- VERIFY passes an image to SELF_TEST, tells a fallback, and leaves the owner's word to the owner's hash (R400, R407, R409); a
failed check records its reason and reads the other slot, or goes to BARE when none is left (R400, R415). -/
def Obligations.VerifyPassesOrFallsBack : Prop :=
  ∀ (s : State) (slot : Bool) (rest : List Bool), s.hw.works = true → s.hw.dev.boot.st = .verify → s.hw.dev.boot.bareWhy = 0 →
    s.hw.dev.boot.toTry = slot :: rest → rest = [] ∨ rest = [!slot] →
    let why := verifyImage s.hw.dev.boot.image (s.hw.hashWords 0) (s.hw.hashWords 12)
    Completes (.verify true) s fun t =>
      (why = 0 → t.dev.boot.st = .selfTest ∧ t.dev.boot.imageOk = true ∧ t.dev.boot.ownerOk = !s.hw.ownBlank
        ∧ t.dev.boot.image = s.hw.dev.boot.image ∧ t.dev.boot.fallback = decide (s.hw.dev.boot.firstTried ≠ some slot)
        ∧ t.dev.boot.loadFor = s.hw.now - s.hw.dev.boot.loadAt
        ∧ (if slot then t.dev.boot.whyB else t.dev.boot.whyA) = 0
        ∧ (rest = [!slot] → (if slot then t.dev.boot.whyA else t.dev.boot.whyB) = 0x0E)
        ∧ bitOf (t.devReg 0x1004) 21 = (bitOf (s.hw.devReg 0x1004) 21 || decide (s.hw.dev.boot.firstTried ≠ some slot)))
      ∧ (why ≠ 0 → (if slot then t.dev.boot.whyB else t.dev.boot.whyA) = why ∧ t.dev.boot.image = [] ∧ t.dev.boot.imageOk = s.hw.dev.boot.imageOk
        ∧ (rest = [!slot] → t.dev.boot.st = .springLoad ∧ t.dev.boot.slotB = !slot ∧ t.dev.boot.bareWhy = 0)
        ∧ (rest = [] → t.dev.boot.bareWhy = 1))
      ∧ t.dev.fuses = s.hw.dev.fuses ∧ t.dev.root = s.hw.dev.root ∧ t.dev.sys = s.hw.dev.sys

/-- The cipher self-tests lead to BRING_UP, or to BARE with reason 3 for an image without the owner's word (R409). A failing one
raises KAT of class D for its channel and leads to BARE with reason 2 (R225, R226, R409). -/
def Obligations.SelfTestDecides : Prop :=
  (∀ s : State, s.hw.works = true → s.hw.dev.boot.st = .selfTest → s.hw.dev.boot.bareWhy = 0 → s.hw.dev.boot.ownerOk = true →
    Completes (.selfTest []) s fun t => t.is (s.hw.onBoot fun b => { b with st := .bringUp }) ∧ t.noMsg s.hw)
  ∧ (∀ s : State, s.hw.works = true → s.hw.dev.boot.st = .selfTest → s.hw.dev.boot.bareWhy = 0 → s.hw.dev.boot.ownerOk = false →
    Completes (.selfTest []) s fun t => t.dev.boot.bareWhy = 3 ∧ t.noMsg s.hw)
  ∧ ∀ (s : State) (c : ChanId), s.hw.works = true → s.hw.dev.boot.st = .selfTest → s.hw.dev.boot.bareWhy = 0 → (s.hw.chan c).st = .starting →
    Completes (.selfTest [c]) s fun t =>
      t.dev.boot.bareWhy = 2 ∧ (t.chan c).cph.katFail = true ∧ t.tookMsg s.hw (mkMsg c.val 5 clsD 0x28 0)

/-- BRING_UP applies DEV_CFG, brings up every channel in order, and enters RUN, which DEV.BOOT_EVT reports; a core that fails to
start leads to BARE with reason 4 (R406, R408, R409). -/
def Obligations.BringUpEntersRun : Prop :=
  (∀ s : State, s.hw.works = true → s.hw.dev.boot.st = .bringUp → s.hw.dev.boot.bareWhy = 0 →
    Completes (.bringUp false) s fun t =>
      t.dev.boot.st = .run ∧ t.dev.boot.dSinceRun = false ∧ t.dev.boot.arbDone = false
      ∧ bitOf (t.devReg 0x1004) 23 = true
      ∧ t = (((allChans.foldl Hw.bringChan s.hw.applyDevCfg).onBoot fun b =>
          { b with st := .run, runAt := (allChans.foldl Hw.bringChan s.hw.applyDevCfg).now, dSinceRun := false, arbDone := false }).stnOutputs.devEvent
            0x1004 0 0x00800000).settle s.hw allChans)
  ∧ ∀ s : State, s.hw.works = true → s.hw.dev.boot.st = .bringUp → s.hw.dev.boot.bareWhy = 0 →
    Completes (.bringUp true) s fun t => t.dev.boot.bareWhy = 4

/-- PF0's GO with the key starts the programming of an unprogrammed owner word (R395, R419); a word that is locked is turned away
with LOCKED_WR and RESULT 1 (R395). OP SEAL starts once OWN_HASH and KWK hold programmed bits (R396). An operation that reads
back adds its bits, zeroes DATA and sets DONE (R395, R419). -/
def Obligations.FusesProgrammed : Prop :=
  (∀ (s : State) (d : Word), s.hw.reachesDev .pf0 = true → s.hw.dev.fuses.op = none → fieldOf d 31 16 = 0xF05E → bitOf d 0 = true →
    bitOf d 2 = false → ownerWord (s.hw.devField 0x2010 5 0) = true → s.hw.sealed = false → s.hw.fuseWord (s.hw.devField 0x2010 5 0) = 0 →
    3000 ≤ s.hw.dev.power.vinMv.toNat → s.hw.dev.fuses.data ≠ 0 →
    exec (.fuseProgram .pf0 d) s = .next { s with hw := ((s.hw.bmx 1 0).setDevReg 0x2018 (d &&& 4)).onFuses fun f =>
      { f with op := some (s.hw.devField 0x2010 5 0, f.data) } })
  ∧ (∀ (s : State) (d : Word), s.hw.reachesDev .pf0 = true → s.hw.dev.fuses.op = none → fieldOf d 31 16 = 0xF05E → bitOf d 0 = true →
    bitOf d 2 = false → s.hw.sealed = true ∨ s.hw.fuseWord (s.hw.devField 0x2010 5 0) ≠ 0 →
    Completes (.fuseProgram .pf0 d) s fun t =>
      t.dev.fuses = { s.hw.dev.fuses with result := 1 } ∧ t.tookMsg s.hw (mkMsg 63 21 clsN 0x62 (s.hw.devField 0x2010 5 0))
      ∧ bitOf (t.devReg 0x2004) 22 = true ∧ t.dev.pf0.wflags = s.hw.dev.pf0.wflags ||| 1 ∧ t.chans = s.hw.chans)
  ∧ (∀ (s : State) (d : Word), s.hw.reachesDev .pf0 = true → s.hw.dev.fuses.op = none → fieldOf d 31 16 = 0xF05E → bitOf d 0 = true →
    bitOf d 2 = true → s.hw.sealed = false → s.hw.fusesSet 12 12 = true → s.hw.fusesSet 24 8 = true → 3000 ≤ s.hw.dev.power.vinMv.toNat →
    exec (.fuseSeal .pf0 d) s = .next { s with hw := ((s.hw.bmx 1 0).setDevReg 0x2018 (d &&& 4)).onFuses fun f =>
      { f with op := some (42, 7) } })
  ∧ ∀ (s : State) (i : Nat) (v : Word), s.hw.dev.boot.st ≠ .powerOff → s.hw.inMw = false → s.hw.dev.fuses.op = some (i, v) →
    s.hw.dev.fuses.resetWaits = false →
    Completes (.fuseOpDone true) s fun t =>
      t.is ((s.hw.onFuses fun f => { f with words := tput 0 f.words i (tget 0 f.words i ||| v), op := none, data := 0, result := 0 }).setDevReg
        0x2004 (evWord (s.hw.devReg 0x2004) 0x00800000)) ∧ t.noMsg s.hw

/-- After 10 s of RUN without a class D record the Isund advances the thermometers that the image asks to commit, unless VIN is
low (R397). -/
def Obligations.ArbitersAdvance : Prop :=
  (∀ s : State, s.hw.works = true → s.hw.dev.boot.st = .run → s.hw.dev.boot.dSinceRun = false → s.hw.dev.boot.arbDone = false →
    3000 ≤ s.hw.dev.power.vinMv.toNat → (s.hw.imageByte 133).testBit 0 = true → (s.hw.imageByte 7).testBit 0 = true →
    s.hw.thermo 38 < s.hw.imageByte 132 → s.hw.thermo 40 < s.hw.imageByte 13 → s.hw.imageByte 132 ≤ 64 → s.hw.imageByte 13 ≤ 64 →
    Completes .arbAdvance s fun t =>
      t.thermo 38 = s.hw.imageByte 132 ∧ t.thermo 40 = s.hw.imageByte 13 ∧ t.dev.boot = { s.hw.dev.boot with arbDone := true }
      ∧ bitOf (t.devReg 0x2008) 23 = true ∧ bitOf (t.devReg 0x2008) 22 = true
      ∧ (∀ i, i < 38 ∨ 41 < i → t.fuseWord i = s.hw.fuseWord i) ∧ t.chans = s.hw.chans)
  ∧ ∀ s : State, s.hw.works = true → s.hw.dev.boot.st = .run → s.hw.dev.boot.dSinceRun = false → s.hw.dev.boot.arbDone = false →
    s.hw.dev.power.vinMv.toNat < 3000 → (s.hw.imageByte 133).testBit 0 = true → s.hw.thermo 38 < s.hw.imageByte 132 →
    Completes .arbAdvance s fun t =>
      t.dev.fuses = s.hw.dev.fuses ∧ bitOf (t.devReg 0x2008) 21 = true ∧ t.dev.boot = { s.hw.dev.boot with arbDone := true }

/-- CH_START, CH_PARK and CH_DIAG begin: the first makes a PARKED channel STARTING and asks its island on, the second makes an ACTIVE
channel PARKING with its work, its keys, its commands and its records gone and its lanes squelched, and asks its island off, the third,
in BARE, asks an enabled channel's island on; each command waits for its switching (R387, R388, R389, R390). -/
def Obligations.ChannelPowerBegins : Prop :=
  (∀ (s : State) (x : Cmd) (c : ChanId), s.hw.works = true → s.hw.executes .device = true → s.hw.dev.q.run.find? (fresh 0x60) = some x →
    x.chan.toNat = c.val → s.hw.dev.boot.st = .run → (s.hw.chan c).st = .parked →
    Completes (.chStart true) s fun t =>
      (t.chan c).quiet = { (s.hw.chan c).quiet with st := .starting } ∧ (∀ d, d ≠ c → (t.chan d).quiet = (s.hw.chan d).quiet)
      ∧ t.dev.power = { s.hw.dev.power with islands := s.hw.dev.power.islands ++ [{ chan := c.val, on := true, why := .start }] }
      ∧ t.dev.q.run = s.hw.dev.q.run.eraseP (fresh 0x60) ++ [{ x with held := true }] ∧ t.dev.q.wait = s.hw.dev.q.wait
      ∧ bitOf (t.devReg (0x10C0 + 4 * (c.val / 8))) (c.val % 8) = true)
  ∧ (∀ (s : State) (x : Cmd) (c : ChanId), s.hw.works = true → s.hw.executes .device = true → s.hw.dev.q.run.find? (fresh 0x61) = some x →
    x.chan.toNat = c.val → (s.hw.chan c).st = .active → s.hw.waitsOn c = false →
    Completes .chPark s fun t =>
      (t.chan c).st = .parking ∧ (t.chan c).squelch = true ∧ (t.chan c).store = [] ∧ (t.chan c).cph = { katFail := (s.hw.chan c).cph.katFail }
      ∧ (t.chan c).q.wait = [] ∧ (t.chan c).q.run = [] ∧ (t.chan c).flt.c.pend = false ∧ (t.chan c).flt.h.pend = false
      ∧ (t.chan c).flt.hQuar = false ∧ (∀ d, d ≠ c → (t.chan d).quiet = (s.hw.chan d).quiet)
      ∧ t.dev.power = { s.hw.dev.power with islands := s.hw.dev.power.islands ++ [{ chan := c.val, on := false, why := .park }] }
      ∧ bitOf (t.devReg (0x10C0 + 4 * (c.val / 8))) (c.val % 8) = true)
  ∧ ∀ (s : State) (x : Cmd) (c : ChanId), s.hw.works = true → s.hw.executes .device = true → s.hw.dev.q.run.find? (fresh 0x62) = some x →
    x.chan.toNat = c.val → s.hw.dev.boot.st = .bare → s.hw.chEn c = true → (s.hw.chan c).st = .parked ∨ (s.hw.chan c).st = .absent →
    (∀ r ∈ s.hw.dev.power.islands, r.chan ≠ c.val) →
    Completes .chDiag s fun t =>
      (t.chan c).quiet = { (s.hw.chan c).quiet with wasAbsent := decide ((s.hw.chan c).st = .absent) }
      ∧ (∀ d, d ≠ c → (t.chan d).quiet = (s.hw.chan d).quiet)
      ∧ t.dev.power = { s.hw.dev.power with islands := s.hw.dev.power.islands ++ [{ chan := c.val, on := true, why := .diag }] }
      ∧ t.dev.q.run = s.hw.dev.q.run.eraseP (fresh 0x62) ++ [{ x with held := true }]

/-! ## The root clock, SYSCNT, engines and qualification -/

/-- ROOT_CLK stops, or shows a short phase, or the root PLL loses lock: the episode's message of class D is raised once, the PLL
freezes, every engine is in root hold, and DEV.ROOT_EVT tells it (R292, R293). A backup oscillator out of range drops BKP_OK with
its message (R292).
A present ROOT_CLK lets the frozen PLL slew and ends the episodes of stop and glitch; a lock ends the hold of the PLL and of every
engine, whose windows begin anew (R292, R293, R294). A backup oscillator in range ends its episode (R292). -/
def Obligations.RootOscillator : Prop :=
  (
    (∀ s : State, s.hw.works = true → s.hw.dev.root.pllLock = true → s.hw.dev.root.hold = false → s.hw.dev.root.epStop = false →
      Completes .rootStop s fun t =>
        t.dev.root = { s.hw.dev.root with epStop := true, rootOk := false, hold := true, slew := false, pllLock := false }
        ∧ (∀ c, (t.chan c).quiet = { (s.hw.chan c).quiet with tim := { (s.hw.chan c).tim with
            b := { (s.hw.chan c).tim.b with rootHold := true }, r := { (s.hw.chan c).tim.r with rootHold := true } } })
        ∧ t.dev.stn = { s.hw.dev.stn with eng := { s.hw.dev.stn.eng with rootHold := true } }
        ∧ t.devReg 0x3004 = evWord (s.hw.devReg 0x3004) 0x00800000 ∧ t.tookMsg s.hw (mkMsg 63 16 clsD 0x48 0))
    ∧ (∀ s : State, s.hw.works = true → s.hw.dev.root.pllLock = true → s.hw.dev.root.hold = false → s.hw.dev.root.epGlitch = false →
      Completes .rootGlitch s fun t =>
        t.dev.root = { s.hw.dev.root with epGlitch := true, rootOk := false, hold := true, slew := false, pllLock := false }
        ∧ (∀ c, (t.chan c).tim.b.rootHold = true ∧ (t.chan c).tim.r.rootHold = true) ∧ t.dev.stn.eng.rootHold = true
        ∧ t.devReg 0x3004 = evWord (s.hw.devReg 0x3004) 0x00800000 ∧ t.tookMsg s.hw (mkMsg 63 16 clsD 0x49 0))
    ∧ (∀ s : State, s.hw.works = true → s.hw.dev.root.pllLock = true → s.hw.dev.root.hold = false → s.hw.dev.root.epUnlock = false →
      Completes .rootUnlock s fun t =>
        t.dev.root = { s.hw.dev.root with epUnlock := true, hold := true, slew := false, pllLock := false }
        ∧ (∀ c, (t.chan c).tim.b.rootHold = true ∧ (t.chan c).tim.r.rootHold = true) ∧ t.dev.stn.eng.rootHold = true
        ∧ t.devReg 0x3004 = evWord (s.hw.devReg 0x3004) 0x00800000 ∧ t.tookMsg s.hw (mkMsg 63 16 clsD 0x4A 0))
    ∧ (∀ s : State, s.hw.works = true → s.hw.dev.root.pllLock = true → s.hw.dev.root.hold = false → s.hw.dev.root.epStop = true →
      Completes .rootStop s fun t => t.dev.root.hold = true ∧ t.noMsg s.hw)
    ∧ ∀ s : State, s.hw.works = true → s.hw.dev.root.pllLock = true → s.hw.dev.root.bkpOk = true → s.hw.dev.root.epBkp = false →
      Completes .backupOsc s fun t =>
        t.is ((s.hw.onRoot fun r => { r with epBkp := true, bkpOk := false }).setDevReg 0x3004 (evWord (s.hw.devReg 0x3004) 0x00200000))
        ∧ t.tookMsg s.hw (mkMsg 63 16 clsD 0x4B 0))
  ∧
  (
    (∀ s : State, s.hw.works = true → s.hw.dev.root.hold = true →
      Completes .rootRecover s fun t =>
        t.is (s.hw.onRoot fun r => { r with rootOk := true, slew := true, epStop := false, epGlitch := false }) ∧ t.noMsg s.hw)
    ∧ (∀ s : State, s.hw.works = true → s.hw.dev.root.slew = true →
      Completes .rootRelock s fun t =>
        t.dev.root = { s.hw.dev.root with hold := false, slew := false, pllLock := true, epUnlock := false }
        ∧ (∀ c, (t.chan c).quiet = { (s.hw.chan c).quiet with tim :=
            { b := { (s.hw.chan c).tim.b with rootHold := false, round := [] }, r := { (s.hw.chan c).tim.r with rootHold := false, round := [] }
              cand := (s.hw.chan c).tim.cand.map fun k => { k with overRun := 0 } } })
        ∧ t.dev.stn.eng = { s.hw.dev.stn.eng with rootHold := false, round := [] }
        ∧ t.dev.stn.inp = s.hw.dev.stn.inp.map (fun k => { k with overRun := 0 })
        ∧ t.devReg 0x3004 = evWord (s.hw.devReg 0x3004) 0x00400000 ∧ t.noMsg s.hw)
    ∧ ∀ s : State, s.hw.works = true →
      Completes .backupOscOk s fun t => t.is (s.hw.onRoot fun r => { r with bkpOk := true, epBkp := false }) ∧ t.noMsg s.hw)

/-- SYSCNT's wrap sets its event; a write of an alarm sets its target and arms it, whatever it writes, and an armed alarm fires once
(R465, R466). -/
def Obligations.SyscntAlarms : Prop :=
  (∀ s : State, s.hw.works = true → s.hw.dev.root.everLocked = true →
    Completes .syscntWrap s fun t => t.is (s.hw.setDevReg 0x5034 (evWord (s.hw.devReg 0x5034) 0x00800000)) ∧ t.noMsg s.hw)
  ∧ (∀ (s : State) (m : Master) (a : Fin 4) (d : Word), s.hw.reachesDev m = true →
    exec (.sctAlarmWrite m a d) s = .next { s with hw := ((s.hw.bmx m.id 0).setDevReg (0x5040 + 4 * a.val) d).onDev fun x =>
      { x with armed := x.armed.set a.val true } })
  ∧ (∀ (s : State) (a : Fin 4), s.hw.works = true → s.hw.dev.armed[a] = true →
    Completes (.sctAlarmFire a) s fun t =>
      t.is ((s.hw.onDev fun x => { x with armed := x.armed.set a.val false }).setDevReg (0x5050 + 4 * a.val)
        (evWord (s.hw.devReg (0x5050 + 4 * a.val)) 0x00800000)) ∧ t.noMsg s.hw)
  ∧ ∀ (s : State) (a : Fin 4), s.hw.dev.armed[a] = false → exec (.sctAlarmFire a) s = .next s

/-- An engine locks, fails to lock within 10 s, and loses its holdover (R309, R311, R317, R347). A synthesizer's messages carry its
channel and its bit; the station engine raises no class H message (R354). -/
def Obligations.EnginesLockAndLose : Prop :=
  (∀ (s : State) (e : Engine), s.hw.works = true → s.hw.engRuns e = true → (s.hw.eng e).st = .acquiring → s.hw.dev.root.hold = false →
    Completes (.synLocked e) s fun t =>
      t.eng e = { s.hw.eng e with st := .locked, everLocked := true, unl := false } ∧ t.noMsg s.hw
      ∧ (∀ c, e = .synB c → bitOf (t.chReg c 0x802C) 23 = true) ∧ (∀ c, e = .synR c → bitOf (t.chReg c 0x802C) 22 = true)
      ∧ (e = .stn → bitOf (t.devReg 0x300C) 23 = true))
  ∧ (∀ (s : State) (e : Engine), s.hw.works = true → s.hw.engRuns e = true → (s.hw.eng e).st = .acquiring → (s.hw.eng e).unl = false →
    Completes (.synUnlock e) s fun t =>
      t.eng e = { s.hw.eng e with unl := true }
      ∧ (∀ c, e = .synB c → t.tookMsg s.hw (mkMsg c.val 8 clsH 0x41 0)) ∧ (∀ c, e = .synR c → t.tookMsg s.hw (mkMsg c.val 8 clsH 0x41 0x800000))
      ∧ (e = .stn → t.noMsg s.hw))
  ∧ ∀ (s : State) (e : Engine), s.hw.works = true → s.hw.engRuns e = true → (s.hw.eng e).st = .holdover →
    Completes (.timLost e) s fun t =>
      t.eng e = { s.hw.eng e with st := .lost, frozen := (s.hw.eng e).slope * ((s.hw.eng e).hoSecs : Int) / 86400 }
      ∧ (∀ c, e = .synB c → t.tookMsg s.hw (mkMsg c.val 8 clsN 0x42 0)) ∧ (∀ c, e = .synR c → t.tookMsg s.hw (mkMsg c.val 8 clsN 0x42 0x800000))
      ∧ (e = .stn → t.tookMsg s.hw (mkMsg 63 16 clsN 0x42 0))

/-- A LOCKED engine records a sample with the root's temperature, newest first and no more than 24 h of them; an engine in HOLDOVER
follows its model outside root hold: f_h, the ageing term of its seconds, less the temperature term (R293, R310, R311).
Phase steps: a write within the limits of a step of 1 µs and an offset of 10 µs starts one, its end adds it to OFS and sets STEP,
and a station step adds to the pull whose end clears SLEW (R314, R317). -/
def Obligations.HoldoverAndPhaseSteps : Prop :=
  (
    (∀ (s : State) (e : Engine) (ppb : Int), s.hw.works = true → s.hw.engRuns e = true → (s.hw.eng e).st = .locked → s.hw.dev.root.hold = false →
      Completes (.lockSample e ppb) s fun t =>
        t.eng e = { s.hw.eng e with samples := ((ppb, s.hw.rootTemp) :: (s.hw.eng e).samples).take 86400, out := ppb * 1000 })
    ∧ (∀ (s : State) (e : Engine), s.hw.works = true → s.hw.engRuns e = true → (s.hw.eng e).st = .holdover → s.hw.dev.root.hold = false →
      Completes (.holdoverUpdate e) s fun t =>
        t.eng e = { s.hw.eng e with
          hoSecs := (s.hw.eng e).hoSecs + 1
          out := (s.hw.eng e).fh + (s.hw.eng e).slope * (((s.hw.eng e).hoSecs + 1 : Nat) : Int) / 86400
            - (s.hw.tcomp.1 * 40 * (s.hw.rootTemp - (s.hw.eng e).t0)
              + s.hw.tcomp.2 * (s.hw.rootTemp - (s.hw.eng e).t0) * (s.hw.rootTemp - (s.hw.eng e).t0)) / 16 })
    ∧ ∀ (s : State) (e : Engine), s.hw.works = true → s.hw.engRuns e = true → (s.hw.eng e).st = .lost → s.hw.dev.root.hold = true →
      Completes (.holdoverUpdate e) s fun t => t.eng e = { s.hw.eng e with hoSecs := (s.hw.eng e).hoSecs + 1 })
  ∧
  (
    (∀ (s : State) (m : Master) (c : ChanId) (d : Word), s.hw.reaches m = true → s.hw.lacks m .guarded = false → (s.hw.chan c).st = .active →
      ((s.hw.chan c).syn (bitOf d 31)).step = none → (signed 21 (fieldOf d 20 0)).natAbs ≤ 1000000 →
      (((s.hw.chan c).syn (bitOf d 31)).ofs + signed 21 (fieldOf d 20 0)).natAbs ≤ 10000000 →
      exec (.timPstep m c d) s = .next { s with hw := ((s.hw.bmx m.id 0).setChReg c 0x8020 (d &&& 0x801FFFFF)).onSyn c (bitOf d 31) fun g =>
        { g with step := some (signed 21 (fieldOf d 20 0)) } })
    ∧ (∀ (s : State) (c : ChanId) (r : Bool) (v : Int), s.hw.works = true → (s.hw.chan c).st = .active → ((s.hw.chan c).syn r).step = some v →
      Completes (.phaseStepDone (if r then .synR c else .synB c)) s fun t =>
        t.is ((s.hw.onSyn c r fun g => { g with ofs := g.ofs + v, step := none }).setChReg c 0x802C (evWord (s.hw.chReg c 0x802C) 0x00020000))
        ∧ t.noMsg s.hw)
    ∧ (∀ (s : State) (m : Master) (d : Word), s.hw.reachesDev m = true → s.hw.lacks m .guarded = false →
      (signed 21 (fieldOf d 20 0)).natAbs ≤ 1000000 → (s.hw.dev.stn.pull + signed 21 (fieldOf d 20 0)).natAbs ≤ 100000000 →
      exec (.stnPstep m d) s = .next { s with hw := ((s.hw.bmx m.id 0).setDevReg 0x3030 (d &&& 0x001FFFFF)).onDev fun x =>
        { x with stn := { x.stn with
          pull := x.stn.pull + signed 21 (fieldOf d 20 0), slew := x.stn.slew || decide (signed 21 (fieldOf d 20 0) ≠ 0) } } })
    ∧ ∀ s : State, s.hw.works = true → s.hw.dev.stn.slew = true →
      Completes .stnPullDone s fun t =>
        t.is ((s.hw.onDev fun x => { x with stn := { x.stn with pull := 0, slew := false } }).setDevReg 0x300C
          (evWord (s.hw.devReg 0x300C) 0x00200000)) ∧ t.noMsg s.hw)

/-- Qualification: a candidate never measured qualifies on its first window within THR, a qualified one is disqualified with DRIFT by its
third 10 s window in a row beyond it, and a PENDING one qualifies when its WTR expires (R302, R303, R304); a station input likewise, in
the spine (R302, R316). -/
def Obligations.CandidatesQualify : Prop :=
  (∀ (s : State) (c : ChanId) (i : Fin 7) (ppb : Int), s.hw.works = true → (s.hw.chan c).st = .active → s.hw.dev.root.hold = false → i.val < 3 →
    (s.hw.chan c).rank false i.val ≠ 0 → ((s.hw.chan c).cand i).qst = .init → ((s.hw.chan c).cand i).fail = false →
    ((s.hw.chan c).cand i).fresh = true → (ppb.natAbs : Int) ≤ thr (fieldOf ((s.hw.chan c).reg 0x800C) 9 0) →
    Completes (.qualWindow (.chan c) i false ppb) s fun t =>
      (t.chan c).cand i = { (s.hw.chan c).cand i with qst := .qual, drift := false, fresh := false, overRun := 0, fast := ppb }
      ∧ bitOf (t.chReg c 0x802C) 18 = true)
  ∧ (∀ (s : State) (c : ChanId) (i : Fin 7) (ppb : Int), s.hw.works = true → (s.hw.chan c).st = .active → s.hw.dev.root.hold = false → i.val < 3 →
    (s.hw.chan c).rank false i.val ≠ 0 → ((s.hw.chan c).cand i).qst = .qual → ((s.hw.chan c).cand i).fail = false →
    thr (fieldOf ((s.hw.chan c).reg 0x800C) 9 0) < (ppb.natAbs : Int) →
    Completes (.qualWindow (.chan c) i true ppb) s fun t =>
      ((t.chan c).cand i).ppb = ppb
      ∧ (((s.hw.chan c).cand i).overRun = 2 → ((t.chan c).cand i).qst = .disq ∧ ((t.chan c).cand i).drift = true)
      ∧ (((s.hw.chan c).cand i).overRun < 2 → ((t.chan c).cand i).qst = .qual ∧ ((t.chan c).cand i).overRun = ((s.hw.chan c).cand i).overRun + 1))
  ∧ (∀ (s : State) (c : ChanId) (i : Fin 7), s.hw.works = true → (s.hw.chan c).st = .active → i.val < 3 → ((s.hw.chan c).cand i).qst = .pending →
    Completes (.qualWtrExpire (.chan c) i) s fun t => (t.chan c).cand i = { (s.hw.chan c).cand i with qst := .qual, overRun := 0 })
  ∧ (∀ (s : State) (i : Fin 7), s.hw.works = true → 3 ≤ i.val → (s.hw.dev.stn.inp[stnIn i]).qst = .pending →
    Completes (.qualWtrExpire .spine i) s fun t => t.dev.stn.inp[stnIn i] = { s.hw.dev.stn.inp[stnIn i] with qst := .qual, overRun := 0 })
  ∧ (∀ (s : State) (i : Fin 4), s.hw.works = true → s.hw.dev.stn.inp[i].fail = false →
    Completes (.stnFail i) s fun t =>
      t.dev.stn.inp[i] = { s.hw.dev.stn.inp[i] with qst := .disq, fail := true, drift := false, overRun := 0, fresh := false, lastFail := true }
      ∧ bitOf (t.devReg (0x3050 + 4 * i.val)) 23 = true ∧ t.tookMsg s.hw (mkMsg 63 16 clsN 0x43 i.val))
  ∧ ∀ (s : State) (i : Fin 4), s.hw.works = true → s.hw.dev.stn.inp[i].fail = true → s.hw.dev.stnFreq i.val ≠ 0 →
    Completes (.stnRecover i) s fun t => t.dev.stn.inp[i] = { s.hw.dev.stn.inp[i] with qst := .init, fail := false } ∧ t.noMsg s.hw

/-! ## Lanes and framers -/

/-- LOS, LOF and LOM of a lane come and go: LOS rewinds nothing here, stops delivery, lets the framer hunt and sends MS-RDI back on that
lane alone, LOF follows an out-of-frame condition that has persisted, LOM an out-of-multiframe one, each shown in
CHn.FRM_DEFECT_p, and no other channel and no spine unit is touched (R102, R104, R108, R116, R123, R126, R484). -/
def Obligations.LaneDefectsComeAndGo : Prop :=
  ∀ (s : State) (c : ChanId) (p : Lane), s.hw.works = true → (s.hw.chan c).st = .active ∨ (s.hw.chan c).st = .diag →
    let l := (s.hw.chan c).lane p
    (∀ (why : LosWhy) (n : Nat), l.def_ 15 = false → l.fr ≠ .runahead →
      Completes (.losEntry c p why n) s fun t =>
        (t.chan c).lane p = { l with
          fr := .hunt, slots := [], confirm := 0, since := 0, won := none, ra := (s.hw.chan c).reg (frmReg p 0), lost := true
          defects := l.defects ||| 0x8000#16, cdrLock := l.cdrLock && decide (why ≠ .cdrUnlock) }
        ∧ tget 0 (t.chan c).ctr (ctrKey 0x20 (16 * p.num + 13)) = min (2 ^ 48 - 1) (tget 0 (s.hw.chan c).ctr (ctrKey 0x20 (16 * p.num + 13)) + 1)
        ∧ (t.sohOut c p).k2 = 6 ∧ (∀ q, q ≠ p → (t.sohOut c q).k2 = (s.hw.sohOut c q).k2 ∧ (t.sohOut c q).m1 = (s.hw.sohOut c q).m1)
        ∧ bitOf (t.chReg c 0x2300) (23 - p.num) = true ∧ t.Local s.hw c)
    ∧ (l.def_ 15 = true → Completes (.losExit c p) s fun t =>
        (t.chan c).lane p = { l with defects := l.defects &&& 0x7FFF#16, cdrLock := true } ∧ bitOf (t.chReg c 0x2300) (23 - p.num) = true ∧ t.Local s.hw c)
    ∧ (l.def_ 13 = false → l.def_ 14 = true → Completes (.lofEntry c p) s fun t =>
        (t.chan c).lane p = { l with defects := l.defects ||| 0x2000#16, lost := true } ∧ bitOf (t.chReg c 0x2300) (23 - p.num) = true ∧ t.Local s.hw c)
    ∧ (l.def_ 13 = true → l.fr = .inframe → l.def_ 12 = false → l.def_ 15 = false → Completes (.lofExit c p) s fun t =>
        (t.chan c).lane p = { l with defects := l.defects &&& 0xDFFF#16, lost := false } ∧ bitOf (t.chReg c 0x2300) (23 - p.num) = true ∧ t.Local s.hw c)
    ∧ (l.def_ 12 = false → l.integ.oom = true → isOtn ((s.hw.chan c).rate p) = true → Completes (.lomEntry c p) s fun t =>
        (t.chan c).lane p = { l with defects := l.defects ||| 0x1000#16, lost := true } ∧ bitOf (t.chReg c 0x2300) (23 - p.num) = true ∧ t.Local s.hw c)
    ∧ (l.def_ 12 = true → l.integ.oom = false → l.fr = .inframe → l.def_ 13 = false → l.def_ 15 = false → Completes (.lomExit c p) s fun t =>
        (t.chan c).lane p = { l with defects := l.defects &&& 0xEFFF#16, lost := false } ∧ bitOf (t.chReg c 0x2300) (23 - p.num) = true ∧ t.Local s.hw c)

/-- The framer's states on a lane that is not in LOS (R103, R105, R106, R109, R111): in HUNT a first correct pattern is admitted to slot
0; a pattern in doubt in INFRAME opens an episode with a checkpoint; CONFIRM correct patterns of the prediction within the
horizon commit it; a horizon passed without a commit rewinds it, the words delivered in it counted as rewound. -/
def Obligations.FramerStates : Prop :=
  ∀ (s : State) (c : ChanId) (p : Lane) (i : Pattern), s.hw.works = true → (s.hw.chan c).st = .active ∨ (s.hw.chan c).st = .diag →
    let l := (s.hw.chan c).lane p
    let g := (s.hw.chan c).frCfg p
    l.def_ 15 = false →
    (geRed ((s.hw.chan c).rate p) p = true → l.fr = .hunt → l.slots = [] → i.errs < g.doubt → i.sync = some true →
      Completes (.framingPattern c p i) s fun t =>
        ((t.chan c).lane p).fr = .inframe ∧ ((t.chan c).lane p).cur = i.align ∧ ((t.chan c).lane p).def_ 14 = false ∧ t.Local s.hw c)
    ∧ (geRed ((s.hw.chan c).rate p) p = false → l.fr = .hunt → l.slots = [] → i.errs = 0 → 2 ≤ g.ifCnt →
      Completes (.framingPattern c p i) s fun t =>
        (t.chan c).lane p = { l with badRun := if i.align = l.cur then 0 else l.badRun, fr := .presync, slots := some { align := i.align, good := 1 } :: List.replicate (g.slots - 1) none }
        ∧ t.Local s.hw c)
    ∧ (l.fr = .inframe → i.align = l.cur → i.errs < g.doubt →
      Completes (.framingPattern c p i) s fun t => ((t.chan c).lane p).fr = .inframe ∧ ((t.chan c).lane p).ckpt = l.ckpt ∧ t.Local s.hw c)
    ∧ (l.fr = .inframe → i.align = l.cur → g.doubt ≤ i.errs →
      Completes (.framingPattern c p i) s fun t =>
        ((t.chan c).lane p).fr = .runahead ∧ ((t.chan c).lane p).ckpt = some { integ := l.integ, ptrs := (s.hw.chan c).lanePtrs p, rei := l.rei, rd := l.rd }
        ∧ ((t.chan c).lane p).cur = l.cur ∧ ((t.chan c).lane p).epWords = 0 ∧ ((t.chan c).lane p).confirm = 0 ∧ t.Local s.hw c)
    ∧ (l.fr = .runahead → l.deferred = [] → i.align = l.cur → i.errs = 0 → 1 ≤ g.doubt → g.confirm ≤ l.confirm + 1 → l.since + 1 ≤ g.horizon →
      (∀ q, p.path? = some q → ∀ e ∈ (s.hw.chan c).circ, (e.2.rx q).wait = []) →
      (p = .red → ∀ e ∈ (s.hw.chan c).circ, ∀ b ∈ e.2.enc, b.held = []) → Completes (.framingPattern c p i) s fun t =>
        ((t.chan c).lane p).fr = .inframe ∧ ((t.chan c).lane p).ckpt = none ∧ ((t.chan c).lane p).cur = l.cur
        ∧ ((t.chan c).lane p).def_ 14 = false ∧ t.chReg c (frmReg p 0x24) = s.hw.chReg c (frmReg p 0x24) + 1)
    ∧ ∀ n, l.fr = .runahead → g.horizon ≤ l.since →
      Completes (.runaheadHorizon c p n) s fun t =>
        ((t.chan c).lane p).fr = (if ((l.slots.drop 1).filter (·.isSome)).isEmpty then .hunt else .presync)
        ∧ ((t.chan c).lane p).ckpt = none ∧ ((t.chan c).lane p).deferred = []
        ∧ ((t.chan c).lane p).integ = (match l.ckpt with | some k => k.integ | none => l.integ)
        ∧ t.chReg c (frmReg p 0x20) = s.hw.chReg c (frmReg p 0x20) + 1
        ∧ t.chReg c (frmReg p 0x28) = s.hw.chReg c (frmReg p 0x28) + BitVec.ofNat 32 (l.epWords + n)

/-- A received frame counts its violations; an SDH or SONET lane accepts K1 on its third equal receipt and enters MS-AIS on the third
frame that shows it, and its lane's transmitter sends the frame's B2 count as M1 (R102, R116, R123). During an episode its effects wait (R111). -/
def Obligations.ReceivedOverhead : Prop :=
  ∀ (s : State) (c : ChanId) (p : Lane) (o : RxOh), s.hw.works = true → (s.hw.chan c).st = .active →
    let l := (s.hw.chan c).lane p
    (l.fr = .runahead →
      Completes (.rxFrame c p o) s fun t => (t.chan c).quiet = ((s.hw.chan c).setLane p { l with deferred := l.deferred ++ [o] }).quiet ∧ t.Local s.hw c)
    ∧ (l.fr = .inframe → isSdh ((s.hw.chan c).rate p) = true →
      Completes (.rxFrame c p o) s fun t =>
        tget 0 (t.chan c).ctr (ctrKey 0x20 (16 * p.num)) = min (2 ^ 48 - 1) (tget 0 (s.hw.chan c).ctr (ctrKey 0x20 (16 * p.num)) + o.cv1)
        ∧ tget 0 (t.chan c).ctr (ctrKey 0x20 (16 * p.num + 1)) = min (2 ^ 48 - 1) (tget 0 (s.hw.chan c).ctr (ctrKey 0x20 (16 * p.num + 1)) + o.cv2)
        ∧ ((t.chan c).lane p).fr = .inframe ∧ (t.sohOut c p).m1 = BitVec.ofNat 8 (min 255 o.cv2)
        ∧ (2 ≤ l.integ.k1N → l.integ.k1 = o.k1 → fieldOf (t.chReg c (frmReg p 0x14)) 31 24 = o.k1.toNat)
        ∧ (2 ≤ l.integ.aisIn → o.k2 &&& 7#8 = 7#8 → ((t.chan c).lane p).def_ 11 = true)
        ∧ (2 ≤ l.integ.aisOut → l.def_ 11 = true → o.k2 &&& 7#8 ≠ 7#8 → ((t.chan c).lane p).def_ 11 = false)
        ∧ t.Local s.hw c)

/-- Pointer interpretation of R143: an increment moves the offset on by one, within the range of the pointer, when three intervals have
passed since the last, and a through-timed output pointer with it (R147); three equal valid pointers set the offset and NORM; three
AIS intervals lead to AIS, and eight invalid ones, or a VC-4-Nc whose further AUs lack the concatenation indication for a third
frame, to LOP. (The ranges are log entry 17's.) -/
def Obligations.PointersFollowIntervals : Prop :=
  ∀ (s : State) (c : ChanId) (p : Lane) (pos : Pos) (conc : Bool), s.hw.works = true → (s.hw.chan c).st = .active →
    ((s.hw.chan c).lane p).fr = .inframe → isSdh ((s.hw.chan c).rate p) = true →
    let q := (s.hw.chan c).ptr p .au pos
    let whole := conc = true ∨ (s.hw.chan c).isConc pos = false
    (whole → q.st = 0 → 2 ≤ q.lastAdj → q.ofs.toNat < 783 →
      Completes (.pointerInterval c p .au pos ⟨.incr, conc⟩) s fun t =>
        ((t.chan c).ptr p .au pos).ofs.toNat = (if q.ofs.toNat = 782 then 0 else q.ofs.toNat + 1) ∧ ((t.chan c).ptr p .au pos).st = 0
        ∧ (p = .red → (s.hw.chan c).thruTimed false = true →
          ((t.chan c).gen false .au pos).shift = ((s.hw.chan c).gen false .au pos).shift + 1 ∧ ((t.chan c).gen false .au pos).ndf = false)
        ∧ t.Local s.hw c)
    ∧ (∀ v, whole → q.cand = v → 2 ≤ q.candN →
      Completes (.pointerInterval c p .au pos ⟨.valid v, conc⟩) s fun t =>
        ((t.chan c).ptr p .au pos).ofs = v ∧ ((t.chan c).ptr p .au pos).st = 0 ∧ t.Local s.hw c)
    ∧ (whole → 2 ≤ q.aisN → Completes (.pointerInterval c p .au pos ⟨.ais, conc⟩) s fun t => ((t.chan c).ptr p .au pos).st = 2 ∧ t.Local s.hw c)
    ∧ (7 ≤ q.badN → Completes (.pointerInterval c p .au pos ⟨.invalid, conc⟩) s fun t => ((t.chan c).ptr p .au pos).st = 1 ∧ t.Local s.hw c)
    ∧ ∀ ind, conc = false → (s.hw.chan c).isConc pos = true → 2 ≤ q.concN →
      Completes (.pointerInterval c p .au pos ⟨ind, conc⟩) s fun t => ((t.chan c).ptr p .au pos).st = 1 ∧ t.Local s.hw c

/-- The Malot declares and clears failures as their defects stand (R125). A transmit PLL that loses lock idles its transmitter, counts the
loss and raises TXPLL, and resumes when lock has held (R130, R481). -/
def Obligations.FailuresAndTransmitPlls : Prop :=
  ∀ (s : State) (c : ChanId) (p : Lane), s.hw.works = true → (s.hw.chan c).st = .active →
    let l := (s.hw.chan c).lane p
    (∀ d : Sys2Proof.Defect, (s.hw.chan c).mlt.run = true → l.def_ (Defect.bit d) = true →
      exec (.failureDeclare c p d) s = .next { s with hw := s.hw.onLane c p fun l =>
        { l with failures := l.failures ||| BitVec.ofNat 16 (2 ^ Defect.bit d) } })
    ∧ (∀ d : Sys2Proof.Defect, (s.hw.chan c).mlt.run = true → l.def_ (Defect.bit d) = false →
      exec (.failureClear c p d) s = .next { s with hw := s.hw.onLane c p fun l =>
        { l with failures := l.failures &&& ~~~ BitVec.ofNat 16 (2 ^ Defect.bit d) } })
    ∧ (l.txLock = true → Completes (.txpll c p) s fun t =>
        (t.chan c).lane p = { l with txLock := false, txIdle := true }
        ∧ t.chReg c (laneReg p + 0x14) = withField (s.hw.chReg c (laneReg p + 0x14)) 15 0 (fieldOf (s.hw.chReg c (laneReg p + 0x14)) 15 0 + 1)
        ∧ t.tookMsg s.hw (mkMsg c.val 1 clsH 0x02 p.num) ∧ bitOf (t.chReg c 0x2300) (20 - p.num) = true ∧ t.Local s.hw c)
    ∧ (l.txLock = false → Completes (.txResume c p) s fun t =>
        (t.chan c).lane p = { l with txLock := true, txIdle := false } ∧ t.noMsg s.hw ∧ bitOf (t.chReg c 0x2300) (20 - p.num) = true ∧ t.Local s.hw c)

/-- PRBS generator and checker: an injected error's bit clears itself and inverts one bit of a generator that runs, sync is gained and lost, and what was counted in sync joins the
saturating counters (R133, R134, R135, R232; log entry 18). A lane queue without credit, or popped empty, sets its flag and raises
its message (R251, R252, R493).
Auto-negotiation that completes on a 1GE channel shows the partner's page and its remote fault (R82, R490). An eye scan starts with
its results cleared and BUSY, and ends with its results, VALID unless the lane entered LOS (R481, R482). -/
def Obligations.PrbsQueuesAndEye : Prop :=
  (
    ∀ (s : State) (c : ChanId) (p : Lane), s.hw.works = true → (s.hw.chan c).st = .active →
      let l := (s.hw.chan c).lane p
      (∀ d, s.hw.reaches .isund = true → Completes (.prbsErrInj .isund c p d) s fun t =>
          fieldOf (t.chReg c (prbsReg p)) 5 0 = fieldOf d 5 0 ∧ bitOf (t.chReg c (prbsReg p)) 6 = false
          ∧ (prbsSet (t.chReg c (prbsReg p)) ≠ prbsSet (s.hw.chReg c (prbsReg p)) → ((t.chan c).lane p).chkSync = false)
          ∧ ((t.chan c).lane p).flips = l.flips + (if bitOf d 6 = true ∧ genOn (t.chReg c (prbsReg p)) = true then 1 else 0) ∧ t.Local s.hw c)
      ∧ (prbsOn (s.hw.chReg c (prbsReg p)) = true → Completes (.prbsSyncGain c p) s fun t =>
          (t.chan c).lane p = { l with chkSync := true } ∧ t.Local s.hw c)
      ∧ (∀ e n, l.chkSync = true → Completes (.prbsSyncLoss c p e n) s fun t =>
          (t.chan c).lane p = { l with chkSync := false }
          ∧ tget 0 (t.chan c).ctr (ctrKey 0x14 (2 * p.num)) = min (2 ^ 48 - 1) (tget 0 (s.hw.chan c).ctr (ctrKey 0x14 (2 * p.num)) + e)
          ∧ tget 0 (t.chan c).ctr (ctrKey 0x14 (2 * p.num + 1)) = min (2 ^ 48 - 1) (tget 0 (s.hw.chan c).ctr (ctrKey 0x14 (2 * p.num + 1)) + n)
          ∧ t.Local s.hw c)
      ∧ (∀ q : Fin 15, Completes (.lqOvf c q) s fun t =>
          bitOf (t.chReg c (0x6080 + 4 * q.val)) 21 = true ∧ bitOf (t.chReg c 0x6014) 19 = true
          ∧ t.tookMsg s.hw (mkMsg c.val 6 clsH 0x31 q.val) ∧ t.Local s.hw c)
      ∧ Completes (.lqUnder c p) s fun t =>
          bitOf (t.chReg c (0x6080 + 4 * (3 + p.num))) 22 = true ∧ bitOf (t.chReg c 0x6014) 19 = true
          ∧ t.tookMsg s.hw (mkMsg c.val 6 clsH 0x32 p.num) ∧ t.Local s.hw c)
  ∧
  (
    ∀ (s : State) (c : ChanId), s.hw.works = true → (s.hw.chan c).st = .active →
      (∀ page : BitVec 16, (s.hw.chan c).rate .red = 8 → Completes (.geAnComplete c true page) s fun t =>
          fieldOf (t.chReg c 0x4004) 31 16 = page.toNat ∧ bitOf (t.chReg c 0x4004) 15 = true ∧ bitOf (t.chReg c 0x4008) 21 = true
          ∧ ((t.chan c).lane .red).def_ 2 = decide (page &&& 0x3000#16 ≠ 0) ∧ t.Local s.hw c)
      ∧ (∀ d, s.hw.reaches .isund = true → bitOf (s.hw.chReg c 0x10C8) 31 = false → bitOf d 31 = true → Completes (.eyeScanStart .isund c d) s fun t =>
          bitOf (t.chReg c 0x10C8) 31 = true ∧ bitOf (t.chReg c 0x10C8) 30 = false ∧ (∀ k < 64, t.chReg c (0x1100 + 4 * k) = 0) ∧ t.Local s.hw c)
      ∧ ∀ res los, bitOf (s.hw.chReg c 0x10C8) 31 = true → Completes (.eyeScanDone c res los) s fun t =>
          bitOf (t.chReg c 0x10C8) 31 = false ∧ bitOf (t.chReg c 0x10C8) 30 = !los ∧ bitOf (t.chReg c 0x10C4) 31 = false
          ∧ (∀ k < 64, k < res.length → t.chReg c (0x1100 + 4 * k) = (res.getD k 0).zeroExtend 32)
          ∧ (∀ d, d ≠ c → t.chan d = s.hw.chan d) ∧ t.dev = s.hw.dev)

/-! ## Mapper, circuits, the encrypt side -/

/-- The table port is claimed and released, reads an entry into its data registers, writes an entry of a circuit that is not enabled and an
entry of the shadow Slot Map, and ends its operation with RESULT, GO cleared and INDEX stepped under AINC (R156, R158, R170, R177, R178,
R179, R180). -/
def Obligations.TablePortOperates : Prop :=
  ∀ (s : State) (m : Master) (c : ChanId), s.hw.reaches m = true → tpCode m ≠ 0 → (s.hw.chan c).st = .active → (s.hw.chan c).map.tpOp = none →
    ((s.hw.chan c).map.tpOwner = 0 →
      exec (.tpClaim m c) s = .next { s with hw := (s.hw.bmx m.id 0).onChan c fun x => { x with map := { x.map with tpOwner := tpCode m } } })
    ∧ ((s.hw.chan c).map.tpOwner = tpCode m →
      exec (.tpRelease m c) s = .next { s with hw := (s.hw.bmx m.id 0).onChan c fun x => { x with map := { x.map with tpOwner := 0 } } })
    ∧ (∀ ctl : Word, (s.hw.chan c).map.tpOwner = tpCode m → bitOf ctl 0 = true → bitOf ctl 1 = false →
        fieldOf (s.hw.chReg c 0x3014) 31 30 = 0 → fieldOf (s.hw.chReg c 0x3014) 16 0 < 8192 →
        Completes (.tpRead m c ctl) s fun t =>
          (∀ j < 4, t.chReg c (0x3020 + 4 * j) = (s.hw.chan c).circWord ((s.hw.chan c).circ! (BitVec.ofNat 13 (fieldOf (s.hw.chReg c 0x3014) 16 0))) j)
          ∧ (t.chan c).map.tpOp = some .read ∧ (t.chan c).map.tpNext = 0 ∧ (t.chan c).circ = (s.hw.chan c).circ ∧ t.Local s.hw c)
    ∧ (∀ ctl : Word, (s.hw.chan c).map.tpOwner = tpCode m → bitOf ctl 0 = true → bitOf ctl 1 = true →
        fieldOf (s.hw.chReg c 0x3014) 31 30 = 0 → fieldOf (s.hw.chReg c 0x3014) 16 0 < 8192 →
        let k : CircId := BitVec.ofNat 13 (fieldOf (s.hw.chReg c 0x3014) 16 0)
        ((s.hw.chan c).circ! k).en = false → bitOf ((s.hw.chan c).tpD 0) 31 = false →
        Completes (.tpWrite m c (.go ctl)) s fun t =>
          (t.chan c).circ! k = { (s.hw.chan c).circ! k with
            w0 := (s.hw.chan c).tpD 0 &&& 0x7CFFFFFF, w1 := (s.hw.chan c).tpD 1 &&& 0xFFFFFFF8,
            w2 := (s.hw.chan c).tpD 2 &&& 0xFFFFF000, w3 := (s.hw.chan c).tpD 3 &&& 0xFFFFF000 }
          ∧ (∀ j, j ≠ k → (t.chan c).circ! j = (s.hw.chan c).circ! j)
          ∧ (t.chan c).map.tpOp = some .write ∧ (t.chan c).map.tpNext = 0 ∧ t.Local s.hw c)
    ∧ ∀ d0 : Word, (s.hw.chan c).map.tpOwner = tpCode m → bitOf (s.hw.chReg c 0x3018) 4 = true → fieldOf (s.hw.chReg c 0x3014) 31 30 = 2 →
        fieldOf (s.hw.chReg c 0x3014) 16 0 < 129024 → (s.hw.chan c).map.enc = false → (s.hw.chan c).map.dec = false → (s.hw.chan c).map.pending = false →
        Completes (.tpWrite m c (.trig d0)) s fun t =>
          (t.chan c).slot true (fieldOf (s.hw.chReg c 0x3014) 16 0) = d0.truncate 16
          ∧ (∀ i, i ≠ fieldOf (s.hw.chReg c 0x3014) 16 0 → (t.chan c).slot true i = (s.hw.chan c).slot true i)
          ∧ (t.chan c).map.bankA = (s.hw.chan c).map.bankA ∧ (t.chan c).map.tpOp = some .write ∧ (t.chan c).map.tpNext = 0 ∧ t.Local s.hw c

/-- A write that enables a stored circuit takes it into service if every check accepts it (R158, R160): it is enabled, not yet LIVE, in no
quarantine and out of clear mode, its sequence numbers no lower than its context's floors, and under the role guard (R161, R190, R195).
The end of an operation writes its RESULT, clears GO and steps INDEX under AINC (R179, R180).
An enabled circuit takes the slot TXP names; one in service starts at its first block boundary, at a frame of its block phase: LIVE, with
KA_BLOCKS keep-alive blocks ahead (R65, R161). A removed circuit's last deadline ends its drain, and its positions carry what
R150 gives: nothing of its own in a tributary, all ones of an ODU, an unequipped VC of zeros but for its parity (R150, R162). -/
def Obligations.CircuitsServed : Prop :=
  (
    (∀ (s : State) (m : Master) (c : ChanId) (ctl : Word), s.hw.reaches m = true → tpCode m ≠ 0 → (s.hw.chan c).st = .active →
      (s.hw.chan c).map.tpOp = none → (s.hw.chan c).map.tpOwner = tpCode m → bitOf ctl 0 = true → bitOf ctl 1 = true →
      fieldOf (s.hw.chReg c 0x3014) 31 30 = 0 → fieldOf (s.hw.chReg c 0x3014) 16 0 < 8192 →
      let k : CircId := BitVec.ofNat 13 (fieldOf (s.hw.chReg c 0x3014) 16 0)
      let y := (s.hw.chan c).circ! k
      y.en = false → bitOf ((s.hw.chan c).tpD 0) 31 = true → (s.hw.chan c).sameEntry y = true → (s.hw.chan c).enableCheck k.toNat y = none →
      Completes (.tpWrite m c (.go ctl)) s fun t =>
        let y' := (t.chan c).circ! k
        y'.en = true ∧ y'.odd = ((s.hw.chan c).ctx! y.kctx).txp ∧ y'.live = false ∧ y'.quar = false ∧ y'.clear = false ∧ y'.anchor = none ∧ (y'.starved = false → y'.guard = true)
        ∧ y'.eseqE = (if y.eseqE < ((s.hw.chan c).ctx! y.kctx).floorE then ((s.hw.chan c).ctx! y.kctx).floorE else y.eseqE)
        ∧ y'.eseqO = (if y.eseqO < ((s.hw.chan c).ctx! y.kctx).floorO then ((s.hw.chan c).ctx! y.kctx).floorO else y.eseqO)
        ∧ (t.chan c).map.tpOp = some (.enable k) ∧ (t.chan c).map.tpNext = 0 ∧ t.Local s.hw c)
    ∧ ∀ (s : State) (c : ChanId) (o : TpOp), s.hw.works = true → (s.hw.chan c).map.tpOp = some o →
      Completes (.tpOpDone c) s fun t =>
        (t.chan c).map = { (s.hw.chan c).map with tpOp := none, tpResult := (s.hw.chan c).map.tpNext } ∧ bitOf (t.chReg c 0x3018) 0 = false
        ∧ (bitOf (s.hw.chReg c 0x3018) 3 = true → fieldOf (s.hw.chReg c 0x3014) 16 0 < tpLast (fieldOf (s.hw.chReg c 0x3014) 31 30) →
            fieldOf (t.chReg c 0x3014) 16 0 = fieldOf (s.hw.chReg c 0x3014) 16 0 + 1)
        ∧ (bitOf (s.hw.chReg c 0x3018) 3 = false → t.chReg c 0x3014 = s.hw.chReg c 0x3014)
        ∧ (∀ d, d ≠ c → t.chan d = s.hw.chan d) ∧ t.dev = s.hw.dev)
  ∧
  (
    (∀ (s : State) (c : ChanId) (k : CircId) (frame : Nat), s.hw.works = true → (s.hw.chan c).serves k = true →
      ((s.hw.chan c).circ! k).live = false →
      let y := (s.hw.chan c).circ! k
      let ph := (s.hw.chan c).startPhase y frame
      ((s.hw.chan c).atPhase { y with phase := ph } frame = true →
        exec (.circuitStart c ⟨k, frame⟩) s = .next { s with hw := s.hw.onCirc c k fun y =>
          { y with live := true, kaLeft := fieldOf (s.hw.chReg c 0x4000) 15 8, phase := ph, switched := false, prevTrailer := [] } })
      ∧ ((s.hw.chan c).atPhase { y with phase := ph } frame = false → exec (.circuitStart c ⟨k, frame⟩) s = .next s))
    ∧ ∀ (s : State) (c : ChanId) (k : CircId), s.hw.works = true → (s.hw.chan c).st = .active → ((s.hw.chan c).circ! k).drain = true →
      let y := (s.hw.chan c).circ! k
      Completes (.drainEnd c k) s fun t =>
        ((t.chan c).circ! k).drain = false ∧ ((t.chan c).circ! k).enc = []
        ∧ (t.chan c).store = (s.hw.chan c).store.filter (fun e => e.circ ≠ k)
        ∧ (isFrac y.kind = true → ((t.chan c).circ! k).black = .none ∧ ((t.chan c).circ! k).red = .none)
        ∧ (isWhole y.kind = true → frameLen y.kind ≠ 0 →
            ((t.chan c).circ! k).black = .line (.bytes (List.replicate (blockFrames y.kind * frameLen y.kind) 0xFF))
            ∧ ((t.chan c).circ! k).red = .line (.bytes (List.replicate (blockFrames y.kind * frameLen y.kind) 0xFF)))
        ∧ (isFrac y.kind = false → isWhole y.kind = false → frameLen y.kind ≠ 0 →
            ((t.chan c).circ! k).black = .line (.bytes (regen y.kind 0 y.parB (zeroBlock y.kind)).1)
            ∧ ((t.chan c).circ! k).red = .line (.bytes (regen y.kind 0 y.parR (zeroBlock y.kind)).1))
        ∧ (∀ j, j ≠ k → (t.chan c).circ! j = (s.hw.chan c).circ! j) ∧ t.noMsg s.hw ∧ t.Local s.hw c)

/-- The bank swap: accepted with no fractional tributary it takes both directions to the other bank at once and completes DONE (R171,
R172); with one it is PENDING under the old bank until each tributary's encrypt side has switched; after SWAP_TO it is forced,
with MAP_SKEW (R174); foreign epochs without a swap raise MAP_SKEW with the tributary's index (R175). -/
def Obligations.BankSwaps : Prop :=
  (∀ (s : State) (c : ChanId) (x : Cmd), s.hw.works = true → s.hw.executes (.chan c) = true → (s.hw.chan c).q.run = [x] → x.op = 0x20 →
    x.held = false → x.parent = none → x.dropped = false → (s.hw.chan c).map.pending = false → (s.hw.chan c).swapRefusal = none →
    Completes (.mapSwap c) s fun t =>
      ((s.hw.chan c).fracTribs = [] →
        (t.chan c).map.enc = !(s.hw.chan c).map.enc ∧ (t.chan c).map.dec = !(s.hw.chan c).map.enc ∧ (t.chan c).map.pending = false
        ∧ (t.chan c).q.run = [] ∧ ((t.chan c).q.bank x.by_).cpl = ((s.hw.chan c).q.bank x.by_).cpl ++ [cplWord 0x20 x.tag stDone c.val 0 0])
      ∧ ((s.hw.chan c).fracTribs ≠ [] →
        (t.chan c).map.enc = (s.hw.chan c).map.enc ∧ (t.chan c).map.dec = (s.hw.chan c).map.dec ∧ (t.chan c).map.pending = true
        ∧ (t.chan c).q.run = [{ x with held := true }])
      ∧ (t.chan c).map.bankA = (s.hw.chan c).map.bankA ∧ (t.chan c).map.bankB = (s.hw.chan c).map.bankB ∧ t.Local s.hw c)
  ∧ (∀ (s : State) (c : ChanId) (pos : Pos), s.hw.works = true → (s.hw.chan c).st = .active → (s.hw.chan c).map.pending = true →
    pos ∈ (s.hw.chan c).fracTribs → (tget ({} : TribSwap) (s.hw.chan c).map.swaps pos.key).encB = (s.hw.chan c).map.encWas →
    (tget ({} : TribSwap) (s.hw.chan c).map.swaps pos.key).followed = false → 4 ≤ (tget ({} : TribSwap) (s.hw.chan c).map.swaps pos.key).blocksSince →
    Completes (.tribBankSwitch c pos) s fun t =>
      tget ({} : TribSwap) (t.chan c).map.swaps pos.key
        = { tget ({} : TribSwap) (s.hw.chan c).map.swaps pos.key with encB := !(s.hw.chan c).map.encWas, blocksSince := 0 }
      ∧ (t.chan c).map.pending = true ∧ (t.chan c).map.dec = (s.hw.chan c).map.dec ∧ t.Local s.hw c)
  ∧ (∀ (s : State) (c : ChanId), s.hw.works = true → (s.hw.chan c).st = .active → (s.hw.chan c).map.pending = true →
    Completes (.mapSwapForced c) s fun t =>
      (t.chan c).map.enc = !(s.hw.chan c).map.encWas ∧ (t.chan c).map.dec = !(s.hw.chan c).map.encWas ∧ (t.chan c).map.pending = false
      ∧ bitOf (t.chReg c 0x3008) 23 = true ∧ bitOf (t.chReg c 0x3008) 22 = true ∧ t.Local s.hw c)
  ∧ ∀ (s : State) (c : ChanId) (pos : Pos), s.hw.works = true → (s.hw.chan c).st = .active → (s.hw.chan c).map.pending = false →
    pos ∈ (s.hw.chan c).fracTribs →
    Completes (.mapSkewTimeout c pos) s fun t =>
      t.is (s.hw.setChReg c 0x3008 (evWord (s.hw.chReg c 0x3008) 0x00400000)) ∧ t.tookMsg s.hw (mkMsg c.val 3 clsN 0x12 ((s.hw.chan c).tribIndex pos))

/-- At a frame of its block phase a circuit's block starts (R51, R65, R188, R190, R195, R219): with a key in the circuit's slot it takes the
next SEQ, the keep-alive or data format of its state and the trailer of its predecessor, ESEQ and the context's floor rise above it,
and it takes its keystream, of which no queue holds more than 512 entries (R255); without a key, or in hard stop, no block is sent,
fill is counted, and no SEQ is used (R193, R232, R262). A slot in use whose integrity word does not match triggers Midwinter
(R201). -/
def Obligations.EncryptBlockStarts : Prop :=
  ∀ (s : State) (c : ChanId) (k : CircId) (frame : Nat), s.hw.works = true → (s.hw.chan c).serves k = true →
    let y := (s.hw.chan c).circ! k
    let z := (s.hw.chan c).ctx! y.kctx
    let gone := (s.hw.chan c).inDefect .red y
    y.live = true → y.clearNext = none → z.arm = false →
    ((s.hw.chan c).atPhase y frame = false → exec (.encBlockStart c k frame) s = .next s)
    ∧ ((s.hw.chan c).atPhase y frame = true → (z.slot y.odd).corrupt 0 = false → y.hardStop = false → (z.slot y.odd).st ≠ .empty ∨ y.clear = true →
      Completes (.encBlockStart c k frame) s fun t =>
        ((t.chan c).circ! k).enc = y.enc ++ [{
          seq := y.eseq y.odd, odd := y.odd, format := if 0 < y.kaLeft ∨ y.guard = true then 3 else 1,
          clear := y.clear, ect := 0, mep := (s.hw.chan c).encBank y, aps := 0, carries := y.prevTrailer,
          spec := decide ((s.hw.chan c).red.fr = .runahead), guard := y.guard && decide (y.kaLeft = 0), defAll := gone, defAny := gone }]
        ∧ ((t.chan c).circ! k).eseq y.odd = y.eseq y.odd + 1 ∧ ((t.chan c).circ! k).kaLeft = y.kaLeft - 1 ∧ ((t.chan c).circ! k).prevTrailer = []
        ∧ (y.eseq y.odd).toNat + 1 ≤ (if y.odd then ((t.chan c).ctx! y.kctx).floorO else ((t.chan c).ctx! y.kctx).floorE).toNat
        ∧ (∀ r ∈ (t.chan c).cph.ks[ksEnc], ¬(r.circ = k ∧ r.odd = y.odd ∧ r.seq = y.eseq y.odd))
        ∧ (ksLevel (s.hw.chan c).cph.ks[ksEnc] ≤ 512 → ksLevel (t.chan c).cph.ks[ksEnc] ≤ 512)
        ∧ ∀ j, j ≠ k → ((t.chan c).circ! j).enc = ((s.hw.chan c).circ! j).enc)
    ∧ ((s.hw.chan c).atPhase y frame = true → (z.slot y.odd).corrupt 0 = false → y.hardStop = true ∨ ((z.slot y.odd).st = .empty ∧ y.clear = false) →
      Completes (.encBlockStart c k frame) s fun t =>
        ((t.chan c).circ! k).enc = y.enc ∧ ((t.chan c).circ! k).eseq y.odd = y.eseq y.odd ∧ ((t.chan c).circ! k).prevTrailer = []
        ∧ tget 0 (t.chan c).ctr (ctrKey 0x11 0) = min (2 ^ 48 - 1) (tget 0 (s.hw.chan c).ctr (ctrKey 0x11 0) + 1)
        ∧ tget 0 (t.chan c).ctr (ctrKey 0x10 4) = min (2 ^ 48 - 1) (tget 0 (s.hw.chan c).ctr (ctrKey 0x10 4) + 1)
        ∧ t.Local s.hw c)
    ∧ ((s.hw.chan c).atPhase y frame = true → (z.slot y.odd).corrupt 0 = true → s.hw.dev.boot.st ≠ .supplyUp →
      Completes (.encBlockStart c k frame) s fun t => t.MidwinterBy s.hw (mkMsg c.val 5 clsM 0x2E y.kctx))

/-- A keep-alive block ends: its payload is zeros, sealed with the key of its slot under the IV of the channel's role, the circuit's LCID and its
SEQ, and its trailer carries the head and the tag, unless its circuit is in clear mode, whose blocks go out as they are with a tag of
zeros (R47, R48, R183, R185, R221). A word that the seal check rejects triggers Midwinter: a payload word whose SEAL is 0 outside clear
mode, an overhead word, and any such word where no block is open (R33, R35, R221). -/
def Obligations.EncryptBlockEnds : Prop :=
  (∀ (s : State) (c : ChanId) (k : CircId) (sp : LineSpan) (gone : List (Nat × Nat)) (i : Nat) (b : EncBlk) (kd : Kind), s.hw.works = true →
    (s.hw.chan c).st = .active →
    let y := (s.hw.chan c).circ! k
    y.enc.findIdx? (fun b => !b.done) = some i → y.enc[i]? = some b → b.lost = 0 → b.format = 3 → (s.hw.chan c).kindOf y = some kd →
    (s.hw.chan c).cvu.inj = none →
    let g := if b.defAll then [(0, geTimes)] else if b.defAny then gone else []
    let d := (s.hw.chan c).redBlock k.toNat y b.mep g ((s.hw.chan c).seen .red y y.red sp)
    let n := d.plain.length
    let head := trlHead (mkType 3 b.odd b.mep (s.hw.chan c).psw.st.code) b.seq 0
    let o := gcmSeal (((s.hw.chan c).ctx! y.kctx).slot b.odd).key (ivOf (s.hw.chan c).roleB y.lcid b.seq) (aadOf head y.lcid) (List.replicate n 0) kd.tagLen
    Completes (.encBlockEnd c k sp ⟨gone, []⟩ []) s fun t =>
      ((t.chan c).circ! k).enc[i]? = some { b with
        done := true, ect := 0, aps := (s.hw.chan c).psw.st.code, body := if b.clear then List.replicate n 0 else o.1,
        trailer := mkTrailer head (if b.clear then List.replicate kd.tagLen 0 else o.2) y.lcid, span := d.span, held := [] }
      ∧ ((t.chan c).circ! k).ectAcc = 0 ∧ t.noMsg s.hw ∧ t.Local s.hw c)
  ∧ (∀ (s : State) (c : ChanId) (k : CircId) (sp : LineSpan) (gone : List (Nat × Nat)) (i : Nat) (b : EncBlk) (v : W40), s.hw.works = true →
    s.hw.dev.boot.st ≠ .supplyUp → (s.hw.chan c).st = .active →
    let y := (s.hw.chan c).circ! k
    y.enc.findIdx? (fun b => !b.done) = some i → y.enc[i]? = some b → b.lost = 0 → b.format = 3 →
    let d := (s.hw.chan c).redBlock k.toNat y b.mep (if b.defAll then [(0, geTimes)] else if b.defAny then gone else [])
      ((s.hw.chan c).seen .red y y.red sp)
    let z := List.replicate d.plain.length (0 : Byte)
    let head := trlHead (mkType 3 b.odd b.mep (s.hw.chan c).psw.st.code) b.seq 0
    (if b.clear then z else (gcmSeal (((s.hw.chan c).ctx! y.kctx).slot b.odd).key (ivOf (s.hw.chan c).roleB y.lcid b.seq) (aadOf head y.lcid) z
      ((((s.hw.chan c).kindOf y).map (·.tagLen)).getD 12)).1) ≠ [] →
    v = 0x20#40 ∨ (v = 0x80#40 ∧ b.clear = false) →
    Completes (.encBlockEnd c k sp ⟨gone, [(0, v)]⟩ []) s fun t => t.inMw = true ∧ t.keyless)
  ∧ ∀ (s : State) (c : ChanId) (k : CircId) (sp : LineSpan) (gone : List (Nat × Nat)) (ups : List (Nat × BitVec 40)), s.hw.works = true →
    s.hw.dev.boot.st ≠ .supplyUp → (s.hw.chan c).st = .active →
    (∀ b ∈ ((s.hw.chan c).circ! k).enc, b.done = true) → (∃ u ∈ ups, sealOk ((s.hw.chan c).circ! k).clear 0 u.2 = false) →
    Completes (.encBlockEnd c k sp ⟨gone, ups⟩ []) s fun t => t.inMw = true ∧ t.keyless

/-- A finished block leaves at its release point, counted: its body at its payload positions and the reclaim sequence with its
predecessor's trailer at its reclaim positions, everything else of its container as it came but for its parity (R46, R48, R149, R237,
R239). One that is not finished, or holds words of an open episode, is lost there, counted, and its positions carry KIND 11 fill
of zeros at its last word (R31, R37, R239, R247, R257, R531). What is placed in a container is what is taken from it (R46), and what
is scrambled is what is descrambled (R74). -/
def Obligations.EncryptRelease : Prop :=
  (∀ (s : State) (c : ChanId) (k : CircId) (b : EncBlk) (rest : List EncBlk), s.hw.works = true → (s.hw.chan c).st = .active →
    let y := (s.hw.chan c).circ! k
    y.enc = b :: rest →
    (b.lost = 0 → b.done = true → b.spec = false →
      Completes (.encWordRelease c k false true) s fun t =>
        ((t.chan c).circ! k).enc = rest
        ∧ y.carries ((b.span.map LineSpan.toBytes).getD []) b.body
            (reclaimSeq ((s.hw.chan c).reclaimLen b.mep k.toNat y (b.span.bind LineSpan.toTrib)) ((s.hw.chan c).trlLen y) b.carries)
            (fit 21 b.carries) ((t.chan c).circ! k).black
        ∧ tget 0 (t.chan c).ctr (ctrKey 0x10 0) = min (2 ^ 48 - 1) (tget 0 (s.hw.chan c).ctr (ctrKey 0x10 0) + 1) ∧ t.noMsg s.hw ∧ t.Local s.hw c)
    ∧ (b.lost = 0 → b.spec = true → b.started = false → b.missed = false →
      Completes (.encWordRelease c k true false) s fun t =>
        ((t.chan c).circ! k).enc.head? = some { b with lost := 1, cause := 0, body := [], trailer := [], missed := true }
        ∧ ((t.chan c).circ! k).black = y.black
        ∧ tget 0 (t.chan c).ctr (ctrKey 0x11 0) = min (2 ^ 48 - 1) (tget 0 (s.hw.chan c).ctr (ctrKey 0x11 0) + 1) ∧ t.noMsg s.hw ∧ t.Local s.hw c)
    ∧ (b.lost = 1 → b.missed = true →
      Completes (.encWordRelease c k false true) s fun t =>
        ((t.chan c).circ! k).enc = rest ∧ y.carries [] [] [] [] ((t.chan c).circ! k).black ∧ (t.chan c).ctr = (s.hw.chan c).ctr
        ∧ t.noMsg s.hw ∧ t.Local s.hw c))
  ∧ (∀ (kind : Nat) (l pay : List Byte) (rec : List Bool),
    takeBits Mask.rcl (masks kind) (placeBlock kind l pay rec) = fitBits ((masks kind).flatMap fun m => (byteBits m.rcl).filter id).length rec
    ∧ takeBits Mask.pay (masks kind) (placeBlock kind l pay rec) = fitBits ((masks kind).flatMap fun m => (byteBits m.pay).filter id).length (bytesBits pay))
  ∧ ∀ (b : Scr) (l : List Block66), (through descramble b (through scramble b l).1).1 = l

/-! ## Keys -/

/-- KEY_LOAD makes the checks of R206 in order, refuses on the first that fails with the key store as it was, and on success stores the
key, its check value and its serial in the slot, in the state of R199, with its integrity word and with the slot's sequence numbers at 0
(R189, R196, R199, R200). A device KEY_LOAD is refused with BLOB_BIND where its blob names no channel; of an ACTIVE channel that accepts
it, the blob reaches that channel's queue in a KEY_LOAD of the Isund's, and the device command waits for it (R208, R445). -/
def Obligations.KeyLoadStores : Prop :=
  (∀ (s : State) (c : ChanId) (x : Cmd), s.hw.Runs c (fresh 0x10) x →
    let n := cmdCtx x
    let odd := bitOf x.w1 16
    let z := (s.hw.chan c).ctx! n
    let refused := fun r => Completes (.keyLoad c) s fun t => t.Completed s.hw c (fresh 0x10) x stRefused r 0 ∧ (t.chan c).cph = (s.hw.chan c).cph
    ((s.hw.chan c).cph.katFail = true → refused rCipherOff)
    ∧ ((s.hw.chan c).cph.katFail = false → s.hw.dev.boot.st ≠ .bare → (∀ b ∈ s.hw.kwk, b = 0) → refused rKwkBlank)
    ∧ (∀ r, keyCheck s.hw.kwk (s.hw.cipherOff c) c.val z n odd (blobBytes x.blob) = .inl r → refused r)
    ∧ ∀ key kcv serial, keyCheck s.hw.kwk (s.hw.cipherOff c) c.val z n odd (blobBytes x.blob) = .inr (key, kcv, serial) →
      Completes (.keyLoad c) s fun t =>
        t.Completed s.hw c (fresh 0x10) x stDone 0 kcv.toNat
        ∧ ((t.chan c).ctx! n).slot odd = KeySlot.stamp
          { st := z.loadState odd, key := key, kcv := kcv, lastKcv := (z.slot odd).lastKcv, serial := serial, since := s.hw.now }
        ∧ (((t.chan c).ctx! n).slot odd).corrupt 0 = false
        ∧ ((t.chan c).ctx! n).slot (!odd) = z.slot (!odd) ∧ ((t.chan c).ctx! n).highSerial = serial
        ∧ (∀ m, m ≠ n → (t.chan c).ctx! m = (s.hw.chan c).ctx! m)
        ∧ ∀ k, ((s.hw.chan c).circ! k).en = true → ((s.hw.chan c).circ! k).kctx = n →
          ((t.chan c).circ! k).eseq odd = 0 ∧ ((t.chan c).circ! k).eseq (!odd) = ((s.hw.chan c).circ! k).eseq (!odd))
  ∧ (∀ (s : State) (x : Cmd), s.hw.works = true → s.hw.dev.boot.st = .run → s.hw.dev.isvStall = false → s.hw.dev.q.run = [x] → fresh 0x10 x = true →
    x.parent = none → x.dropped = false → 48 ≤ ((blobBytes x.blob).getD 1 0).toNat →
    Completes .deviceKeyLoad s fun t =>
      (t.dev.q.bank x.by_).cpl = (s.hw.dev.q.bank x.by_).cpl ++ [cplWord 0x10 x.tag stRefused 63 rBlobBind 0] ∧ t.dev.q.run = [] ∧ t.dev.kbuf = []
      ∧ t.chans = s.hw.chans)
  ∧ ∀ (s : State) (x : Cmd) (c : ChanId), s.hw.works = true → s.hw.dev.boot.st = .run → s.hw.dev.isvStall = false → s.hw.dev.q.run = [x] →
    fresh 0x10 x = true → ((blobBytes x.blob).getD 1 0).toNat = c.val → x.blob.length = 18 → (s.hw.chan c).st = .active →
    s.hw.credit (.chan c) .isund ≠ 0 →
    let y : Cmd := { x with by_ := .isund, parent := some (x.by_, x.tag), held := false }
    s.hw.judge (.chan c) 0 { y with blob := [] } = none →
    Completes .deviceKeyLoad s fun t =>
      (t.chan c).q.wait = (s.hw.chan c).q.wait ++ [y] ∧ (t.chan c).q.run = (s.hw.chan c).q.run ∧ (t.chan c).cph = { (s.hw.chan c).cph with kbuf := [] }
      ∧ ((t.chan c).q.bank .isund).used = ((s.hw.chan c).q.bank .isund).used + 1 ∧ (t.chan c).circ = (s.hw.chan c).circ
      ∧ t.dev.q.run = [{ x with held := true }] ∧ t.dev.q.wait = s.hw.dev.q.wait ∧ t.dev.kbuf = s.hw.dev.kbuf ∧ t.noMsg s.hw ∧ t.Local s.hw c

/-- KEY_ZEROIZE empties the slots its mask names, their keys, integrity words and keystream entries gone and their serials kept, and no
other slot; KEY_ZEROIZE_ALL empties every slot of the channel (R199, R207, R220). The end of the overlap empties a DRAINING slot (R199). -/
def Obligations.KeysZeroized : Prop :=
  (∀ (s : State) (c : ChanId) (x : Cmd), s.hw.Runs c (fresh 0x11) x →
    let n := cmdCtx x
    let z := (s.hw.chan c).ctx! n
    z.arm = false →
    Completes (.keyZeroize c) s fun t =>
      t.Completed s.hw c (fresh 0x11) x stDone 0 0
      ∧ (∀ odd, bitOf x.w1 (if odd then 17 else 16) = true →
        (((t.chan c).ctx! n).slot odd).st = .empty ∧ (((t.chan c).ctx! n).slot odd).serial = (z.slot odd).serial
        ∧ ((z.slot odd).st ≠ .empty → (((t.chan c).ctx! n).slot odd).key = [] ∧ (((t.chan c).ctx! n).slot odd).integ = 0
          ∧ ∀ i : Fin 3, ∀ r ∈ (t.chan c).cph.ks[i], ¬(r.odd = odd ∧ ((s.hw.chan c).circ! r.circ).kctx = n)))
      ∧ (∀ odd, bitOf x.w1 (if odd then 17 else 16) = false → ((t.chan c).ctx! n).slot odd = z.slot odd)
      ∧ ((t.chan c).ctx! n).txp = z.txp ∧ ((t.chan c).ctx! n).highSerial = z.highSerial ∧ ∀ m, m ≠ n → (t.chan c).ctx! m = (s.hw.chan c).ctx! m)
  ∧ (∀ (s : State) (c : ChanId) (x : Cmd), s.hw.Runs c (fresh 0x12) x → (∀ n, ((s.hw.chan c).ctx! n).arm = false) →
    Completes (.keyZeroizeAll c) s fun t =>
      t.Completed s.hw c (fresh 0x12) x stDone 0 0
      ∧ ∀ n odd, (((t.chan c).ctx! n).slot odd).st = .empty ∧ ((t.chan c).ctx! n).highSerial = ((s.hw.chan c).ctx! n).highSerial
        ∧ ((((s.hw.chan c).ctx! n).slot odd).st ≠ .empty → (((t.chan c).ctx! n).slot odd).key = []))
  ∧ ∀ (s : State) (c : ChanId) (n : CtxId), s.hw.works = true → (s.hw.chan c).st = .active →
    let z := (s.hw.chan c).ctx! n.toNat
    z.arm = false →
    Completes (.overlapExpire c n) s fun t =>
      (∀ odd, (z.slot odd).st = .draining → (((t.chan c).ctx! n.toNat).slot odd).st = .empty ∧ (((t.chan c).ctx! n.toNat).slot odd).key = [])
      ∧ (∀ odd, (z.slot odd).st ≠ .draining → ((t.chan c).ctx! n.toNat).slot odd = z.slot odd)
      ∧ (∀ m, m ≠ n.toNat → (t.chan c).ctx! m = (s.hw.chan c).ctx! m) ∧ t.Local s.hw c

/-- EPOCH_ADVANCE is refused with CIPHER_OFF, then with NO_STANDBY; accepted it arms the switch, an AT_SEQ command completing at its arming and a
NOW command waiting; in a context with no circuit that builds blocks the switch completes at once, TXP naming the new CURRENT slot
and the old one DRAINING (R199, R207, R209). -/
def Obligations.EpochsAdvance : Prop :=
  ∀ (s : State) (c : ChanId) (x : Cmd), s.hw.Runs c (fresh 0x13) x →
    let n := cmdCtx x
    let z := (s.hw.chan c).ctx! n
    let building := ∃ e ∈ (s.hw.chan c).ctxCircs n, (s.hw.chan c).builds e.1 e.2 = true
    (s.hw.cipherOff c = true →
      Completes (.epochAdvance c) s fun t => t.Completed s.hw c (fresh 0x13) x stRefused rCipherOff 0 ∧ (t.chan c).cph = (s.hw.chan c).cph)
    ∧ (s.hw.cipherOff c = false → (z.slot (!z.txp)).st ≠ .standby →
      Completes (.epochAdvance c) s fun t => t.Completed s.hw c (fresh 0x13) x stRefused rNoStandby 0 ∧ (t.chan c).cph = (s.hw.chan c).cph)
    ∧ (s.hw.cipherOff c = false → (z.slot (!z.txp)).st = .standby → building →
      Completes (.epochAdvance c) s fun t =>
        (if bitOf x.w1 24 then t.Completed s.hw c (fresh 0x13) x stDone 0 0 else t.Waits s.hw c (fresh 0x13) x)
        ∧ (t.chan c).ctx! n = { z with arm := true, atSeq := if bitOf x.w1 24 then some (cmdAtSeq x) else none, armAt := s.hw.now + 4000 })
    ∧ (s.hw.cipherOff c = false → (z.slot (!z.txp)).st = .standby → ¬ building →
      Completes (.epochAdvance c) s fun t =>
        ((t.chan c).ctx! n).txp = !z.txp ∧ ((t.chan c).ctx! n).arm = false
        ∧ (((t.chan c).ctx! n).slot (!z.txp)).st = .current ∧ (((t.chan c).ctx! n).slot (!z.txp)).key = (z.slot (!z.txp)).key
        ∧ ((z.slot z.txp).st = .current → (((t.chan c).ctx! n).slot z.txp).st = .draining)
        ∧ bitOf (t.chReg c 0x5010) 20 = true ∧ t.Local s.hw c)

/-- The cipher's checks of its own: a slot's integrity word that does not match, such as one with a bit changed, triggers Midwinter, an EMPTY
context's does not (R201); the rekey schedule is off at PERIOD 0, and past PERIOD it raises KEY_STALE once where the slot beside the
CURRENT one is not STANDBY, and else arms a switch, unless EPOCH_ADVANCE is refused (R209, R213). -/
def Obligations.KeyStoreWatched : Prop :=
  (∀ (s : State) (c : ChanId) (n : CtxId) (even odd : Word), s.hw.works = true → (s.hw.chan c).st = .active →
    let z := (s.hw.chan c).ctx! n.toNat
    (z.even.corrupt even = false → z.odd.corrupt odd = false → exec (.keystoreCheck c n ⟨even, odd⟩) s = .next s)
    ∧ (z.even.st = .empty → z.odd.st = .empty → exec (.keystoreCheck c n ⟨even, odd⟩) s = .next s)
    ∧ (s.hw.dev.boot.st ≠ .supplyUp → z.even.corrupt even = true ∨ z.odd.corrupt odd = true →
      Completes (.keystoreCheck c n ⟨even, odd⟩) s fun t => t.MidwinterBy s.hw (mkMsg c.val 5 clsM 0x2E n.toNat))
    ∧ (s.hw.dev.boot.st ≠ .supplyUp → z.odd.st ≠ .empty → z.odd.integ = z.odd.check → odd ≠ 0 →
      Completes (.keystoreCheck c n ⟨even, odd⟩) s fun t => t.MidwinterBy s.hw (mkMsg c.val 5 clsM 0x2E n.toNat)))
  ∧ ∀ (s : State) (c : ChanId), s.hw.works = true → (s.hw.chan c).st = .active →
    (s.hw.chReg c 0x5004 = 0 → exec (.keyScheduleCheck c) s = .next s)
    ∧ ∀ (n : Nat) (z : Ctx) (odd : Bool), (s.hw.chan c).mlt.run = true → s.hw.chReg c 0x5004 ≠ 0 → (s.hw.chan c).cph.ctx = [(n, z)] →
      z.due s.hw.now (s.hw.chReg c 0x5004).toNat = some odd →
      (z.arm = true → exec (.keyScheduleCheck c) s = .next s)
      ∧ (z.arm = false → (z.slot (!odd)).st ≠ .standby → z.staleRaised = false → Completes (.keyScheduleCheck c) s fun t =>
          t.tookMsg s.hw (mkMsg c.val 5 clsN 0x26 n) ∧ (t.chan c).ctx! n = { z with staleRaised := true } ∧ bitOf (t.chReg c 0x5010) 18 = true
          ∧ t.Local s.hw c)
      ∧ (z.arm = false → (z.slot (!odd)).st ≠ .standby → z.staleRaised = true → exec (.keyScheduleCheck c) s = .next s)
      ∧ (z.arm = false → (z.slot (!odd)).st = .standby → s.hw.cipherOff c = true ∨ (z.slot (!z.txp)).st ≠ .standby →
          exec (.keyScheduleCheck c) s = .next s)
      ∧ (z.arm = false → (z.slot (!odd)).st = .standby → s.hw.cipherOff c = false → (z.slot (!z.txp)).st = .standby →
          (∃ e ∈ (s.hw.chan c).ctxCircs n, (s.hw.chan c).builds e.1 e.2 = true) →
          Completes (.keyScheduleCheck c) s fun t =>
            (t.chan c).ctx! n = { z with arm := true, atSeq := none, armAt := s.hw.now + 4000 } ∧ t.Local s.hw c)

/-- Clear mode (R222, R230): ARM_KEY arms it and any other value disarms, the arming ends by itself, and every CLEAR_MODE consumes it; on is
refused with CLEAR_FUSE, CLEAR_ARM, CIPHER_OFF and, for a circuit not enabled, POS_INVALID, in that order; off of such a circuit is
DONE; an accepted command waits for the circuit's next block boundary.
LAT_REANCHOR clears the anchor of an enabled circuit with a path in BLK_SYNC and waits for the new one; it is refused otherwise; at its
bound, with no anchor set, it completes REFUSED(NO_PATH) (R243, R244). -/
def Obligations.CircuitCommands : Prop :=
  (
    (∀ (s : State) (m : Master) (c : ChanId) (d : Word), s.hw.reaches m = true → (s.hw.chan c).st = .active →
      (s.hw.lacks m .diagnostic = false → exec (.clrArmWrite m c d) s = .next { s with hw := (s.hw.bmx m.id 0).onChan c fun x =>
        { x with cph := { x.cph with armed := decide (fieldOf d 31 16 = 0x434C) } } })
      ∧ (s.hw.lacks m .diagnostic = true → exec (.clrArmWrite m c d) s = .next { s with hw := s.hw.guarded m (chAddr c 0x5008) }))
    ∧ (∀ (s : State) (c : ChanId), s.hw.works = true → (s.hw.chan c).st = .active →
      exec (.clrArmExpire c) s = .next { s with hw := s.hw.onChan c fun x => { x with cph := { x.cph with armed := false } } })
    ∧ ∀ (s : State) (c : ChanId) (x : Cmd), s.hw.Runs c (fresh 0x14) x →
      let k : CircId := BitVec.ofNat 13 (fieldOf x.w1 15 0)
      let y := (s.hw.chan c).circ! k
      let spent := { (s.hw.chan c).cph with armed := false }
      let refused := fun r => Completes (.clearMode c) s fun t =>
        t.Completed s.hw c (fresh 0x14) x stRefused r 0 ∧ (t.chan c).cph = spent ∧ (t.chan c).circ! k = y
      (bitOf x.w1 16 = true → s.hw.clearPermit c = false → refused rClearFuse)
      ∧ (bitOf x.w1 16 = true → s.hw.clearPermit c = true → (s.hw.chan c).cph.armed = false → refused rClearArm)
      ∧ (bitOf x.w1 16 = true → s.hw.clearPermit c = true → (s.hw.chan c).cph.armed = true → s.hw.cipherOff c = true → refused rCipherOff)
      ∧ (bitOf x.w1 16 = true → s.hw.clearPermit c = true → (s.hw.chan c).cph.armed = true → s.hw.cipherOff c = false → y.en = false →
          refused rPosInvalid)
      ∧ (bitOf x.w1 16 = false → y.en = false → Completes (.clearMode c) s fun t =>
          t.Completed s.hw c (fresh 0x14) x stDone 0 0 ∧ (t.chan c).cph = spent ∧ (t.chan c).circ! k = y)
      ∧ (y.en = true → (bitOf x.w1 16 = true → s.hw.clearPermit c = true ∧ (s.hw.chan c).cph.armed = true ∧ s.hw.cipherOff c = false) →
          Completes (.clearMode c) s fun t =>
            t.Waits s.hw c (fresh 0x14) x ∧ (t.chan c).cph = spent ∧ (t.chan c).circ! k = { y with clearNext := some (bitOf x.w1 16) }))
  ∧
  (
    (∀ (s : State) (c : ChanId) (x : Cmd), s.hw.Runs c (fresh 0x30) x →
      let k : CircId := BitVec.ofNat 13 (fieldOf x.w1 15 0)
      let y := (s.hw.chan c).circ! k
      (y.en = true → y.inSync .bkw = true ∨ y.inSync .bkp = true → Completes (.latReanchor c) s fun t =>
          t.Waits s.hw c (fresh 0x30) x ∧ ((t.chan c).circ! k).anchor = none ∧ (∀ a, y.anchor = some a → ((t.chan c).circ! k).gap = some a.next)
          ∧ ∀ j, j ≠ k → (t.chan c).circ! j = (s.hw.chan c).circ! j)
      ∧ (y.en = true → y.inSync .bkw = false → y.inSync .bkp = false → Completes (.latReanchor c) s fun t =>
          t.Completed s.hw c (fresh 0x30) x stRefused rNoPath 0 ∧ (t.chan c).circ = (s.hw.chan c).circ))
    ∧ ∀ (s : State) (c : ChanId) (k : CircId) (x : Cmd), s.hw.works = true → (s.hw.chan c).st = .active →
      (∀ a, ((s.hw.chan c).circ! k).anchor = some a → exec (.reanchorTimeout c k) s = .next s)
      ∧ (((s.hw.chan c).circ! k).anchor = none → (s.hw.chan c).q.run = [x] → x.held = true → isReanchor k x = true → x.parent = none →
        x.dropped = false → Completes (.reanchorTimeout c k) s fun t =>
          (t.chan c).q.run = [] ∧ ((t.chan c).q.bank x.by_).cpl = ((s.hw.chan c).q.bank x.by_).cpl ++ [cplWord 0x30 x.tag stRefused c.val rNoPath 0]
          ∧ (t.chan c).circ = (s.hw.chan c).circ ∧ t.Local s.hw c))

/-! ## The decrypt side, checks and check values -/

/-- A block that begins to arrive at a frame of the path's phase is recorded with its index and SYSCNT; a trailer head that contradicts the
prediction is counted once, and the path's keystream is computed anew under what it says (R214, R220); a whole trailer gives the verdict
of R216 in BLK_SYNC: null, no hit, no key, replayed, not authentic, or verified, the last alone moving the slot's replay window (R26,
R27, R47, R83, R214 to R217, R223, R232, R240). During an episode the block waits (R27). -/
def Obligations.DecryptJudges : Prop :=
  ∀ (s : State) (c : ChanId) (p : Path) (k : CircId), s.hw.works = true → (s.hw.chan c).st = .active →
    let x := s.hw.chan c
    let y := x.circ! k
    let r := y.rx p
    let counted := fun (t : Hw) (i : Nat) =>
      tget 0 (t.chan c).ctr (ctrKey 0x10 (rxCtr i p)) = min (2 ^ 48 - 1) (tget 0 (s.hw.chan c).ctr (ctrKey 0x10 (rxCtr i p)) + 1)
    (∀ frame, (x.lane p.lane).delivers = true → r.blk ≠ .off → x.rxAt y r frame = true → Completes (.decBlockReceive c p ⟨k, frame⟩) s fun t =>
        ((t.chan c).circ! k).rx p = { r with
          open_ := r.open_ ++ [{ index := r.index, phase := frame % x.phases y, ts := s.hw.ts, spec := decide ((x.lane p.lane).fr = .runahead) }]
          index := r.index + 1 }
        ∧ ((t.chan c).circ! k).rx p.other = y.rx p.other ∧ t.Local s.hw c)
    ∧ (∀ frame, x.rxAt y r frame = false → exec (.decBlockReceive c p ⟨k, frame⟩) s = .next s)
    ∧ (∀ (head : List Byte) b l q kep j, r.open_ = b :: l → r.known = some (q, kep, j) → r.blk = .sync → b.resynced = false → trlNull head = false →
        trlSeq head ≠ q + BitVec.ofInt 40 ((b.index : Int) - (j : Int)) ∨ trlKep head ≠ kep →
        Completes (.trailerHeadReceive c p k head) s fun t =>
          ((t.chan c).circ! k).rx p = { r with open_ := { b with resynced := true } :: l } ∧ counted t 9
          ∧ (∀ e ∈ (t.chan c).cph.ks[ksDec p], e.circ = k →
              e.seq = trlSeq head + BitVec.ofInt 40 ((r.index : Int) - (b.index : Int)) ∧ e.odd = trlKep head) ∧ t.Local s.hw c)
    ∧ (∀ (head : List Byte) q kep j b l, r.open_ = b :: l → r.known = some (q, kep, j) →
        trlSeq head = q + BitVec.ofInt 40 ((b.index : Int) - (j : Int)) → trlKep head = kep → exec (.trailerHeadReceive c p k head) s = .next s)
    ∧ ∀ (frame : Nat) (this next : LineSpan) (v : List StageUnit),
      let found := r.open_.find? fun b => decide (b.phase = frame % x.phases y)
      let a := x.seen p.lane y y.blackWas this
      let d := x.seen p.lane y y.black next
      (found = none → exec (.decTrailerReceive c p ⟨k, frame⟩ this next v) s = .next s)
      ∧ ∀ b, found = some b →
        ((x.lane p.lane).fr = .runahead → Completes (.decTrailerReceive c p ⟨k, frame⟩ this next v) s fun u =>
          ((u.chan c).circ! k).rx p = { r with open_ := r.open_.erase b, wait := r.wait ++ [{ blk := b, this := a, next := d, checks := v }] }
          ∧ u.noMsg s.hw ∧ u.Local s.hw c)
        ∧ ((x.lane p.lane).fr ≠ .runahead → r.blk = .sync → x.pathDead p.lane = false → x.circDefect p.lane y = false →
          isFrac y.kind = false ∨ x.map.pending = false → x.cvu.inj = none → v = [] →
          let q := (s.hw.parts c k p a d).1
          let t := q.trl
          let tl := x.trlLen y - 9
          let z := x.ctx! y.kctx
          let w := fun (e : RxPath) => if trlKep t then e.winO else e.winE
          let key := (z.slot (trlKep t)).key
          let opened := gcmOpen key (ivOf (!x.roleB) y.lcid (trlSeq t)) (aadOf (t.take 7) y.lcid) (x.padCipher y t q.cipher) (trlTag t tl)
          let judged := fun P => Completes (.decTrailerReceive c p ⟨k, frame⟩ this next v) s fun u => P u ∧ u.Local s.hw c
          (trlNull t = true → judged fun u => (((u.chan c).circ! k).rx p).open_ = r.open_.erase b ∧ (((u.chan c).circ! k).rx p).blk = .sync
              ∧ counted u 10 ∧ w (((u.chan c).circ! k).rx p) = w r ∧ u.noMsg s.hw)
          ∧ (trlNull t = false → trlGood y.lcid tl t = false → judged fun u => counted u 4 ∧ w (((u.chan c).circ! k).rx p) = w r ∧ u.noMsg s.hw)
          ∧ (trlNull t = false → trlGood y.lcid tl t = true → y.clear = false →
            ((z.slot (trlKep t)).st = .empty → judged fun u =>
                counted u 6 ∧ w (((u.chan c).circ! k).rx p) = w r ∧ u.tookMsg s.hw (mkMsg c.val 5 clsN 0x21 (k.toNat + p.num * 2 ^ 23)))
            ∧ ((z.slot (trlKep t)).st ≠ .empty → (w r).eligible (trlSeq t) = false → judged fun u =>
                counted u 7 ∧ w (((u.chan c).circ! k).rx p) = w r ∧ u.tookMsg s.hw (mkMsg c.val 5 clsN 0x22 (k.toNat + p.num * 2 ^ 23)))
            ∧ ((z.slot (trlKep t)).st ≠ .empty → (w r).eligible (trlSeq t) = true → opened = none → judged fun u =>
                counted u 5 ∧ w (((u.chan c).circ! k).rx p) = w r ∧ u.tookMsg s.hw (mkMsg c.val 5 clsN 0x20 (k.toNat + p.num * 2 ^ 23)))
            ∧ ∀ plain, (z.slot (trlKep t)).st ≠ .empty → (w r).eligible (trlSeq t) = true → opened = some plain → judged fun u =>
                counted u 3 ∧ w (((u.chan c).circ! k).rx p) = ((w r).verify (trlSeq t)).1 ∧ u.noMsg s.hw))

/-- A carriage check whose window expires reports CARRIAGE_BROKEN (R91). At a release point the block of an anchored circuit leaves the deep
store, its coding restored and its violations re-inserted, and a block that is not there, was freed, or is no data block is the
service's fill, counted and logged where it is missing (R26, R85, R100, R148, R154, R238, R239, R262, R267, R494, R531). -/
def Obligations.DecryptReleases : Prop :=
  (∀ (s : State) (c : ChanId) (p : Path) (k : CircId), s.hw.works = true → (s.hw.chan c).st = .active → ((s.hw.chan c).circ! k).en = true →
    (((s.hw.chan c).circ! k).rx p).checking = true →
    Completes (.carriageBroken c p k) s fun t =>
      ((t.chan c).circ! k).rx p = { ((s.hw.chan c).circ! k).rx p with checking := false, cb := true }
      ∧ t.tookMsg s.hw (mkMsg c.val 4 clsN 0x19 (k.toNat + p.num * 2 ^ 23)) ∧ t.Local s.hw c
      ∧ ((((s.hw.chan c).circ! k).rx p).cb = false → bitOf (t.chReg c 0x4008) 23 = true))
  ∧ ∀ (s : State) (c : ChanId) (k : CircId), s.hw.works = true → (s.hw.chan c).st = .active → (s.hw.chan c).cvu.inj = none →
    let x := s.hw.chan c
    let y := x.circ! k
    let freed := x.store.find? fun e => decide (e.circ = k ∧ e.freed ≠ 0)
    let at_ := fun (a : Anchor) => x.store.find? fun e => decide (e.circ = k ∧ e.seq = a.next ∧ e.freed = 0)
    (∀ e, freed = some e → Completes (.decBlockRelease c k []) s fun t =>
        y.sendsFill x.red.scr ((t.chan c).circ! k).red ∧ (t.chan c).store = x.store.erase e ∧ ((t.chan c).circ! k).anchor = y.anchor
        ∧ (e.format = 1 → tget 0 (t.chan c).ctr (ctrKey 0x11 8) = min (2 ^ 48 - 1) (tget 0 x.ctr (ctrKey 0x11 8) + 1))
        ∧ (e.format ≠ 1 → tget 0 (t.chan c).ctr (ctrKey 0x11 8) = tget 0 x.ctr (ctrKey 0x11 8)) ∧ t.noMsg s.hw ∧ t.Local s.hw c)
    ∧ (freed = none → y.anchor = none → y.en = true → Completes (.decBlockRelease c k []) s fun t =>
        y.sendsFill x.red.scr ((t.chan c).circ! k).red ∧ (t.chan c).store = x.store ∧ t.noMsg s.hw ∧ t.Local s.hw c)
    ∧ (∀ a e, freed = none → y.anchor = some a → at_ a = some e → e.format = 1 → Completes (.decBlockRelease c k []) s fun t =>
        y.sendsData x.red.scr e ((t.chan c).circ! k).red ∧ ((t.chan c).circ! k).anchor = some { a with next := a.next + 1 }
        ∧ ((t.chan c).circ! k).misses = 0 ∧ (t.chan c).store = x.store.erase e
        ∧ tget 0 (t.chan c).ctr (ctrKey 0x12 (1 + e.path.num)) = min (2 ^ 48 - 1) (tget 0 x.ctr (ctrKey 0x12 (1 + e.path.num)) + 1)
        ∧ t.noMsg s.hw ∧ t.Local s.hw c)
    ∧ (∀ a e, freed = none → y.anchor = some a → at_ a = some e → e.format ≠ 1 → Completes (.decBlockRelease c k []) s fun t =>
        y.sendsFill x.red.scr ((t.chan c).circ! k).red ∧ (t.chan c).store = x.store.erase e ∧ t.noMsg s.hw ∧ t.Local s.hw c)
    ∧ ∀ a, freed = none → y.anchor = some a → at_ a = none → a.gapTo = a.next → Completes (.decBlockRelease c k []) s fun t =>
        y.sendsFill x.red.scr ((t.chan c).circ! k).red ∧ ((t.chan c).circ! k).anchor = some { a with next := a.next + 1 }
        ∧ ((t.chan c).circ! k).misses = y.misses + 1 ∧ (t.chan c).store = x.store
        ∧ tget 0 (t.chan c).ctr (ctrKey 0x11 8) = min (2 ^ 48 - 1) (tget 0 x.ctr (ctrKey 0x11 8) + 1)
        ∧ fieldOf (t.chReg c (0x6100 + 4 * fieldOf (s.hw.chReg c 0x6018) 5 0)) 30 27 = 7 ∧ t.noMsg s.hw ∧ t.Local s.hw c

/-- Memory errors, each from the unit that owns its memory (R14): a corrected one is reported only, an uncorrectable one in a data buffer costs
the oldest block held there, one in a table reads as zero, with the messages of R335; an error of the collector is raised in class D
for a channel's record and triggers Midwinter elsewhere (R371). (Which block and which word are log entry 16's reading.) -/
def Obligations.MemoryErrors : Prop :=
  (∀ (s : State) (c : ChanId), s.hw.works = true → (s.hw.chan c).raises = true →
    (∀ m i u, memOwner false m = some u → Completes (.memError (some c) i (.corrected m)) s fun t =>
        t.is s.hw ∧ t.tookMsg s.hw (mkMsg c.val u clsN 0x53 (m.toNat * 2 ^ 20 + i.toNat)))
    ∧ (∀ m i, memOwner false m = none →
        exec (.memError (some c) i (.corrected m)) s = .next s ∧ exec (.memError (some c) i (.table m)) s = .next s)
    ∧ (∀ k b, ((s.hw.chan c).circ! k).enc.find? (fun e => decide (e.lost = 0)) = some b →
        ∀ i, Completes (.memError (some c) i (.data true k)) s fun t =>
          t.tookMsg s.hw (mkMsg c.val 6 clsC 0x54 k.toNat) ∧ (t.chan c).store = (s.hw.chan c).store
          ∧ (∀ e ∈ ((t.chan c).circ! k).enc, e.seq = b.seq → e.odd = b.odd → e.lost ≠ 0) ∧ t.Local s.hw c)
    ∧ (∀ k b, (s.hw.chan c).store.find? (fun e => decide (e.circ = k ∧ e.freed = 0)) = some b →
        ∀ i, Completes (.memError (some c) i (.data false k)) s fun t =>
          t.tookMsg s.hw (mkMsg c.val 6 clsC 0x54 k.toNat) ∧ (t.chan c).circ = (s.hw.chan c).circ
          ∧ (t.chan c).store = (s.hw.chan c).store.map (fun e => if e = b then { e with freed := 3, body := [] } else e) ∧ t.Local s.hw c)
    ∧ (∀ i, Completes (.memError (some c) i (.table 1)) s fun t =>
        t.tookMsg s.hw (mkMsg c.val 3 clsH 0x55 (2 ^ 20 + i.toNat)) ∧ (t.chan c).slot false i.toNat = 0
        ∧ (∀ j, j ≠ i.toNat → (t.chan c).slot false j = (s.hw.chan c).slot false j) ∧ (t.chan c).map.bankB = (s.hw.chan c).map.bankB ∧ t.Local s.hw c)
    ∧ (∀ i, Completes (.memError (some c) i (.table 9)) s fun t =>
        t.tookMsg s.hw (mkMsg c.val 9 clsH 0x55 (9 * 2 ^ 20 + i.toNat)) ∧ (t.chan c).mlt.prog.length = (s.hw.chan c).mlt.prog.length
        ∧ (∀ j, j < (s.hw.chan c).mlt.prog.length → (t.chan c).mlt.prog.getD j 0 = if j / 4 = i.toNat then 0 else (s.hw.chan c).mlt.prog.getD j 0)
        ∧ t.Local s.hw c))
  ∧ (∀ (s : State) m i u, s.hw.works = true → memOwner true m = some u →
    (Completes (.memError none i (.corrected m)) s fun t => t.is s.hw ∧ t.tookMsg s.hw (mkMsg 63 u clsN 0x53 (m.toNat * 2 ^ 20 + i.toNat)))
    ∧ Completes (.memError none i (.table m)) s fun t =>
      t.is (if m = 0xA then s.hw.onBoot fun b => { b with sram := zeroAt b.sram i.toNat } else s.hw)
      ∧ t.tookMsg s.hw (mkMsg 63 u clsD 0x55 (m.toNat * 2 ^ 20 + i.toNat)))
  ∧ (∀ (s : State) (c : ChanId), s.hw.works = true →
    Completes (.fclInteg (.chan c)) s fun t => t.is s.hw ∧ t.tookMsg s.hw (mkMsg 63 20 clsD 0xE1 c.val))
  ∧ ∀ (s : State) (x : IntegAt), s.hw.works = true → s.hw.dev.boot.st ≠ .supplyUp → (∀ c, x ≠ .chan c) →
    Completes (.fclInteg x) s fun t => t.MidwinterBy s.hw (mkMsg 63 20 clsM 0xE1 63)

/-- A write of CHn.CVU_STG_INJ with GO arms the check it names (R376). A write of GO to DEV.FCL_INJCTL puts the message of DEV.FCL_INJ_HI and
DEV.FCL_INJ_LO, INJ set, into its injection slot, or is turned away with CFG_REJ (R375). A master without the right is refused
with GUARD (R427). -/
def Obligations.FaultsInjected : Prop :=
  ∀ (s : State) (m : Master), s.hw.reaches m = true →
    (∀ (c : ChanId) (d : Word), (s.hw.chan c).st = .active → s.hw.lacks m .diagnostic = false → bitOf d 31 = true →
      Completes (.stgInject m c d) s fun t =>
        (t.chan c).cvu = { (s.hw.chan c).cvu with inj := some ⟨fieldOf d 3 0 % 16, Nat.mod_lt _ (by omega)⟩ }
        ∧ bitOf (t.chReg c 0xA004) 31 = true ∧ fieldOf (t.chReg c 0xA004) 3 0 = fieldOf d 3 0 ∧ t.noMsg s.hw ∧ t.Local s.hw c)
    ∧ (∀ (c : ChanId) (d : Word), s.hw.lacks m .diagnostic = true →
      exec (.stgInject m c d) s = .next { s with hw := s.hw.guarded m (chAddr c 0xA004) })
    ∧ (m ≠ .malot → s.hw.lacks m .diagnostic = false → s.hw.injBad s.hw.injMsg = false → Completes (.faultInject m) s fun t =>
        t.tookMsg s.hw s.hw.injMsg ∧ t.dev.fcl.injBusy = some (slotKey s.hw.injMsg) ∧ t.chans = s.hw.chans)
    ∧ (m ≠ .malot → s.hw.lacks m .diagnostic = false → s.hw.injBad s.hw.injMsg = true →
      exec (.faultInject m) s = .next { s with hw := (s.hw.bmx m.id 0).ignored m .cfgRej (devAddr 0x4020) })
    ∧ (m ≠ .malot → s.hw.lacks m .diagnostic = true → exec (.faultInject m) s = .next { s with hw := s.hw.guarded m (devAddr 0x4020) })

/-- The registers of a check-value unit: bits above WIDTH are ignored, a change of a parameter restarts the unit at INIT with no result VALID,
CKPT and RESTORE copy in checkpoint mode, and a context is configured with its result cleared (R339 to R345). -/
def Obligations.CheckValueUnits : Prop :=
  ∀ (s : State) (m : Master) (c : ChanId) (u : Fin 8), s.hw.reaches m = true → s.hw.lacks m .guarded = false → (s.hw.chan c).st = .active →
    let x := s.hw.chan c
    let y : Cvu := x.cvu.unit[u]
    (∀ d, bitOf d 18 = false → bitOf d 19 = false →
      Completes (.cvuCtlWrite m c u .ctl d) s fun t =>
        t.chReg c (cvuReg u.val) = d &&& 0xFFF01FFF
        ∧ (d &&& cvuMajor = x.reg (cvuReg u.val) &&& cvuMajor → (t.chan c).cvu = x.cvu)
        ∧ (d &&& cvuMajor ≠ x.reg (cvuReg u.val) &&& cvuMajor →
          ((t.chan c).cvu.unit[u]).run = x.reg (cvuReg u.val + 8) &&& fieldMask (fieldOf d 24 20) 0
          ∧ ∀ j : Fin 16, (((t.chan c).cvu.unit[u]).ctx[j]).valid = false)
        ∧ (∀ v : Fin 8, v ≠ u → (t.chan c).cvu.unit[v] = x.cvu.unit[v]) ∧ t.Local s.hw c)
    ∧ (∀ r d, r ≠ CvuReg.ctl →
      Completes (.cvuCtlWrite m c u r d) s fun t =>
        t.chReg c (cvuOff u r) = (x.reg (cvuOff u r) &&& ~~~ x.cvuMask u.val) ||| (d &&& x.cvuMask u.val)
        ∧ (t.chReg c (cvuOff u r) = x.reg (cvuOff u r) → (t.chan c).cvu = x.cvu)
        ∧ (t.chReg c (cvuOff u r) ≠ x.reg (cvuOff u r) → ∀ j : Fin 16, (((t.chan c).cvu.unit[u]).ctx[j]).valid = false) ∧ t.Local s.hw c)
    ∧ (x.reg (cvuReg u.val) &&& 0x000FE000 = 0 → x.cvuMulti u.val = false →
      (Completes (.cvuCheckpoint m c u) s fun t =>
          t.chReg c (cvuReg u.val + 0x14) = y.run ∧ (t.chan c).cvu = x.cvu ∧ t.chReg c (cvuReg u.val) = x.reg (cvuReg u.val) ∧ t.Local s.hw c)
      ∧ Completes (.cvuRestore m c u) s fun t =>
          ((t.chan c).cvu.unit[u]).run = x.reg (cvuReg u.val + 0x14) &&& x.cvuMask u.val ∧ ((t.chan c).cvu.unit[u]).ctx = y.ctx
          ∧ t.chReg c (cvuReg u.val) = x.reg (cvuReg u.val) ∧ t.Local s.hw c)
    ∧ (∀ d, Completes (.cvuValWrite m c u d) s fun t =>
        ((t.chan c).cvu.unit[u]).run = (if x.cvuMulti u.val then y.run else d &&& x.cvuMask u.val) ∧ ((t.chan c).cvu.unit[u]).ctx = y.ctx ∧ t.Local s.hw c)
    ∧ ∀ (d : Word) (j : Fin 16), j.val = fieldOf d 19 16 →
      Completes (.cvuCcfgWrite m c u d) s fun t =>
        ((t.chan c).cvu.unit[u]).ctx[j] = { y.ctx[j] with cen := bitOf d 31, circ := BitVec.ofNat 13 (fieldOf d 12 0), valid := false, unread := false }
        ∧ (∀ i : Fin 16, i ≠ j → ((t.chan c).cvu.unit[u]).ctx[i] = y.ctx[i]) ∧ ((t.chan c).cvu.unit[u]).run = y.run ∧ t.Local s.hw c

/-! ## Protection -/

/-- A hold-off that ends makes its condition a request (R273). The far end's code follows the third majority of the same known code in a row;
a reserved majority counts and changes no code, none resets the run (R275, R276). RX_VALID falls after 50 ms without a trailer
(R275). A mismatch in 1:1 mode sets its flag and raises PSW_MISMATCH, and ends (R283). -/
def Obligations.FarEndObserved : Prop :=
  ∀ (s : State) (c : ChanId), s.hw.works = true → (s.hw.chan c).st = .active →
    let p := (s.hw.chan c).psw
    (∀ v : Sys2Proof.Cond, p.ho[condIdx v] = true → p.cond[condIdx v] = true →
      exec (.holdoffExpire c v) s = .next { s with hw := s.hw.onChan c fun y =>
        { y with psw := { p with ho := p.ho.set (condIdx v) false, req := p.req.set (condIdx v) true } } })
    ∧ ((s.hw.chan c).malotRuns = true →
      let m := majority ((p.seen.filter fun e => decide (s.hw.now - e.1 ≤ 3200000)).map fun e => e.2.2.2)
      (m = none → Completes (.apsEvaluation c) s fun t => (t.chan c).psw.rxCode = p.rxCode ∧ (t.chan c).psw.majRun = 0 ∧ t.Local s.hw c)
      ∧ (∀ v, m = some v → pswOfCode v = none → Completes (.apsEvaluation c) s fun t =>
          (t.chan c).psw.rxCode = p.rxCode ∧ (t.chan c).psw.majRun = 0
          ∧ tget 0 (t.chan c).ctr (ctrKey 0x12 16) = min (2 ^ 48 - 1) (tget 0 (s.hw.chan c).ctr (ctrKey 0x12 16) + 1)
          ∧ (p.rsvSeen = false → bitOf (t.chReg c 0x7008) 17 = true) ∧ t.Local s.hw c)
      ∧ (∀ v f, m = some v → pswOfCode v = some f → v ≠ p.rxCode →
          (p.majRun = 2 → p.majLast = v → Completes (.apsEvaluation c) s fun t =>
            (t.chan c).psw.rxCode = v ∧ (t.chan c).psw.rxValid = true ∧ (t.chan c).psw.majRun = 0 ∧ t.Local s.hw c)
          ∧ (p.majLast ≠ v → Completes (.apsEvaluation c) s fun t =>
            (t.chan c).psw.rxCode = p.rxCode ∧ (t.chan c).psw.majRun = 1 ∧ (t.chan c).psw.majLast = v ∧ t.Local s.hw c)))
    ∧ (Completes (.rxValidLoss c) s fun t => (t.chan c).psw.rxValid = false ∧ (t.chan c).psw.rxCode = p.rxCode ∧ (t.chan c).psw.st = p.st ∧ t.Local s.hw c)
    ∧ ((s.hw.chan c).misHolds = true → p.mismatch = false → Completes (.pswMismatch c) s fun t =>
        (t.chan c).psw = { p with mismatch := true } ∧ bitOf (t.chReg c 0x7008) 16 = true ∧ t.tookMsg s.hw (mkMsg c.val 7 clsN 0x38 0) ∧ t.Local s.hw c)
    ∧ ((s.hw.chan c).misHolds = false → exec (.mismatchClear c) s = .next { s with hw := s.hw.onChan c fun x =>
        { x with psw := { x.psw with mismatch := false } } })

/-- The protection state follows the highest request of R277: LO over all; in Equinox mode SF-P, FS, SF-W and SD-W in that order, then NR; in 1:1
mode a higher request of the far end is followed as RR. ACTIVE is the path of that request, and a change of it sets SWITCH and
counts (R270, R278, R279, R282).
The timers of protection in Equinox mode with no request: WTR ends in NR on BKW, an exercise's second ends in NR with its outcome kept and
its command DONE (R279, R280, R281, R444). SF-W that ends in revertive mode leads to WTR, and in non-revertive mode to DNR (R279). -/
def Obligations.ProtectionEvaluates : Prop :=
  (
    ∀ (s : State) (c : ChanId), s.hw.works = true → (s.hw.chan c).malotRuns = true →
      let p := (s.hw.chan c).psw
      let leads := fun (st : PswState) (a : Path) => Completes (.pswEvaluate c) s fun t =>
        (t.chan c).psw.st = st ∧ (t.chan c).psw.active = a ∧ t.Local s.hw c
        ∧ (a ≠ p.active → bitOf (t.chReg c 0x7008) 15 = true
          ∧ tget 0 (t.chan c).ctr (ctrKey 0x12 12) = min (2 ^ 48 - 1) (tget 0 (s.hw.chan c).ctr (ctrKey 0x12 12) + 1))
      (p.cmd = 1 → leads .lo .bkw)
      ∧ ((s.hw.chan c).pswCfg.one = false →
        (p.req[1] = true → p.cmd ≠ 1 → leads .sfP .bkw)
        ∧ (p.cmd = 2 → p.req[1] = false → leads .fs .bkp)
        ∧ (p.cmd = 0 → p.req[1] = false → p.req[0] = true → leads .sfW .bkp)
        ∧ (p.cmd = 0 → p.req[1] = false → p.req[0] = false → p.req[2] = true → leads .sdW .bkp)
        ∧ (p.cmd = 0 → p.req[0] = false → p.req[1] = false → p.req[2] = false → p.wtr = false → p.dnr = false → p.st = .nr → leads .nr .bkw))
      ∧ ((s.hw.chan c).pswCfg.one = true → p.rxValid = true → p.cmd = 0 → p.req[0] = false → p.req[1] = false → p.req[2] = false →
          p.wtr = false → p.dnr = false → p.st = .nr → p.rxCode = 0xD → leads .rr .bkp))
  ∧
  (
    ∀ (s : State) (c : ChanId), s.hw.works = true → (s.hw.chan c).malotRuns = true → (s.hw.chan c).pswCfg.one = false →
      let p := (s.hw.chan c).psw
      p.req[0] = false → p.req[1] = false → p.req[2] = false → p.dnr = false →
      (p.st = .wtr → p.wtr = true → p.cmd = 0 → Completes (.wtrExpire c) s fun t =>
          (t.chan c).psw.st = .nr ∧ (t.chan c).psw.active = .bkw ∧ (t.chan c).psw.wtr = false ∧ t.Local s.hw c)
      ∧ (∀ x, p.st = .exer → p.wtr = false → p.cmd = 4 → (s.hw.chan c).q.run = [x] → x.op = 0x40 → x.held = true → x.parent = none → x.dropped = false →
          Completes (.exerciseEnd c) s fun t =>
            (t.chan c).psw.st = .nr ∧ (t.chan c).psw.cmd = 0 ∧ (t.chan c).psw.exerOk = p.exerSeen ∧ (t.chan c).q.run = []
            ∧ ((t.chan c).q.bank x.by_).cpl = ((s.hw.chan c).q.bank x.by_).cpl ++ [cplWord 0x40 x.tag stDone c.val 0 (b2n p.exerSeen)]
            ∧ bitOf (t.chReg c 0x7008) 18 = true ∧ t.Local s.hw c)
      ∧ (p.st = .sfW → p.wtr = false → p.cmd = 0 → (s.hw.chan c).pswCfg.revert = true → 0 < (s.hw.chan c).pswCfg.wtrTime →
          Completes (.pswEvaluate c) s fun t =>
            (t.chan c).psw.st = .wtr ∧ (t.chan c).psw.active = .bkp ∧ (t.chan c).psw.wtr = true ∧ (t.chan c).psw.wtrTo = s.hw.now + (s.hw.chan c).pswCfg.wtrTime * 400000000 ∧ t.Local s.hw c)
      ∧ (p.st = .sfW → p.wtr = false → p.cmd = 0 → (s.hw.chan c).pswCfg.revert = false →
          Completes (.pswEvaluate c) s fun t => (t.chan c).psw.st = .dnr ∧ (t.chan c).psw.active = .bkp ∧ (t.chan c).psw.dnr = true ∧ t.Local s.hw c))

/-- The operator commands of R280 and R281: LOCKOUT is always accepted; FORCED not in LO and SF-P, MANUAL only in NR, DNR, WTR, EXER and MS, EXERCISE
only in NR and DNR, each refused with PSW_PREEMPT otherwise; CLEAR ends the command in force, leading to NR in revertive mode and to
DNR otherwise from FS and MS; an operation of no rule is refused with PSW_OP (R279, R444). -/
def Obligations.ProtectionCommanded : Prop :=
  ∀ (s : State) (c : ChanId) (x : Cmd), (s.hw.chan c).quarantined = false → (s.hw.chan c).psw.cmd ≠ 4 →
    let p := (s.hw.chan c).psw
    let quiet_ := (s.hw.chan c).pswCfg.one = false ∧ p.req[0] = false ∧ p.req[1] = false ∧ p.req[2] = false
    let taken := fun (i : Instr) (n : Nat) (P : Psw → Prop) => Completes i s fun t =>
      t.Completed s.hw c (pswSel [n]) x stDone 0 (b2n p.exerOk) ∧ P (t.chan c).psw
    let refused := fun (i : Instr) (n : Nat) => Completes i s fun t =>
      t.Completed s.hw c (pswSel [n]) x stRefused rPswPreempt 0 ∧ (t.chan c).psw = p
    (s.hw.Runs c (pswSel [1]) x → taken (.pswLockout c) 1 fun q => q.st = .lo ∧ q.active = .bkw ∧ q.cmd = 1)
    ∧ (s.hw.Runs c (pswSel [2]) x →
        (p.st ≠ .lo → p.st ≠ .sfP → quiet_ → taken (.pswForced c) 2 fun q => q.st = .fs ∧ q.active = .bkp ∧ q.cmd = 2)
        ∧ (p.st = .lo ∨ p.st = .sfP → refused (.pswForced c) 2))
    ∧ (s.hw.Runs c (pswSel [3]) x →
        (manualOk p.st = true → quiet_ → taken (.pswManual c) 3 fun q => q.st = .ms ∧ q.active = .bkp ∧ q.cmd = 3)
        ∧ (manualOk p.st = false → refused (.pswManual c) 3))
    ∧ (s.hw.Runs c (pswSel [4]) x →
        (p.st = .nr ∨ p.st = .dnr → quiet_ → p.wtr = false → Completes (.pswExercise c) s fun t =>
          t.Waits s.hw c (pswSel [4]) x ∧ (t.chan c).psw.st = .exer ∧ (t.chan c).psw.active = p.active ∧ (t.chan c).psw.cmd = 4
          ∧ (t.chan c).psw.exerOk = false ∧ (t.chan c).psw.exerSeen = p.rxValid)
        ∧ (p.st ≠ .nr → p.st ≠ .dnr → refused (.pswExercise c) 4))
    ∧ (s.hw.Runs c (pswSel [5]) x → p.st = .fs ∨ p.st = .ms → quiet_ → p.wtr = false →
        ((s.hw.chan c).pswCfg.revert = true → taken (.pswClear c) 5 fun q => q.st = .nr ∧ q.active = .bkw ∧ q.cmd = 0)
        ∧ ((s.hw.chan c).pswCfg.revert = false → taken (.pswClear c) 5 fun q => q.st = .dnr ∧ q.active = .bkp ∧ q.cmd = 0 ∧ q.dnr = true))
    ∧ (s.hw.Runs c (pswSel [0, 6, 7]) x → Completes (.pswOp c) s fun t =>
        t.Completed s.hw c (pswSel [0, 6, 7]) x stRefused rPswOp 0 ∧ (t.chan c).psw = p)

/-! ## The fault collector -/

/-- The collector serves a message of its slot (R348, R352 to R360): one of class N is logged at level 0; one of class C, H or D that meets no record
in RUN opens its record with the timer of DEV.FCL_TMO and is logged at its level; one of class Midwinter triggers it (R371). With no
slot occupied nothing happens. -/
def Obligations.FaultMessagesServed : Prop :=
  (∀ s : State, s.hw.works = true → s.hw.dev.fcl.slots = [] → Completes .faultServe s fun t => t.is s.hw ∧ t.noMsg s.hw)
  ∧ ∀ (s : State) (o : Slot), s.hw.works = true → s.hw.dev.boot.st = .run → o.msg ≠ 0 → msgInj o.msg = false → o.count = 0 →
    s.hw.dev.fcl.slots = [(slotKey o.msg, o)] → tget 0 s.hw.dev.fcl.held (slotKey o.msg) = 0 →
    let m := o.msg
    let entry := fun (n : BitVec 3) => ({ msg := m, ts := o.ts, level := n, esc := false, merged := false, quiet := false, count := 0 } : Hist)
    (msgCls m = clsN → tget 0 s.hw.dev.fcl.servedN (slotKey m * 256 + msgKind m) = 0 → Completes .faultServe s fun t =>
        t.dev.fcl.hist = (entry 0 :: s.hw.dev.fcl.hist).take 32 ∧ t.dev.fcl.slots = [] ∧ t.dev.fcl.d = s.hw.dev.fcl.d ∧ t.dev.fcl.dQuar = s.hw.dev.fcl.dQuar
        ∧ ∀ c, (t.chan c).flt.c = (s.hw.chan c).flt.c ∧ (t.chan c).flt.h = (s.hw.chan c).flt.h ∧ (t.chan c).circ = (s.hw.chan c).circ)
    ∧ (∀ c : ChanId, msgCls m = clsC → msgChan m = c.val → msgKind m ≠ 0x28 → s.hw.shadowed m = false → s.hw.scopeQuar m = false →
        (s.hw.chan c).flt.c.pend = false → Completes .faultServe s fun t =>
          (t.chan c).flt.c = { pend := true, msg := m, timer := clamp 1 1000 (s.hw.devField 0x4004 9 0) * 10, openedAt := s.hw.now }
          ∧ (t.chan c).flt.ccirc = msgCirc m ∧ (t.chan c).flt.h = (s.hw.chan c).flt.h ∧ (t.chan c).circ = (s.hw.chan c).circ
          ∧ (∀ d, d ≠ c → (t.chan d).quiet = (s.hw.chan d).quiet)
          ∧ t.dev.fcl.hist = (entry 1 :: s.hw.dev.fcl.hist).take 32 ∧ t.dev.fcl.slots = [] ∧ t.dev.fcl.d = s.hw.dev.fcl.d)
    ∧ (∀ c : ChanId, msgCls m = clsH → msgChan m = c.val → msgKind m ≠ 0x28 → s.hw.shadowed m = false → s.hw.scopeQuar m = false →
        (∀ d, (s.hw.chan d).flt.h.pend = false) → Completes .faultServe s fun t =>
          (t.chan c).flt.h = { pend := true, msg := m, timer := clamp 1 1000 (s.hw.devField 0x4004 19 10) * 10, openedAt := s.hw.now }
          ∧ (t.chan c).flt.c = (s.hw.chan c).flt.c ∧ (t.chan c).circ = (s.hw.chan c).circ ∧ (∀ d, d ≠ c → (t.chan d).quiet = (s.hw.chan d).quiet)
          ∧ t.dev.fcl.hist = (entry 2 :: s.hw.dev.fcl.hist).take 32 ∧ t.dev.fcl.slots = [] ∧ t.dev.fcl.d = s.hw.dev.fcl.d)
    ∧ (msgCls m = clsD → msgKind m ≠ 0x28 → s.hw.shadowed m = false → s.hw.dev.fcl.dQuar = false → s.hw.dev.fcl.d.pend = false →
        Completes .faultServe s fun t =>
          t.dev.fcl.d = { pend := true, msg := m, timer := clamp 1 1000 (s.hw.devField 0x4004 29 20) * 50, openedAt := s.hw.now }
          ∧ t.dev.fcl.hist = (entry 3 :: s.hw.dev.fcl.hist).take 32 ∧ t.dev.fcl.slots = [] ∧ t.dev.fcl.dQuar = false
          ∧ ∀ d, (t.chan d).flt.c = (s.hw.chan d).flt.c ∧ (t.chan d).flt.h = (s.hw.chan d).flt.h ∧ (t.chan d).circ = (s.hw.chan d).circ)
    ∧ (msgCls m = clsM → Completes .faultServe s fun t => t.MidwinterBy s.hw m)

/-- A record's timer that expires leads to its reaction: C quarantines the circuit, H the channel, its work and its commands gone and its
protection at NR on BKW, D every ACTIVE channel; what it stored is freed and its keystream flushed (R220, R254, R354, R362, R363). A reaction that
completes is noted, a burst that the supervisor's restart cuts short is aborted, and its SHADOW window closes 2 ms later, the
conditions still present raising their messages again (R369, R370, R439). -/
def Obligations.RecordTimersReact : Prop :=
  (∀ (s : State) (c : ChanId), s.hw.works = true →
    ((s.hw.chan c).flt.c.pend = false → Completes (.cTimerExpire c) s fun t => t.is s.hw ∧ t.noMsg s.hw)
    ∧ ((s.hw.chan c).flt.h.pend = false → Completes (.hTimerExpire c) s fun t => t.is s.hw ∧ t.noMsg s.hw)
    ∧ (let f := (s.hw.chan c).flt
      (s.hw.chan c).st = .active → f.c.pend = true → ((s.hw.chan c).circ! f.ccirc).en = true → (s.hw.chan c).map.tpOp = none →
      Completes (.cTimerExpire c) s fun t =>
        ((t.chan c).circ! f.ccirc).quar = true ∧ ((t.chan c).circ! f.ccirc).live = false ∧ ((t.chan c).circ! f.ccirc).clear = false
        ∧ ((t.chan c).circ! f.ccirc).anchor = none ∧ (∀ b ∈ ((t.chan c).circ! f.ccirc).enc, b.lost ≠ 0)
        ∧ (t.chan c).flt.c.pend = false ∧ tget {} (t.chan c).flt.cq f.ccirc.toNat = { cause := f.c.msg, window := true } ∧ t.Local s.hw c)
    ∧ (let f := (s.hw.chan c).flt
      (s.hw.chan c).st = .active → f.h.pend = true →
      Completes (.hTimerExpire c) s fun t =>
        (t.chan c).st = .active ∧ (t.chan c).flt.hQuar = true ∧ (t.chan c).flt.hq = { cause := f.h.msg, window := true } ∧ (t.chan c).flt.h.pend = false
        ∧ (t.chan c).q.wait = [] ∧ (t.chan c).q.run = [] ∧ (t.chan c).cph.kbuf = [] ∧ (∀ i : Fin 3, (t.chan c).cph.ks[i] = [])
        ∧ (∀ e ∈ (t.chan c).store, e.circ.toNat ∈ (s.hw.chan c).circ.map (·.1) → e.freed ≠ 0)
        ∧ (t.chan c).psw.st = .nr ∧ (t.chan c).psw.active = .bkw ∧ (t.chan c).psw.cmd = 0 ∧ (∀ k, ((t.chan c).circ! k).live = false) ∧ t.Local s.hw c))
  ∧ (∀ s : State, s.hw.works = true →
    (s.hw.dev.fcl.d.pend = false → Completes .dTimerExpire s fun t => t.is s.hw ∧ t.noMsg s.hw)
    ∧ (s.hw.dev.fcl.d.pend = true → Completes .dTimerExpire s fun t =>
        t.dev.fcl.dQuar = true ∧ t.dev.fcl.dq = { cause := s.hw.dev.fcl.d.msg, window := true } ∧ t.dev.fcl.d.pend = false ∧ t.dev.kbuf = []
        ∧ t.dev.isvStall = false ∧ (∀ x ∈ t.dev.q.wait ++ t.dev.q.run, x.op = 0x61 ∧ x.held = true)
        ∧ ∀ c, (s.hw.chan c).st = .active → (t.chan c).flt.underD = true ∧ (t.chan c).q.wait = [] ∧ (t.chan c).q.run = [] ∧ (∀ i : Fin 3, (t.chan c).cph.ks[i] = [])
          ∧ (∀ e ∈ (t.chan c).store, e.circ.toNat ∈ (s.hw.chan c).circ.map (·.1) → e.freed ≠ 0)
          ∧ ∀ k, ((t.chan c).circ! k).live = false))
  ∧ (∀ (s : State) (c : ChanId) (b : Option Burst), s.hw.works = true →
    ((s.hw.chan c).flt.hq.window = true → (s.hw.chan c).flt.hq.done = false →
      exec (.reactionComplete ⟨.chan c, b⟩) s = .next { s with hw := s.hw.onChan c fun x =>
        { x with flt := { x.flt with hq := { x.flt.hq with done := true, doneAt := s.hw.now } } } })
    ∧ ((s.hw.chan c).st = .active → (s.hw.chan c).flt.hq.window = true → (s.hw.chan c).flt.hq.done = true →
      (∀ p, ((s.hw.chan c).lane p).txLock = true) → (s.hw.chan c).tim.b.unl = false → (s.hw.chan c).tim.r.unl = false →
      Completes (.shadowWindowEnd (.chan c)) s fun t =>
        t.is (s.hw.onChan c fun x => { x with flt := { x.flt with hq := { x.flt.hq with window := false } } })
        ∧ ((s.hw.chan c).island = true → t.noMsg s.hw) ∧ ((s.hw.chan c).island = false → t.tookMsg s.hw (mkMsg c.val 11 clsH 0x72 0))))
  ∧ ∀ s : State, s.hw.works = true → s.hw.dev.fcl.dq.window = true → s.hw.dev.fcl.dq.done = false →
    (Completes (.reactionComplete ⟨.device, none⟩) s fun t =>
      t.is ((s.hw.onFcl fun f => { f with dq := { f.dq with done := true, doneAt := s.hw.now } }).setDevReg 0x5030 (evWord (s.hw.devReg 0x5030) 0x00800000)))
    ∧ ∀ b : Burst, Completes (.reactionComplete ⟨.device, some b⟩) s fun t =>
      t.dev.fcl.dq = { s.hw.dev.fcl.dq with done := true, doneAt := s.hw.now } ∧ bitOf (t.devReg 0x5030) 23 = true ∧ t.devReg 0x501C = b.addr
      ∧ t.tookMsg s.hw (mkMsg 63 19 clsN 0x61 (3 * 2 ^ 20 + min 255 b.beats)) ∧ t.chans = s.hw.chans

/-- Operations on records act for the duty holder's write with the right SEQ alone: another master's is turned away with CFG_REJ and a stale one
with ACK_STALE (R366, R367, R429). ACK closes a record, REACT orders its reaction, and CLR ends a quarantine whose cause is absent
(R356, R364). -/
def Obligations.DutyHolderActs : Prop :=
  (∀ (s : State) (m : Master) (c : ChanId) (q : Byte) (k : CircId), s.hw.reaches m = true →
    let f := (s.hw.chan c).flt
    let ops : List (Instr × Nat) := [(.ackC m c q, 0), (.ackH m c q, 1), (.reactC m c q, 0), (.reactH m c q, 1), (.clrCirc m c q k, 0), (.clrChan m c q, 1)]
    (∀ e ∈ ops, m ≠ s.hw.dutyOf e.2 → Completes e.1 s fun t => t.is ((s.hw.bmx m.id 0).ignored m .cfgRej (chAddr c 0x000C)) ∧ t.noMsg s.hw)
    ∧ (∀ e ∈ ops, m = s.hw.dutyOf e.2 → q ≠ f.seq → Completes e.1 s fun t => t.is ((s.hw.bmx m.id 0).ignored m .ackStale (chAddr c 0x000C)) ∧ t.noMsg s.hw)
    ∧ (q = f.seq → m = s.hw.dutyOf 0 →
      (Completes (.ackC m c q) s fun t => (t.chan c).quiet = { (s.hw.chan c).quiet with flt := { (s.hw.chan c).quiet.flt with c := { f.c with pend := false } } }
        ∧ t.noMsg s.hw ∧ t.Local s.hw c)
      ∧ ((s.hw.chan c).st = .active → f.c.pend = true → ((s.hw.chan c).circ! f.ccirc).en = true → (s.hw.chan c).map.tpOp = none →
        Completes (.reactC m c q) s fun t => ((t.chan c).circ! f.ccirc).quar = true ∧ ((t.chan c).circ! f.ccirc).live = false
          ∧ (t.chan c).flt.c.pend = false ∧ t.Local s.hw c)
      ∧ (((s.hw.chan c).circ! k).quar = true → s.hw.causePresent (tget {} f.cq k.toNat).cause = false →
        Completes (.clrCirc m c q k) s fun t => ((t.chan c).circ! k).quar = false ∧ tget {} (t.chan c).flt.cq k.toNat = {} ∧ t.Local s.hw c))
    ∧ (q = f.seq → m = s.hw.dutyOf 1 →
      (Completes (.ackH m c q) s fun t => (t.chan c).quiet = { (s.hw.chan c).quiet with flt := { (s.hw.chan c).quiet.flt with h := { f.h with pend := false } } }
        ∧ t.noMsg s.hw ∧ t.Local s.hw c)
      ∧ ((s.hw.chan c).st = .active → f.h.pend = true →
        Completes (.reactH m c q) s fun t => (t.chan c).flt.hQuar = true ∧ (t.chan c).flt.h.pend = false ∧ (t.chan c).q.run = [] ∧ t.Local s.hw c)
      ∧ (f.hQuar = true → s.hw.causePresent f.hq.cause = false →
        Completes (.clrChan m c q) s fun t => (t.chan c).flt.hQuar = false ∧ (t.chan c).flt.hq = {} ∧ t.Local s.hw c)))
  ∧ ∀ (s : State) (m : Master) (q : Byte), s.hw.reachesDev m = true →
    let f := s.hw.dev.fcl
    (∀ i ∈ [Instr.ackD m q, .reactD m q, .clrD m q], m ≠ s.hw.dutyOf 2 →
      Completes i s fun t => t.is ((s.hw.bmx m.id 0).ignored m .cfgRej (devAddr 0x4010)) ∧ t.noMsg s.hw)
    ∧ (∀ i ∈ [Instr.ackD m q, .reactD m q, .clrD m q], m = s.hw.dutyOf 2 → q ≠ f.dseq →
      Completes i s fun t => t.is ((s.hw.bmx m.id 0).ignored m .ackStale (devAddr 0x4010)) ∧ t.noMsg s.hw)
    ∧ (q = f.dseq → m = s.hw.dutyOf 2 →
      (Completes (.ackD m q) s fun t => t.is ((s.hw.bmx m.id 0).onFcl fun f => { f with d := { f.d with pend := false } }) ∧ t.noMsg s.hw)
      ∧ (f.d.pend = true → Completes (.reactD m q) s fun t => t.dev.fcl.dQuar = true ∧ t.dev.fcl.d.pend = false
          ∧ ∀ c, (s.hw.chan c).st = .active → (t.chan c).flt.underD = true)
      ∧ (f.dQuar = true → s.hw.causePresent f.dq.cause = false → Completes (.clrD m q) s fun t =>
          t.dev.fcl.dQuar = false ∧ t.dev.fcl.dq = {} ∧ ∀ c, (t.chan c).flt.underD = false))

/-- The supervisor's policy over an open record of its duty: NOW orders the reaction, TOLERATE acknowledges, each reported in DEV.ISV_EVT, and WAIT
does nothing (R357, R465); past RECOVER it ends a quarantine whose cause is absent. A Malot or a supervisor that stalls is reported
in class H or D (R44). -/
def Obligations.SupervisorActs : Prop :=
  (∀ (s : State) (c : ChanId), s.hw.works = true → s.hw.supervises 1 = true → (s.hw.chan c).flt.h.pend = true →
    let a := s.hw.dev.fcl.pol[1].1
    (a ≠ 1 → a ≠ 2 → Completes (.supervisorPolicy (.chan c)) s fun t => t.is s.hw ∧ t.noMsg s.hw)
    ∧ (a = 2 → Completes (.supervisorPolicy (.chan c)) s fun t =>
        t.is ((s.hw.onChan c fun x => { x with flt := { x.flt with h := { x.flt.h with pend := false } } }).setDevReg 0x5030
          (evWord (s.hw.devReg 0x5030) 0x00400000)) ∧ t.noMsg s.hw)
    ∧ (a = 1 → (s.hw.chan c).st = .active → Completes (.supervisorPolicy (.chan c)) s fun t =>
        (t.chan c).flt.hQuar = true ∧ (t.chan c).flt.h.pend = false ∧ (t.chan c).q.run = [] ∧ bitOf (t.devReg 0x5030) 22 = true ∧ t.Local s.hw c))
  ∧ (∀ (s : State) (c : ChanId), s.hw.works = true → s.hw.supervises 1 = true → (s.hw.chan c).flt.hQuar = true → (s.hw.chan c).flt.hq.done = true →
    (s.hw.causePresent (s.hw.chan c).flt.hq.cause = true → Completes (.supervisorRecover (.chan c)) s fun t => t.is s.hw ∧ t.noMsg s.hw)
    ∧ (s.hw.causePresent (s.hw.chan c).flt.hq.cause = false → Completes (.supervisorRecover (.chan c)) s fun t =>
        (t.chan c).flt.hQuar = false ∧ (t.chan c).flt.hq = {} ∧ bitOf (t.devReg 0x5030) 22 = true ∧ t.Local s.hw c))
  ∧ (∀ (s : State) (c : ChanId), s.hw.works = true → (s.hw.chan c).st = .active → (s.hw.chan c).mlt.run = true →
    Completes (.malotWatchdog c) s fun t =>
      (t.chan c).mlt.run = false ∧ (t.chan c).mlt.csus = true ∧ t.tookMsg s.hw (mkMsg c.val 9 clsH 0x60 0) ∧ t.Local s.hw c)
  ∧ ∀ s : State, s.hw.works = true →
    (s.hw.dev.isvStall = false → Completes .isundWatchdog s fun t =>
        t.is (s.hw.onDev fun d => { d with isvStall := true }) ∧ t.tookMsg s.hw (mkMsg 63 17 clsD 0x60 0))
    ∧ (s.hw.dev.isvStall = true → exec .isundWatchdog s = .next s)

/-! ## The host port -/

/-- The PCIe link trains, comes up, changes its rate and goes down, and a function is reset by an FLR: a reset clears the function's banks, routes and
MSI-X table and drops its completions, and no channel's circuits, keys, records or protection (R410, R411, R420, R422, R465).
(That a lost link trains again by itself is log entry 37's choice.) -/
def Obligations.LinkAndFunctions : Prop :=
  (∀ s : State, s.hw.endpointOn = true →
    (s.hw.canTrain = true → s.hw.dev.link.up = false → exec .linkTrainingStart s = .next { s with hw := s.hw.onLink fun l => { l with training := true } })
    ∧ (∀ v w, s.hw.dev.link.training = true → s.hw.inMw = false → Completes (.linkUp v w) s fun t =>
        t.is ((s.hw.onLink fun l => { l with up := true, training := false, speed := v, width := w }).setDevReg 0x502C
          (evWord (s.hw.devReg 0x502C) 0x00800000)) ∧ t.noMsg s.hw)
    ∧ (∀ v w, s.hw.dev.link.up = true → s.hw.inMw = false → Completes (.linkRateChange v w) s fun t =>
        t.is ((s.hw.onLink fun l => { l with speed := v, width := w }).setDevReg 0x502C (evWord (s.hw.devReg 0x502C) 0x00080000)) ∧ t.noMsg s.hw)
    ∧ (∀ f on, s.hw.dev.link.up = true →
        exec (if on then .d3hotEnter f else .d3hotExit f) s = .next { s with hw := s.hw.onDev fun d => d.onFunc f fun x => { x with d3 := on } }))
  ∧ (∀ s : State, s.hw.inMw = true → s.hw.dev.link.mwUp = false →
    exec .midwinterLinkRetrain s = .next { s with hw := s.hw.onLink fun l => { l with mwUp := true, up := true, training := false } })
  ∧ (∀ s : State, s.hw.works = true → s.hw.dev.boot.st = .run →
    exec .aliveToggle s = .next { s with hw := s.hw.onLink fun l => { l with alive := !l.alive } })
  ∧ (∀ (s : State) (f : Func) (b : Option Burst), s.hw.linkOn = true → s.hw.inMw = false → Completes (.pcieFlr f b) s fun t =>
    t.dev.func f = { hold := (s.hw.dev.func f).hold, sentAt := (s.hw.dev.func f).sentAt, sent := (s.hw.dev.func f).sent }
    ∧ t.dev.bank f.toMaster = {} ∧ t.dev.link = s.hw.dev.link ∧ bitOf (t.devReg 0x502C) (match f with | .f0 => 22 | .f1 => 21) = true
    ∧ (∀ x, b = some x → t.tookMsg s.hw (mkMsg 63 19 clsN 0x61 (f.toMaster.id * 2 ^ 20 + min 255 x.beats))) ∧ (b = none → t.noMsg s.hw)
    ∧ ∀ c, ((t.chan c).q.bank f.toMaster).cpl = [] ∧ (t.chan c).st = (s.hw.chan c).st ∧ (t.chan c).circ = (s.hw.chan c).circ
      ∧ (t.chan c).cph = (s.hw.chan c).cph ∧ (t.chan c).flt = (s.hw.chan c).flt ∧ (t.chan c).psw = (s.hw.chan c).psw ∧ (t.chan c).store = (s.hw.chan c).store)
  ∧ ∀ (s : State) (b0 b1 : Option Burst) (i : Instr), s.hw.linkOn = true → s.hw.inMw = false → i = .linkDown b0 b1 ∨ i = .perstN b0 b1 →
    Completes i s fun t =>
      t.dev.link.up = false ∧ t.dev.link.training = decide (i = .linkDown b0 b1) ∧ t.dev.pf0 = {} ∧ t.dev.pf1 = {}
      ∧ t.dev.f0 = { hold := s.hw.dev.f0.hold, sentAt := s.hw.dev.f0.sentAt, sent := s.hw.dev.f0.sent }
      ∧ t.dev.f1 = { hold := s.hw.dev.f1.hold, sentAt := s.hw.dev.f1.sentAt, sent := s.hw.dev.f1.sent }
      ∧ bitOf (t.devReg 0x502C) 23 = true ∧ (i = .perstN b0 b1 → bitOf (t.devReg 0x502C) 20 = true)
      ∧ ∀ c, (t.chan c).q.pf0.cpl = [] ∧ (t.chan c).q.pf1.cpl = [] ∧ (t.chan c).st = (s.hw.chan c).st ∧ (t.chan c).circ = (s.hw.chan c).circ
        ∧ (t.chan c).cph = (s.hw.chan c).cph ∧ (t.chan c).flt = (s.hw.chan c).flt ∧ (t.chan c).psw = (s.hw.chan c).psw ∧ (t.chan c).store = (s.hw.chan c).store

/-- The debug port connects only where the fuses allow it, and JTAG's EXTEST, CLAMP and HIGHZ hold only in reset (R393, R439, R526; log entry 38). A
target that times out is counted and reported, counters clear, the once-only registers take the Isund's first write alone, and a
poisoned write is dropped and reported (R421, R428, R436, R437, R438, R442). -/
def Obligations.DebugAndMatrix : Prop :=
  (∀ s : State, s.hw.works = true →
    (s.hw.debugEnabled = true → s.hw.dev.link.debugOn = false → ∀ b, Completes (.debugConnect true b) s fun t =>
        t.is ((s.hw.onLink fun l => { l with debugOn := true }).setDevReg 0x5020 (evWord (s.hw.devReg 0x5020) 0x00200000)) ∧ t.noMsg s.hw)
    ∧ (s.hw.debugEnabled = false → ∀ b, exec (.debugConnect true b) s = .next s)
    ∧ (s.hw.dev.link.debugOn = true → Completes (.debugConnect false none) s fun t =>
        t.is ((s.hw.onLink fun l => { l with debugOn := false }).setDevReg 0x5020 (evWord (s.hw.devReg 0x5020) 0x00200000)) ∧ t.noMsg s.hw)
    ∧ (s.hw.dev.link.debugOn = true → ∀ x : Burst, Completes (.debugConnect false (some x)) s fun t =>
        t.dev.link = { s.hw.dev.link with debugOn := false } ∧ t.devReg 0x501C = x.addr ∧ bitOf (t.devReg 0x5020) 23 = true ∧ bitOf (t.devReg 0x5020) 21 = true
        ∧ fieldOf (t.devReg 0x5020) 31 24 = (fieldOf (s.hw.devReg 0x5020) 31 24 + 1) % 256
        ∧ t.tookMsg s.hw (mkMsg 63 19 clsN 0x61 (8 * 2 ^ 20 + min 255 x.beats)) ∧ t.chans = s.hw.chans)
    ∧ (∀ op : JtagOp, s.hw.dev.link.jtag ≠ .debug → op ≠ .debug ∨ s.hw.debugEnabled = false →
        exec (.jtagInstruction op) s = .next { s with hw := s.hw.onLink fun l =>
          { l with jtag := if op = .idcode ∨ op = .sample then op else .bypass } })
    ∧ (s.hw.dev.link.jtag ≠ .debug → s.hw.debugEnabled = true → s.hw.dev.link.debugOn = false → Completes (.jtagInstruction .debug) s fun t =>
        t.is ((s.hw.onLink fun l => { l with jtag := .debug, debugOn := true }).setDevReg 0x5020 (evWord (s.hw.devReg 0x5020) 0x00200000)))
    ∧ (∀ mid : Fin 16, (midUsed mid.val = false → exec (.beatTimeout mid) s = .next s)
      ∧ (midUsed mid.val = true → Completes (.beatTimeout mid) s fun t =>
          t.is ((s.hw.bmx mid.val 8).setDevReg 0x5020 (evWord (s.hw.devReg 0x5020) 0x00400000)) ∧ t.noMsg s.hw)))
  ∧ (∀ (s : State) (op : JtagOp), s.hw.dev.boot.inReset = true → s.hw.powered = true → s.hw.inMw = false → s.hw.dev.link.jtag ≠ .debug → op ≠ .debug →
    exec (.jtagInstruction op) s = .next { s with hw := s.hw.onLink fun l => { l with jtag := op } })
  ∧ (∀ (s : State) (m : Master), s.hw.reachesDev m = true →
    (∀ d, s.hw.lacks m .guarded = false → Completes (.bmxCntclr m d) s fun t =>
        (∀ i < 16, ∀ k ∈ [0, 4, 8, 12], bitOf d i = true → t.devReg (0x5100 + 16 * i + k) = 0)
        ∧ (∀ o, o < 0x5100 ∨ 0x5200 ≤ o → t.devReg o = s.hw.devReg o) ∧ t.chans = s.hw.chans)
    ∧ (∀ d, s.hw.lacks m .guarded = true → exec (.bmxCntclr m d) s = .next { s with hw := s.hw.guarded m (devAddr 0x5010) })
    ∧ (∀ d, (d &&& 1 = s.hw.devReg 0x5014 → exec (.remapWrite m d) s = .next { s with hw := s.hw.bmx m.id 0 })
      ∧ (d &&& 1 ≠ s.hw.devReg 0x5014 → m = .isund → s.hw.dev.remapSet = false →
          exec (.remapWrite m d) s = .next { s with hw := ((s.hw.bmx m.id 0).setDevReg 0x5014 (d &&& 1)).onDev fun x => { x with remapSet := true } })
      ∧ (d &&& 1 ≠ s.hw.devReg 0x5014 → m ≠ .isund ∨ s.hw.dev.remapSet = true →
          exec (.remapWrite m d) s = .next { s with hw := (s.hw.bmx m.id 0).ignored m .cfgRej (devAddr 0x5014) }))
    ∧ (∀ d, (d &&& 0x7FFF0FFF = s.hw.devReg 0x5024 → exec (.hptShareWrite m d) s = .next { s with hw := s.hw.bmx m.id 0 })
      ∧ (d &&& 0x7FFF0FFF ≠ s.hw.devReg 0x5024 → m = .isund → s.hw.dev.shareSet = false →
          fieldOf d 3 0 + fieldOf d 7 4 + fieldOf d 11 8 = 8 → fieldOf d 20 16 + fieldOf d 25 21 + fieldOf d 30 26 = 16 →
          exec (.hptShareWrite m d) s =
            .next { s with hw := ((s.hw.bmx m.id 0).setDevReg 0x5024 (d &&& 0x7FFF0FFF)).onDev fun x => { x with shareSet := true } })
      ∧ (d &&& 0x7FFF0FFF ≠ s.hw.devReg 0x5024 → m ≠ .isund ∨ s.hw.dev.shareSet = true →
          exec (.hptShareWrite m d) s = .next { s with hw := (s.hw.bmx m.id 0).ignored m .cfgRej (devAddr 0x5024) })))
  ∧ ∀ s : State, s.hw.linkOn = true →
    (s.hw.dev.f0.d3 = false → exec (.poisonedWrite .f0) s = .next { s with hw := s.hw.onLink fun l => { l with poisoned0 := l.poisoned0 + 1 } })
    ∧ (s.hw.dev.f1.d3 = false → exec (.poisonedWrite .f1) s = .next { s with hw := s.hw.onLink fun l => { l with poisoned1 := l.poisoned1 + 1 } })

/-- A write beat with a byte enable off is ignored and flagged CFG_REJ at its address (R421, R429). A selector takes the bits of its fields, by its own
command or by a register write, and nothing else of the channel changes; a parked channel's window turns the write away with CFG_REJ
and counts it REFUSED (R261, R425, R428, R476, R488, R490, R491). -/
def Obligations.RegisterBeats : Prop :=
  (∀ (s : State) (m : Master) (a : BitVec 22) (be : BitVec 4) (d : Word), s.hw.reachesDev m = true → be ≠ 0xF →
    Completes (.registerWrite m a be d) s fun t =>
      t.chans = s.hw.chans ∧ (t.dev.bank m).wflags = (s.hw.dev.bank m).wflags ||| 0x10 ∧ (t.dev.bank m).waddr = a
      ∧ (t.dev.bank m).wseq = (s.hw.dev.bank m).wseq + 1 ∧ ∀ o, o < 0x5100 ∨ 0x5200 ≤ o → t.devReg o = s.hw.devReg o)
  ∧ ∀ (s : State) (m : Master) (c : ChanId) (d : Word), s.hw.reaches m = true →
    let sel : List (Instr × Nat × Word) := [(.mapAuselWrite m c d, 0x3030, 0xF0001FFF), (.mapTrselWrite m c d, 0x3038, 0xC0001FFF),
      (.rclCselWrite m c d, 0x400C, 0x1FFF), (.cphCselWrite m c d, 0x5014, 0x1FFF), (.latDselWrite m c d, 0x600C, 0x1FFF)]
    ((s.hw.chan c).st = .active → ∀ e ∈ sel,
      exec e.1 s = .next { s with hw := (s.hw.setChReg c e.2.1 ((s.hw.chReg c e.2.1 &&& ~~~ e.2.2) ||| (d &&& e.2.2))).bmx m.id 0 })
    ∧ ((s.hw.chan c).st = .active → ∀ e ∈ sel, ∀ a, place a = .chan c e.2.1 → Completes (.registerWrite m a 0xF d) s fun t =>
        t.is ((s.hw.setChReg c e.2.1 ((s.hw.chReg c e.2.1 &&& ~~~ e.2.2) ||| (d &&& e.2.2))).bmx m.id 0) ∧ t.noMsg s.hw)
    ∧ ((s.hw.chan c).st = .parked → ∀ e ∈ sel,
      exec e.1 s = .next { s with hw := (s.hw.ignored m .cfgRej (chAddr c e.2.1)).bmx m.id 8 })

/-- R430: each hardware event that sets flags of an event register advances its SEQ by 1 modulo 256, whether or not a flag was set before, several
flags of one event being one; a write clears the flags written as 1 only if its bits [31:24] equal SEQ, and leaves SEQ; a write with
any other SEQ changes nothing and sets ACK_STALE in the writer's bank. The collector's record registers advance SEQ by an accepted
operation (R366, R367). -/
def Obligations.EventRegistersFollowSeq : Prop :=
  (∀ (h : Hw) (off src : Nat) (flags : Word), fieldOf flags 31 24 = 0 →
    fieldOf ((h.devEvent off src flags).devReg off) 31 24 = (fieldOf (h.devReg off) 31 24 + 1) % 256
    ∧ (∀ i < 24, bitOf ((h.devEvent off src flags).devReg off) i = (bitOf (h.devReg off) i || bitOf flags i))
    ∧ ∀ o, o ≠ off → (h.devEvent off src flags).devReg o = h.devReg o)
  ∧ (∀ (h : Hw) (c : ChanId) (off src : Nat) (flags : Word), (h.chan c).raises = true → fieldOf flags 31 24 = 0 →
    fieldOf ((h.chEvent c off src flags).chReg c off) 31 24 = (fieldOf (h.chReg c off) 31 24 + 1) % 256
    ∧ (∀ i < 24, bitOf ((h.chEvent c off src flags).chReg c off) i = (bitOf (h.chReg c off) i || bitOf flags i))
    ∧ ∀ o, o ≠ off → (h.chEvent c off src flags).chReg c o = h.chReg c o)
  ∧ (∀ (s : State) (m : Master) (a : BitVec 22) (d : Word), s.hw.reachesDev m = true → s.hw.lacks m .guarded = false →
    ∀ e ∈ [(0x1004, 0xE00000#32), (0x1018, 0xC00000), (0x101C, 0xC00000), (0x1060, 0xE00000), (0x1080, 0xC00000), (0x10C0, 0xFF), (0x10D4, 0xFF), (0x2004, 0xC00000),
      (0x2008, 0xE00000), (0x3004, 0xE00000), (0x300C, 0xE00000), (0x3050, 0xE00000), (0x3060, 0xC00000), (0x4024, 0xC00000), (0x5020, 0xE00000),
      (0x502C, 0xF80000), (0x5030, 0xC00000), (0x5034, 0x800000), (0x5050, 0x800000)],
    place a = .dev e.1 →
    (fieldOf d 31 24 = fieldOf (s.hw.devReg e.1) 31 24 → Completes (.eventClear m a d) s fun t =>
        t.devReg e.1 = s.hw.devReg e.1 &&& ~~~ (d &&& e.2) ∧ t.chans = s.hw.chans)
    ∧ (fieldOf d 31 24 ≠ fieldOf (s.hw.devReg e.1) 31 24 → Completes (.eventClear m a d) s fun t =>
        t.devReg e.1 = s.hw.devReg e.1 ∧ t.chans = s.hw.chans ∧ (t.dev.bank m).wflags.getLsbD 2 = true))
  ∧ (∀ (s : State) (m : Master) (c : ChanId), s.hw.reaches m = true → m = s.hw.dutyOf 1 → (s.hw.chan c).flt.h.pend = true →
    Completes (.ackH m c (s.hw.chan c).flt.seq) s fun t => (t.chan c).flt.seq = (s.hw.chan c).flt.seq + 1)
  ∧ (∀ (s : State) (m : Master), s.hw.reachesDev m = true → m = s.hw.dutyOf 2 → s.hw.dev.fcl.d.pend = true →
    Completes (.ackD m s.hw.dev.fcl.dseq) s fun t => t.dev.fcl.dseq = s.hw.dev.fcl.dseq + 1)
  ∧ ∀ (s : State) (m : Master) (c : ChanId) (a : BitVec 22) (d : Word), s.hw.reaches m = true → s.hw.lacks m .guarded = false → (s.hw.chan c).st = .active →
    ∀ e ∈ [(0x2300, 0xFFC000#32), (0x3008, 0xF00000), (0x4008, 0xF00000), (0x5010, 0xFF0000), (0x6014, 0xF80000), (0x7008, 0x078000), (0x802C, 0xFE0000),
      (0x9008, 0xC00000), (0xA008, 0xE00000)],
    place a = .chan c e.1 →
    (fieldOf d 31 24 = fieldOf (s.hw.chReg c e.1) 31 24 → Completes (.eventClear m a d) s fun t =>
        t.chReg c e.1 = s.hw.chReg c e.1 &&& ~~~ (d &&& e.2) ∧ t.Local s.hw c)
    ∧ (fieldOf d 31 24 ≠ fieldOf (s.hw.chReg c e.1) 31 24 → Completes (.eventClear m a d) s fun t =>
        t.chReg c e.1 = s.hw.chReg c e.1 ∧ (t.dev.bank m).wflags.getLsbD 2 = true ∧ t.Local s.hw c)

/-! ## Commands, mailbox, flash, performance data -/

/-- A command port (R441 to R446): CMD_W3 submits the words held for the master, taking a credit; the command waits, or completes REFUSED at once with
the first reason that applies; without a credit it is ignored with CFG_REJ. The oldest waiting command starts and holds its
executor for its E; NOP is DONE with SYSCNT[31:0]. CPL_LO latches the oldest completion, and CPL_HI pops it and returns its credit.
A vector that is PEND and unmasked sends one message and clears PEND (R451, R452; log entry 40). -/
def Obligations.CommandPortRuns : Prop :=
  (∀ (s : State) (m : Master) (p : Port) (w3 : Word), s.hw.reaches m = true → submits m = true → s.hw.portRuns p = true →
    let b := (s.hw.queue p).bank m
    let x := s.hw.cmdOf m p w3
    let kept := fun (t : Hw) => ((t.queue p).bank m).w0 = 0 ∧ ((t.queue p).bank m).w1 = 0 ∧ ((t.queue p).bank m).w2 = 0
      ∧ ((t.queue p).bank m).used = b.used + 1 ∧ ∀ d, p ≠ .chan d → t.chan d = s.hw.chan d
    (s.hw.credit p m = 0 → exec (.cmdSubmit m p w3) s = .next { s with hw := (s.hw.ignored m .cfgRej (portAddr p 12)).bmx m.id 0 })
    ∧ (s.hw.credit p m ≠ 0 → s.hw.judge p b.w0 x = none → Completes (.cmdSubmit m p w3) s fun t =>
        kept t ∧ ((t.queue p).bank m).cpl = b.cpl ∧ (t.queue p).run = (s.hw.queue p).run
        ∧ ∃ blob, (t.queue p).wait = (s.hw.queue p).wait ++ [{ x with blob := blob }] ∧ (x.op ≠ 0x10 → blob = []))
    ∧ (s.hw.credit p m ≠ 0 → ∀ r, s.hw.judge p b.w0 x = some r → Completes (.cmdSubmit m p w3) s fun t =>
        kept t ∧ ((t.queue p).bank m).cpl = b.cpl ++ [cplWord x.op x.tag stRefused (portChan p) r 0] ∧ (t.queue p).wait = (s.hw.queue p).wait)
    ∧ (x.op ∉ [0x00#8, 0x10, 0x11, 0x12, 0x13, 0x14, 0x20, 0x30, 0x40, 0x60, 0x61, 0x62] → s.hw.judge p b.w0 x = some rOpcode)
    ∧ (x.op ∈ [0x10#8, 0x11, 0x12, 0x13, 0x14, 0x20, 0x30, 0x40] → m = .pf1 → s.hw.judge p b.w0 x = some rGuarded))
  ∧ (∀ (s : State) (c : ChanId) (x : Cmd) (l : List Cmd), s.hw.works = true → s.hw.executes (.chan c) = true → (s.hw.chan c).q.wait = x :: l →
    Completes (.cmdStart (.chan c)) s fun t =>
      (t.chan c).q.wait = l ∧ (t.chan c).q.run = (s.hw.chan c).q.run ++ [x] ∧ (t.chan c).q.busyTill = s.hw.now + chanE x.op ∧ t.noMsg s.hw ∧ t.Local s.hw c)
  ∧ (∀ (s : State) (x : Cmd) (l : List Cmd), s.hw.works = true → s.hw.executes .device = true → s.hw.dev.q.wait = x :: l →
    (isChanOp x.op = false ∨ x.op = 0x10 → Completes (.cmdStart .device) s fun t =>
        t.dev.q.wait = l ∧ t.dev.q.run = s.hw.dev.q.run ++ [x] ∧ t.dev.q.busyTill = s.hw.now + devE x.op ∧ t.chans = s.hw.chans)
    ∧ (∀ c : ChanId, isChanOp x.op = true → x.op ≠ 0x10 → x.chan.toNat = c.val → (s.hw.chan c).st = .absent → x.parent = none → x.dropped = false →
        Completes (.cmdStart .device) s fun t =>
          t.dev.q.wait = l ∧ (t.dev.q.bank x.by_).cpl = (s.hw.dev.q.bank x.by_).cpl ++ [cplWord x.op x.tag stRefused 63 rChAbsent 0] ∧ t.chans = s.hw.chans))
  ∧ (∀ (s : State) (c : ChanId) (x : Cmd), s.hw.Runs c (fresh 0x00) x →
    Completes (.nop (.chan c)) s fun t => t.Completed s.hw c (fresh 0x00) x stDone 0 (s.hw.dev.sys.toNat % 2 ^ 32) ∧ t.noMsg s.hw)
  ∧ (∀ (s : State) (m : Master) (p : Port), s.hw.reaches m = true → s.hw.portReads m p = true →
    let b := (s.hw.queue p).bank m
    (Completes (.cplLoRead m p) s fun t =>
      (t.queue p).bank m = { b with latch := b.cpl.head?.map fun (w : BitVec 64) => (w >>> 32).truncate 32 } ∧ ∀ d, p ≠ .chan d → t.chan d = s.hw.chan d)
    ∧ (∀ w, b.latch = some w → Completes (.cplHiRead m p) s fun t =>
        (t.queue p).bank m = { b with cpl := b.cpl.drop 1, latch := none, used := b.used - 1 } ∧ ∀ d, p ≠ .chan d → t.chan d = s.hw.chan d)
    ∧ (b.latch = none → exec (.cplHiRead m p) s = .next { s with hw := s.hw.bmx m.id 0 }))
  ∧ ∀ (s : State) (f : Func) (v : Fin 64),
    (s.hw.msixReady f v = false → exec (.msixSend f v) s = .next s)
    ∧ (s.hw.msixReady f v = true → Completes (.msixSend f v) s fun t =>
        (t.dev.func f).pend.getLsbD v.val = false ∧ (∀ w : Fin 64, w ≠ v → (t.dev.func f).pend.getLsbD w.val = (s.hw.dev.func f).pend.getLsbD w.val)
        ∧ (t.dev.func f).sent = (s.hw.dev.func f).sent + 1 ∧ (t.dev.func f).routes = (s.hw.dev.func f).routes ∧ t.chans = s.hw.chans ∧ t.noMsg s.hw)

/-- The mailbox (R432, R433, R434): a selector starts a capture, clearing at once the counter that a snapshot-and-clear names and no other; while it
is under way another selector is turned away with CFG_REJ; the capture ends VALID with the value, or with ERR and zero data. -/
def Obligations.MailboxCaptures : Prop :=
  (∀ (s : State) (m : Master) (d : Word) (i : Instr), i = .mailboxSelect m d ∨ i = .mailboxSnapshotClear m d → s.hw.mbxReaches m = true →
    ((s.hw.dev.bank m).capturing = true → exec i s = .next { s with hw := (s.hw.bmx m.id 0).ignored m .cfgRej (devAddr 0x6000) })
    ∧ ((s.hw.dev.bank m).capturing = false → bitOf d 31 = false → Completes i s fun t =>
        (t.dev.bank m).sel = d ∧ (t.dev.bank m).valid = false ∧ (t.dev.bank m).err = false ∧ (t.dev.bank m).capturing = true ∧ (t.dev.bank m).snap = none
        ∧ t.chans = s.hw.chans)
    ∧ (∀ c : ChanId, (s.hw.dev.bank m).capturing = false → bitOf d 31 = true → m ≠ .pf1 → s.hw.inMw = false → ctrGroup (fieldOf d 30 24) = true →
        fieldOf d 23 18 = c.val → ctrOk (fieldOf d 30 24) (fieldOf d 17 0) = true → (s.hw.chan c).raises = true → Completes i s fun t =>
          (t.dev.bank m).sel = d ∧ (t.dev.bank m).capturing = true
          ∧ (t.dev.bank m).snap = some (BitVec.ofNat 128 (tget 0 (s.hw.chan c).ctr (ctrKey (fieldOf d 30 24) (fieldOf d 17 0))))
          ∧ tget 0 (t.chan c).ctr (ctrKey (fieldOf d 30 24) (fieldOf d 17 0)) = 0
          ∧ (∀ k, k ≠ ctrKey (fieldOf d 30 24) (fieldOf d 17 0) → tget 0 (t.chan c).ctr k = tget 0 (s.hw.chan c).ctr k) ∧ t.Local s.hw c))
  ∧ ∀ (s : State) (m : Master), s.hw.endpointOn = true → m ≠ .malot → (s.hw.dev.bank m).capturing = true → s.hw.inMw = false →
    (∀ v, (s.hw.dev.bank m).snap = some v → Completes (.mailboxCaptureDone m) s fun t =>
        t.dev.bank m = { s.hw.dev.bank m with valid := true, err := false, capturing := false, snap := none, data := v } ∧ t.chans = s.hw.chans)
    ∧ ((s.hw.dev.bank m).snap = none → fieldOf (s.hw.dev.bank m).sel 30 0 = 0x01FC0000 → Completes (.mailboxCaptureDone m) s fun t =>
        t.dev.bank m = { s.hw.dev.bank m with valid := true, err := false, capturing := false, snap := none, data := s.hw.dev.sys.zeroExtend 128 }
        ∧ t.chans = s.hw.chans)
    ∧ ((s.hw.dev.bank m).snap = none → s.hw.mbxVal m (s.hw.dev.bank m).sel = .err → Completes (.mailboxCaptureDone m) s fun t =>
        t.dev.bank m = { s.hw.dev.bank m with valid := true, err := true, capturing := false, snap := none, data := 0 } ∧ t.chans = s.hw.chans)

/-- The flash window (R469, R470): claimed while free in RUN and BARE, released by its owner between operations, and an operation that writes needs
KEY 0x4E56; what it turns away sets REJ. The end of an operation sets DONE and, for a read, leaves the bytes in the data
registers, byte 4i in bits [31:24] of register i. -/
def Obligations.FlashWindow : Prop :=
  (∀ (s : State) (m : Master), s.hw.reaches m = true → m = .pf0 ∨ m = .isund → s.hw.dev.boot.st = .run →
    let rej := fun (i : Instr) => Completes i s fun t =>
      t.is ((s.hw.bmx m.id 0).setDevReg 0x9010 (evWord (s.hw.devReg 0x9010) 0x00400000)) ∧ t.noMsg s.hw
    (s.hw.dev.flw.owner = 0 → exec (.flwClaim m) s = .next { s with hw := (s.hw.bmx m.id 0).onFlw fun w => { w with owner := flwCode m } })
    ∧ (s.hw.dev.flw.owner ≠ 0 → rej (.flwClaim m))
    ∧ (s.hw.dev.flw.owner = flwCode m → s.hw.dev.flw.busy = false →
        exec (.flwRelease m) s = .next { s with hw := (s.hw.bmx m.id 0).onFlw fun w => { w with owner := 0 } }
        ∧ ∀ key : BitVec 16, (bitOf (s.hw.devReg 0x9004) 15 = false ∨ key = 0x4E56 →
            exec (.flwGo m key) s = .next { s with hw := (s.hw.bmx m.id 0).onFlw fun w =>
              { w with busy := true, cmd := s.hw.devReg 0x9004, addr := s.hw.devReg 0x9008 } })
          ∧ (bitOf (s.hw.devReg 0x9004) 15 = true → key ≠ 0x4E56 → rej (.flwGo m key)))
    ∧ (s.hw.dev.flw.owner = flwCode m → s.hw.dev.flw.busy = true → rej (.flwRelease m) ∧ ∀ key, rej (.flwGo m key)))
  ∧ ∀ (s : State) (l : List Byte), s.hw.works = true →
    (s.hw.dev.flw.busy = false → exec (.flwOpDone l) s = .next s)
    ∧ (s.hw.dev.flw.busy = true → s.hw.dev.flw.releaseWaits = false → Completes (.flwOpDone l) s fun t =>
        t.dev.flw = { s.hw.dev.flw with busy := false } ∧ bitOf (t.devReg 0x9010) 23 = true ∧ t.chans = s.hw.chans ∧ t.noMsg s.hw
        ∧ (bitOf s.hw.dev.flw.cmd 15 = false → ∀ i, i < l.length → i < min 64 (fieldOf s.hw.dev.flw.cmd 6 0) →
          fieldOf (t.devReg (0x9040 + 4 * (i / 4))) (31 - 8 * (i % 4)) (24 - 8 * (i % 4)) = (l.getD i 0).toNat)
        ∧ (bitOf s.hw.dev.flw.cmd 15 = true → ∀ i < 16, t.devReg (0x9040 + 4 * i) = s.hw.devReg (0x9040 + 4 * i)))
    ∧ (s.hw.dev.flw.busy = true → s.hw.dev.flw.releaseWaits = true → Completes (.flwOpDone l) s fun t =>
        t.dev.flw.owner = 0 ∧ t.dev.flw.busy = false ∧ bitOf (t.devReg 0x9010) 23 = true ∧ (∀ i < 16, t.devReg (0x9040 + 4 * i) = s.hw.devReg (0x9040 + 4 * i))
        ∧ t.chans = s.hw.chans)

/-- Performance data (R498, R499): a second waits until ten later ones are known; outside unavailability it then counts its ES in the interval it ended
in; a second that a stalled Malot misses makes its interval suspect; an interval's end moves PMCUR to PMPRV, clears HIT and sets
IVL, and one ended by SYNC is suspect. (The wait of ten seconds is log entry 35's reading.) -/
def Obligations.PerformanceCounted : Prop :=
  (∀ (s : State) (c : ChanId) (a b d : PmSec), s.hw.works = true → (s.hw.chan c).st = .active →
    let x := s.hw.chan c
    (x.mlt.run = false → Completes (.pmSecond c a b d) s fun t => (t.chan c).mlt = { x.mlt with csus := true } ∧ t.Local s.hw c)
    ∧ (x.mlt.run = true → x.mlt.wait.length < 10 → Completes (.pmSecond c a b d) s fun t =>
        (t.chan c).mlt = { x.mlt with wait := x.mlt.wait ++ [{ sec := #v[a, b, d] }], sec := min 899 (x.mlt.sec + 1) }
        ∧ (t.chan c).regs = x.regs ∧ t.Local s.hw c)
    ∧ (∀ w rest (p : Fin 3), x.mlt.run = true → x.mlt.wait = w :: rest → rest.length = 9 → w.old = 0 → x.mlt.unavail[p.val] = false →
        (pmEnd x.pmEth w.sec ⟨p.val, by omega⟩).ses = false → Completes (.pmSecond c a b d) s fun t =>
          t.chReg c (pmCur p.val 0) = BitVec.ofNat 32 (min (2 ^ 32 - 1) ((x.reg (pmCur p.val 0)).toNat + b2n (w.sec[p].defect || decide (0 < w.sec[p].errored))))
          ∧ t.chReg c (pmCur p.val 3) = x.reg (pmCur p.val 3) ∧ (t.chan c).mlt.wait = rest ++ [{ sec := #v[a, b, d] }]
          ∧ (t.chan c).mlt.unavail[p.val] = false ∧ t.Local s.hw c))
  ∧ ∀ (s : State) (m : Master) (c : ChanId) (i : Instr), s.hw.works = true → (s.hw.chan c).st = .active →
    i = .pmIntervalEnd c ∨ (i = .pmSync m c ∧ s.hw.reaches m = true) →
    Completes i s fun t =>
      (∀ p < 3, ∀ k < 8, t.chReg c (pmPrv p k) = s.hw.chReg c (pmCur p k) ∧ t.chReg c (pmCur p k) = 0)
      ∧ (∀ k < 8, fieldOf (t.chReg c (pmTca k)) 31 29 = 0 ∧ fieldOf (t.chReg c (pmTca k)) 19 0 = fieldOf (s.hw.chReg c (pmTca k)) 19 0)
      ∧ (t.chan c).mlt.sec = 0 ∧ (t.chan c).mlt.csus = false ∧ (t.chan c).mlt.psus = ((s.hw.chan c).mlt.csus || decide (i = .pmSync m c))
      ∧ bitOf (t.chReg c 0x9008) 23 = true ∧ t.Local s.hw c

/-! ## What is seen, and the end -/

/-- What the outside sees: DEV.CH_STATE_g shows the state codes of its eight channels (R417), DEV.FCL_MW the first Midwinter trigger since power-up and no
later one (R374), and FAULT_N is low while a record is PENDING or something is quarantined, an injected record only under INJ_REACT,
and in Midwinter (R368). -/
def Obligations.StatesAndRecordsShown : Prop :=
  (∀ (h : Hw) (m : Master) (g : Fin 6) (k : Fin 8), h.inMw = false → h.reachesDev m = true →
    fieldOf (h.read m (devAddr (0x10A0 + 4 * g.val))) (4 * k.val + 3) (4 * k.val) =
      match (h.chan ⟨8 * g.val + k.val, by omega⟩).st with
      | .absent => 0 | .parked => 1 | .starting => 2 | .active => 3 | .parking => 4 | .diag => 5)
  ∧ State.reset.hw.dev.fcl.mw = none
  ∧ (∀ (h : Hw) (v : BitVec 64) (ts : BitVec 40) (n : Nat), h.dev.boot.st ≠ .powerOff → h.dev.boot.st ≠ .supplyUp → h.inMw = false →
    (h.midwinter v ts n).inMw = true
    ∧ (h.midwinter v ts n).dev.fcl.mw = (match h.dev.fcl.mw with
      | some w => some w
      | none => some (BitVec.ofNat 12 (msgSrc v), BitVec.ofNat 8 (msgKind v), msgInj v)))
  ∧ (∀ (h : Hw) (m : Master) (src : BitVec 12) (kind : Byte) (inj : Bool), h.inMw = true → h.mbxReaches m = true → h.dev.fcl.mw = some (src, kind, inj) →
    h.read m (devAddr 0x4014) = BitVec.ofNat 32 (2 ^ 31 + b2n inj * 2 ^ 20 + src.toNat * 2 ^ 8 + kind.toNat))
  ∧ (∀ (h : Hw) (m : Master), h.reachesDev m = true → h.inMw = false → h.dev.fcl.mw = none → h.read m (devAddr 0x4014) = 0)
  ∧ (∀ h : Hw, h.inMw = true → h.pinFault = .low)
  ∧ ∀ h : Hw, h.works = true → h.dev.boot.st ≠ .supplyUp →
    let pulls := fun (r : Rec) => r.pend = true ∧ (msgInj r.msg = false ∨ h.injReact = true)
    (h.pinFault = .low ↔ (pulls h.dev.fcl.d ∨ h.dev.fcl.dQuar = true
      ∨ ∃ c, pulls (h.chan c).flt.c ∨ pulls (h.chan c).flt.h ∨ (h.chan c).flt.hQuar = true ∨ ∃ e ∈ (h.chan c).circ, e.2.quar = true))

/-- Midwinter is the end (R372, R373): in MIDWINTER, with no key left, every command but the loss of VIN and a trip over temperature leaves the module in
MIDWINTER with no key, its first trigger recorded, its channels' transmitters idle and its channel states as they are. -/
def Obligations.MidwinterHolds : Prop :=
  ∀ s t : State, s.inMidwinter → step s = .next t →
    t.inMidwinter ∧ t.hw.dev.fcl.mw = s.hw.dev.fcl.mw
      ∧ ∀ c, (t.hw.chan c).squelch = (s.hw.chan c).squelch ∧ (t.hw.chan c).st = (s.hw.chan c).st
        ∧ (t.hw.chan c).circ = (s.hw.chan c).circ ∧ (t.hw.chan c).store = (s.hw.chan c).store

end
end

