-- ==== Sys2Proof/Laws/Tables.lean ====
section
/-!
SUPPORT. Laws/Tables.lean: the laws of sparse tables: a read after a write, and the canonical form that every write keeps.
-/
namespace Sys2Proof.Machine

variable {α : Type}

/-- The canonical form: keys strictly rising, and no entry equal to what an unlisted key holds. -/
def tableWf [DecidableEq α] (d : α) (t : Table α) : Bool :=
  decide ((t.map (·.1)).Pairwise (· < ·)) && t.all fun e => decide (e.2 ≠ d)

theorem tableWf_iff [DecidableEq α] (d : α) (t : Table α) :
    tableWf d t = true ↔ (t.map (·.1)).Pairwise (· < ·) ∧ ∀ e ∈ t, e.2 ≠ d := by
  simp [tableWf]

@[simp] theorem tableWf_nil [DecidableEq α] (d : α) : tableWf d ([] : Table α) = true := by simp [tableWf_iff]

@[simp] theorem tget_nil (d : α) (k : Nat) : tget d [] k = d := rfl

theorem tget_not_mem (d : α) : ∀ (t : Table α) (k : Nat), (∀ e ∈ t, e.1 ≠ k) → tget d t k = d
  | [], _, _ => rfl
  | e :: t, k, h => by
    have he : e.1 ≠ k := h e (by simp)
    simp only [tget, he, if_false]
    exact tget_not_mem d t k fun x hx => h x (by simp [hx])

theorem tdrop_not_mem (t : Table α) (k : Nat) : ∀ e ∈ tdrop t k, e.1 ≠ k := by
  intro e he
  have := (List.mem_filter.1 he).2
  simpa using this

@[simp] theorem tget_tdrop_self (d : α) (t : Table α) (k : Nat) : tget d (tdrop t k) k = d :=
  tget_not_mem d _ k (tdrop_not_mem t k)

theorem tget_tdrop_ne (d : α) : ∀ (t : Table α) {j k : Nat}, j ≠ k → tget d (tdrop t k) j = tget d t j
  | [], _, _, _ => rfl
  | e :: t, j, k, h => by
    have ih := tget_tdrop_ne d t h
    by_cases hk : e.1 = k
    · have hj : e.1 ≠ j := fun x => h (x.symm.trans hk)
      have : tdrop (e :: t) k = tdrop t k := by simp [tdrop, hk]
      rw [this, ih]
      simp [tget, hj]
    · have : tdrop (e :: t) k = e :: tdrop t k := by simp [tdrop, hk]
      rw [this]
      simp only [tget, ih]

theorem tget_tins_self (d : α) (k : Nat) (v : α) : ∀ t : Table α, (∀ e ∈ t, e.1 ≠ k) → tget d (tins k v t) k = v
  | [], _ => by simp [tins, tget]
  | e :: t, h => by
    by_cases hlt : k < e.1
    · simp [tins, hlt, tget]
    · have he : e.1 ≠ k := h e (by simp)
      simp only [tins, hlt, if_false, tget, he]
      exact tget_tins_self d k v t fun x hx => h x (by simp [hx])

theorem tget_tins_ne (d : α) (v : α) : ∀ (t : Table α) {j k : Nat}, j ≠ k → tget d (tins k v t) j = tget d t j
  | [], j, k, h => by simp [tins, tget, Ne.symm h]
  | e :: t, j, k, h => by
    have ih := tget_tins_ne d v t h
    by_cases hlt : k < e.1
    · simp [tins, hlt, tget, Ne.symm h]
    · simp only [tins, hlt, if_false, tget, ih]

/-- A read after a write: the value written at its key, and every other key as before. -/
theorem tget_tput [DecidableEq α] (d : α) (t : Table α) (k : Nat) (v : α) (j : Nat) :
    tget d (tput d t k v) j = if j = k then v else tget d t j := by
  by_cases hj : j = k
  · subst hj
    by_cases hv : v = d
    · simp [tput, hv]
    · simp [tput, hv, tget_tins_self d j v _ (tdrop_not_mem t j)]
  · by_cases hv : v = d
    · simp [tput, hv, hj, tget_tdrop_ne d t hj]
    · simp [tput, hv, hj, tget_tins_ne d v _ hj, tget_tdrop_ne d t hj]

@[simp] theorem tget_tput_self [DecidableEq α] (d : α) (t : Table α) (k : Nat) (v : α) : tget d (tput d t k v) k = v := by
  simp [tget_tput]

/-- A read of another key, whatever either key holds where it is unlisted. -/
theorem tget_tput_ne [DecidableEq α] (d d' : α) (t : Table α) {j k : Nat} (v : α) (h : j ≠ k) :
    tget d' (tput d t k v) j = tget d' t j := by
  by_cases hv : v = d
  · simp [tput, hv, tget_tdrop_ne d' t h]
  · simp [tput, hv, tget_tins_ne d' v _ h, tget_tdrop_ne d' t h]

theorem tdrop_pairwise {t : Table α} (k : Nat) (h : (t.map (·.1)).Pairwise (· < ·)) :
    ((tdrop t k).map (·.1)).Pairwise (· < ·) := by
  rw [List.pairwise_map] at *
  exact h.sublist (List.filter_sublist)

theorem mem_tins {k : Nat} {v : α} : ∀ {t : Table α} {e : Nat × α}, e ∈ tins k v t → e = (k, v) ∨ e ∈ t
  | [], e, h => by simpa [tins] using h
  | x :: t, e, h => by
    by_cases hlt : k < x.1
    · simpa [tins, hlt] using h
    · simp only [tins, hlt, if_false, List.mem_cons] at h
      rcases h with h | h
      · exact .inr (by simp [h])
      · rcases mem_tins h with h | h
        · exact .inl h
        · exact .inr (by simp [h])

theorem tins_pairwise {k : Nat} {v : α} : ∀ {t : Table α}, (t.map (·.1)).Pairwise (· < ·) → (∀ e ∈ t, e.1 ≠ k) →
    ((tins k v t).map (·.1)).Pairwise (· < ·)
  | [], _, _ => by simp [tins]
  | x :: t, h, hk => by
    rw [List.pairwise_map] at *
    have hx : x.1 ≠ k := hk x (by simp)
    by_cases hlt : k < x.1
    · simp only [tins, hlt, if_true, List.pairwise_cons]
      refine ⟨?_, List.pairwise_cons.1 h⟩
      intro e he
      rcases List.mem_cons.1 he with rfl | he
      · exact hlt
      · exact lt_trans hlt ((List.pairwise_cons.1 h).1 e he)
    · simp only [tins, hlt, if_false, List.pairwise_cons]
      have h2 := List.pairwise_cons.1 h
      refine ⟨?_, ?_⟩
      · intro e he
        rcases mem_tins he with rfl | he
        · show x.1 < k
          omega
        · exact h2.1 e he
      · have := tins_pairwise (k := k) (v := v) (t := t) (by rw [List.pairwise_map]; exact h2.2) (fun e he => hk e (by simp [he]))
        rwa [List.pairwise_map] at this

/-- A write keeps the canonical form. -/
theorem tableWf_tput [DecidableEq α] {d : α} {t : Table α} (k : Nat) (v : α) (h : tableWf d t = true) :
    tableWf d (tput d t k v) = true := by
  rw [tableWf_iff] at *
  have hd := tdrop_pairwise k h.1
  have hn : ∀ e ∈ tdrop t k, e.2 ≠ d := fun e he => h.2 e (List.mem_of_mem_filter he)
  by_cases hv : v = d
  · rw [show tput d t k v = tdrop t k by simp [tput, hv]]
    exact ⟨hd, hn⟩
  · simp only [tput, hv, if_false]
    refine ⟨tins_pairwise hd (tdrop_not_mem t k), ?_⟩
    intro e he
    rcases mem_tins he with rfl | he
    · exact hv
    · exact hn e he

end Sys2Proof.Machine
end

