-- ==== Sys2Proof/Laws/State.lean ====
section
/-!
SUPPORT. Laws/State.lean: what each update of the state leaves and writes, field by field, and reads of registers after writes. No
later proof needs to unfold an update.
-/
namespace Sys2Proof.Machine

/-! ## The hardware -/

@[simp] theorem Hw.onDev_dev (h : Hw) (f : Dev → Dev) : (h.onDev f).dev = f h.dev := rfl
@[simp] theorem Hw.onDev_chans (h : Hw) (f : Dev → Dev) : (h.onDev f).chans = h.chans := rfl
@[simp] theorem Hw.onDev_chan (h : Hw) (f : Dev → Dev) (c : ChanId) : (h.onDev f).chan c = h.chan c := rfl
@[simp] theorem Hw.onDev_now (h : Hw) (f : Dev → Dev) : (h.onDev f).now = h.now := rfl
@[simp] theorem Hw.onDev_drawn (h : Hw) (f : Dev → Dev) : (h.onDev f).drawn = h.drawn := rfl
@[simp] theorem Hw.onFcl_dev (h : Hw) (f : Fcl → Fcl) : (h.onFcl f).dev = { h.dev with fcl := f h.dev.fcl } := rfl
@[simp] theorem Hw.onFcl_chans (h : Hw) (f : Fcl → Fcl) : (h.onFcl f).chans = h.chans := rfl
@[simp] theorem Hw.onFcl_chan (h : Hw) (f : Fcl → Fcl) (c : ChanId) : (h.onFcl f).chan c = h.chan c := rfl
@[simp] theorem Hw.onFcl_now (h : Hw) (f : Fcl → Fcl) : (h.onFcl f).now = h.now := rfl
@[simp] theorem Hw.onFcl_drawn (h : Hw) (f : Fcl → Fcl) : (h.onFcl f).drawn = h.drawn := rfl
@[simp] theorem Hw.onBoot_dev (h : Hw) (f : Boot → Boot) : (h.onBoot f).dev = { h.dev with boot := f h.dev.boot } := rfl
@[simp] theorem Hw.onBoot_chans (h : Hw) (f : Boot → Boot) : (h.onBoot f).chans = h.chans := rfl
@[simp] theorem Hw.onBoot_chan (h : Hw) (f : Boot → Boot) (c : ChanId) : (h.onBoot f).chan c = h.chan c := rfl
@[simp] theorem Hw.onBoot_now (h : Hw) (f : Boot → Boot) : (h.onBoot f).now = h.now := rfl
@[simp] theorem Hw.onBoot_drawn (h : Hw) (f : Boot → Boot) : (h.onBoot f).drawn = h.drawn := rfl
@[simp] theorem Hw.onPower_dev (h : Hw) (f : Power → Power) : (h.onPower f).dev = { h.dev with power := f h.dev.power } := rfl
@[simp] theorem Hw.onPower_chans (h : Hw) (f : Power → Power) : (h.onPower f).chans = h.chans := rfl
@[simp] theorem Hw.onPower_chan (h : Hw) (f : Power → Power) (c : ChanId) : (h.onPower f).chan c = h.chan c := rfl
@[simp] theorem Hw.onPower_now (h : Hw) (f : Power → Power) : (h.onPower f).now = h.now := rfl
@[simp] theorem Hw.onPower_drawn (h : Hw) (f : Power → Power) : (h.onPower f).drawn = h.drawn := rfl
@[simp] theorem Hw.setDevReg_dev (h : Hw) (off : Nat) (w : Word) : (h.setDevReg off w).dev = h.dev.setReg off w := rfl
@[simp] theorem Hw.setDevReg_chans (h : Hw) (off : Nat) (w : Word) : (h.setDevReg off w).chans = h.chans := rfl
@[simp] theorem Hw.setDevReg_chan (h : Hw) (off : Nat) (w : Word) (c : ChanId) : (h.setDevReg off w).chan c = h.chan c := rfl
@[simp] theorem Hw.setDevReg_now (h : Hw) (off : Nat) (w : Word) : (h.setDevReg off w).now = h.now := rfl
@[simp] theorem Hw.setDevReg_drawn (h : Hw) (off : Nat) (w : Word) : (h.setDevReg off w).drawn = h.drawn := rfl

@[simp] theorem Hw.setChan_chan (h : Hw) (c : ChanId) (x : Chan) (d : ChanId) :
    (h.setChan c x).chan d = if d = c then x else h.chan d := by
  by_cases e : d = c
  · subst e; simp [Hw.setChan, Hw.chan]
  · have : c.val ≠ d.val := fun v => e (Fin.ext v.symm)
    simp [Hw.setChan, Hw.chan, e, Vector.getElem_set_ne _ _ this]

@[simp] theorem Hw.setChan_dev (h : Hw) (c : ChanId) (x : Chan) : (h.setChan c x).dev = h.dev := rfl
@[simp] theorem Hw.setChan_now (h : Hw) (c : ChanId) (x : Chan) : (h.setChan c x).now = h.now := rfl
@[simp] theorem Hw.setChan_drawn (h : Hw) (c : ChanId) (x : Chan) : (h.setChan c x).drawn = h.drawn := rfl
@[simp] theorem Hw.onChan_dev (h : Hw) (c : ChanId) (f : Chan → Chan) : (h.onChan c f).dev = h.dev := rfl
@[simp] theorem Hw.onChan_now (h : Hw) (c : ChanId) (f : Chan → Chan) : (h.onChan c f).now = h.now := rfl
@[simp] theorem Hw.onChan_drawn (h : Hw) (c : ChanId) (f : Chan → Chan) : (h.onChan c f).drawn = h.drawn := rfl
@[simp] theorem Hw.onChan_chan (h : Hw) (c : ChanId) (f : Chan → Chan) (d : ChanId) : (h.onChan c f).chan d = if d = c then f (h.chan c) else h.chan d := Hw.setChan_chan h c _ d
@[simp] theorem Hw.onLane_dev (h : Hw) (c : ChanId) (p : Lane) (f : LaneSt → LaneSt) : (h.onLane c p f).dev = h.dev := rfl
@[simp] theorem Hw.onLane_now (h : Hw) (c : ChanId) (p : Lane) (f : LaneSt → LaneSt) : (h.onLane c p f).now = h.now := rfl
@[simp] theorem Hw.onLane_drawn (h : Hw) (c : ChanId) (p : Lane) (f : LaneSt → LaneSt) : (h.onLane c p f).drawn = h.drawn := rfl
@[simp] theorem Hw.onLane_chan (h : Hw) (c : ChanId) (p : Lane) (f : LaneSt → LaneSt) (d : ChanId) : (h.onLane c p f).chan d = if d = c then (h.chan c).setLane p (f ((h.chan c).lane p)) else h.chan d := Hw.setChan_chan h c _ d
@[simp] theorem Hw.onCirc_dev (h : Hw) (c : ChanId) (k : CircId) (f : Circ → Circ) : (h.onCirc c k f).dev = h.dev := rfl
@[simp] theorem Hw.onCirc_now (h : Hw) (c : ChanId) (k : CircId) (f : Circ → Circ) : (h.onCirc c k f).now = h.now := rfl
@[simp] theorem Hw.onCirc_drawn (h : Hw) (c : ChanId) (k : CircId) (f : Circ → Circ) : (h.onCirc c k f).drawn = h.drawn := rfl
@[simp] theorem Hw.onCirc_chan (h : Hw) (c : ChanId) (k : CircId) (f : Circ → Circ) (d : ChanId) : (h.onCirc c k f).chan d = if d = c then (h.chan c).setCirc k (f ((h.chan c).circ! k)) else h.chan d := Hw.setChan_chan h c _ d
@[simp] theorem Hw.onCtx_dev (h : Hw) (c : ChanId) (n : Nat) (f : Ctx → Ctx) : (h.onCtx c n f).dev = h.dev := rfl
@[simp] theorem Hw.onCtx_now (h : Hw) (c : ChanId) (n : Nat) (f : Ctx → Ctx) : (h.onCtx c n f).now = h.now := rfl
@[simp] theorem Hw.onCtx_drawn (h : Hw) (c : ChanId) (n : Nat) (f : Ctx → Ctx) : (h.onCtx c n f).drawn = h.drawn := rfl
@[simp] theorem Hw.onCtx_chan (h : Hw) (c : ChanId) (n : Nat) (f : Ctx → Ctx) (d : ChanId) : (h.onCtx c n f).chan d = if d = c then (h.chan c).setCtx n (f ((h.chan c).ctx! n)) else h.chan d := Hw.setChan_chan h c _ d
@[simp] theorem Hw.setChReg_dev (h : Hw) (c : ChanId) (off : Nat) (w : Word) : (h.setChReg c off w).dev = h.dev := rfl
@[simp] theorem Hw.setChReg_now (h : Hw) (c : ChanId) (off : Nat) (w : Word) : (h.setChReg c off w).now = h.now := rfl
@[simp] theorem Hw.setChReg_drawn (h : Hw) (c : ChanId) (off : Nat) (w : Word) : (h.setChReg c off w).drawn = h.drawn := rfl
@[simp] theorem Hw.setChReg_chan (h : Hw) (c : ChanId) (off : Nat) (w : Word) (d : ChanId) : (h.setChReg c off w).chan d = if d = c then (h.chan c).setReg off w else h.chan d := Hw.setChan_chan h c _ d
@[simp] theorem Hw.count_dev (h : Hw) (c : ChanId) (g i n : Nat) : (h.count c g i n).dev = h.dev := rfl
@[simp] theorem Hw.count_now (h : Hw) (c : ChanId) (g i n : Nat) : (h.count c g i n).now = h.now := rfl
@[simp] theorem Hw.count_drawn (h : Hw) (c : ChanId) (g i n : Nat) : (h.count c g i n).drawn = h.drawn := rfl
@[simp] theorem Hw.count_chan (h : Hw) (c : ChanId) (g i n : Nat) (d : ChanId) : (h.count c g i n).chan d = if d = c then (h.chan c).count g i n else h.chan d := Hw.setChan_chan h c _ d

@[simp] theorem Hw.onAll_dev (h : Hw) (f : ChanId → Chan → Chan) : (h.onAll f).dev = h.dev := by rw [Hw.onAll]
@[simp] theorem Hw.onAll_now (h : Hw) (f : ChanId → Chan → Chan) : (h.onAll f).now = h.now := by rw [Hw.onAll]
@[simp] theorem Hw.onAll_drawn (h : Hw) (f : ChanId → Chan → Chan) : (h.onAll f).drawn = h.drawn := by rw [Hw.onAll]
@[simp] theorem Hw.onAll_chan (h : Hw) (f : ChanId → Chan → Chan) (c : ChanId) : (h.onAll f).chan c = f c (h.chan c) := by
  simp [Hw.onAll, Hw.chan]

/-! ## The spines -/

@[simp] theorem Dev.setReg_boot (d : Dev) (off : Nat) (w : Word) : (d.setReg off w).boot = d.boot := rfl
@[simp] theorem Dev.setReg_power (d : Dev) (off : Nat) (w : Word) : (d.setReg off w).power = d.power := rfl
@[simp] theorem Dev.setReg_fuses (d : Dev) (off : Nat) (w : Word) : (d.setReg off w).fuses = d.fuses := rfl
@[simp] theorem Dev.setReg_root (d : Dev) (off : Nat) (w : Word) : (d.setReg off w).root = d.root := rfl
@[simp] theorem Dev.setReg_stn (d : Dev) (off : Nat) (w : Word) : (d.setReg off w).stn = d.stn := rfl
@[simp] theorem Dev.setReg_sys (d : Dev) (off : Nat) (w : Word) : (d.setReg off w).sys = d.sys := rfl
@[simp] theorem Dev.setReg_fcl (d : Dev) (off : Nat) (w : Word) : (d.setReg off w).fcl = d.fcl := rfl
@[simp] theorem Dev.setReg_pf0 (d : Dev) (off : Nat) (w : Word) : (d.setReg off w).pf0 = d.pf0 := rfl
@[simp] theorem Dev.setReg_pf1 (d : Dev) (off : Nat) (w : Word) : (d.setReg off w).pf1 = d.pf1 := rfl
@[simp] theorem Dev.setReg_isv (d : Dev) (off : Nat) (w : Word) : (d.setReg off w).isv = d.isv := rfl
@[simp] theorem Dev.setReg_dbg (d : Dev) (off : Nat) (w : Word) : (d.setReg off w).dbg = d.dbg := rfl
@[simp] theorem Dev.setReg_q (d : Dev) (off : Nat) (w : Word) : (d.setReg off w).q = d.q := rfl
@[simp] theorem Dev.setReg_f0 (d : Dev) (off : Nat) (w : Word) : (d.setReg off w).f0 = d.f0 := rfl
@[simp] theorem Dev.setReg_f1 (d : Dev) (off : Nat) (w : Word) : (d.setReg off w).f1 = d.f1 := rfl
@[simp] theorem Dev.setReg_link (d : Dev) (off : Nat) (w : Word) : (d.setReg off w).link = d.link := rfl
@[simp] theorem Dev.setReg_flw (d : Dev) (off : Nat) (w : Word) : (d.setReg off w).flw = d.flw := rfl
@[simp] theorem Dev.setReg_armed (d : Dev) (off : Nat) (w : Word) : (d.setReg off w).armed = d.armed := rfl
@[simp] theorem Dev.setReg_kbuf (d : Dev) (off : Nat) (w : Word) : (d.setReg off w).kbuf = d.kbuf := rfl
@[simp] theorem Dev.setReg_routing (d : Dev) (off : Nat) (w : Word) : (d.setReg off w).routing = d.routing := rfl
@[simp] theorem Dev.setReg_remapSet (d : Dev) (off : Nat) (w : Word) : (d.setReg off w).remapSet = d.remapSet := rfl
@[simp] theorem Dev.setReg_isvStall (d : Dev) (off : Nat) (w : Word) : (d.setReg off w).isvStall = d.isvStall := rfl
@[simp] theorem Dev.setReg_shareSet (d : Dev) (off : Nat) (w : Word) : (d.setReg off w).shareSet = d.shareSet := rfl

/-- A device register after a write: the value at its offset, every other register as before. -/
theorem Dev.reg_setReg (d : Dev) (off : Nat) (w : Word) (o : Nat) : (d.setReg off w).reg o = if o = off then w else d.reg o := by
  by_cases h : o = off
  · subst h; simp [Dev.reg, Dev.setReg]
  · simp [Dev.reg, Dev.setReg, h, tget_tput_ne _ _ _ _ h]

@[simp] theorem Dev.reg_setReg_self (d : Dev) (off : Nat) (w : Word) : (d.setReg off w).reg off = w := by simp [Dev.reg_setReg]

/-! ## A channel -/

@[simp] theorem Chan.setReg_st (x : Chan) (off : Nat) (w : Word) : (x.setReg off w).st = x.st := rfl
@[simp] theorem Chan.setCirc_st (x : Chan) (k : CircId) (y : Circ) : (x.setCirc k y).st = x.st := rfl
@[simp] theorem Chan.setCtx_st (x : Chan) (n : Nat) (y : Ctx) : (x.setCtx n y).st = x.st := rfl
@[simp] theorem Chan.count_st (x : Chan) (g i n : Nat) : (x.count g i n).st = x.st := rfl
@[simp] theorem Chan.setLane_st (x : Chan) (p : Lane) (l : LaneSt) : (x.setLane p l).st = x.st := by cases p <;> rfl
@[simp] theorem Chan.setReg_island (x : Chan) (off : Nat) (w : Word) : (x.setReg off w).island = x.island := rfl
@[simp] theorem Chan.setCirc_island (x : Chan) (k : CircId) (y : Circ) : (x.setCirc k y).island = x.island := rfl
@[simp] theorem Chan.setCtx_island (x : Chan) (n : Nat) (y : Ctx) : (x.setCtx n y).island = x.island := rfl
@[simp] theorem Chan.count_island (x : Chan) (g i n : Nat) : (x.count g i n).island = x.island := rfl
@[simp] theorem Chan.setLane_island (x : Chan) (p : Lane) (l : LaneSt) : (x.setLane p l).island = x.island := by cases p <;> rfl
@[simp] theorem Chan.setReg_wasAbsent (x : Chan) (off : Nat) (w : Word) : (x.setReg off w).wasAbsent = x.wasAbsent := rfl
@[simp] theorem Chan.setCirc_wasAbsent (x : Chan) (k : CircId) (y : Circ) : (x.setCirc k y).wasAbsent = x.wasAbsent := rfl
@[simp] theorem Chan.setCtx_wasAbsent (x : Chan) (n : Nat) (y : Ctx) : (x.setCtx n y).wasAbsent = x.wasAbsent := rfl
@[simp] theorem Chan.count_wasAbsent (x : Chan) (g i n : Nat) : (x.count g i n).wasAbsent = x.wasAbsent := rfl
@[simp] theorem Chan.setLane_wasAbsent (x : Chan) (p : Lane) (l : LaneSt) : (x.setLane p l).wasAbsent = x.wasAbsent := by cases p <;> rfl
@[simp] theorem Chan.setReg_squelch (x : Chan) (off : Nat) (w : Word) : (x.setReg off w).squelch = x.squelch := rfl
@[simp] theorem Chan.setCirc_squelch (x : Chan) (k : CircId) (y : Circ) : (x.setCirc k y).squelch = x.squelch := rfl
@[simp] theorem Chan.setCtx_squelch (x : Chan) (n : Nat) (y : Ctx) : (x.setCtx n y).squelch = x.squelch := rfl
@[simp] theorem Chan.count_squelch (x : Chan) (g i n : Nat) : (x.count g i n).squelch = x.squelch := rfl
@[simp] theorem Chan.setLane_squelch (x : Chan) (p : Lane) (l : LaneSt) : (x.setLane p l).squelch = x.squelch := by cases p <;> rfl
@[simp] theorem Chan.setCirc_regs (x : Chan) (k : CircId) (y : Circ) : (x.setCirc k y).regs = x.regs := rfl
@[simp] theorem Chan.setCtx_regs (x : Chan) (n : Nat) (y : Ctx) : (x.setCtx n y).regs = x.regs := rfl
@[simp] theorem Chan.count_regs (x : Chan) (g i n : Nat) : (x.count g i n).regs = x.regs := rfl
@[simp] theorem Chan.setLane_regs (x : Chan) (p : Lane) (l : LaneSt) : (x.setLane p l).regs = x.regs := by cases p <;> rfl
@[simp] theorem Chan.setReg_red (x : Chan) (off : Nat) (w : Word) : (x.setReg off w).red = x.red := rfl
@[simp] theorem Chan.setCirc_red (x : Chan) (k : CircId) (y : Circ) : (x.setCirc k y).red = x.red := rfl
@[simp] theorem Chan.setCtx_red (x : Chan) (n : Nat) (y : Ctx) : (x.setCtx n y).red = x.red := rfl
@[simp] theorem Chan.count_red (x : Chan) (g i n : Nat) : (x.count g i n).red = x.red := rfl
@[simp] theorem Chan.setReg_bkw (x : Chan) (off : Nat) (w : Word) : (x.setReg off w).bkw = x.bkw := rfl
@[simp] theorem Chan.setCirc_bkw (x : Chan) (k : CircId) (y : Circ) : (x.setCirc k y).bkw = x.bkw := rfl
@[simp] theorem Chan.setCtx_bkw (x : Chan) (n : Nat) (y : Ctx) : (x.setCtx n y).bkw = x.bkw := rfl
@[simp] theorem Chan.count_bkw (x : Chan) (g i n : Nat) : (x.count g i n).bkw = x.bkw := rfl
@[simp] theorem Chan.setReg_bkp (x : Chan) (off : Nat) (w : Word) : (x.setReg off w).bkp = x.bkp := rfl
@[simp] theorem Chan.setCirc_bkp (x : Chan) (k : CircId) (y : Circ) : (x.setCirc k y).bkp = x.bkp := rfl
@[simp] theorem Chan.setCtx_bkp (x : Chan) (n : Nat) (y : Ctx) : (x.setCtx n y).bkp = x.bkp := rfl
@[simp] theorem Chan.count_bkp (x : Chan) (g i n : Nat) : (x.count g i n).bkp = x.bkp := rfl
@[simp] theorem Chan.setReg_map (x : Chan) (off : Nat) (w : Word) : (x.setReg off w).map = x.map := rfl
@[simp] theorem Chan.setCirc_map (x : Chan) (k : CircId) (y : Circ) : (x.setCirc k y).map = x.map := rfl
@[simp] theorem Chan.setCtx_map (x : Chan) (n : Nat) (y : Ctx) : (x.setCtx n y).map = x.map := rfl
@[simp] theorem Chan.count_map (x : Chan) (g i n : Nat) : (x.count g i n).map = x.map := rfl
@[simp] theorem Chan.setLane_map (x : Chan) (p : Lane) (l : LaneSt) : (x.setLane p l).map = x.map := by cases p <;> rfl
@[simp] theorem Chan.setReg_circ (x : Chan) (off : Nat) (w : Word) : (x.setReg off w).circ = x.circ := rfl
@[simp] theorem Chan.setCtx_circ (x : Chan) (n : Nat) (y : Ctx) : (x.setCtx n y).circ = x.circ := rfl
@[simp] theorem Chan.count_circ (x : Chan) (g i n : Nat) : (x.count g i n).circ = x.circ := rfl
@[simp] theorem Chan.setLane_circ (x : Chan) (p : Lane) (l : LaneSt) : (x.setLane p l).circ = x.circ := by cases p <;> rfl
@[simp] theorem Chan.setReg_cph (x : Chan) (off : Nat) (w : Word) : (x.setReg off w).cph = x.cph := rfl
@[simp] theorem Chan.setCirc_cph (x : Chan) (k : CircId) (y : Circ) : (x.setCirc k y).cph = x.cph := rfl
@[simp] theorem Chan.count_cph (x : Chan) (g i n : Nat) : (x.count g i n).cph = x.cph := rfl
@[simp] theorem Chan.setLane_cph (x : Chan) (p : Lane) (l : LaneSt) : (x.setLane p l).cph = x.cph := by cases p <;> rfl
@[simp] theorem Chan.setReg_store (x : Chan) (off : Nat) (w : Word) : (x.setReg off w).store = x.store := rfl
@[simp] theorem Chan.setCirc_store (x : Chan) (k : CircId) (y : Circ) : (x.setCirc k y).store = x.store := rfl
@[simp] theorem Chan.setCtx_store (x : Chan) (n : Nat) (y : Ctx) : (x.setCtx n y).store = x.store := rfl
@[simp] theorem Chan.count_store (x : Chan) (g i n : Nat) : (x.count g i n).store = x.store := rfl
@[simp] theorem Chan.setLane_store (x : Chan) (p : Lane) (l : LaneSt) : (x.setLane p l).store = x.store := by cases p <;> rfl
@[simp] theorem Chan.setReg_psw (x : Chan) (off : Nat) (w : Word) : (x.setReg off w).psw = x.psw := rfl
@[simp] theorem Chan.setCirc_psw (x : Chan) (k : CircId) (y : Circ) : (x.setCirc k y).psw = x.psw := rfl
@[simp] theorem Chan.setCtx_psw (x : Chan) (n : Nat) (y : Ctx) : (x.setCtx n y).psw = x.psw := rfl
@[simp] theorem Chan.count_psw (x : Chan) (g i n : Nat) : (x.count g i n).psw = x.psw := rfl
@[simp] theorem Chan.setLane_psw (x : Chan) (p : Lane) (l : LaneSt) : (x.setLane p l).psw = x.psw := by cases p <;> rfl
@[simp] theorem Chan.setReg_tim (x : Chan) (off : Nat) (w : Word) : (x.setReg off w).tim = x.tim := rfl
@[simp] theorem Chan.setCirc_tim (x : Chan) (k : CircId) (y : Circ) : (x.setCirc k y).tim = x.tim := rfl
@[simp] theorem Chan.setCtx_tim (x : Chan) (n : Nat) (y : Ctx) : (x.setCtx n y).tim = x.tim := rfl
@[simp] theorem Chan.count_tim (x : Chan) (g i n : Nat) : (x.count g i n).tim = x.tim := rfl
@[simp] theorem Chan.setLane_tim (x : Chan) (p : Lane) (l : LaneSt) : (x.setLane p l).tim = x.tim := by cases p <;> rfl
@[simp] theorem Chan.setReg_cvu (x : Chan) (off : Nat) (w : Word) : (x.setReg off w).cvu = x.cvu := rfl
@[simp] theorem Chan.setCirc_cvu (x : Chan) (k : CircId) (y : Circ) : (x.setCirc k y).cvu = x.cvu := rfl
@[simp] theorem Chan.setCtx_cvu (x : Chan) (n : Nat) (y : Ctx) : (x.setCtx n y).cvu = x.cvu := rfl
@[simp] theorem Chan.count_cvu (x : Chan) (g i n : Nat) : (x.count g i n).cvu = x.cvu := rfl
@[simp] theorem Chan.setLane_cvu (x : Chan) (p : Lane) (l : LaneSt) : (x.setLane p l).cvu = x.cvu := by cases p <;> rfl
@[simp] theorem Chan.setReg_ctr (x : Chan) (off : Nat) (w : Word) : (x.setReg off w).ctr = x.ctr := rfl
@[simp] theorem Chan.setCirc_ctr (x : Chan) (k : CircId) (y : Circ) : (x.setCirc k y).ctr = x.ctr := rfl
@[simp] theorem Chan.setCtx_ctr (x : Chan) (n : Nat) (y : Ctx) : (x.setCtx n y).ctr = x.ctr := rfl
@[simp] theorem Chan.setLane_ctr (x : Chan) (p : Lane) (l : LaneSt) : (x.setLane p l).ctr = x.ctr := by cases p <;> rfl
@[simp] theorem Chan.setReg_q (x : Chan) (off : Nat) (w : Word) : (x.setReg off w).q = x.q := rfl
@[simp] theorem Chan.setCirc_q (x : Chan) (k : CircId) (y : Circ) : (x.setCirc k y).q = x.q := rfl
@[simp] theorem Chan.setCtx_q (x : Chan) (n : Nat) (y : Ctx) : (x.setCtx n y).q = x.q := rfl
@[simp] theorem Chan.count_q (x : Chan) (g i n : Nat) : (x.count g i n).q = x.q := rfl
@[simp] theorem Chan.setLane_q (x : Chan) (p : Lane) (l : LaneSt) : (x.setLane p l).q = x.q := by cases p <;> rfl
@[simp] theorem Chan.setReg_mlt (x : Chan) (off : Nat) (w : Word) : (x.setReg off w).mlt = x.mlt := rfl
@[simp] theorem Chan.setCirc_mlt (x : Chan) (k : CircId) (y : Circ) : (x.setCirc k y).mlt = x.mlt := rfl
@[simp] theorem Chan.setCtx_mlt (x : Chan) (n : Nat) (y : Ctx) : (x.setCtx n y).mlt = x.mlt := rfl
@[simp] theorem Chan.count_mlt (x : Chan) (g i n : Nat) : (x.count g i n).mlt = x.mlt := rfl
@[simp] theorem Chan.setLane_mlt (x : Chan) (p : Lane) (l : LaneSt) : (x.setLane p l).mlt = x.mlt := by cases p <;> rfl
@[simp] theorem Chan.setReg_flt (x : Chan) (off : Nat) (w : Word) : (x.setReg off w).flt = x.flt := rfl
@[simp] theorem Chan.setCirc_flt (x : Chan) (k : CircId) (y : Circ) : (x.setCirc k y).flt = x.flt := rfl
@[simp] theorem Chan.setCtx_flt (x : Chan) (n : Nat) (y : Ctx) : (x.setCtx n y).flt = x.flt := rfl
@[simp] theorem Chan.count_flt (x : Chan) (g i n : Nat) : (x.count g i n).flt = x.flt := rfl
@[simp] theorem Chan.setLane_flt (x : Chan) (p : Lane) (l : LaneSt) : (x.setLane p l).flt = x.flt := by cases p <;> rfl

@[simp] theorem Chan.setLane_lane (x : Chan) (p q : Lane) (l : LaneSt) : (x.setLane p l).lane q = if q = p then l else x.lane q := by
  cases p <;> cases q <;> rfl
@[simp] theorem Chan.setReg_lane (x : Chan) (off : Nat) (w : Word) (p : Lane) : (x.setReg off w).lane p = x.lane p := by cases p <;> rfl
@[simp] theorem Chan.setCirc_lane (x : Chan) (k : CircId) (y : Circ) (p : Lane) : (x.setCirc k y).lane p = x.lane p := by cases p <;> rfl
@[simp] theorem Chan.setCtx_lane (x : Chan) (n : Nat) (y : Ctx) (p : Lane) : (x.setCtx n y).lane p = x.lane p := by cases p <;> rfl
@[simp] theorem Chan.count_lane (x : Chan) (g i n : Nat) (p : Lane) : (x.count g i n).lane p = x.lane p := by cases p <;> rfl
@[simp] theorem Chan.setCirc_reg (x : Chan) (k : CircId) (y : Circ) (off : Nat) : (x.setCirc k y).reg off = x.reg off := rfl
@[simp] theorem Chan.setCtx_reg (x : Chan) (n : Nat) (y : Ctx) (off : Nat) : (x.setCtx n y).reg off = x.reg off := rfl
@[simp] theorem Chan.count_reg (x : Chan) (g i n : Nat) (off : Nat) : (x.count g i n).reg off = x.reg off := rfl
@[simp] theorem Chan.setLane_reg (x : Chan) (p : Lane) (l : LaneSt) (off : Nat) : (x.setLane p l).reg off = x.reg off := by cases p <;> rfl
@[simp] theorem Chan.setLane_raises (x : Chan) (p : Lane) (l : LaneSt) : (x.setLane p l).raises = x.raises := by cases p <;> rfl
@[simp] theorem Chan.setReg_raises (x : Chan) (off : Nat) (w : Word) : (x.setReg off w).raises = x.raises := rfl

/-- A channel register after a write: the value at its offset, every other register as before. -/
theorem Chan.reg_setReg (x : Chan) (off : Nat) (w : Word) (o : Nat) : (x.setReg off w).reg o = if o = off then w else x.reg o := by
  by_cases h : o = off
  · subst h; simp [Chan.reg, Chan.setReg]
  · simp [Chan.reg, Chan.setReg, h, tget_tput_ne _ _ _ _ h]

@[simp] theorem Chan.reg_setReg_self (x : Chan) (off : Nat) (w : Word) : (x.setReg off w).reg off = w := by simp [Chan.reg_setReg]

/-- A circuit after a replacement: the new one at its number, every other circuit as before. -/
@[simp] theorem Chan.circ_setCirc (x : Chan) (k : CircId) (y : Circ) (j : CircId) :
    (x.setCirc k y).circ! j = if j = k then y else x.circ! j := by
  by_cases h : j = k
  · subst h; simp [Chan.circ!, Chan.setCirc]
  · have : j.toNat ≠ k.toNat := fun e => h (BitVec.eq_of_toNat_eq e)
    simp [Chan.circ!, Chan.setCirc, h, tget_tput_ne _ _ _ _ this]

/-- A key context after a replacement: the new one at its number, every other context as before. -/
@[simp] theorem Chan.ctx_setCtx (x : Chan) (n : Nat) (y : Ctx) (j : Nat) :
    (x.setCtx n y).ctx! j = if j = n then y else x.ctx! j := by
  by_cases h : j = n
  · subst h; simp [Chan.ctx!, Chan.setCtx]
  · simp [Chan.ctx!, Chan.setCtx, h, tget_tput_ne _ _ _ _ h]

/-! ## Registers of the hardware -/

theorem Hw.devReg_setDevReg (h : Hw) (off : Nat) (w : Word) (o : Nat) :
    (h.setDevReg off w).devReg o = if o = off then w else h.devReg o := by
  simp [Hw.devReg, Dev.reg_setReg]

theorem Hw.chReg_setChReg (h : Hw) (c : ChanId) (off : Nat) (w : Word) (d : ChanId) (o : Nat) :
    (h.setChReg c off w).chReg d o = if d = c ∧ o = off then w else h.chReg d o := by
  by_cases e : d = c
  · subst e; simp [Hw.chReg, Chan.reg_setReg]
  · simp [Hw.chReg, e]

end Sys2Proof.Machine
end

