-- ==== Sys2Proof/Laws/Data.lean ====
section
/-!
SUPPORT. Laws/Data.lean: what the operations of the data path can do: the keystream queues, the pointer generators, what a circuit's
positions carry, the words of the seal check, and the lengths that coding and scrambling keep.
-/
namespace Sys2Proof.Machine

/-! ## Keystream queues -/

/-- A queue after a change of one: that one changed, the others as before. -/
theorem Chan.onKs_ks (x : Chan) (e : Fin 3) (f : List KsEnt → List KsEnt) (i : Fin 3) :
    (x.onKs e f).cph.ks[i] = if i = e then f x.cph.ks[e] else x.cph.ks[i] := by
  by_cases h : i = e
  · subst h; simp [Chan.onKs]
  · have : e.val ≠ i.val := fun v => h (Fin.ext v.symm)
    simp [Chan.onKs, h, Vector.getElem_set_ne _ _ this]

@[simp] theorem Chan.onKs_st (x : Chan) (e : Fin 3) (g : List KsEnt → List KsEnt) : (x.onKs e g).st = x.st := rfl
@[simp] theorem Chan.onKs_island (x : Chan) (e : Fin 3) (g : List KsEnt → List KsEnt) : (x.onKs e g).island = x.island := rfl
@[simp] theorem Chan.onKs_wasAbsent (x : Chan) (e : Fin 3) (g : List KsEnt → List KsEnt) : (x.onKs e g).wasAbsent = x.wasAbsent := rfl
@[simp] theorem Chan.onKs_squelch (x : Chan) (e : Fin 3) (g : List KsEnt → List KsEnt) : (x.onKs e g).squelch = x.squelch := rfl
@[simp] theorem Chan.onKs_regs (x : Chan) (e : Fin 3) (g : List KsEnt → List KsEnt) : (x.onKs e g).regs = x.regs := rfl
@[simp] theorem Chan.onKs_red (x : Chan) (e : Fin 3) (g : List KsEnt → List KsEnt) : (x.onKs e g).red = x.red := rfl
@[simp] theorem Chan.onKs_bkw (x : Chan) (e : Fin 3) (g : List KsEnt → List KsEnt) : (x.onKs e g).bkw = x.bkw := rfl
@[simp] theorem Chan.onKs_bkp (x : Chan) (e : Fin 3) (g : List KsEnt → List KsEnt) : (x.onKs e g).bkp = x.bkp := rfl
@[simp] theorem Chan.onKs_map (x : Chan) (e : Fin 3) (g : List KsEnt → List KsEnt) : (x.onKs e g).map = x.map := rfl
@[simp] theorem Chan.onKs_circ (x : Chan) (e : Fin 3) (g : List KsEnt → List KsEnt) : (x.onKs e g).circ = x.circ := rfl
@[simp] theorem Chan.onKs_store (x : Chan) (e : Fin 3) (g : List KsEnt → List KsEnt) : (x.onKs e g).store = x.store := rfl
@[simp] theorem Chan.onKs_psw (x : Chan) (e : Fin 3) (g : List KsEnt → List KsEnt) : (x.onKs e g).psw = x.psw := rfl
@[simp] theorem Chan.onKs_tim (x : Chan) (e : Fin 3) (g : List KsEnt → List KsEnt) : (x.onKs e g).tim = x.tim := rfl
@[simp] theorem Chan.onKs_cvu (x : Chan) (e : Fin 3) (g : List KsEnt → List KsEnt) : (x.onKs e g).cvu = x.cvu := rfl
@[simp] theorem Chan.onKs_ctr (x : Chan) (e : Fin 3) (g : List KsEnt → List KsEnt) : (x.onKs e g).ctr = x.ctr := rfl
@[simp] theorem Chan.onKs_q (x : Chan) (e : Fin 3) (g : List KsEnt → List KsEnt) : (x.onKs e g).q = x.q := rfl
@[simp] theorem Chan.onKs_mlt (x : Chan) (e : Fin 3) (g : List KsEnt → List KsEnt) : (x.onKs e g).mlt = x.mlt := rfl
@[simp] theorem Chan.onKs_flt (x : Chan) (e : Fin 3) (g : List KsEnt → List KsEnt) : (x.onKs e g).flt = x.flt := rfl
@[simp] theorem Chan.onKs_ctx (x : Chan) (e : Fin 3) (g : List KsEnt → List KsEnt) : (x.onKs e g).cph.ctx = x.cph.ctx := rfl

/-- A flush leaves exactly the entries that its test does not name (R220). -/
theorem Chan.ksFlush_mem (x : Chan) (e : Fin 3) (sel : KsEnt → Bool) (r : KsEnt) :
    r ∈ (x.ksFlush e sel).cph.ks[e] ↔ r ∈ x.cph.ks[e] ∧ sel r = false := by
  rw [Chan.ksFlush, Chan.onKs_ks, if_pos rfl]; simp

/-- A flush of all three engines leaves exactly the entries that its test does not name. -/
theorem Chan.ksFlushAll_mem (x : Chan) (sel : KsEnt → Bool) (i : Fin 3) (r : KsEnt) :
    r ∈ (x.ksFlushAll sel).cph.ks[i] ↔ r ∈ x.cph.ks[i] ∧ sel r = false := by simp [Chan.ksFlushAll]

/-- No flush lengthens a queue. -/
theorem ksLevel_filter (sel : KsEnt → Bool) (l : List KsEnt) : ksLevel (l.filter sel) ≤ ksLevel l := by
  induction l with
  | nil => simp
  | cons a t ih =>
    simp only [ksLevel] at ih ⊢
    by_cases h : sel a <;> simp [h] <;> omega

/-- Running ahead never takes a queue beyond its 512 entries (R255). -/
theorem Chan.ksRun_level (x : Chan) (e : Fin 3) (k : CircId) (odd : Bool) (seq : Seq) (n : Nat) (b : ksLevel x.cph.ks[e] ≤ 512) :
    ksLevel (x.ksRun e k odd seq n).cph.ks[e] ≤ 512 := by
  rw [Chan.ksRun, Chan.onKs_ks, if_pos rfl]
  dsimp only
  split
  · exact b
  · simp only [ksLevel, List.map_append, List.sum_append, List.map_cons, List.map_nil, List.sum_cons, List.sum_nil] at b ⊢
    omega

/-! ## Pointer generators -/

/-- A generator after a change: the one named. -/
@[simp] theorem Chan.onGen_gen (x : Chan) (red : Bool) (lvl : PtrLevel) (pos : Pos) (f : PtrGen → PtrGen) :
    (x.onGen red lvl pos f).gen red lvl pos = f (x.gen red lvl pos) := by simp [Chan.onGen, Chan.gen]

@[simp] theorem Chan.onGen_st (x : Chan) (red : Bool) (lvl : PtrLevel) (pos : Pos) (g : PtrGen → PtrGen) : (x.onGen red lvl pos g).st = x.st := rfl
@[simp] theorem Chan.onGen_island (x : Chan) (red : Bool) (lvl : PtrLevel) (pos : Pos) (g : PtrGen → PtrGen) : (x.onGen red lvl pos g).island = x.island := rfl
@[simp] theorem Chan.onGen_wasAbsent (x : Chan) (red : Bool) (lvl : PtrLevel) (pos : Pos) (g : PtrGen → PtrGen) : (x.onGen red lvl pos g).wasAbsent = x.wasAbsent := rfl
@[simp] theorem Chan.onGen_squelch (x : Chan) (red : Bool) (lvl : PtrLevel) (pos : Pos) (g : PtrGen → PtrGen) : (x.onGen red lvl pos g).squelch = x.squelch := rfl
@[simp] theorem Chan.onGen_regs (x : Chan) (red : Bool) (lvl : PtrLevel) (pos : Pos) (g : PtrGen → PtrGen) : (x.onGen red lvl pos g).regs = x.regs := rfl
@[simp] theorem Chan.onGen_red (x : Chan) (red : Bool) (lvl : PtrLevel) (pos : Pos) (g : PtrGen → PtrGen) : (x.onGen red lvl pos g).red = x.red := rfl
@[simp] theorem Chan.onGen_bkw (x : Chan) (red : Bool) (lvl : PtrLevel) (pos : Pos) (g : PtrGen → PtrGen) : (x.onGen red lvl pos g).bkw = x.bkw := rfl
@[simp] theorem Chan.onGen_bkp (x : Chan) (red : Bool) (lvl : PtrLevel) (pos : Pos) (g : PtrGen → PtrGen) : (x.onGen red lvl pos g).bkp = x.bkp := rfl
@[simp] theorem Chan.onGen_circ (x : Chan) (red : Bool) (lvl : PtrLevel) (pos : Pos) (g : PtrGen → PtrGen) : (x.onGen red lvl pos g).circ = x.circ := rfl
@[simp] theorem Chan.onGen_cph (x : Chan) (red : Bool) (lvl : PtrLevel) (pos : Pos) (g : PtrGen → PtrGen) : (x.onGen red lvl pos g).cph = x.cph := rfl
@[simp] theorem Chan.onGen_store (x : Chan) (red : Bool) (lvl : PtrLevel) (pos : Pos) (g : PtrGen → PtrGen) : (x.onGen red lvl pos g).store = x.store := rfl
@[simp] theorem Chan.onGen_psw (x : Chan) (red : Bool) (lvl : PtrLevel) (pos : Pos) (g : PtrGen → PtrGen) : (x.onGen red lvl pos g).psw = x.psw := rfl
@[simp] theorem Chan.onGen_tim (x : Chan) (red : Bool) (lvl : PtrLevel) (pos : Pos) (g : PtrGen → PtrGen) : (x.onGen red lvl pos g).tim = x.tim := rfl
@[simp] theorem Chan.onGen_cvu (x : Chan) (red : Bool) (lvl : PtrLevel) (pos : Pos) (g : PtrGen → PtrGen) : (x.onGen red lvl pos g).cvu = x.cvu := rfl
@[simp] theorem Chan.onGen_ctr (x : Chan) (red : Bool) (lvl : PtrLevel) (pos : Pos) (g : PtrGen → PtrGen) : (x.onGen red lvl pos g).ctr = x.ctr := rfl
@[simp] theorem Chan.onGen_q (x : Chan) (red : Bool) (lvl : PtrLevel) (pos : Pos) (g : PtrGen → PtrGen) : (x.onGen red lvl pos g).q = x.q := rfl
@[simp] theorem Chan.onGen_mlt (x : Chan) (red : Bool) (lvl : PtrLevel) (pos : Pos) (g : PtrGen → PtrGen) : (x.onGen red lvl pos g).mlt = x.mlt := rfl
@[simp] theorem Chan.onGen_flt (x : Chan) (red : Bool) (lvl : PtrLevel) (pos : Pos) (g : PtrGen → PtrGen) : (x.onGen red lvl pos g).flt = x.flt := rfl

/-- The interpreter of a pointer writes the mapper's pointers and generators alone (R143, R147). -/
theorem Chan.pointer_frame (x : Chan) (p : Lane) (lvl : PtrLevel) (pos : Pos) (ind : PtrInd) (conc : Bool) :
    ∃ m : MapSt, x.pointer p lvl pos ind conc = { x with map := m } := by
  unfold Chan.pointer Chan.genFollow
  dsimp only
  split
  · exact ⟨_, rfl⟩
  · split <;> exact ⟨_, rfl⟩

/-! ## What a circuit's positions carry -/

@[simp] theorem Hw.emitBlack_dev (h : Hw) (c : ChanId) (k : CircId) (d : Due) : (h.emitBlack c k d).dev = h.dev := rfl
@[simp] theorem Hw.emitBlack_now (h : Hw) (c : ChanId) (k : CircId) (d : Due) : (h.emitBlack c k d).now = h.now := rfl
@[simp] theorem Hw.emitBlack_drawn (h : Hw) (c : ChanId) (k : CircId) (d : Due) : (h.emitBlack c k d).drawn = h.drawn := rfl
theorem Hw.emitBlack_chan_ne (h : Hw) (c : ChanId) (k : CircId) (d : Due) {e : ChanId} (n : e ≠ c) : (h.emitBlack c k d).chan e = h.chan e := by
  simp [Hw.emitBlack, n]

@[simp] theorem Hw.emitRed_dev (h : Hw) (c : ChanId) (k : CircId) (d : RedDue) : (h.emitRed c k d).dev = h.dev := rfl
@[simp] theorem Hw.emitRed_now (h : Hw) (c : ChanId) (k : CircId) (d : RedDue) : (h.emitRed c k d).now = h.now := rfl
@[simp] theorem Hw.emitRed_drawn (h : Hw) (c : ChanId) (k : CircId) (d : RedDue) : (h.emitRed c k d).drawn = h.drawn := rfl
theorem Hw.emitRed_chan_ne (h : Hw) (c : ChanId) (k : CircId) (d : RedDue) {e : ChanId} (n : e ≠ c) : (h.emitRed c k d).chan e = h.chan e := by
  simp [Hw.emitRed, n]

/-- What is due on the black lanes changes the circuit and its tributary's output alone. -/
theorem Chan.emitBlack_frame (x : Chan) (n : Nat) (k : CircId) (d : Due) :
    ∃ (y : Circ) (m : MapSt), x.emitBlack n k d = { x.setCirc k y with map := m } := by
  unfold Chan.emitBlack Chan.putSub
  dsimp only
  repeat' split
  all_goals exact ⟨_, _, rfl⟩

/-- What is due on the RED lane changes the circuit, its tributary's output and the lane's scrambler alone. -/
theorem Chan.emitRed_frame (x : Chan) (n : Nat) (k : CircId) (d : RedDue) :
    ∃ (y : Circ) (m : MapSt) (r : Scr), x.emitRed n k d = { x.setCirc k y with map := m, red := { x.red with scr := r } } := by
  unfold Chan.emitRed Chan.putSub
  dsimp only
  repeat' split
  all_goals exact ⟨_, _, _, rfl⟩

/-- Outside its terminal loopback a lane's receiver sees the line (R131). -/
theorem Chan.seen_line (x : Chan) (p : Lane) (y : Circ) (o : LineOut) (l : LineSpan) (t : x.terminal p = false) : x.seen p y o l = l := by
  simp [Chan.seen, t]

/-! ## Words, coding, scrambling -/

/-- Every word that passes the seal check is sealed or clear payload, an empty reclaim word, or the fill generator's own (R35). -/
theorem sealOk_iff (clear : Bool) (fill : Word) (w : W40) :
    sealOk clear fill w = true ↔ (w.kind = 0 ∧ (w.seal = true ∨ clear = true)) ∨ (w.kind = 2 ∧ w.seal = false ∧ w.payload = 0)
      ∨ (w.kind = 3 ∧ w.seal = false ∧ w.payload = fill) := by
  simp [sealOk, and_assoc, or_assoc]

/-- No overhead word passes the seal check. -/
theorem sealOk_overhead (clear : Bool) (fill : Word) (w : W40) (k : w.kind = 1) : sealOk clear fill w = false := by simp [sealOk, k]

@[simp] theorem scramble_length (r : Scr) (l : List Bool) : (scramble r l).1.length = l.length := by
  induction l generalizing r with
  | nil => rfl
  | cons b t ih => simp [scramble, ih]

@[simp] theorem descramble_length (r : Scr) (l : List Bool) : (descramble r l).1.length = l.length := by
  induction l generalizing r with
  | nil => rfl
  | cons b t ih => simp [descramble, ih]

@[simp] theorem through_length (f : Scr → List Bool → List Bool × Scr) (r : Scr) (l : List Block66) : (through f r l).1.length = l.length := by
  induction l generalizing r with
  | nil => rfl
  | cons b t ih => simp [through, ih]

/-- Sync headers pass a scrambler unchanged. -/
theorem through_sync (f : Scr → List Bool → List Bool × Scr) (r : Scr) (l : List Block66) :
    (through f r l).1.map Block66.sync = l.map Block66.sync := by
  induction l generalizing r with
  | nil => rfl
  | cons b t ih => simp [through, ih]

/-- Placing bits keeps the length of a container. -/
@[simp] theorem putBits_length (f : Mask → Byte) (ms : List Mask) (l : List Byte) (bs : List Bool) : (putBits f ms l bs).length = l.length := by
  induction ms generalizing l bs with
  | nil => cases l <;> rfl
  | cons m ms ih =>
    cases l with
    | nil => rfl
    | cons b l => simp [putBits, ih]

end Sys2Proof.Machine
end

