-- ==== Sys2Proof/Laws/Ops.lean ====
section
/-!
SUPPORT. Laws/Ops.lean: what each shared operation can do: when a command's gate opens, and what raising a message, an event, a
write-status flag, a count or the record registers leaves alone.
-/
namespace Sys2Proof.Machine

/-- What every step of a fold leaves, the fold leaves. -/
theorem foldl_keeps {α β γ : Type} (f : β → α → β) (p : β → γ) (hf : ∀ b a, p (f b a) = p b) :
    ∀ (l : List α) (b : β), p (l.foldl f b) = p b
  | [], _ => rfl
  | a :: l, b => by rw [List.foldl_cons, foldl_keeps f p hf l, hf]

/-! ## Gates -/

/-- A command that acts while the module works, there. -/
theorem live_on {s : State} {f : Hw → Hw} (h : s.hw.works = true) : live s f = .next { s with hw := f s.hw } := by simp [live, answer, h]

/-- A command that acts while the module works, elsewhere: nothing changes. -/
theorem live_off {s : State} {f : Hw → Hw} (h : s.hw.works = false) : live s f = .next s := by simp [live, answer, h]

theorem watched_on {s : State} {c : ChanId} {f : Hw → Hw} (h : s.hw.works = true) :
    watched s c f = .next { s with hw := (f s.hw).settle s.hw [c] } := by simp [watched, live_on h]

theorem watchedAll_on {s : State} {f : Hw → Hw} (h : s.hw.works = true) :
    watchedAll s f = .next { s with hw := (f s.hw).settle s.hw allChans } := by simp [watchedAll, live_on h]

theorem onActive_on {s : State} {c : ChanId} {f : Hw → Hw} (h : s.hw.works = true) (a : (s.hw.chan c).st = .active) :
    onActive s c f = .next { s with hw := f s.hw } := by simp [onActive, live_on h, Chan.isActive, a]

theorem onLanes_on {s : State} {c : ChanId} {f : Hw → Hw} (h : s.hw.works = true) (a : (s.hw.chan c).st = .active ∨ (s.hw.chan c).st = .diag) :
    onLanes s c f = .next { s with hw := f s.hw } := by simp [onLanes, live_on h, Chan.lanesRun, a]

theorem onActiveW_on {s : State} {c : ChanId} {f : Hw → Hw} (h : s.hw.works = true) (a : (s.hw.chan c).st = .active) :
    onActiveW s c f = .next { s with hw := (f s.hw).settle s.hw [c] } := by simp [onActiveW, watched_on h, Chan.isActive, a]

theorem onLanesW_on {s : State} {c : ChanId} {f : Hw → Hw} (h : s.hw.works = true) (a : (s.hw.chan c).st = .active ∨ (s.hw.chan c).st = .diag) :
    onLanesW s c f = .next { s with hw := (f s.hw).settle s.hw [c] } := by simp [onLanesW, watched_on h, Chan.lanesRun, a]

/-- A channel that is ACTIVE raises messages and events. -/
theorem raises_of_active {x : Chan} (a : x.st = .active) : x.raises = true := by simp [Chan.raises, a]

/-! ## Device registers -/

@[simp] theorem Hw.onDev_devReg (h : Hw) (f : Dev → Dev) (off : Nat) : (h.onDev f).devReg off = (f h.dev).reg off := rfl
@[simp] theorem Hw.onFcl_devReg (h : Hw) (f : Fcl → Fcl) (off : Nat) : (h.onFcl f).devReg off = h.devReg off := rfl
@[simp] theorem Hw.onBoot_devReg (h : Hw) (f : Boot → Boot) (off : Nat) : (h.onBoot f).devReg off = h.devReg off := rfl
@[simp] theorem Hw.onPower_devReg (h : Hw) (f : Power → Power) (off : Nat) : (h.onPower f).devReg off = h.devReg off := rfl
@[simp] theorem Hw.setChan_devReg (h : Hw) (c : ChanId) (x : Chan) (off : Nat) : (h.setChan c x).devReg off = h.devReg off := rfl
@[simp] theorem Hw.onChan_devReg (h : Hw) (c : ChanId) (f : Chan → Chan) (off : Nat) : (h.onChan c f).devReg off = h.devReg off := rfl
@[simp] theorem Hw.setChReg_devReg (h : Hw) (c : ChanId) (o : Nat) (w : Word) (off : Nat) : (h.setChReg c o w).devReg off = h.devReg off := rfl
@[simp] theorem Hw.count_devReg (h : Hw) (c : ChanId) (g i n : Nat) (off : Nat) : (h.count c g i n).devReg off = h.devReg off := rfl
@[simp] theorem Hw.setDevReg_devReg (h : Hw) (off : Nat) (w : Word) (o : Nat) :
    (h.setDevReg off w).devReg o = if o = off then w else h.devReg o := Hw.devReg_setDevReg h off w o

/-! ## Events: the router changes the functions alone -/

@[simp] theorem Hw.notifyOne_boot (h : Hw) (f : Func) (src : Nat) : (h.notifyOne f src).dev.boot = h.dev.boot := by unfold Hw.notifyOne; split <;> [rfl; (cases f <;> rfl)]
@[simp] theorem Hw.notifyOne_power (h : Hw) (f : Func) (src : Nat) : (h.notifyOne f src).dev.power = h.dev.power := by unfold Hw.notifyOne; split <;> [rfl; (cases f <;> rfl)]
@[simp] theorem Hw.notifyOne_fuses (h : Hw) (f : Func) (src : Nat) : (h.notifyOne f src).dev.fuses = h.dev.fuses := by unfold Hw.notifyOne; split <;> [rfl; (cases f <;> rfl)]
@[simp] theorem Hw.notifyOne_root (h : Hw) (f : Func) (src : Nat) : (h.notifyOne f src).dev.root = h.dev.root := by unfold Hw.notifyOne; split <;> [rfl; (cases f <;> rfl)]
@[simp] theorem Hw.notifyOne_stn (h : Hw) (f : Func) (src : Nat) : (h.notifyOne f src).dev.stn = h.dev.stn := by unfold Hw.notifyOne; split <;> [rfl; (cases f <;> rfl)]
@[simp] theorem Hw.notifyOne_sys (h : Hw) (f : Func) (src : Nat) : (h.notifyOne f src).dev.sys = h.dev.sys := by unfold Hw.notifyOne; split <;> [rfl; (cases f <;> rfl)]
@[simp] theorem Hw.notifyOne_fcl (h : Hw) (f : Func) (src : Nat) : (h.notifyOne f src).dev.fcl = h.dev.fcl := by unfold Hw.notifyOne; split <;> [rfl; (cases f <;> rfl)]
@[simp] theorem Hw.notifyOne_regs (h : Hw) (f : Func) (src : Nat) : (h.notifyOne f src).dev.regs = h.dev.regs := by unfold Hw.notifyOne; split <;> [rfl; (cases f <;> rfl)]
@[simp] theorem Hw.notifyOne_pf0 (h : Hw) (f : Func) (src : Nat) : (h.notifyOne f src).dev.pf0 = h.dev.pf0 := by unfold Hw.notifyOne; split <;> [rfl; (cases f <;> rfl)]
@[simp] theorem Hw.notifyOne_pf1 (h : Hw) (f : Func) (src : Nat) : (h.notifyOne f src).dev.pf1 = h.dev.pf1 := by unfold Hw.notifyOne; split <;> [rfl; (cases f <;> rfl)]
@[simp] theorem Hw.notifyOne_isv (h : Hw) (f : Func) (src : Nat) : (h.notifyOne f src).dev.isv = h.dev.isv := by unfold Hw.notifyOne; split <;> [rfl; (cases f <;> rfl)]
@[simp] theorem Hw.notifyOne_dbg (h : Hw) (f : Func) (src : Nat) : (h.notifyOne f src).dev.dbg = h.dev.dbg := by unfold Hw.notifyOne; split <;> [rfl; (cases f <;> rfl)]
@[simp] theorem Hw.notifyOne_q (h : Hw) (f : Func) (src : Nat) : (h.notifyOne f src).dev.q = h.dev.q := by unfold Hw.notifyOne; split <;> [rfl; (cases f <;> rfl)]
@[simp] theorem Hw.notifyOne_link (h : Hw) (f : Func) (src : Nat) : (h.notifyOne f src).dev.link = h.dev.link := by unfold Hw.notifyOne; split <;> [rfl; (cases f <;> rfl)]
@[simp] theorem Hw.notifyOne_flw (h : Hw) (f : Func) (src : Nat) : (h.notifyOne f src).dev.flw = h.dev.flw := by unfold Hw.notifyOne; split <;> [rfl; (cases f <;> rfl)]
@[simp] theorem Hw.notifyOne_armed (h : Hw) (f : Func) (src : Nat) : (h.notifyOne f src).dev.armed = h.dev.armed := by unfold Hw.notifyOne; split <;> [rfl; (cases f <;> rfl)]
@[simp] theorem Hw.notifyOne_kbuf (h : Hw) (f : Func) (src : Nat) : (h.notifyOne f src).dev.kbuf = h.dev.kbuf := by unfold Hw.notifyOne; split <;> [rfl; (cases f <;> rfl)]
@[simp] theorem Hw.notifyOne_routing (h : Hw) (f : Func) (src : Nat) : (h.notifyOne f src).dev.routing = h.dev.routing := by unfold Hw.notifyOne; split <;> [rfl; (cases f <;> rfl)]
@[simp] theorem Hw.notifyOne_remapSet (h : Hw) (f : Func) (src : Nat) : (h.notifyOne f src).dev.remapSet = h.dev.remapSet := by unfold Hw.notifyOne; split <;> [rfl; (cases f <;> rfl)]
@[simp] theorem Hw.notifyOne_isvStall (h : Hw) (f : Func) (src : Nat) : (h.notifyOne f src).dev.isvStall = h.dev.isvStall := by unfold Hw.notifyOne; split <;> [rfl; (cases f <;> rfl)]
@[simp] theorem Hw.notifyOne_shareSet (h : Hw) (f : Func) (src : Nat) : (h.notifyOne f src).dev.shareSet = h.dev.shareSet := by unfold Hw.notifyOne; split <;> [rfl; (cases f <;> rfl)]
@[simp] theorem Hw.notifyOne_chan (h : Hw) (f : Func) (src : Nat) (c' : ChanId) : (h.notifyOne f src).chan c' = h.chan c' := by unfold Hw.notifyOne; split <;> [rfl; (cases f <;> rfl)]
@[simp] theorem Hw.notifyOne_now (h : Hw) (f : Func) (src : Nat) : (h.notifyOne f src).now = h.now := by unfold Hw.notifyOne; split <;> [rfl; (cases f <;> rfl)]
@[simp] theorem Hw.notifyOne_drawn (h : Hw) (f : Func) (src : Nat) : (h.notifyOne f src).drawn = h.drawn := by unfold Hw.notifyOne; split <;> [rfl; (cases f <;> rfl)]
@[simp] theorem Hw.notifyOne_devReg (h : Hw) (f : Func) (src : Nat) (o : Nat) : (h.notifyOne f src).devReg o = h.devReg o := by simp [Hw.devReg, Dev.reg]

@[simp] theorem Hw.notify_boot (h : Hw) (src : Nat) : (h.notify src).dev.boot = h.dev.boot := by simp [Hw.notify]
@[simp] theorem Hw.notify_power (h : Hw) (src : Nat) : (h.notify src).dev.power = h.dev.power := by simp [Hw.notify]
@[simp] theorem Hw.notify_fuses (h : Hw) (src : Nat) : (h.notify src).dev.fuses = h.dev.fuses := by simp [Hw.notify]
@[simp] theorem Hw.notify_root (h : Hw) (src : Nat) : (h.notify src).dev.root = h.dev.root := by simp [Hw.notify]
@[simp] theorem Hw.notify_stn (h : Hw) (src : Nat) : (h.notify src).dev.stn = h.dev.stn := by simp [Hw.notify]
@[simp] theorem Hw.notify_sys (h : Hw) (src : Nat) : (h.notify src).dev.sys = h.dev.sys := by simp [Hw.notify]
@[simp] theorem Hw.notify_fcl (h : Hw) (src : Nat) : (h.notify src).dev.fcl = h.dev.fcl := by simp [Hw.notify]
@[simp] theorem Hw.notify_regs (h : Hw) (src : Nat) : (h.notify src).dev.regs = h.dev.regs := by simp [Hw.notify]
@[simp] theorem Hw.notify_pf0 (h : Hw) (src : Nat) : (h.notify src).dev.pf0 = h.dev.pf0 := by simp [Hw.notify]
@[simp] theorem Hw.notify_pf1 (h : Hw) (src : Nat) : (h.notify src).dev.pf1 = h.dev.pf1 := by simp [Hw.notify]
@[simp] theorem Hw.notify_isv (h : Hw) (src : Nat) : (h.notify src).dev.isv = h.dev.isv := by simp [Hw.notify]
@[simp] theorem Hw.notify_dbg (h : Hw) (src : Nat) : (h.notify src).dev.dbg = h.dev.dbg := by simp [Hw.notify]
@[simp] theorem Hw.notify_q (h : Hw) (src : Nat) : (h.notify src).dev.q = h.dev.q := by simp [Hw.notify]
@[simp] theorem Hw.notify_link (h : Hw) (src : Nat) : (h.notify src).dev.link = h.dev.link := by simp [Hw.notify]
@[simp] theorem Hw.notify_flw (h : Hw) (src : Nat) : (h.notify src).dev.flw = h.dev.flw := by simp [Hw.notify]
@[simp] theorem Hw.notify_armed (h : Hw) (src : Nat) : (h.notify src).dev.armed = h.dev.armed := by simp [Hw.notify]
@[simp] theorem Hw.notify_kbuf (h : Hw) (src : Nat) : (h.notify src).dev.kbuf = h.dev.kbuf := by simp [Hw.notify]
@[simp] theorem Hw.notify_routing (h : Hw) (src : Nat) : (h.notify src).dev.routing = h.dev.routing := by simp [Hw.notify]
@[simp] theorem Hw.notify_remapSet (h : Hw) (src : Nat) : (h.notify src).dev.remapSet = h.dev.remapSet := by simp [Hw.notify]
@[simp] theorem Hw.notify_isvStall (h : Hw) (src : Nat) : (h.notify src).dev.isvStall = h.dev.isvStall := by simp [Hw.notify]
@[simp] theorem Hw.notify_shareSet (h : Hw) (src : Nat) : (h.notify src).dev.shareSet = h.dev.shareSet := by simp [Hw.notify]
@[simp] theorem Hw.notify_chan (h : Hw) (src : Nat) (c' : ChanId) : (h.notify src).chan c' = h.chan c' := by simp [Hw.notify]
@[simp] theorem Hw.notify_now (h : Hw) (src : Nat) : (h.notify src).now = h.now := by simp [Hw.notify]
@[simp] theorem Hw.notify_drawn (h : Hw) (src : Nat) : (h.notify src).drawn = h.drawn := by simp [Hw.notify]
@[simp] theorem Hw.notify_devReg (h : Hw) (src : Nat) (o : Nat) : (h.notify src).devReg o = h.devReg o := by simp [Hw.devReg, Dev.reg]

@[simp] theorem Hw.devEvent_boot (h : Hw) (off d : Nat) (fl : Word) : (h.devEvent off d fl).dev.boot = h.dev.boot := by simp [Hw.devEvent]
@[simp] theorem Hw.devEvent_power (h : Hw) (off d : Nat) (fl : Word) : (h.devEvent off d fl).dev.power = h.dev.power := by simp [Hw.devEvent]
@[simp] theorem Hw.devEvent_fuses (h : Hw) (off d : Nat) (fl : Word) : (h.devEvent off d fl).dev.fuses = h.dev.fuses := by simp [Hw.devEvent]
@[simp] theorem Hw.devEvent_root (h : Hw) (off d : Nat) (fl : Word) : (h.devEvent off d fl).dev.root = h.dev.root := by simp [Hw.devEvent]
@[simp] theorem Hw.devEvent_stn (h : Hw) (off d : Nat) (fl : Word) : (h.devEvent off d fl).dev.stn = h.dev.stn := by simp [Hw.devEvent]
@[simp] theorem Hw.devEvent_sys (h : Hw) (off d : Nat) (fl : Word) : (h.devEvent off d fl).dev.sys = h.dev.sys := by simp [Hw.devEvent]
@[simp] theorem Hw.devEvent_fcl (h : Hw) (off d : Nat) (fl : Word) : (h.devEvent off d fl).dev.fcl = h.dev.fcl := by simp [Hw.devEvent]
@[simp] theorem Hw.devEvent_pf0 (h : Hw) (off d : Nat) (fl : Word) : (h.devEvent off d fl).dev.pf0 = h.dev.pf0 := by simp [Hw.devEvent]
@[simp] theorem Hw.devEvent_pf1 (h : Hw) (off d : Nat) (fl : Word) : (h.devEvent off d fl).dev.pf1 = h.dev.pf1 := by simp [Hw.devEvent]
@[simp] theorem Hw.devEvent_isv (h : Hw) (off d : Nat) (fl : Word) : (h.devEvent off d fl).dev.isv = h.dev.isv := by simp [Hw.devEvent]
@[simp] theorem Hw.devEvent_dbg (h : Hw) (off d : Nat) (fl : Word) : (h.devEvent off d fl).dev.dbg = h.dev.dbg := by simp [Hw.devEvent]
@[simp] theorem Hw.devEvent_q (h : Hw) (off d : Nat) (fl : Word) : (h.devEvent off d fl).dev.q = h.dev.q := by simp [Hw.devEvent]
@[simp] theorem Hw.devEvent_link (h : Hw) (off d : Nat) (fl : Word) : (h.devEvent off d fl).dev.link = h.dev.link := by simp [Hw.devEvent]
@[simp] theorem Hw.devEvent_flw (h : Hw) (off d : Nat) (fl : Word) : (h.devEvent off d fl).dev.flw = h.dev.flw := by simp [Hw.devEvent]
@[simp] theorem Hw.devEvent_armed (h : Hw) (off d : Nat) (fl : Word) : (h.devEvent off d fl).dev.armed = h.dev.armed := by simp [Hw.devEvent]
@[simp] theorem Hw.devEvent_kbuf (h : Hw) (off d : Nat) (fl : Word) : (h.devEvent off d fl).dev.kbuf = h.dev.kbuf := by simp [Hw.devEvent]
@[simp] theorem Hw.devEvent_routing (h : Hw) (off d : Nat) (fl : Word) : (h.devEvent off d fl).dev.routing = h.dev.routing := by simp [Hw.devEvent]
@[simp] theorem Hw.devEvent_remapSet (h : Hw) (off d : Nat) (fl : Word) : (h.devEvent off d fl).dev.remapSet = h.dev.remapSet := by simp [Hw.devEvent]
@[simp] theorem Hw.devEvent_isvStall (h : Hw) (off d : Nat) (fl : Word) : (h.devEvent off d fl).dev.isvStall = h.dev.isvStall := by simp [Hw.devEvent]
@[simp] theorem Hw.devEvent_shareSet (h : Hw) (off d : Nat) (fl : Word) : (h.devEvent off d fl).dev.shareSet = h.dev.shareSet := by simp [Hw.devEvent]
@[simp] theorem Hw.devEvent_chan (h : Hw) (off d : Nat) (fl : Word) (c' : ChanId) : (h.devEvent off d fl).chan c' = h.chan c' := by simp [Hw.devEvent]
@[simp] theorem Hw.devEvent_now (h : Hw) (off d : Nat) (fl : Word) : (h.devEvent off d fl).now = h.now := by simp [Hw.devEvent]
@[simp] theorem Hw.devEvent_drawn (h : Hw) (off d : Nat) (fl : Word) : (h.devEvent off d fl).drawn = h.drawn := by simp [Hw.devEvent]

/-- A device event: its register takes the flags and a new SEQ, and no other register changes. -/
@[simp] theorem Hw.devEvent_devReg (h : Hw) (off d : Nat) (fl : Word) (o : Nat) :
    (h.devEvent off d fl).devReg o = if o = off then evWord (h.devReg off) fl else h.devReg o := by simp [Hw.devEvent]

@[simp] theorem Hw.chEvent_boot (h : Hw) (c : ChanId) (off j : Nat) (fl : Word) : (h.chEvent c off j fl).dev.boot = h.dev.boot := by unfold Hw.chEvent; split <;> simp
@[simp] theorem Hw.chEvent_power (h : Hw) (c : ChanId) (off j : Nat) (fl : Word) : (h.chEvent c off j fl).dev.power = h.dev.power := by unfold Hw.chEvent; split <;> simp
@[simp] theorem Hw.chEvent_fuses (h : Hw) (c : ChanId) (off j : Nat) (fl : Word) : (h.chEvent c off j fl).dev.fuses = h.dev.fuses := by unfold Hw.chEvent; split <;> simp
@[simp] theorem Hw.chEvent_root (h : Hw) (c : ChanId) (off j : Nat) (fl : Word) : (h.chEvent c off j fl).dev.root = h.dev.root := by unfold Hw.chEvent; split <;> simp
@[simp] theorem Hw.chEvent_stn (h : Hw) (c : ChanId) (off j : Nat) (fl : Word) : (h.chEvent c off j fl).dev.stn = h.dev.stn := by unfold Hw.chEvent; split <;> simp
@[simp] theorem Hw.chEvent_sys (h : Hw) (c : ChanId) (off j : Nat) (fl : Word) : (h.chEvent c off j fl).dev.sys = h.dev.sys := by unfold Hw.chEvent; split <;> simp
@[simp] theorem Hw.chEvent_fcl (h : Hw) (c : ChanId) (off j : Nat) (fl : Word) : (h.chEvent c off j fl).dev.fcl = h.dev.fcl := by unfold Hw.chEvent; split <;> simp
@[simp] theorem Hw.chEvent_regs (h : Hw) (c : ChanId) (off j : Nat) (fl : Word) : (h.chEvent c off j fl).dev.regs = h.dev.regs := by unfold Hw.chEvent; split <;> simp
@[simp] theorem Hw.chEvent_pf0 (h : Hw) (c : ChanId) (off j : Nat) (fl : Word) : (h.chEvent c off j fl).dev.pf0 = h.dev.pf0 := by unfold Hw.chEvent; split <;> simp
@[simp] theorem Hw.chEvent_pf1 (h : Hw) (c : ChanId) (off j : Nat) (fl : Word) : (h.chEvent c off j fl).dev.pf1 = h.dev.pf1 := by unfold Hw.chEvent; split <;> simp
@[simp] theorem Hw.chEvent_isv (h : Hw) (c : ChanId) (off j : Nat) (fl : Word) : (h.chEvent c off j fl).dev.isv = h.dev.isv := by unfold Hw.chEvent; split <;> simp
@[simp] theorem Hw.chEvent_dbg (h : Hw) (c : ChanId) (off j : Nat) (fl : Word) : (h.chEvent c off j fl).dev.dbg = h.dev.dbg := by unfold Hw.chEvent; split <;> simp
@[simp] theorem Hw.chEvent_q (h : Hw) (c : ChanId) (off j : Nat) (fl : Word) : (h.chEvent c off j fl).dev.q = h.dev.q := by unfold Hw.chEvent; split <;> simp
@[simp] theorem Hw.chEvent_link (h : Hw) (c : ChanId) (off j : Nat) (fl : Word) : (h.chEvent c off j fl).dev.link = h.dev.link := by unfold Hw.chEvent; split <;> simp
@[simp] theorem Hw.chEvent_flw (h : Hw) (c : ChanId) (off j : Nat) (fl : Word) : (h.chEvent c off j fl).dev.flw = h.dev.flw := by unfold Hw.chEvent; split <;> simp
@[simp] theorem Hw.chEvent_armed (h : Hw) (c : ChanId) (off j : Nat) (fl : Word) : (h.chEvent c off j fl).dev.armed = h.dev.armed := by unfold Hw.chEvent; split <;> simp
@[simp] theorem Hw.chEvent_kbuf (h : Hw) (c : ChanId) (off j : Nat) (fl : Word) : (h.chEvent c off j fl).dev.kbuf = h.dev.kbuf := by unfold Hw.chEvent; split <;> simp
@[simp] theorem Hw.chEvent_routing (h : Hw) (c : ChanId) (off j : Nat) (fl : Word) : (h.chEvent c off j fl).dev.routing = h.dev.routing := by unfold Hw.chEvent; split <;> simp
@[simp] theorem Hw.chEvent_remapSet (h : Hw) (c : ChanId) (off j : Nat) (fl : Word) : (h.chEvent c off j fl).dev.remapSet = h.dev.remapSet := by unfold Hw.chEvent; split <;> simp
@[simp] theorem Hw.chEvent_isvStall (h : Hw) (c : ChanId) (off j : Nat) (fl : Word) : (h.chEvent c off j fl).dev.isvStall = h.dev.isvStall := by unfold Hw.chEvent; split <;> simp
@[simp] theorem Hw.chEvent_shareSet (h : Hw) (c : ChanId) (off j : Nat) (fl : Word) : (h.chEvent c off j fl).dev.shareSet = h.dev.shareSet := by unfold Hw.chEvent; split <;> simp
@[simp] theorem Hw.chEvent_now (h : Hw) (c : ChanId) (off j : Nat) (fl : Word) : (h.chEvent c off j fl).now = h.now := by unfold Hw.chEvent; split <;> simp
@[simp] theorem Hw.chEvent_drawn (h : Hw) (c : ChanId) (off j : Nat) (fl : Word) : (h.chEvent c off j fl).drawn = h.drawn := by unfold Hw.chEvent; split <;> simp
@[simp] theorem Hw.chEvent_devReg (h : Hw) (c : ChanId) (off j : Nat) (fl : Word) (o : Nat) : (h.chEvent c off j fl).devReg o = h.devReg o := by simp [Hw.devReg, Dev.reg]

/-- An event of a channel that raises events: its register takes the flags and a new SEQ, and nothing else of the channel changes. -/
theorem Hw.chEvent_chan_on (h : Hw) (c : ChanId) (off j : Nat) (fl : Word) (r : (h.chan c).raises = true) (d : ChanId) :
    (h.chEvent c off j fl).chan d = if d = c then (h.chan c).setReg off (evWord ((h.chan c).reg off) fl) else h.chan d := by
  simp [Hw.chEvent, r, Hw.chReg]

/-- No channel event changes anything of a channel but its registers. -/
theorem Hw.chEvent_chan_ne (h : Hw) (c : ChanId) (off j : Nat) (fl : Word) {d : ChanId} (e : d ≠ c) : (h.chEvent c off j fl).chan d = h.chan d := by
  unfold Hw.chEvent; split <;> simp [e]
@[simp] theorem Hw.chEvent_chan_st (h : Hw) (c : ChanId) (off j : Nat) (fl : Word) (d : ChanId) : ((h.chEvent c off j fl).chan d).st = (h.chan d).st := by
  unfold Hw.chEvent; split <;> simp; split <;> simp_all
@[simp] theorem Hw.chEvent_chan_island (h : Hw) (c : ChanId) (off j : Nat) (fl : Word) (d : ChanId) : ((h.chEvent c off j fl).chan d).island = (h.chan d).island := by
  unfold Hw.chEvent; split <;> simp; split <;> simp_all
@[simp] theorem Hw.chEvent_chan_wasAbsent (h : Hw) (c : ChanId) (off j : Nat) (fl : Word) (d : ChanId) : ((h.chEvent c off j fl).chan d).wasAbsent = (h.chan d).wasAbsent := by
  unfold Hw.chEvent; split <;> simp; split <;> simp_all
@[simp] theorem Hw.chEvent_chan_squelch (h : Hw) (c : ChanId) (off j : Nat) (fl : Word) (d : ChanId) : ((h.chEvent c off j fl).chan d).squelch = (h.chan d).squelch := by
  unfold Hw.chEvent; split <;> simp; split <;> simp_all
@[simp] theorem Hw.chEvent_chan_red (h : Hw) (c : ChanId) (off j : Nat) (fl : Word) (d : ChanId) : ((h.chEvent c off j fl).chan d).red = (h.chan d).red := by
  unfold Hw.chEvent; split <;> simp; split <;> simp_all
@[simp] theorem Hw.chEvent_chan_bkw (h : Hw) (c : ChanId) (off j : Nat) (fl : Word) (d : ChanId) : ((h.chEvent c off j fl).chan d).bkw = (h.chan d).bkw := by
  unfold Hw.chEvent; split <;> simp; split <;> simp_all
@[simp] theorem Hw.chEvent_chan_bkp (h : Hw) (c : ChanId) (off j : Nat) (fl : Word) (d : ChanId) : ((h.chEvent c off j fl).chan d).bkp = (h.chan d).bkp := by
  unfold Hw.chEvent; split <;> simp; split <;> simp_all
@[simp] theorem Hw.chEvent_chan_map (h : Hw) (c : ChanId) (off j : Nat) (fl : Word) (d : ChanId) : ((h.chEvent c off j fl).chan d).map = (h.chan d).map := by
  unfold Hw.chEvent; split <;> simp; split <;> simp_all
@[simp] theorem Hw.chEvent_chan_circ (h : Hw) (c : ChanId) (off j : Nat) (fl : Word) (d : ChanId) : ((h.chEvent c off j fl).chan d).circ = (h.chan d).circ := by
  unfold Hw.chEvent; split <;> simp; split <;> simp_all
@[simp] theorem Hw.chEvent_chan_cph (h : Hw) (c : ChanId) (off j : Nat) (fl : Word) (d : ChanId) : ((h.chEvent c off j fl).chan d).cph = (h.chan d).cph := by
  unfold Hw.chEvent; split <;> simp; split <;> simp_all
@[simp] theorem Hw.chEvent_chan_store (h : Hw) (c : ChanId) (off j : Nat) (fl : Word) (d : ChanId) : ((h.chEvent c off j fl).chan d).store = (h.chan d).store := by
  unfold Hw.chEvent; split <;> simp; split <;> simp_all
@[simp] theorem Hw.chEvent_chan_psw (h : Hw) (c : ChanId) (off j : Nat) (fl : Word) (d : ChanId) : ((h.chEvent c off j fl).chan d).psw = (h.chan d).psw := by
  unfold Hw.chEvent; split <;> simp; split <;> simp_all
@[simp] theorem Hw.chEvent_chan_tim (h : Hw) (c : ChanId) (off j : Nat) (fl : Word) (d : ChanId) : ((h.chEvent c off j fl).chan d).tim = (h.chan d).tim := by
  unfold Hw.chEvent; split <;> simp; split <;> simp_all
@[simp] theorem Hw.chEvent_chan_cvu (h : Hw) (c : ChanId) (off j : Nat) (fl : Word) (d : ChanId) : ((h.chEvent c off j fl).chan d).cvu = (h.chan d).cvu := by
  unfold Hw.chEvent; split <;> simp; split <;> simp_all
@[simp] theorem Hw.chEvent_chan_ctr (h : Hw) (c : ChanId) (off j : Nat) (fl : Word) (d : ChanId) : ((h.chEvent c off j fl).chan d).ctr = (h.chan d).ctr := by
  unfold Hw.chEvent; split <;> simp; split <;> simp_all
@[simp] theorem Hw.chEvent_chan_q (h : Hw) (c : ChanId) (off j : Nat) (fl : Word) (d : ChanId) : ((h.chEvent c off j fl).chan d).q = (h.chan d).q := by
  unfold Hw.chEvent; split <;> simp; split <;> simp_all
@[simp] theorem Hw.chEvent_chan_mlt (h : Hw) (c : ChanId) (off j : Nat) (fl : Word) (d : ChanId) : ((h.chEvent c off j fl).chan d).mlt = (h.chan d).mlt := by
  unfold Hw.chEvent; split <;> simp; split <;> simp_all
@[simp] theorem Hw.chEvent_chan_flt (h : Hw) (c : ChanId) (off j : Nat) (fl : Word) (d : ChanId) : ((h.chEvent c off j fl).chan d).flt = (h.chan d).flt := by
  unfold Hw.chEvent; split <;> simp; split <;> simp_all

@[simp] theorem Hw.chNotify_boot (h : Hw) (c : ChanId) (j : Nat) : (h.chNotify c j).dev.boot = h.dev.boot := by unfold Hw.chNotify; split <;> simp
@[simp] theorem Hw.chNotify_power (h : Hw) (c : ChanId) (j : Nat) : (h.chNotify c j).dev.power = h.dev.power := by unfold Hw.chNotify; split <;> simp
@[simp] theorem Hw.chNotify_fuses (h : Hw) (c : ChanId) (j : Nat) : (h.chNotify c j).dev.fuses = h.dev.fuses := by unfold Hw.chNotify; split <;> simp
@[simp] theorem Hw.chNotify_root (h : Hw) (c : ChanId) (j : Nat) : (h.chNotify c j).dev.root = h.dev.root := by unfold Hw.chNotify; split <;> simp
@[simp] theorem Hw.chNotify_stn (h : Hw) (c : ChanId) (j : Nat) : (h.chNotify c j).dev.stn = h.dev.stn := by unfold Hw.chNotify; split <;> simp
@[simp] theorem Hw.chNotify_sys (h : Hw) (c : ChanId) (j : Nat) : (h.chNotify c j).dev.sys = h.dev.sys := by unfold Hw.chNotify; split <;> simp
@[simp] theorem Hw.chNotify_fcl (h : Hw) (c : ChanId) (j : Nat) : (h.chNotify c j).dev.fcl = h.dev.fcl := by unfold Hw.chNotify; split <;> simp
@[simp] theorem Hw.chNotify_regs (h : Hw) (c : ChanId) (j : Nat) : (h.chNotify c j).dev.regs = h.dev.regs := by unfold Hw.chNotify; split <;> simp
@[simp] theorem Hw.chNotify_pf0 (h : Hw) (c : ChanId) (j : Nat) : (h.chNotify c j).dev.pf0 = h.dev.pf0 := by unfold Hw.chNotify; split <;> simp
@[simp] theorem Hw.chNotify_pf1 (h : Hw) (c : ChanId) (j : Nat) : (h.chNotify c j).dev.pf1 = h.dev.pf1 := by unfold Hw.chNotify; split <;> simp
@[simp] theorem Hw.chNotify_isv (h : Hw) (c : ChanId) (j : Nat) : (h.chNotify c j).dev.isv = h.dev.isv := by unfold Hw.chNotify; split <;> simp
@[simp] theorem Hw.chNotify_dbg (h : Hw) (c : ChanId) (j : Nat) : (h.chNotify c j).dev.dbg = h.dev.dbg := by unfold Hw.chNotify; split <;> simp
@[simp] theorem Hw.chNotify_q (h : Hw) (c : ChanId) (j : Nat) : (h.chNotify c j).dev.q = h.dev.q := by unfold Hw.chNotify; split <;> simp
@[simp] theorem Hw.chNotify_link (h : Hw) (c : ChanId) (j : Nat) : (h.chNotify c j).dev.link = h.dev.link := by unfold Hw.chNotify; split <;> simp
@[simp] theorem Hw.chNotify_flw (h : Hw) (c : ChanId) (j : Nat) : (h.chNotify c j).dev.flw = h.dev.flw := by unfold Hw.chNotify; split <;> simp
@[simp] theorem Hw.chNotify_armed (h : Hw) (c : ChanId) (j : Nat) : (h.chNotify c j).dev.armed = h.dev.armed := by unfold Hw.chNotify; split <;> simp
@[simp] theorem Hw.chNotify_kbuf (h : Hw) (c : ChanId) (j : Nat) : (h.chNotify c j).dev.kbuf = h.dev.kbuf := by unfold Hw.chNotify; split <;> simp
@[simp] theorem Hw.chNotify_routing (h : Hw) (c : ChanId) (j : Nat) : (h.chNotify c j).dev.routing = h.dev.routing := by unfold Hw.chNotify; split <;> simp
@[simp] theorem Hw.chNotify_remapSet (h : Hw) (c : ChanId) (j : Nat) : (h.chNotify c j).dev.remapSet = h.dev.remapSet := by unfold Hw.chNotify; split <;> simp
@[simp] theorem Hw.chNotify_isvStall (h : Hw) (c : ChanId) (j : Nat) : (h.chNotify c j).dev.isvStall = h.dev.isvStall := by unfold Hw.chNotify; split <;> simp
@[simp] theorem Hw.chNotify_shareSet (h : Hw) (c : ChanId) (j : Nat) : (h.chNotify c j).dev.shareSet = h.dev.shareSet := by unfold Hw.chNotify; split <;> simp
@[simp] theorem Hw.chNotify_chan (h : Hw) (c : ChanId) (j : Nat) (c' : ChanId) : (h.chNotify c j).chan c' = h.chan c' := by unfold Hw.chNotify; split <;> simp
@[simp] theorem Hw.chNotify_now (h : Hw) (c : ChanId) (j : Nat) : (h.chNotify c j).now = h.now := by unfold Hw.chNotify; split <;> simp
@[simp] theorem Hw.chNotify_drawn (h : Hw) (c : ChanId) (j : Nat) : (h.chNotify c j).drawn = h.drawn := by unfold Hw.chNotify; split <;> simp
@[simp] theorem Hw.chNotify_devReg (h : Hw) (c : ChanId) (j : Nat) (o : Nat) : (h.chNotify c j).devReg o = h.devReg o := by simp [Hw.devReg, Dev.reg]

/-! ## Messages: they change the collector alone -/

@[simp] theorem Hw.raiseAny_boot (h : Hw) (m : BitVec 64) : (h.raiseAny m).dev.boot = h.dev.boot := by unfold Hw.raiseAny; split <;> simp
@[simp] theorem Hw.raiseAny_power (h : Hw) (m : BitVec 64) : (h.raiseAny m).dev.power = h.dev.power := by unfold Hw.raiseAny; split <;> simp
@[simp] theorem Hw.raiseAny_fuses (h : Hw) (m : BitVec 64) : (h.raiseAny m).dev.fuses = h.dev.fuses := by unfold Hw.raiseAny; split <;> simp
@[simp] theorem Hw.raiseAny_root (h : Hw) (m : BitVec 64) : (h.raiseAny m).dev.root = h.dev.root := by unfold Hw.raiseAny; split <;> simp
@[simp] theorem Hw.raiseAny_stn (h : Hw) (m : BitVec 64) : (h.raiseAny m).dev.stn = h.dev.stn := by unfold Hw.raiseAny; split <;> simp
@[simp] theorem Hw.raiseAny_sys (h : Hw) (m : BitVec 64) : (h.raiseAny m).dev.sys = h.dev.sys := by unfold Hw.raiseAny; split <;> simp
@[simp] theorem Hw.raiseAny_regs (h : Hw) (m : BitVec 64) : (h.raiseAny m).dev.regs = h.dev.regs := by unfold Hw.raiseAny; split <;> simp
@[simp] theorem Hw.raiseAny_pf0 (h : Hw) (m : BitVec 64) : (h.raiseAny m).dev.pf0 = h.dev.pf0 := by unfold Hw.raiseAny; split <;> simp
@[simp] theorem Hw.raiseAny_pf1 (h : Hw) (m : BitVec 64) : (h.raiseAny m).dev.pf1 = h.dev.pf1 := by unfold Hw.raiseAny; split <;> simp
@[simp] theorem Hw.raiseAny_isv (h : Hw) (m : BitVec 64) : (h.raiseAny m).dev.isv = h.dev.isv := by unfold Hw.raiseAny; split <;> simp
@[simp] theorem Hw.raiseAny_dbg (h : Hw) (m : BitVec 64) : (h.raiseAny m).dev.dbg = h.dev.dbg := by unfold Hw.raiseAny; split <;> simp
@[simp] theorem Hw.raiseAny_q (h : Hw) (m : BitVec 64) : (h.raiseAny m).dev.q = h.dev.q := by unfold Hw.raiseAny; split <;> simp
@[simp] theorem Hw.raiseAny_f0 (h : Hw) (m : BitVec 64) : (h.raiseAny m).dev.f0 = h.dev.f0 := by unfold Hw.raiseAny; split <;> simp
@[simp] theorem Hw.raiseAny_f1 (h : Hw) (m : BitVec 64) : (h.raiseAny m).dev.f1 = h.dev.f1 := by unfold Hw.raiseAny; split <;> simp
@[simp] theorem Hw.raiseAny_link (h : Hw) (m : BitVec 64) : (h.raiseAny m).dev.link = h.dev.link := by unfold Hw.raiseAny; split <;> simp
@[simp] theorem Hw.raiseAny_flw (h : Hw) (m : BitVec 64) : (h.raiseAny m).dev.flw = h.dev.flw := by unfold Hw.raiseAny; split <;> simp
@[simp] theorem Hw.raiseAny_armed (h : Hw) (m : BitVec 64) : (h.raiseAny m).dev.armed = h.dev.armed := by unfold Hw.raiseAny; split <;> simp
@[simp] theorem Hw.raiseAny_kbuf (h : Hw) (m : BitVec 64) : (h.raiseAny m).dev.kbuf = h.dev.kbuf := by unfold Hw.raiseAny; split <;> simp
@[simp] theorem Hw.raiseAny_routing (h : Hw) (m : BitVec 64) : (h.raiseAny m).dev.routing = h.dev.routing := by unfold Hw.raiseAny; split <;> simp
@[simp] theorem Hw.raiseAny_remapSet (h : Hw) (m : BitVec 64) : (h.raiseAny m).dev.remapSet = h.dev.remapSet := by unfold Hw.raiseAny; split <;> simp
@[simp] theorem Hw.raiseAny_isvStall (h : Hw) (m : BitVec 64) : (h.raiseAny m).dev.isvStall = h.dev.isvStall := by unfold Hw.raiseAny; split <;> simp
@[simp] theorem Hw.raiseAny_shareSet (h : Hw) (m : BitVec 64) : (h.raiseAny m).dev.shareSet = h.dev.shareSet := by unfold Hw.raiseAny; split <;> simp
@[simp] theorem Hw.raiseAny_chan (h : Hw) (m : BitVec 64) (c' : ChanId) : (h.raiseAny m).chan c' = h.chan c' := by unfold Hw.raiseAny; split <;> simp
@[simp] theorem Hw.raiseAny_now (h : Hw) (m : BitVec 64) : (h.raiseAny m).now = h.now := by unfold Hw.raiseAny; split <;> simp
@[simp] theorem Hw.raiseAny_drawn (h : Hw) (m : BitVec 64) : (h.raiseAny m).drawn = h.drawn := by unfold Hw.raiseAny; split <;> simp
@[simp] theorem Hw.raiseAny_devReg (h : Hw) (m : BitVec 64) (o : Nat) : (h.raiseAny m).devReg o = h.devReg o := by simp [Hw.devReg, Dev.reg]

@[simp] theorem Hw.raiseSpine_boot (h : Hw) (u k n a : Nat) : (h.raiseSpine u k n a).dev.boot = h.dev.boot := by simp [Hw.raiseSpine]
@[simp] theorem Hw.raiseSpine_power (h : Hw) (u k n a : Nat) : (h.raiseSpine u k n a).dev.power = h.dev.power := by simp [Hw.raiseSpine]
@[simp] theorem Hw.raiseSpine_fuses (h : Hw) (u k n a : Nat) : (h.raiseSpine u k n a).dev.fuses = h.dev.fuses := by simp [Hw.raiseSpine]
@[simp] theorem Hw.raiseSpine_root (h : Hw) (u k n a : Nat) : (h.raiseSpine u k n a).dev.root = h.dev.root := by simp [Hw.raiseSpine]
@[simp] theorem Hw.raiseSpine_stn (h : Hw) (u k n a : Nat) : (h.raiseSpine u k n a).dev.stn = h.dev.stn := by simp [Hw.raiseSpine]
@[simp] theorem Hw.raiseSpine_sys (h : Hw) (u k n a : Nat) : (h.raiseSpine u k n a).dev.sys = h.dev.sys := by simp [Hw.raiseSpine]
@[simp] theorem Hw.raiseSpine_regs (h : Hw) (u k n a : Nat) : (h.raiseSpine u k n a).dev.regs = h.dev.regs := by simp [Hw.raiseSpine]
@[simp] theorem Hw.raiseSpine_pf0 (h : Hw) (u k n a : Nat) : (h.raiseSpine u k n a).dev.pf0 = h.dev.pf0 := by simp [Hw.raiseSpine]
@[simp] theorem Hw.raiseSpine_pf1 (h : Hw) (u k n a : Nat) : (h.raiseSpine u k n a).dev.pf1 = h.dev.pf1 := by simp [Hw.raiseSpine]
@[simp] theorem Hw.raiseSpine_isv (h : Hw) (u k n a : Nat) : (h.raiseSpine u k n a).dev.isv = h.dev.isv := by simp [Hw.raiseSpine]
@[simp] theorem Hw.raiseSpine_dbg (h : Hw) (u k n a : Nat) : (h.raiseSpine u k n a).dev.dbg = h.dev.dbg := by simp [Hw.raiseSpine]
@[simp] theorem Hw.raiseSpine_q (h : Hw) (u k n a : Nat) : (h.raiseSpine u k n a).dev.q = h.dev.q := by simp [Hw.raiseSpine]
@[simp] theorem Hw.raiseSpine_f0 (h : Hw) (u k n a : Nat) : (h.raiseSpine u k n a).dev.f0 = h.dev.f0 := by simp [Hw.raiseSpine]
@[simp] theorem Hw.raiseSpine_f1 (h : Hw) (u k n a : Nat) : (h.raiseSpine u k n a).dev.f1 = h.dev.f1 := by simp [Hw.raiseSpine]
@[simp] theorem Hw.raiseSpine_link (h : Hw) (u k n a : Nat) : (h.raiseSpine u k n a).dev.link = h.dev.link := by simp [Hw.raiseSpine]
@[simp] theorem Hw.raiseSpine_flw (h : Hw) (u k n a : Nat) : (h.raiseSpine u k n a).dev.flw = h.dev.flw := by simp [Hw.raiseSpine]
@[simp] theorem Hw.raiseSpine_armed (h : Hw) (u k n a : Nat) : (h.raiseSpine u k n a).dev.armed = h.dev.armed := by simp [Hw.raiseSpine]
@[simp] theorem Hw.raiseSpine_kbuf (h : Hw) (u k n a : Nat) : (h.raiseSpine u k n a).dev.kbuf = h.dev.kbuf := by simp [Hw.raiseSpine]
@[simp] theorem Hw.raiseSpine_routing (h : Hw) (u k n a : Nat) : (h.raiseSpine u k n a).dev.routing = h.dev.routing := by simp [Hw.raiseSpine]
@[simp] theorem Hw.raiseSpine_remapSet (h : Hw) (u k n a : Nat) : (h.raiseSpine u k n a).dev.remapSet = h.dev.remapSet := by simp [Hw.raiseSpine]
@[simp] theorem Hw.raiseSpine_isvStall (h : Hw) (u k n a : Nat) : (h.raiseSpine u k n a).dev.isvStall = h.dev.isvStall := by simp [Hw.raiseSpine]
@[simp] theorem Hw.raiseSpine_shareSet (h : Hw) (u k n a : Nat) : (h.raiseSpine u k n a).dev.shareSet = h.dev.shareSet := by simp [Hw.raiseSpine]
@[simp] theorem Hw.raiseSpine_chan (h : Hw) (u k n a : Nat) (c' : ChanId) : (h.raiseSpine u k n a).chan c' = h.chan c' := by simp [Hw.raiseSpine]
@[simp] theorem Hw.raiseSpine_now (h : Hw) (u k n a : Nat) : (h.raiseSpine u k n a).now = h.now := by simp [Hw.raiseSpine]
@[simp] theorem Hw.raiseSpine_drawn (h : Hw) (u k n a : Nat) : (h.raiseSpine u k n a).drawn = h.drawn := by simp [Hw.raiseSpine]
@[simp] theorem Hw.raiseSpine_devReg (h : Hw) (u k n a : Nat) (o : Nat) : (h.raiseSpine u k n a).devReg o = h.devReg o := by simp [Hw.devReg, Dev.reg]

@[simp] theorem Hw.raiseChan_boot (h : Hw) (c : ChanId) (u k n a : Nat) : (h.raiseChan c u k n a).dev.boot = h.dev.boot := by unfold Hw.raiseChan; split <;> simp
@[simp] theorem Hw.raiseChan_power (h : Hw) (c : ChanId) (u k n a : Nat) : (h.raiseChan c u k n a).dev.power = h.dev.power := by unfold Hw.raiseChan; split <;> simp
@[simp] theorem Hw.raiseChan_fuses (h : Hw) (c : ChanId) (u k n a : Nat) : (h.raiseChan c u k n a).dev.fuses = h.dev.fuses := by unfold Hw.raiseChan; split <;> simp
@[simp] theorem Hw.raiseChan_root (h : Hw) (c : ChanId) (u k n a : Nat) : (h.raiseChan c u k n a).dev.root = h.dev.root := by unfold Hw.raiseChan; split <;> simp
@[simp] theorem Hw.raiseChan_stn (h : Hw) (c : ChanId) (u k n a : Nat) : (h.raiseChan c u k n a).dev.stn = h.dev.stn := by unfold Hw.raiseChan; split <;> simp
@[simp] theorem Hw.raiseChan_sys (h : Hw) (c : ChanId) (u k n a : Nat) : (h.raiseChan c u k n a).dev.sys = h.dev.sys := by unfold Hw.raiseChan; split <;> simp
@[simp] theorem Hw.raiseChan_regs (h : Hw) (c : ChanId) (u k n a : Nat) : (h.raiseChan c u k n a).dev.regs = h.dev.regs := by unfold Hw.raiseChan; split <;> simp
@[simp] theorem Hw.raiseChan_pf0 (h : Hw) (c : ChanId) (u k n a : Nat) : (h.raiseChan c u k n a).dev.pf0 = h.dev.pf0 := by unfold Hw.raiseChan; split <;> simp
@[simp] theorem Hw.raiseChan_pf1 (h : Hw) (c : ChanId) (u k n a : Nat) : (h.raiseChan c u k n a).dev.pf1 = h.dev.pf1 := by unfold Hw.raiseChan; split <;> simp
@[simp] theorem Hw.raiseChan_isv (h : Hw) (c : ChanId) (u k n a : Nat) : (h.raiseChan c u k n a).dev.isv = h.dev.isv := by unfold Hw.raiseChan; split <;> simp
@[simp] theorem Hw.raiseChan_dbg (h : Hw) (c : ChanId) (u k n a : Nat) : (h.raiseChan c u k n a).dev.dbg = h.dev.dbg := by unfold Hw.raiseChan; split <;> simp
@[simp] theorem Hw.raiseChan_q (h : Hw) (c : ChanId) (u k n a : Nat) : (h.raiseChan c u k n a).dev.q = h.dev.q := by unfold Hw.raiseChan; split <;> simp
@[simp] theorem Hw.raiseChan_f0 (h : Hw) (c : ChanId) (u k n a : Nat) : (h.raiseChan c u k n a).dev.f0 = h.dev.f0 := by unfold Hw.raiseChan; split <;> simp
@[simp] theorem Hw.raiseChan_f1 (h : Hw) (c : ChanId) (u k n a : Nat) : (h.raiseChan c u k n a).dev.f1 = h.dev.f1 := by unfold Hw.raiseChan; split <;> simp
@[simp] theorem Hw.raiseChan_link (h : Hw) (c : ChanId) (u k n a : Nat) : (h.raiseChan c u k n a).dev.link = h.dev.link := by unfold Hw.raiseChan; split <;> simp
@[simp] theorem Hw.raiseChan_flw (h : Hw) (c : ChanId) (u k n a : Nat) : (h.raiseChan c u k n a).dev.flw = h.dev.flw := by unfold Hw.raiseChan; split <;> simp
@[simp] theorem Hw.raiseChan_armed (h : Hw) (c : ChanId) (u k n a : Nat) : (h.raiseChan c u k n a).dev.armed = h.dev.armed := by unfold Hw.raiseChan; split <;> simp
@[simp] theorem Hw.raiseChan_kbuf (h : Hw) (c : ChanId) (u k n a : Nat) : (h.raiseChan c u k n a).dev.kbuf = h.dev.kbuf := by unfold Hw.raiseChan; split <;> simp
@[simp] theorem Hw.raiseChan_routing (h : Hw) (c : ChanId) (u k n a : Nat) : (h.raiseChan c u k n a).dev.routing = h.dev.routing := by unfold Hw.raiseChan; split <;> simp
@[simp] theorem Hw.raiseChan_remapSet (h : Hw) (c : ChanId) (u k n a : Nat) : (h.raiseChan c u k n a).dev.remapSet = h.dev.remapSet := by unfold Hw.raiseChan; split <;> simp
@[simp] theorem Hw.raiseChan_isvStall (h : Hw) (c : ChanId) (u k n a : Nat) : (h.raiseChan c u k n a).dev.isvStall = h.dev.isvStall := by unfold Hw.raiseChan; split <;> simp
@[simp] theorem Hw.raiseChan_shareSet (h : Hw) (c : ChanId) (u k n a : Nat) : (h.raiseChan c u k n a).dev.shareSet = h.dev.shareSet := by unfold Hw.raiseChan; split <;> simp
@[simp] theorem Hw.raiseChan_chan (h : Hw) (c : ChanId) (u k n a : Nat) (c' : ChanId) : (h.raiseChan c u k n a).chan c' = h.chan c' := by unfold Hw.raiseChan; split <;> simp
@[simp] theorem Hw.raiseChan_now (h : Hw) (c : ChanId) (u k n a : Nat) : (h.raiseChan c u k n a).now = h.now := by unfold Hw.raiseChan; split <;> simp
@[simp] theorem Hw.raiseChan_drawn (h : Hw) (c : ChanId) (u k n a : Nat) : (h.raiseChan c u k n a).drawn = h.drawn := by unfold Hw.raiseChan; split <;> simp
@[simp] theorem Hw.raiseChan_devReg (h : Hw) (c : ChanId) (u k n a : Nat) (o : Nat) : (h.raiseChan c u k n a).devReg o = h.devReg o := by simp [Hw.devReg, Dev.reg]

/-- A message for an empty slot enters it (R348). -/
theorem Hw.raiseAny_slot (h : Hw) (m : BitVec 64) (w : h.inMw = false) (e : (tget {} h.dev.fcl.slots (slotKey m)).msg = 0) :
    (tget {} (h.raiseAny m).dev.fcl.slots (slotKey m)).msg = m := by
  rw [Hw.raiseAny, if_neg (by simp [w])]
  show (tget {} (h.dev.fcl.enter m _ h.now).slots (slotKey m)).msg = m
  rw [Fcl.enter]
  dsimp only
  rw [if_pos e]
  simp

/-! ## Counts -/

@[simp] theorem Hw.bmx_boot (h : Hw) (mid which : Nat) : (h.bmx mid which).dev.boot = h.dev.boot := by unfold Hw.bmx; split <;> simp
@[simp] theorem Hw.bmx_power (h : Hw) (mid which : Nat) : (h.bmx mid which).dev.power = h.dev.power := by unfold Hw.bmx; split <;> simp
@[simp] theorem Hw.bmx_fuses (h : Hw) (mid which : Nat) : (h.bmx mid which).dev.fuses = h.dev.fuses := by unfold Hw.bmx; split <;> simp
@[simp] theorem Hw.bmx_root (h : Hw) (mid which : Nat) : (h.bmx mid which).dev.root = h.dev.root := by unfold Hw.bmx; split <;> simp
@[simp] theorem Hw.bmx_stn (h : Hw) (mid which : Nat) : (h.bmx mid which).dev.stn = h.dev.stn := by unfold Hw.bmx; split <;> simp
@[simp] theorem Hw.bmx_sys (h : Hw) (mid which : Nat) : (h.bmx mid which).dev.sys = h.dev.sys := by unfold Hw.bmx; split <;> simp
@[simp] theorem Hw.bmx_fcl (h : Hw) (mid which : Nat) : (h.bmx mid which).dev.fcl = h.dev.fcl := by unfold Hw.bmx; split <;> simp
@[simp] theorem Hw.bmx_pf0 (h : Hw) (mid which : Nat) : (h.bmx mid which).dev.pf0 = h.dev.pf0 := by unfold Hw.bmx; split <;> simp
@[simp] theorem Hw.bmx_pf1 (h : Hw) (mid which : Nat) : (h.bmx mid which).dev.pf1 = h.dev.pf1 := by unfold Hw.bmx; split <;> simp
@[simp] theorem Hw.bmx_isv (h : Hw) (mid which : Nat) : (h.bmx mid which).dev.isv = h.dev.isv := by unfold Hw.bmx; split <;> simp
@[simp] theorem Hw.bmx_dbg (h : Hw) (mid which : Nat) : (h.bmx mid which).dev.dbg = h.dev.dbg := by unfold Hw.bmx; split <;> simp
@[simp] theorem Hw.bmx_q (h : Hw) (mid which : Nat) : (h.bmx mid which).dev.q = h.dev.q := by unfold Hw.bmx; split <;> simp
@[simp] theorem Hw.bmx_f0 (h : Hw) (mid which : Nat) : (h.bmx mid which).dev.f0 = h.dev.f0 := by unfold Hw.bmx; split <;> simp
@[simp] theorem Hw.bmx_f1 (h : Hw) (mid which : Nat) : (h.bmx mid which).dev.f1 = h.dev.f1 := by unfold Hw.bmx; split <;> simp
@[simp] theorem Hw.bmx_link (h : Hw) (mid which : Nat) : (h.bmx mid which).dev.link = h.dev.link := by unfold Hw.bmx; split <;> simp
@[simp] theorem Hw.bmx_flw (h : Hw) (mid which : Nat) : (h.bmx mid which).dev.flw = h.dev.flw := by unfold Hw.bmx; split <;> simp
@[simp] theorem Hw.bmx_armed (h : Hw) (mid which : Nat) : (h.bmx mid which).dev.armed = h.dev.armed := by unfold Hw.bmx; split <;> simp
@[simp] theorem Hw.bmx_kbuf (h : Hw) (mid which : Nat) : (h.bmx mid which).dev.kbuf = h.dev.kbuf := by unfold Hw.bmx; split <;> simp
@[simp] theorem Hw.bmx_routing (h : Hw) (mid which : Nat) : (h.bmx mid which).dev.routing = h.dev.routing := by unfold Hw.bmx; split <;> simp
@[simp] theorem Hw.bmx_remapSet (h : Hw) (mid which : Nat) : (h.bmx mid which).dev.remapSet = h.dev.remapSet := by unfold Hw.bmx; split <;> simp
@[simp] theorem Hw.bmx_isvStall (h : Hw) (mid which : Nat) : (h.bmx mid which).dev.isvStall = h.dev.isvStall := by unfold Hw.bmx; split <;> simp
@[simp] theorem Hw.bmx_shareSet (h : Hw) (mid which : Nat) : (h.bmx mid which).dev.shareSet = h.dev.shareSet := by unfold Hw.bmx; split <;> simp
@[simp] theorem Hw.bmx_chan (h : Hw) (mid which : Nat) (c' : ChanId) : (h.bmx mid which).chan c' = h.chan c' := by unfold Hw.bmx; split <;> simp
@[simp] theorem Hw.bmx_now (h : Hw) (mid which : Nat) : (h.bmx mid which).now = h.now := by unfold Hw.bmx; split <;> simp
@[simp] theorem Hw.bmx_drawn (h : Hw) (mid which : Nat) : (h.bmx mid which).drawn = h.drawn := by unfold Hw.bmx; split <;> simp

/-- The matrix counts in its own counters only. -/
@[simp] theorem Hw.bmx_devReg (h : Hw) (mid which : Nat) (o : Nat) (ho : o ≠ 0x5100 + 16 * mid + which) : (h.bmx mid which).devReg o = h.devReg o := by
  unfold Hw.bmx; split <;> simp [ho]

/-! ## Write status -/

@[simp] theorem Dev.onBank_boot (d : Dev) (m : Master) (g : MBank → MBank) : (d.onBank m g).boot = d.boot := by cases m <;> rfl
@[simp] theorem Dev.onBank_power (d : Dev) (m : Master) (g : MBank → MBank) : (d.onBank m g).power = d.power := by cases m <;> rfl
@[simp] theorem Dev.onBank_fuses (d : Dev) (m : Master) (g : MBank → MBank) : (d.onBank m g).fuses = d.fuses := by cases m <;> rfl
@[simp] theorem Dev.onBank_root (d : Dev) (m : Master) (g : MBank → MBank) : (d.onBank m g).root = d.root := by cases m <;> rfl
@[simp] theorem Dev.onBank_stn (d : Dev) (m : Master) (g : MBank → MBank) : (d.onBank m g).stn = d.stn := by cases m <;> rfl
@[simp] theorem Dev.onBank_sys (d : Dev) (m : Master) (g : MBank → MBank) : (d.onBank m g).sys = d.sys := by cases m <;> rfl
@[simp] theorem Dev.onBank_fcl (d : Dev) (m : Master) (g : MBank → MBank) : (d.onBank m g).fcl = d.fcl := by cases m <;> rfl
@[simp] theorem Dev.onBank_regs (d : Dev) (m : Master) (g : MBank → MBank) : (d.onBank m g).regs = d.regs := by cases m <;> rfl
@[simp] theorem Dev.onBank_q (d : Dev) (m : Master) (g : MBank → MBank) : (d.onBank m g).q = d.q := by cases m <;> rfl
@[simp] theorem Dev.onBank_f0 (d : Dev) (m : Master) (g : MBank → MBank) : (d.onBank m g).f0 = d.f0 := by cases m <;> rfl
@[simp] theorem Dev.onBank_f1 (d : Dev) (m : Master) (g : MBank → MBank) : (d.onBank m g).f1 = d.f1 := by cases m <;> rfl
@[simp] theorem Dev.onBank_link (d : Dev) (m : Master) (g : MBank → MBank) : (d.onBank m g).link = d.link := by cases m <;> rfl
@[simp] theorem Dev.onBank_flw (d : Dev) (m : Master) (g : MBank → MBank) : (d.onBank m g).flw = d.flw := by cases m <;> rfl
@[simp] theorem Dev.onBank_armed (d : Dev) (m : Master) (g : MBank → MBank) : (d.onBank m g).armed = d.armed := by cases m <;> rfl
@[simp] theorem Dev.onBank_kbuf (d : Dev) (m : Master) (g : MBank → MBank) : (d.onBank m g).kbuf = d.kbuf := by cases m <;> rfl
@[simp] theorem Dev.onBank_routing (d : Dev) (m : Master) (g : MBank → MBank) : (d.onBank m g).routing = d.routing := by cases m <;> rfl
@[simp] theorem Dev.onBank_remapSet (d : Dev) (m : Master) (g : MBank → MBank) : (d.onBank m g).remapSet = d.remapSet := by cases m <;> rfl
@[simp] theorem Dev.onBank_isvStall (d : Dev) (m : Master) (g : MBank → MBank) : (d.onBank m g).isvStall = d.isvStall := by cases m <;> rfl
@[simp] theorem Dev.onBank_shareSet (d : Dev) (m : Master) (g : MBank → MBank) : (d.onBank m g).shareSet = d.shareSet := by cases m <;> rfl
@[simp] theorem Dev.onBank_bank (d : Dev) (m : Master) (g : MBank → MBank) : (d.onBank m g).bank m = g (d.bank m) := by cases m <;> rfl
@[simp] theorem Dev.onBank_reg (d : Dev) (m : Master) (g : MBank → MBank) (o : Nat) : (d.onBank m g).reg o = d.reg o := by cases m <;> rfl
@[simp] theorem Hw.flagged_boot (h : Hw) (m : Master) (w : BitVec 5) (a : BitVec 22) : (h.flagged m w a).dev.boot = h.dev.boot := by unfold Hw.flagged; split <;> [rfl; (cases m <;> simp)]
@[simp] theorem Hw.flagged_power (h : Hw) (m : Master) (w : BitVec 5) (a : BitVec 22) : (h.flagged m w a).dev.power = h.dev.power := by unfold Hw.flagged; split <;> [rfl; (cases m <;> simp)]
@[simp] theorem Hw.flagged_fuses (h : Hw) (m : Master) (w : BitVec 5) (a : BitVec 22) : (h.flagged m w a).dev.fuses = h.dev.fuses := by unfold Hw.flagged; split <;> [rfl; (cases m <;> simp)]
@[simp] theorem Hw.flagged_root (h : Hw) (m : Master) (w : BitVec 5) (a : BitVec 22) : (h.flagged m w a).dev.root = h.dev.root := by unfold Hw.flagged; split <;> [rfl; (cases m <;> simp)]
@[simp] theorem Hw.flagged_stn (h : Hw) (m : Master) (w : BitVec 5) (a : BitVec 22) : (h.flagged m w a).dev.stn = h.dev.stn := by unfold Hw.flagged; split <;> [rfl; (cases m <;> simp)]
@[simp] theorem Hw.flagged_sys (h : Hw) (m : Master) (w : BitVec 5) (a : BitVec 22) : (h.flagged m w a).dev.sys = h.dev.sys := by unfold Hw.flagged; split <;> [rfl; (cases m <;> simp)]
@[simp] theorem Hw.flagged_fcl (h : Hw) (m : Master) (w : BitVec 5) (a : BitVec 22) : (h.flagged m w a).dev.fcl = h.dev.fcl := by unfold Hw.flagged; split <;> [rfl; (cases m <;> simp)]
@[simp] theorem Hw.flagged_regs (h : Hw) (m : Master) (w : BitVec 5) (a : BitVec 22) : (h.flagged m w a).dev.regs = h.dev.regs := by unfold Hw.flagged; split <;> [rfl; (cases m <;> simp)]
@[simp] theorem Hw.flagged_q (h : Hw) (m : Master) (w : BitVec 5) (a : BitVec 22) : (h.flagged m w a).dev.q = h.dev.q := by unfold Hw.flagged; split <;> [rfl; (cases m <;> simp)]
@[simp] theorem Hw.flagged_link (h : Hw) (m : Master) (w : BitVec 5) (a : BitVec 22) : (h.flagged m w a).dev.link = h.dev.link := by unfold Hw.flagged; split <;> [rfl; (cases m <;> simp)]
@[simp] theorem Hw.flagged_flw (h : Hw) (m : Master) (w : BitVec 5) (a : BitVec 22) : (h.flagged m w a).dev.flw = h.dev.flw := by unfold Hw.flagged; split <;> [rfl; (cases m <;> simp)]
@[simp] theorem Hw.flagged_armed (h : Hw) (m : Master) (w : BitVec 5) (a : BitVec 22) : (h.flagged m w a).dev.armed = h.dev.armed := by unfold Hw.flagged; split <;> [rfl; (cases m <;> simp)]
@[simp] theorem Hw.flagged_kbuf (h : Hw) (m : Master) (w : BitVec 5) (a : BitVec 22) : (h.flagged m w a).dev.kbuf = h.dev.kbuf := by unfold Hw.flagged; split <;> [rfl; (cases m <;> simp)]
@[simp] theorem Hw.flagged_routing (h : Hw) (m : Master) (w : BitVec 5) (a : BitVec 22) : (h.flagged m w a).dev.routing = h.dev.routing := by unfold Hw.flagged; split <;> [rfl; (cases m <;> simp)]
@[simp] theorem Hw.flagged_remapSet (h : Hw) (m : Master) (w : BitVec 5) (a : BitVec 22) : (h.flagged m w a).dev.remapSet = h.dev.remapSet := by unfold Hw.flagged; split <;> [rfl; (cases m <;> simp)]
@[simp] theorem Hw.flagged_isvStall (h : Hw) (m : Master) (w : BitVec 5) (a : BitVec 22) : (h.flagged m w a).dev.isvStall = h.dev.isvStall := by unfold Hw.flagged; split <;> [rfl; (cases m <;> simp)]
@[simp] theorem Hw.flagged_shareSet (h : Hw) (m : Master) (w : BitVec 5) (a : BitVec 22) : (h.flagged m w a).dev.shareSet = h.dev.shareSet := by unfold Hw.flagged; split <;> [rfl; (cases m <;> simp)]
@[simp] theorem Hw.flagged_chan (h : Hw) (m : Master) (w : BitVec 5) (a : BitVec 22) (c' : ChanId) : (h.flagged m w a).chan c' = h.chan c' := by unfold Hw.flagged; split <;> [rfl; (cases m <;> simp)]
@[simp] theorem Hw.flagged_now (h : Hw) (m : Master) (w : BitVec 5) (a : BitVec 22) : (h.flagged m w a).now = h.now := by unfold Hw.flagged; split <;> [rfl; (cases m <;> simp)]
@[simp] theorem Hw.flagged_drawn (h : Hw) (m : Master) (w : BitVec 5) (a : BitVec 22) : (h.flagged m w a).drawn = h.drawn := by unfold Hw.flagged; split <;> [rfl; (cases m <;> simp)]
@[simp] theorem Hw.flagged_devReg (h : Hw) (m : Master) (w : BitVec 5) (a : BitVec 22) (o : Nat) : (h.flagged m w a).devReg o = h.devReg o := by simp [Hw.devReg, Dev.reg]

@[simp] theorem Hw.ignored_boot (h : Hw) (m : Master) (w : WFlag) (a : BitVec 22) : (h.ignored m w a).dev.boot = h.dev.boot := by simp [Hw.ignored]
@[simp] theorem Hw.ignored_power (h : Hw) (m : Master) (w : WFlag) (a : BitVec 22) : (h.ignored m w a).dev.power = h.dev.power := by simp [Hw.ignored]
@[simp] theorem Hw.ignored_fuses (h : Hw) (m : Master) (w : WFlag) (a : BitVec 22) : (h.ignored m w a).dev.fuses = h.dev.fuses := by simp [Hw.ignored]
@[simp] theorem Hw.ignored_root (h : Hw) (m : Master) (w : WFlag) (a : BitVec 22) : (h.ignored m w a).dev.root = h.dev.root := by simp [Hw.ignored]
@[simp] theorem Hw.ignored_stn (h : Hw) (m : Master) (w : WFlag) (a : BitVec 22) : (h.ignored m w a).dev.stn = h.dev.stn := by simp [Hw.ignored]
@[simp] theorem Hw.ignored_sys (h : Hw) (m : Master) (w : WFlag) (a : BitVec 22) : (h.ignored m w a).dev.sys = h.dev.sys := by simp [Hw.ignored]
@[simp] theorem Hw.ignored_fcl (h : Hw) (m : Master) (w : WFlag) (a : BitVec 22) : (h.ignored m w a).dev.fcl = h.dev.fcl := by simp [Hw.ignored]
@[simp] theorem Hw.ignored_regs (h : Hw) (m : Master) (w : WFlag) (a : BitVec 22) : (h.ignored m w a).dev.regs = h.dev.regs := by simp [Hw.ignored]
@[simp] theorem Hw.ignored_q (h : Hw) (m : Master) (w : WFlag) (a : BitVec 22) : (h.ignored m w a).dev.q = h.dev.q := by simp [Hw.ignored]
@[simp] theorem Hw.ignored_link (h : Hw) (m : Master) (w : WFlag) (a : BitVec 22) : (h.ignored m w a).dev.link = h.dev.link := by simp [Hw.ignored]
@[simp] theorem Hw.ignored_flw (h : Hw) (m : Master) (w : WFlag) (a : BitVec 22) : (h.ignored m w a).dev.flw = h.dev.flw := by simp [Hw.ignored]
@[simp] theorem Hw.ignored_armed (h : Hw) (m : Master) (w : WFlag) (a : BitVec 22) : (h.ignored m w a).dev.armed = h.dev.armed := by simp [Hw.ignored]
@[simp] theorem Hw.ignored_kbuf (h : Hw) (m : Master) (w : WFlag) (a : BitVec 22) : (h.ignored m w a).dev.kbuf = h.dev.kbuf := by simp [Hw.ignored]
@[simp] theorem Hw.ignored_routing (h : Hw) (m : Master) (w : WFlag) (a : BitVec 22) : (h.ignored m w a).dev.routing = h.dev.routing := by simp [Hw.ignored]
@[simp] theorem Hw.ignored_remapSet (h : Hw) (m : Master) (w : WFlag) (a : BitVec 22) : (h.ignored m w a).dev.remapSet = h.dev.remapSet := by simp [Hw.ignored]
@[simp] theorem Hw.ignored_isvStall (h : Hw) (m : Master) (w : WFlag) (a : BitVec 22) : (h.ignored m w a).dev.isvStall = h.dev.isvStall := by simp [Hw.ignored]
@[simp] theorem Hw.ignored_shareSet (h : Hw) (m : Master) (w : WFlag) (a : BitVec 22) : (h.ignored m w a).dev.shareSet = h.dev.shareSet := by simp [Hw.ignored]
@[simp] theorem Hw.ignored_chan (h : Hw) (m : Master) (w : WFlag) (a : BitVec 22) (c' : ChanId) : (h.ignored m w a).chan c' = h.chan c' := by simp [Hw.ignored]
@[simp] theorem Hw.ignored_now (h : Hw) (m : Master) (w : WFlag) (a : BitVec 22) : (h.ignored m w a).now = h.now := by simp [Hw.ignored]
@[simp] theorem Hw.ignored_drawn (h : Hw) (m : Master) (w : WFlag) (a : BitVec 22) : (h.ignored m w a).drawn = h.drawn := by simp [Hw.ignored]
@[simp] theorem Hw.ignored_devReg (h : Hw) (m : Master) (w : WFlag) (a : BitVec 22) (o : Nat) : (h.ignored m w a).devReg o = h.devReg o := by simp [Hw.devReg, Dev.reg]

@[simp] theorem Hw.guarded_boot (h : Hw) (m : Master) (a : BitVec 22) : (h.guarded m a).dev.boot = h.dev.boot := by simp [Hw.guarded]
@[simp] theorem Hw.guarded_power (h : Hw) (m : Master) (a : BitVec 22) : (h.guarded m a).dev.power = h.dev.power := by simp [Hw.guarded]
@[simp] theorem Hw.guarded_fuses (h : Hw) (m : Master) (a : BitVec 22) : (h.guarded m a).dev.fuses = h.dev.fuses := by simp [Hw.guarded]
@[simp] theorem Hw.guarded_root (h : Hw) (m : Master) (a : BitVec 22) : (h.guarded m a).dev.root = h.dev.root := by simp [Hw.guarded]
@[simp] theorem Hw.guarded_stn (h : Hw) (m : Master) (a : BitVec 22) : (h.guarded m a).dev.stn = h.dev.stn := by simp [Hw.guarded]
@[simp] theorem Hw.guarded_sys (h : Hw) (m : Master) (a : BitVec 22) : (h.guarded m a).dev.sys = h.dev.sys := by simp [Hw.guarded]
@[simp] theorem Hw.guarded_fcl (h : Hw) (m : Master) (a : BitVec 22) : (h.guarded m a).dev.fcl = h.dev.fcl := by simp [Hw.guarded]
@[simp] theorem Hw.guarded_q (h : Hw) (m : Master) (a : BitVec 22) : (h.guarded m a).dev.q = h.dev.q := by simp [Hw.guarded]
@[simp] theorem Hw.guarded_link (h : Hw) (m : Master) (a : BitVec 22) : (h.guarded m a).dev.link = h.dev.link := by simp [Hw.guarded]
@[simp] theorem Hw.guarded_flw (h : Hw) (m : Master) (a : BitVec 22) : (h.guarded m a).dev.flw = h.dev.flw := by simp [Hw.guarded]
@[simp] theorem Hw.guarded_armed (h : Hw) (m : Master) (a : BitVec 22) : (h.guarded m a).dev.armed = h.dev.armed := by simp [Hw.guarded]
@[simp] theorem Hw.guarded_kbuf (h : Hw) (m : Master) (a : BitVec 22) : (h.guarded m a).dev.kbuf = h.dev.kbuf := by simp [Hw.guarded]
@[simp] theorem Hw.guarded_routing (h : Hw) (m : Master) (a : BitVec 22) : (h.guarded m a).dev.routing = h.dev.routing := by simp [Hw.guarded]
@[simp] theorem Hw.guarded_remapSet (h : Hw) (m : Master) (a : BitVec 22) : (h.guarded m a).dev.remapSet = h.dev.remapSet := by simp [Hw.guarded]
@[simp] theorem Hw.guarded_isvStall (h : Hw) (m : Master) (a : BitVec 22) : (h.guarded m a).dev.isvStall = h.dev.isvStall := by simp [Hw.guarded]
@[simp] theorem Hw.guarded_shareSet (h : Hw) (m : Master) (a : BitVec 22) : (h.guarded m a).dev.shareSet = h.dev.shareSet := by simp [Hw.guarded]
@[simp] theorem Hw.guarded_chan (h : Hw) (m : Master) (a : BitVec 22) (c' : ChanId) : (h.guarded m a).chan c' = h.chan c' := by simp [Hw.guarded]
@[simp] theorem Hw.guarded_now (h : Hw) (m : Master) (a : BitVec 22) : (h.guarded m a).now = h.now := by simp [Hw.guarded]
@[simp] theorem Hw.guarded_drawn (h : Hw) (m : Master) (a : BitVec 22) : (h.guarded m a).drawn = h.drawn := by simp [Hw.guarded]

/-- An ignored write shows in its master's bank: its flag, SEQ advanced, its address. -/
theorem Hw.flagged_bank (h : Hw) (m : Master) (w : BitVec 5) (a : BitVec 22) (hw : w ≠ 0) :
    (h.flagged m w a).dev.bank m = (h.dev.bank m).ignore w a := by
  rw [Hw.flagged, if_neg hw]
  cases m <;> simp [Dev.bank, Dev.onBank]

/-! ## The record registers -/

theorem Hw.oneChange_keeps {γ : Type} (p : Hw → γ) (hp : ∀ (h : Hw) (off : Nat) (w : Word), p (h.setDevReg off w) = p h) (h h0 : Hw) :
    p (h.oneChange h0) = p h := by
  unfold Hw.oneChange
  refine foldl_keeps _ p (fun b a => ?_) _ _
  dsimp only
  split
  · rfl
  · exact hp _ _ _

/-- What a change of SEQ of the record registers leaves, `settle` leaves. -/
theorem Hw.settle_keeps {γ : Type} (p : Hw → γ) (hs : ∀ (h : Hw) (off : Nat) (w : Word), p (h.setDevReg off w) = p h)
    (hn : ∀ (h : Hw) (src : Nat), p (h.notify src) = p h)
    (hr : ∀ (h : Hw) (c : ChanId) (f : Byte → Byte), p (h.onChan c fun x => { x with flt := { x.flt with seq := f x.flt.seq } }) = p h)
    (hq : ∀ (h : Hw) (c : ChanId) (f : Byte → Byte), p (h.onChan c fun x => { x with flt := { x.flt with qseq := f x.flt.qseq } }) = p h)
    (hd : ∀ (h : Hw) (f : Fcl → Byte), p (h.onFcl fun x => { x with dseq := f x }) = p h)
    (hc : ∀ (h : Hw) (f : Fcl → Vector Byte 6), p (h.onFcl fun x => { x with csumSeq := f x }) = p h)
    (h h0 : Hw) (cs : List ChanId) : p (h.settle h0 cs) = p h := by
  have hcn : ∀ (h : Hw) (c : ChanId) (j : Nat), p (h.chNotify c j) = p h := by
    intro h c j; unfold Hw.chNotify; split
    · exact hn _ _
    · rfl
  have h1 : ∀ (h : Hw) (c : ChanId), p (h.settleChan h0 c) = p h := by
    intro h c
    have hrec : p (if h.recView c = h0.recView c then h else h.recStep c) = p h := by
      split
      · rfl
      · exact (hcn _ _ _).trans (hr h c (· + 1))
    unfold Hw.settleChan
    dsimp only
    revert hrec
    generalize (if h.recView c = h0.recView c then h else h.recStep c) = h'
    intro hrec
    split
    · exact hrec
    · exact (hcn _ _ _).trans ((hq _ c (· + 1)).trans hrec)
  have h2 : ∀ (h : Hw) (g : Fin 6), p (h.settleSum h0 g) = p h := by
    intro h g
    unfold Hw.settleSum
    split
    · rfl
    · exact (hn _ _).trans (hc h fun x => x.csumSeq.set g.val (x.csumSeq[g.val] + 1))
  unfold Hw.settle
  dsimp only
  rw [foldl_keeps _ p h2]
  have h3 : p (List.foldl (fun h c => h.settleChan h0 c) (h.oneChange h0) cs) = p h := by
    rw [foldl_keeps _ p h1]
    exact Hw.oneChange_keeps p hs h h0
  split
  · exact h3
  · exact (hn _ _).trans ((hd _ fun x => x.dseq + 1).trans h3)

@[simp] theorem Hw.settle_boot (h h0 : Hw) (cs : List ChanId) : (h.settle h0 cs).dev.boot = h.dev.boot :=
  Hw.settle_keeps (fun h => h.dev.boot) (by simp) (by simp) (by simp) (by simp) (by simp) (by simp) h h0 cs
@[simp] theorem Hw.settle_power (h h0 : Hw) (cs : List ChanId) : (h.settle h0 cs).dev.power = h.dev.power :=
  Hw.settle_keeps (fun h => h.dev.power) (by simp) (by simp) (by simp) (by simp) (by simp) (by simp) h h0 cs
@[simp] theorem Hw.settle_fuses (h h0 : Hw) (cs : List ChanId) : (h.settle h0 cs).dev.fuses = h.dev.fuses :=
  Hw.settle_keeps (fun h => h.dev.fuses) (by simp) (by simp) (by simp) (by simp) (by simp) (by simp) h h0 cs
@[simp] theorem Hw.settle_root (h h0 : Hw) (cs : List ChanId) : (h.settle h0 cs).dev.root = h.dev.root :=
  Hw.settle_keeps (fun h => h.dev.root) (by simp) (by simp) (by simp) (by simp) (by simp) (by simp) h h0 cs
@[simp] theorem Hw.settle_stn (h h0 : Hw) (cs : List ChanId) : (h.settle h0 cs).dev.stn = h.dev.stn :=
  Hw.settle_keeps (fun h => h.dev.stn) (by simp) (by simp) (by simp) (by simp) (by simp) (by simp) h h0 cs
@[simp] theorem Hw.settle_sys (h h0 : Hw) (cs : List ChanId) : (h.settle h0 cs).dev.sys = h.dev.sys :=
  Hw.settle_keeps (fun h => h.dev.sys) (by simp) (by simp) (by simp) (by simp) (by simp) (by simp) h h0 cs
@[simp] theorem Hw.settle_pf0 (h h0 : Hw) (cs : List ChanId) : (h.settle h0 cs).dev.pf0 = h.dev.pf0 :=
  Hw.settle_keeps (fun h => h.dev.pf0) (by simp) (by simp) (by simp) (by simp) (by simp) (by simp) h h0 cs
@[simp] theorem Hw.settle_pf1 (h h0 : Hw) (cs : List ChanId) : (h.settle h0 cs).dev.pf1 = h.dev.pf1 :=
  Hw.settle_keeps (fun h => h.dev.pf1) (by simp) (by simp) (by simp) (by simp) (by simp) (by simp) h h0 cs
@[simp] theorem Hw.settle_isv (h h0 : Hw) (cs : List ChanId) : (h.settle h0 cs).dev.isv = h.dev.isv :=
  Hw.settle_keeps (fun h => h.dev.isv) (by simp) (by simp) (by simp) (by simp) (by simp) (by simp) h h0 cs
@[simp] theorem Hw.settle_dbg (h h0 : Hw) (cs : List ChanId) : (h.settle h0 cs).dev.dbg = h.dev.dbg :=
  Hw.settle_keeps (fun h => h.dev.dbg) (by simp) (by simp) (by simp) (by simp) (by simp) (by simp) h h0 cs
@[simp] theorem Hw.settle_q (h h0 : Hw) (cs : List ChanId) : (h.settle h0 cs).dev.q = h.dev.q :=
  Hw.settle_keeps (fun h => h.dev.q) (by simp) (by simp) (by simp) (by simp) (by simp) (by simp) h h0 cs
@[simp] theorem Hw.settle_link (h h0 : Hw) (cs : List ChanId) : (h.settle h0 cs).dev.link = h.dev.link :=
  Hw.settle_keeps (fun h => h.dev.link) (by simp) (by simp) (by simp) (by simp) (by simp) (by simp) h h0 cs
@[simp] theorem Hw.settle_flw (h h0 : Hw) (cs : List ChanId) : (h.settle h0 cs).dev.flw = h.dev.flw :=
  Hw.settle_keeps (fun h => h.dev.flw) (by simp) (by simp) (by simp) (by simp) (by simp) (by simp) h h0 cs
@[simp] theorem Hw.settle_armed (h h0 : Hw) (cs : List ChanId) : (h.settle h0 cs).dev.armed = h.dev.armed :=
  Hw.settle_keeps (fun h => h.dev.armed) (by simp) (by simp) (by simp) (by simp) (by simp) (by simp) h h0 cs
@[simp] theorem Hw.settle_kbuf (h h0 : Hw) (cs : List ChanId) : (h.settle h0 cs).dev.kbuf = h.dev.kbuf :=
  Hw.settle_keeps (fun h => h.dev.kbuf) (by simp) (by simp) (by simp) (by simp) (by simp) (by simp) h h0 cs
@[simp] theorem Hw.settle_routing (h h0 : Hw) (cs : List ChanId) : (h.settle h0 cs).dev.routing = h.dev.routing :=
  Hw.settle_keeps (fun h => h.dev.routing) (by simp) (by simp) (by simp) (by simp) (by simp) (by simp) h h0 cs
@[simp] theorem Hw.settle_remapSet (h h0 : Hw) (cs : List ChanId) : (h.settle h0 cs).dev.remapSet = h.dev.remapSet :=
  Hw.settle_keeps (fun h => h.dev.remapSet) (by simp) (by simp) (by simp) (by simp) (by simp) (by simp) h h0 cs
@[simp] theorem Hw.settle_isvStall (h h0 : Hw) (cs : List ChanId) : (h.settle h0 cs).dev.isvStall = h.dev.isvStall :=
  Hw.settle_keeps (fun h => h.dev.isvStall) (by simp) (by simp) (by simp) (by simp) (by simp) (by simp) h h0 cs
@[simp] theorem Hw.settle_shareSet (h h0 : Hw) (cs : List ChanId) : (h.settle h0 cs).dev.shareSet = h.dev.shareSet :=
  Hw.settle_keeps (fun h => h.dev.shareSet) (by simp) (by simp) (by simp) (by simp) (by simp) (by simp) h h0 cs
@[simp] theorem Hw.settle_now (h h0 : Hw) (cs : List ChanId) : (h.settle h0 cs).now = h.now :=
  Hw.settle_keeps (·.now) (by simp) (by simp) (by simp) (by simp) (by simp) (by simp) h h0 cs
@[simp] theorem Hw.settle_drawn (h h0 : Hw) (cs : List ChanId) : (h.settle h0 cs).drawn = h.drawn :=
  Hw.settle_keeps (·.drawn) (by simp) (by simp) (by simp) (by simp) (by simp) (by simp) h h0 cs
@[simp] theorem Hw.settle_fcl_slots (h h0 : Hw) (cs : List ChanId) : (h.settle h0 cs).dev.fcl.slots = h.dev.fcl.slots :=
  Hw.settle_keeps (fun h => h.dev.fcl.slots) (by simp) (by simp) (by simp) (by simp) (by simp) (by simp) h h0 cs
@[simp] theorem Hw.settle_fcl_coal (h h0 : Hw) (cs : List ChanId) : (h.settle h0 cs).dev.fcl.coal = h.dev.fcl.coal :=
  Hw.settle_keeps (fun h => h.dev.fcl.coal) (by simp) (by simp) (by simp) (by simp) (by simp) (by simp) h h0 cs
@[simp] theorem Hw.settle_fcl_servedN (h h0 : Hw) (cs : List ChanId) : (h.settle h0 cs).dev.fcl.servedN = h.dev.fcl.servedN :=
  Hw.settle_keeps (fun h => h.dev.fcl.servedN) (by simp) (by simp) (by simp) (by simp) (by simp) (by simp) h h0 cs
@[simp] theorem Hw.settle_fcl_held (h h0 : Hw) (cs : List ChanId) : (h.settle h0 cs).dev.fcl.held = h.dev.fcl.held :=
  Hw.settle_keeps (fun h => h.dev.fcl.held) (by simp) (by simp) (by simp) (by simp) (by simp) (by simp) h h0 cs
@[simp] theorem Hw.settle_fcl_raised (h h0 : Hw) (cs : List ChanId) : (h.settle h0 cs).dev.fcl.raised = h.dev.fcl.raised :=
  Hw.settle_keeps (fun h => h.dev.fcl.raised) (by simp) (by simp) (by simp) (by simp) (by simp) (by simp) h h0 cs
@[simp] theorem Hw.settle_fcl_lastSrc (h h0 : Hw) (cs : List ChanId) : (h.settle h0 cs).dev.fcl.lastSrc = h.dev.fcl.lastSrc :=
  Hw.settle_keeps (fun h => h.dev.fcl.lastSrc) (by simp) (by simp) (by simp) (by simp) (by simp) (by simp) h h0 cs
@[simp] theorem Hw.settle_fcl_hist (h h0 : Hw) (cs : List ChanId) : (h.settle h0 cs).dev.fcl.hist = h.dev.fcl.hist :=
  Hw.settle_keeps (fun h => h.dev.fcl.hist) (by simp) (by simp) (by simp) (by simp) (by simp) (by simp) h h0 cs
@[simp] theorem Hw.settle_fcl_hseq (h h0 : Hw) (cs : List ChanId) : (h.settle h0 cs).dev.fcl.hseq = h.dev.fcl.hseq :=
  Hw.settle_keeps (fun h => h.dev.fcl.hseq) (by simp) (by simp) (by simp) (by simp) (by simp) (by simp) h h0 cs
@[simp] theorem Hw.settle_fcl_hNew (h h0 : Hw) (cs : List ChanId) : (h.settle h0 cs).dev.fcl.hNew = h.dev.fcl.hNew :=
  Hw.settle_keeps (fun h => h.dev.fcl.hNew) (by simp) (by simp) (by simp) (by simp) (by simp) (by simp) h h0 cs
@[simp] theorem Hw.settle_fcl_hOvwr (h h0 : Hw) (cs : List ChanId) : (h.settle h0 cs).dev.fcl.hOvwr = h.dev.fcl.hOvwr :=
  Hw.settle_keeps (fun h => h.dev.fcl.hOvwr) (by simp) (by simp) (by simp) (by simp) (by simp) (by simp) h h0 cs
@[simp] theorem Hw.settle_fcl_unread (h h0 : Hw) (cs : List ChanId) : (h.settle h0 cs).dev.fcl.unread = h.dev.fcl.unread :=
  Hw.settle_keeps (fun h => h.dev.fcl.unread) (by simp) (by simp) (by simp) (by simp) (by simp) (by simp) h h0 cs
@[simp] theorem Hw.settle_fcl_d (h h0 : Hw) (cs : List ChanId) : (h.settle h0 cs).dev.fcl.d = h.dev.fcl.d :=
  Hw.settle_keeps (fun h => h.dev.fcl.d) (by simp) (by simp) (by simp) (by simp) (by simp) (by simp) h h0 cs
@[simp] theorem Hw.settle_fcl_dQuar (h h0 : Hw) (cs : List ChanId) : (h.settle h0 cs).dev.fcl.dQuar = h.dev.fcl.dQuar :=
  Hw.settle_keeps (fun h => h.dev.fcl.dQuar) (by simp) (by simp) (by simp) (by simp) (by simp) (by simp) h h0 cs
@[simp] theorem Hw.settle_fcl_dq (h h0 : Hw) (cs : List ChanId) : (h.settle h0 cs).dev.fcl.dq = h.dev.fcl.dq :=
  Hw.settle_keeps (fun h => h.dev.fcl.dq) (by simp) (by simp) (by simp) (by simp) (by simp) (by simp) h h0 cs
@[simp] theorem Hw.settle_fcl_mw (h h0 : Hw) (cs : List ChanId) : (h.settle h0 cs).dev.fcl.mw = h.dev.fcl.mw :=
  Hw.settle_keeps (fun h => h.dev.fcl.mw) (by simp) (by simp) (by simp) (by simp) (by simp) (by simp) h h0 cs
@[simp] theorem Hw.settle_fcl_mBlocked (h h0 : Hw) (cs : List ChanId) : (h.settle h0 cs).dev.fcl.mBlocked = h.dev.fcl.mBlocked :=
  Hw.settle_keeps (fun h => h.dev.fcl.mBlocked) (by simp) (by simp) (by simp) (by simp) (by simp) (by simp) h h0 cs
@[simp] theorem Hw.settle_fcl_injBusy (h h0 : Hw) (cs : List ChanId) : (h.settle h0 cs).dev.fcl.injBusy = h.dev.fcl.injBusy :=
  Hw.settle_keeps (fun h => h.dev.fcl.injBusy) (by simp) (by simp) (by simp) (by simp) (by simp) (by simp) h h0 cs
@[simp] theorem Hw.settle_fcl_pol (h h0 : Hw) (cs : List ChanId) : (h.settle h0 cs).dev.fcl.pol = h.dev.fcl.pol :=
  Hw.settle_keeps (fun h => h.dev.fcl.pol) (by simp) (by simp) (by simp) (by simp) (by simp) (by simp) h h0 cs
@[simp] theorem Hw.settle_fcl_dutyWritten (h h0 : Hw) (cs : List ChanId) : (h.settle h0 cs).dev.fcl.dutyWritten = h.dev.fcl.dutyWritten :=
  Hw.settle_keeps (fun h => h.dev.fcl.dutyWritten) (by simp) (by simp) (by simp) (by simp) (by simp) (by simp) h h0 cs
@[simp] theorem Hw.settle_chan_st (h h0 : Hw) (cs : List ChanId) (c : ChanId) : ((h.settle h0 cs).chan c).st = (h.chan c).st :=
  Hw.settle_keeps (fun h => (h.chan c).st) (by simp) (by simp) (by intro h d f; simp; split <;> simp_all) (by intro h d f; simp; split <;> simp_all) (by simp) (by simp) h h0 cs
@[simp] theorem Hw.settle_chan_island (h h0 : Hw) (cs : List ChanId) (c : ChanId) : ((h.settle h0 cs).chan c).island = (h.chan c).island :=
  Hw.settle_keeps (fun h => (h.chan c).island) (by simp) (by simp) (by intro h d f; simp; split <;> simp_all) (by intro h d f; simp; split <;> simp_all) (by simp) (by simp) h h0 cs
@[simp] theorem Hw.settle_chan_wasAbsent (h h0 : Hw) (cs : List ChanId) (c : ChanId) : ((h.settle h0 cs).chan c).wasAbsent = (h.chan c).wasAbsent :=
  Hw.settle_keeps (fun h => (h.chan c).wasAbsent) (by simp) (by simp) (by intro h d f; simp; split <;> simp_all) (by intro h d f; simp; split <;> simp_all) (by simp) (by simp) h h0 cs
@[simp] theorem Hw.settle_chan_squelch (h h0 : Hw) (cs : List ChanId) (c : ChanId) : ((h.settle h0 cs).chan c).squelch = (h.chan c).squelch :=
  Hw.settle_keeps (fun h => (h.chan c).squelch) (by simp) (by simp) (by intro h d f; simp; split <;> simp_all) (by intro h d f; simp; split <;> simp_all) (by simp) (by simp) h h0 cs
@[simp] theorem Hw.settle_chan_regs (h h0 : Hw) (cs : List ChanId) (c : ChanId) : ((h.settle h0 cs).chan c).regs = (h.chan c).regs :=
  Hw.settle_keeps (fun h => (h.chan c).regs) (by simp) (by simp) (by intro h d f; simp; split <;> simp_all) (by intro h d f; simp; split <;> simp_all) (by simp) (by simp) h h0 cs
@[simp] theorem Hw.settle_chan_red (h h0 : Hw) (cs : List ChanId) (c : ChanId) : ((h.settle h0 cs).chan c).red = (h.chan c).red :=
  Hw.settle_keeps (fun h => (h.chan c).red) (by simp) (by simp) (by intro h d f; simp; split <;> simp_all) (by intro h d f; simp; split <;> simp_all) (by simp) (by simp) h h0 cs
@[simp] theorem Hw.settle_chan_bkw (h h0 : Hw) (cs : List ChanId) (c : ChanId) : ((h.settle h0 cs).chan c).bkw = (h.chan c).bkw :=
  Hw.settle_keeps (fun h => (h.chan c).bkw) (by simp) (by simp) (by intro h d f; simp; split <;> simp_all) (by intro h d f; simp; split <;> simp_all) (by simp) (by simp) h h0 cs
@[simp] theorem Hw.settle_chan_bkp (h h0 : Hw) (cs : List ChanId) (c : ChanId) : ((h.settle h0 cs).chan c).bkp = (h.chan c).bkp :=
  Hw.settle_keeps (fun h => (h.chan c).bkp) (by simp) (by simp) (by intro h d f; simp; split <;> simp_all) (by intro h d f; simp; split <;> simp_all) (by simp) (by simp) h h0 cs
@[simp] theorem Hw.settle_chan_map (h h0 : Hw) (cs : List ChanId) (c : ChanId) : ((h.settle h0 cs).chan c).map = (h.chan c).map :=
  Hw.settle_keeps (fun h => (h.chan c).map) (by simp) (by simp) (by intro h d f; simp; split <;> simp_all) (by intro h d f; simp; split <;> simp_all) (by simp) (by simp) h h0 cs
@[simp] theorem Hw.settle_chan_circ (h h0 : Hw) (cs : List ChanId) (c : ChanId) : ((h.settle h0 cs).chan c).circ = (h.chan c).circ :=
  Hw.settle_keeps (fun h => (h.chan c).circ) (by simp) (by simp) (by intro h d f; simp; split <;> simp_all) (by intro h d f; simp; split <;> simp_all) (by simp) (by simp) h h0 cs
@[simp] theorem Hw.settle_chan_cph (h h0 : Hw) (cs : List ChanId) (c : ChanId) : ((h.settle h0 cs).chan c).cph = (h.chan c).cph :=
  Hw.settle_keeps (fun h => (h.chan c).cph) (by simp) (by simp) (by intro h d f; simp; split <;> simp_all) (by intro h d f; simp; split <;> simp_all) (by simp) (by simp) h h0 cs
@[simp] theorem Hw.settle_chan_store (h h0 : Hw) (cs : List ChanId) (c : ChanId) : ((h.settle h0 cs).chan c).store = (h.chan c).store :=
  Hw.settle_keeps (fun h => (h.chan c).store) (by simp) (by simp) (by intro h d f; simp; split <;> simp_all) (by intro h d f; simp; split <;> simp_all) (by simp) (by simp) h h0 cs
@[simp] theorem Hw.settle_chan_psw (h h0 : Hw) (cs : List ChanId) (c : ChanId) : ((h.settle h0 cs).chan c).psw = (h.chan c).psw :=
  Hw.settle_keeps (fun h => (h.chan c).psw) (by simp) (by simp) (by intro h d f; simp; split <;> simp_all) (by intro h d f; simp; split <;> simp_all) (by simp) (by simp) h h0 cs
@[simp] theorem Hw.settle_chan_tim (h h0 : Hw) (cs : List ChanId) (c : ChanId) : ((h.settle h0 cs).chan c).tim = (h.chan c).tim :=
  Hw.settle_keeps (fun h => (h.chan c).tim) (by simp) (by simp) (by intro h d f; simp; split <;> simp_all) (by intro h d f; simp; split <;> simp_all) (by simp) (by simp) h h0 cs
@[simp] theorem Hw.settle_chan_cvu (h h0 : Hw) (cs : List ChanId) (c : ChanId) : ((h.settle h0 cs).chan c).cvu = (h.chan c).cvu :=
  Hw.settle_keeps (fun h => (h.chan c).cvu) (by simp) (by simp) (by intro h d f; simp; split <;> simp_all) (by intro h d f; simp; split <;> simp_all) (by simp) (by simp) h h0 cs
@[simp] theorem Hw.settle_chan_ctr (h h0 : Hw) (cs : List ChanId) (c : ChanId) : ((h.settle h0 cs).chan c).ctr = (h.chan c).ctr :=
  Hw.settle_keeps (fun h => (h.chan c).ctr) (by simp) (by simp) (by intro h d f; simp; split <;> simp_all) (by intro h d f; simp; split <;> simp_all) (by simp) (by simp) h h0 cs
@[simp] theorem Hw.settle_chan_q (h h0 : Hw) (cs : List ChanId) (c : ChanId) : ((h.settle h0 cs).chan c).q = (h.chan c).q :=
  Hw.settle_keeps (fun h => (h.chan c).q) (by simp) (by simp) (by intro h d f; simp; split <;> simp_all) (by intro h d f; simp; split <;> simp_all) (by simp) (by simp) h h0 cs
@[simp] theorem Hw.settle_chan_mlt (h h0 : Hw) (cs : List ChanId) (c : ChanId) : ((h.settle h0 cs).chan c).mlt = (h.chan c).mlt :=
  Hw.settle_keeps (fun h => (h.chan c).mlt) (by simp) (by simp) (by intro h d f; simp; split <;> simp_all) (by intro h d f; simp; split <;> simp_all) (by simp) (by simp) h h0 cs
@[simp] theorem Hw.settle_chan_flt_c (h h0 : Hw) (cs : List ChanId) (c : ChanId) : ((h.settle h0 cs).chan c).flt.c = (h.chan c).flt.c :=
  Hw.settle_keeps (fun h => (h.chan c).flt.c) (by simp) (by simp) (by intro h d f; simp; split <;> simp_all) (by intro h d f; simp; split <;> simp_all) (by simp) (by simp) h h0 cs
@[simp] theorem Hw.settle_chan_flt_h (h h0 : Hw) (cs : List ChanId) (c : ChanId) : ((h.settle h0 cs).chan c).flt.h = (h.chan c).flt.h :=
  Hw.settle_keeps (fun h => (h.chan c).flt.h) (by simp) (by simp) (by intro h d f; simp; split <;> simp_all) (by intro h d f; simp; split <;> simp_all) (by simp) (by simp) h h0 cs
@[simp] theorem Hw.settle_chan_flt_ccirc (h h0 : Hw) (cs : List ChanId) (c : ChanId) : ((h.settle h0 cs).chan c).flt.ccirc = (h.chan c).flt.ccirc :=
  Hw.settle_keeps (fun h => (h.chan c).flt.ccirc) (by simp) (by simp) (by intro h d f; simp; split <;> simp_all) (by intro h d f; simp; split <;> simp_all) (by simp) (by simp) h h0 cs
@[simp] theorem Hw.settle_chan_flt_hQuar (h h0 : Hw) (cs : List ChanId) (c : ChanId) : ((h.settle h0 cs).chan c).flt.hQuar = (h.chan c).flt.hQuar :=
  Hw.settle_keeps (fun h => (h.chan c).flt.hQuar) (by simp) (by simp) (by intro h d f; simp; split <;> simp_all) (by intro h d f; simp; split <;> simp_all) (by simp) (by simp) h h0 cs
@[simp] theorem Hw.settle_chan_flt_hq (h h0 : Hw) (cs : List ChanId) (c : ChanId) : ((h.settle h0 cs).chan c).flt.hq = (h.chan c).flt.hq :=
  Hw.settle_keeps (fun h => (h.chan c).flt.hq) (by simp) (by simp) (by intro h d f; simp; split <;> simp_all) (by intro h d f; simp; split <;> simp_all) (by simp) (by simp) h h0 cs
@[simp] theorem Hw.settle_chan_flt_cq (h h0 : Hw) (cs : List ChanId) (c : ChanId) : ((h.settle h0 cs).chan c).flt.cq = (h.chan c).flt.cq :=
  Hw.settle_keeps (fun h => (h.chan c).flt.cq) (by simp) (by simp) (by intro h d f; simp; split <;> simp_all) (by intro h d f; simp; split <;> simp_all) (by simp) (by simp) h h0 cs
@[simp] theorem Hw.settle_chan_flt_underD (h h0 : Hw) (cs : List ChanId) (c : ChanId) : ((h.settle h0 cs).chan c).flt.underD = (h.chan c).flt.underD :=
  Hw.settle_keeps (fun h => (h.chan c).flt.underD) (by simp) (by simp) (by intro h d f; simp; split <;> simp_all) (by intro h d f; simp; split <;> simp_all) (by simp) (by simp) h h0 cs

@[simp] theorem Hw.settle_chan_reg (h h0 : Hw) (cs : List ChanId) (c : ChanId) (o : Nat) : ((h.settle h0 cs).chan c).reg o = (h.chan c).reg o := by
  simp [Chan.reg]
@[simp] theorem Hw.settle_chan_lane (h h0 : Hw) (cs : List ChanId) (c : ChanId) (p : Lane) : ((h.settle h0 cs).chan c).lane p = (h.chan c).lane p := by
  cases p <;> simp [Chan.lane]

/-- `settle` writes no device register but the channel-state events. -/
theorem Hw.settle_devReg (h h0 : Hw) (cs : List ChanId) (o : Nat) (ho : ∀ g < 6, o ≠ 0x10C0 + 4 * g) :
    (h.settle h0 cs).devReg o = h.devReg o := by
  have h1 : (h.oneChange h0).devReg o = h.devReg o := by
    unfold Hw.oneChange
    have : ∀ (l : List Nat), (∀ g ∈ l, g < 6) → ∀ b : Hw, (l.foldl (fun (h : Hw) g =>
        let off := 0x10C0 + 4 * g
        let n := h0.devField off 31 24
        if h.devField off 31 24 = n then h else h.setDevReg off (withField (h.devReg off) 31 24 (n + 1))) b).devReg o = b.devReg o := by
      intro l
      induction l with
      | nil => intro _ b; rfl
      | cons g l ih =>
        intro hl b
        rw [List.foldl_cons, ih (fun x hx => hl x (by simp [hx]))]
        dsimp only
        split
        · rfl
        · simp [ho g (hl g (by simp))]
    exact this _ (by simp) h
  have hcn : ∀ (h : Hw) (c : ChanId), (h.settleChan h0 c).devReg o = h.devReg o := by
    intro h c
    unfold Hw.settleChan Hw.recStep
    dsimp only
    repeat' split
    all_goals simp
  have h2 : ∀ (h : Hw) (g : Fin 6), (h.settleSum h0 g).devReg o = h.devReg o := by
    intro h g
    unfold Hw.settleSum
    split <;> simp
  unfold Hw.settle
  dsimp only
  refine (foldl_keeps _ (fun (h : Hw) => h.devReg o) h2 _ _).trans ?_
  have h3 : (List.foldl (fun h c => h.settleChan h0 c) (h.oneChange h0) cs).devReg o = h.devReg o := by
    exact (foldl_keeps _ (fun (h : Hw) => h.devReg o) hcn _ _).trans h1
  split
  · exact h3
  · simpa [Hw.drecStep] using h3

/-! ## Free values -/

@[simp] theorem Hw.draw_dev (h : Hw) : h.draw.2.dev = h.dev := rfl
@[simp] theorem Hw.draw_now (h : Hw) : h.draw.2.now = h.now := rfl
@[simp] theorem Hw.draw_chan (h : Hw) (c : ChanId) : h.draw.2.chan c = h.chan c := rfl

end Sys2Proof.Machine
end

