-- ==== Sys2Proof/Laws/Queue.lean ====
section
/-!
SUPPORT. Laws/Queue.lean: what the watermarks and the completions of the command queues leave unchanged.
-/
namespace Sys2Proof.Machine

/-- What a change of a channel register and a router event leave, a level leaves. -/
theorem Hw.level_keeps {γ : Type} (p : Hw → γ) (c : ChanId) (hs : ∀ (h : Hw) (off : Nat) (w : Word), p (h.setChReg c off w) = p h)
    (hn : ∀ (h : Hw) (src : Nat), p (h.notify src) = p h) (h : Hw) (q n : Nat) : p (h.level c q n) = p h := by
  have he : ∀ (h : Hw) (off j : Nat) (fl : Word), p (h.chEvent c off j fl) = p h := by
    intro h off j fl
    unfold Hw.chEvent
    split
    · rw [hn, hs]
    · rfl
  have hw : ∀ (h : Hw) (fl : Word), p (h.wmEvent c q fl) = p h := by
    intro h fl
    unfold Hw.wmEvent Hw.evLat
    rw [he, hs]
  have h1 : ∀ (h : Hw) (b : Prop) [Decidable b] (fl : Word), p (if b then h.wmEvent c q fl else h) = p h := by
    intro h b _ fl; split
    · exact hw h fl
    · rfl
  have h2 : ∀ (h : Hw) (b : Prop) [Decidable b] (off : Nat) (w : Word), p (if b then h.setChReg c off w else h) = p h := by
    intro h b _ off w; split
    · exact hs h off w
    · rfl
  unfold Hw.level
  dsimp only
  rw [h1, h2, hs]

/-- What a change of a channel register and a router event leave, the levels of a port leave. -/
theorem Hw.qLevels_keeps {γ : Type} (p : Hw → γ) (hs : ∀ (h : Hw) (c : ChanId) (off : Nat) (w : Word), p (h.setChReg c off w) = p h)
    (hn : ∀ (h : Hw) (src : Nat), p (h.notify src) = p h) (h : Hw) (q : Port) : p (h.qLevels q) = p h := by
  cases q with
  | device => rfl
  | chan c =>
    unfold Hw.qLevels
    dsimp only
    rw [Hw.level_keeps p c (fun h => hs h c) hn, Hw.level_keeps p c (fun h => hs h c) hn]

@[simp] theorem Hw.level_boot (h : Hw) (c : ChanId) (q n : Nat) : (h.level c q n).dev.boot = h.dev.boot :=
  Hw.level_keeps (fun h => h.dev.boot) c (by simp) (by simp) h q n
@[simp] theorem Hw.level_power (h : Hw) (c : ChanId) (q n : Nat) : (h.level c q n).dev.power = h.dev.power :=
  Hw.level_keeps (fun h => h.dev.power) c (by simp) (by simp) h q n
@[simp] theorem Hw.level_fuses (h : Hw) (c : ChanId) (q n : Nat) : (h.level c q n).dev.fuses = h.dev.fuses :=
  Hw.level_keeps (fun h => h.dev.fuses) c (by simp) (by simp) h q n
@[simp] theorem Hw.level_root (h : Hw) (c : ChanId) (q n : Nat) : (h.level c q n).dev.root = h.dev.root :=
  Hw.level_keeps (fun h => h.dev.root) c (by simp) (by simp) h q n
@[simp] theorem Hw.level_stn (h : Hw) (c : ChanId) (q n : Nat) : (h.level c q n).dev.stn = h.dev.stn :=
  Hw.level_keeps (fun h => h.dev.stn) c (by simp) (by simp) h q n
@[simp] theorem Hw.level_sys (h : Hw) (c : ChanId) (q n : Nat) : (h.level c q n).dev.sys = h.dev.sys :=
  Hw.level_keeps (fun h => h.dev.sys) c (by simp) (by simp) h q n
@[simp] theorem Hw.level_fcl (h : Hw) (c : ChanId) (q n : Nat) : (h.level c q n).dev.fcl = h.dev.fcl :=
  Hw.level_keeps (fun h => h.dev.fcl) c (by simp) (by simp) h q n
@[simp] theorem Hw.level_regs (h : Hw) (c : ChanId) (q n : Nat) : (h.level c q n).dev.regs = h.dev.regs :=
  Hw.level_keeps (fun h => h.dev.regs) c (by simp) (by simp) h q n
@[simp] theorem Hw.level_pf0 (h : Hw) (c : ChanId) (q n : Nat) : (h.level c q n).dev.pf0 = h.dev.pf0 :=
  Hw.level_keeps (fun h => h.dev.pf0) c (by simp) (by simp) h q n
@[simp] theorem Hw.level_pf1 (h : Hw) (c : ChanId) (q n : Nat) : (h.level c q n).dev.pf1 = h.dev.pf1 :=
  Hw.level_keeps (fun h => h.dev.pf1) c (by simp) (by simp) h q n
@[simp] theorem Hw.level_isv (h : Hw) (c : ChanId) (q n : Nat) : (h.level c q n).dev.isv = h.dev.isv :=
  Hw.level_keeps (fun h => h.dev.isv) c (by simp) (by simp) h q n
@[simp] theorem Hw.level_dbg (h : Hw) (c : ChanId) (q n : Nat) : (h.level c q n).dev.dbg = h.dev.dbg :=
  Hw.level_keeps (fun h => h.dev.dbg) c (by simp) (by simp) h q n
@[simp] theorem Hw.level_q (h : Hw) (c : ChanId) (q n : Nat) : (h.level c q n).dev.q = h.dev.q :=
  Hw.level_keeps (fun h => h.dev.q) c (by simp) (by simp) h q n
@[simp] theorem Hw.level_link (h : Hw) (c : ChanId) (q n : Nat) : (h.level c q n).dev.link = h.dev.link :=
  Hw.level_keeps (fun h => h.dev.link) c (by simp) (by simp) h q n
@[simp] theorem Hw.level_flw (h : Hw) (c : ChanId) (q n : Nat) : (h.level c q n).dev.flw = h.dev.flw :=
  Hw.level_keeps (fun h => h.dev.flw) c (by simp) (by simp) h q n
@[simp] theorem Hw.level_armed (h : Hw) (c : ChanId) (q n : Nat) : (h.level c q n).dev.armed = h.dev.armed :=
  Hw.level_keeps (fun h => h.dev.armed) c (by simp) (by simp) h q n
@[simp] theorem Hw.level_kbuf (h : Hw) (c : ChanId) (q n : Nat) : (h.level c q n).dev.kbuf = h.dev.kbuf :=
  Hw.level_keeps (fun h => h.dev.kbuf) c (by simp) (by simp) h q n
@[simp] theorem Hw.level_routing (h : Hw) (c : ChanId) (q n : Nat) : (h.level c q n).dev.routing = h.dev.routing :=
  Hw.level_keeps (fun h => h.dev.routing) c (by simp) (by simp) h q n
@[simp] theorem Hw.level_remapSet (h : Hw) (c : ChanId) (q n : Nat) : (h.level c q n).dev.remapSet = h.dev.remapSet :=
  Hw.level_keeps (fun h => h.dev.remapSet) c (by simp) (by simp) h q n
@[simp] theorem Hw.level_isvStall (h : Hw) (c : ChanId) (q n : Nat) : (h.level c q n).dev.isvStall = h.dev.isvStall :=
  Hw.level_keeps (fun h => h.dev.isvStall) c (by simp) (by simp) h q n
@[simp] theorem Hw.level_shareSet (h : Hw) (c : ChanId) (q n : Nat) : (h.level c q n).dev.shareSet = h.dev.shareSet :=
  Hw.level_keeps (fun h => h.dev.shareSet) c (by simp) (by simp) h q n
@[simp] theorem Hw.qLevels_boot (h : Hw) (q : Port) : (h.qLevels q).dev.boot = h.dev.boot :=
  Hw.qLevels_keeps (fun h => h.dev.boot) (by simp) (by simp) h q
@[simp] theorem Hw.qLevels_power (h : Hw) (q : Port) : (h.qLevels q).dev.power = h.dev.power :=
  Hw.qLevels_keeps (fun h => h.dev.power) (by simp) (by simp) h q
@[simp] theorem Hw.qLevels_fuses (h : Hw) (q : Port) : (h.qLevels q).dev.fuses = h.dev.fuses :=
  Hw.qLevels_keeps (fun h => h.dev.fuses) (by simp) (by simp) h q
@[simp] theorem Hw.qLevels_root (h : Hw) (q : Port) : (h.qLevels q).dev.root = h.dev.root :=
  Hw.qLevels_keeps (fun h => h.dev.root) (by simp) (by simp) h q
@[simp] theorem Hw.qLevels_stn (h : Hw) (q : Port) : (h.qLevels q).dev.stn = h.dev.stn :=
  Hw.qLevels_keeps (fun h => h.dev.stn) (by simp) (by simp) h q
@[simp] theorem Hw.qLevels_sys (h : Hw) (q : Port) : (h.qLevels q).dev.sys = h.dev.sys :=
  Hw.qLevels_keeps (fun h => h.dev.sys) (by simp) (by simp) h q
@[simp] theorem Hw.qLevels_fcl (h : Hw) (q : Port) : (h.qLevels q).dev.fcl = h.dev.fcl :=
  Hw.qLevels_keeps (fun h => h.dev.fcl) (by simp) (by simp) h q
@[simp] theorem Hw.qLevels_regs (h : Hw) (q : Port) : (h.qLevels q).dev.regs = h.dev.regs :=
  Hw.qLevels_keeps (fun h => h.dev.regs) (by simp) (by simp) h q
@[simp] theorem Hw.qLevels_pf0 (h : Hw) (q : Port) : (h.qLevels q).dev.pf0 = h.dev.pf0 :=
  Hw.qLevels_keeps (fun h => h.dev.pf0) (by simp) (by simp) h q
@[simp] theorem Hw.qLevels_pf1 (h : Hw) (q : Port) : (h.qLevels q).dev.pf1 = h.dev.pf1 :=
  Hw.qLevels_keeps (fun h => h.dev.pf1) (by simp) (by simp) h q
@[simp] theorem Hw.qLevels_isv (h : Hw) (q : Port) : (h.qLevels q).dev.isv = h.dev.isv :=
  Hw.qLevels_keeps (fun h => h.dev.isv) (by simp) (by simp) h q
@[simp] theorem Hw.qLevels_dbg (h : Hw) (q : Port) : (h.qLevels q).dev.dbg = h.dev.dbg :=
  Hw.qLevels_keeps (fun h => h.dev.dbg) (by simp) (by simp) h q
@[simp] theorem Hw.qLevels_q (h : Hw) (q : Port) : (h.qLevels q).dev.q = h.dev.q :=
  Hw.qLevels_keeps (fun h => h.dev.q) (by simp) (by simp) h q
@[simp] theorem Hw.qLevels_link (h : Hw) (q : Port) : (h.qLevels q).dev.link = h.dev.link :=
  Hw.qLevels_keeps (fun h => h.dev.link) (by simp) (by simp) h q
@[simp] theorem Hw.qLevels_flw (h : Hw) (q : Port) : (h.qLevels q).dev.flw = h.dev.flw :=
  Hw.qLevels_keeps (fun h => h.dev.flw) (by simp) (by simp) h q
@[simp] theorem Hw.qLevels_armed (h : Hw) (q : Port) : (h.qLevels q).dev.armed = h.dev.armed :=
  Hw.qLevels_keeps (fun h => h.dev.armed) (by simp) (by simp) h q
@[simp] theorem Hw.qLevels_kbuf (h : Hw) (q : Port) : (h.qLevels q).dev.kbuf = h.dev.kbuf :=
  Hw.qLevels_keeps (fun h => h.dev.kbuf) (by simp) (by simp) h q
@[simp] theorem Hw.qLevels_routing (h : Hw) (q : Port) : (h.qLevels q).dev.routing = h.dev.routing :=
  Hw.qLevels_keeps (fun h => h.dev.routing) (by simp) (by simp) h q
@[simp] theorem Hw.qLevels_remapSet (h : Hw) (q : Port) : (h.qLevels q).dev.remapSet = h.dev.remapSet :=
  Hw.qLevels_keeps (fun h => h.dev.remapSet) (by simp) (by simp) h q
@[simp] theorem Hw.qLevels_isvStall (h : Hw) (q : Port) : (h.qLevels q).dev.isvStall = h.dev.isvStall :=
  Hw.qLevels_keeps (fun h => h.dev.isvStall) (by simp) (by simp) h q
@[simp] theorem Hw.qLevels_shareSet (h : Hw) (q : Port) : (h.qLevels q).dev.shareSet = h.dev.shareSet :=
  Hw.qLevels_keeps (fun h => h.dev.shareSet) (by simp) (by simp) h q
@[simp] theorem Hw.level_now (h : Hw) (c : ChanId) (q n : Nat) : (h.level c q n).now = h.now :=
  Hw.level_keeps (fun h => h.now) c (by simp) (by simp) h q n
@[simp] theorem Hw.qLevels_now (h : Hw) (q : Port) : (h.qLevels q).now = h.now :=
  Hw.qLevels_keeps (fun h => h.now) (by simp) (by simp) h q
@[simp] theorem Hw.level_drawn (h : Hw) (c : ChanId) (q n : Nat) : (h.level c q n).drawn = h.drawn :=
  Hw.level_keeps (fun h => h.drawn) c (by simp) (by simp) h q n
@[simp] theorem Hw.qLevels_drawn (h : Hw) (q : Port) : (h.qLevels q).drawn = h.drawn :=
  Hw.qLevels_keeps (fun h => h.drawn) (by simp) (by simp) h q
@[simp] theorem Hw.qLevels_chan_st (h : Hw) (q : Port) (d : ChanId) : ((h.qLevels q).chan d).st = (h.chan d).st :=
  Hw.qLevels_keeps (fun h => (h.chan d).st) (by intro h e o w; simp; split <;> simp_all) (by simp) h q
@[simp] theorem Hw.level_chan_st (h : Hw) (c : ChanId) (q n : Nat) (d : ChanId) : ((h.level c q n).chan d).st = (h.chan d).st :=
  Hw.level_keeps (fun h => (h.chan d).st) c (by intro h o w; simp; split <;> simp_all) (by simp) h q n
@[simp] theorem Hw.qLevels_chan_island (h : Hw) (q : Port) (d : ChanId) : ((h.qLevels q).chan d).island = (h.chan d).island :=
  Hw.qLevels_keeps (fun h => (h.chan d).island) (by intro h e o w; simp; split <;> simp_all) (by simp) h q
@[simp] theorem Hw.level_chan_island (h : Hw) (c : ChanId) (q n : Nat) (d : ChanId) : ((h.level c q n).chan d).island = (h.chan d).island :=
  Hw.level_keeps (fun h => (h.chan d).island) c (by intro h o w; simp; split <;> simp_all) (by simp) h q n
@[simp] theorem Hw.qLevels_chan_wasAbsent (h : Hw) (q : Port) (d : ChanId) : ((h.qLevels q).chan d).wasAbsent = (h.chan d).wasAbsent :=
  Hw.qLevels_keeps (fun h => (h.chan d).wasAbsent) (by intro h e o w; simp; split <;> simp_all) (by simp) h q
@[simp] theorem Hw.level_chan_wasAbsent (h : Hw) (c : ChanId) (q n : Nat) (d : ChanId) : ((h.level c q n).chan d).wasAbsent = (h.chan d).wasAbsent :=
  Hw.level_keeps (fun h => (h.chan d).wasAbsent) c (by intro h o w; simp; split <;> simp_all) (by simp) h q n
@[simp] theorem Hw.qLevels_chan_squelch (h : Hw) (q : Port) (d : ChanId) : ((h.qLevels q).chan d).squelch = (h.chan d).squelch :=
  Hw.qLevels_keeps (fun h => (h.chan d).squelch) (by intro h e o w; simp; split <;> simp_all) (by simp) h q
@[simp] theorem Hw.level_chan_squelch (h : Hw) (c : ChanId) (q n : Nat) (d : ChanId) : ((h.level c q n).chan d).squelch = (h.chan d).squelch :=
  Hw.level_keeps (fun h => (h.chan d).squelch) c (by intro h o w; simp; split <;> simp_all) (by simp) h q n
@[simp] theorem Hw.qLevels_chan_red (h : Hw) (q : Port) (d : ChanId) : ((h.qLevels q).chan d).red = (h.chan d).red :=
  Hw.qLevels_keeps (fun h => (h.chan d).red) (by intro h e o w; simp; split <;> simp_all) (by simp) h q
@[simp] theorem Hw.level_chan_red (h : Hw) (c : ChanId) (q n : Nat) (d : ChanId) : ((h.level c q n).chan d).red = (h.chan d).red :=
  Hw.level_keeps (fun h => (h.chan d).red) c (by intro h o w; simp; split <;> simp_all) (by simp) h q n
@[simp] theorem Hw.qLevels_chan_bkw (h : Hw) (q : Port) (d : ChanId) : ((h.qLevels q).chan d).bkw = (h.chan d).bkw :=
  Hw.qLevels_keeps (fun h => (h.chan d).bkw) (by intro h e o w; simp; split <;> simp_all) (by simp) h q
@[simp] theorem Hw.level_chan_bkw (h : Hw) (c : ChanId) (q n : Nat) (d : ChanId) : ((h.level c q n).chan d).bkw = (h.chan d).bkw :=
  Hw.level_keeps (fun h => (h.chan d).bkw) c (by intro h o w; simp; split <;> simp_all) (by simp) h q n
@[simp] theorem Hw.qLevels_chan_bkp (h : Hw) (q : Port) (d : ChanId) : ((h.qLevels q).chan d).bkp = (h.chan d).bkp :=
  Hw.qLevels_keeps (fun h => (h.chan d).bkp) (by intro h e o w; simp; split <;> simp_all) (by simp) h q
@[simp] theorem Hw.level_chan_bkp (h : Hw) (c : ChanId) (q n : Nat) (d : ChanId) : ((h.level c q n).chan d).bkp = (h.chan d).bkp :=
  Hw.level_keeps (fun h => (h.chan d).bkp) c (by intro h o w; simp; split <;> simp_all) (by simp) h q n
@[simp] theorem Hw.qLevels_chan_map (h : Hw) (q : Port) (d : ChanId) : ((h.qLevels q).chan d).map = (h.chan d).map :=
  Hw.qLevels_keeps (fun h => (h.chan d).map) (by intro h e o w; simp; split <;> simp_all) (by simp) h q
@[simp] theorem Hw.level_chan_map (h : Hw) (c : ChanId) (q n : Nat) (d : ChanId) : ((h.level c q n).chan d).map = (h.chan d).map :=
  Hw.level_keeps (fun h => (h.chan d).map) c (by intro h o w; simp; split <;> simp_all) (by simp) h q n
@[simp] theorem Hw.qLevels_chan_circ (h : Hw) (q : Port) (d : ChanId) : ((h.qLevels q).chan d).circ = (h.chan d).circ :=
  Hw.qLevels_keeps (fun h => (h.chan d).circ) (by intro h e o w; simp; split <;> simp_all) (by simp) h q
@[simp] theorem Hw.level_chan_circ (h : Hw) (c : ChanId) (q n : Nat) (d : ChanId) : ((h.level c q n).chan d).circ = (h.chan d).circ :=
  Hw.level_keeps (fun h => (h.chan d).circ) c (by intro h o w; simp; split <;> simp_all) (by simp) h q n
@[simp] theorem Hw.qLevels_chan_cph (h : Hw) (q : Port) (d : ChanId) : ((h.qLevels q).chan d).cph = (h.chan d).cph :=
  Hw.qLevels_keeps (fun h => (h.chan d).cph) (by intro h e o w; simp; split <;> simp_all) (by simp) h q
@[simp] theorem Hw.level_chan_cph (h : Hw) (c : ChanId) (q n : Nat) (d : ChanId) : ((h.level c q n).chan d).cph = (h.chan d).cph :=
  Hw.level_keeps (fun h => (h.chan d).cph) c (by intro h o w; simp; split <;> simp_all) (by simp) h q n
@[simp] theorem Hw.qLevels_chan_store (h : Hw) (q : Port) (d : ChanId) : ((h.qLevels q).chan d).store = (h.chan d).store :=
  Hw.qLevels_keeps (fun h => (h.chan d).store) (by intro h e o w; simp; split <;> simp_all) (by simp) h q
@[simp] theorem Hw.level_chan_store (h : Hw) (c : ChanId) (q n : Nat) (d : ChanId) : ((h.level c q n).chan d).store = (h.chan d).store :=
  Hw.level_keeps (fun h => (h.chan d).store) c (by intro h o w; simp; split <;> simp_all) (by simp) h q n
@[simp] theorem Hw.qLevels_chan_psw (h : Hw) (q : Port) (d : ChanId) : ((h.qLevels q).chan d).psw = (h.chan d).psw :=
  Hw.qLevels_keeps (fun h => (h.chan d).psw) (by intro h e o w; simp; split <;> simp_all) (by simp) h q
@[simp] theorem Hw.level_chan_psw (h : Hw) (c : ChanId) (q n : Nat) (d : ChanId) : ((h.level c q n).chan d).psw = (h.chan d).psw :=
  Hw.level_keeps (fun h => (h.chan d).psw) c (by intro h o w; simp; split <;> simp_all) (by simp) h q n
@[simp] theorem Hw.qLevels_chan_tim (h : Hw) (q : Port) (d : ChanId) : ((h.qLevels q).chan d).tim = (h.chan d).tim :=
  Hw.qLevels_keeps (fun h => (h.chan d).tim) (by intro h e o w; simp; split <;> simp_all) (by simp) h q
@[simp] theorem Hw.level_chan_tim (h : Hw) (c : ChanId) (q n : Nat) (d : ChanId) : ((h.level c q n).chan d).tim = (h.chan d).tim :=
  Hw.level_keeps (fun h => (h.chan d).tim) c (by intro h o w; simp; split <;> simp_all) (by simp) h q n
@[simp] theorem Hw.qLevels_chan_cvu (h : Hw) (q : Port) (d : ChanId) : ((h.qLevels q).chan d).cvu = (h.chan d).cvu :=
  Hw.qLevels_keeps (fun h => (h.chan d).cvu) (by intro h e o w; simp; split <;> simp_all) (by simp) h q
@[simp] theorem Hw.level_chan_cvu (h : Hw) (c : ChanId) (q n : Nat) (d : ChanId) : ((h.level c q n).chan d).cvu = (h.chan d).cvu :=
  Hw.level_keeps (fun h => (h.chan d).cvu) c (by intro h o w; simp; split <;> simp_all) (by simp) h q n
@[simp] theorem Hw.qLevels_chan_ctr (h : Hw) (q : Port) (d : ChanId) : ((h.qLevels q).chan d).ctr = (h.chan d).ctr :=
  Hw.qLevels_keeps (fun h => (h.chan d).ctr) (by intro h e o w; simp; split <;> simp_all) (by simp) h q
@[simp] theorem Hw.level_chan_ctr (h : Hw) (c : ChanId) (q n : Nat) (d : ChanId) : ((h.level c q n).chan d).ctr = (h.chan d).ctr :=
  Hw.level_keeps (fun h => (h.chan d).ctr) c (by intro h o w; simp; split <;> simp_all) (by simp) h q n
@[simp] theorem Hw.qLevels_chan_q (h : Hw) (q : Port) (d : ChanId) : ((h.qLevels q).chan d).q = (h.chan d).q :=
  Hw.qLevels_keeps (fun h => (h.chan d).q) (by intro h e o w; simp; split <;> simp_all) (by simp) h q
@[simp] theorem Hw.level_chan_q (h : Hw) (c : ChanId) (q n : Nat) (d : ChanId) : ((h.level c q n).chan d).q = (h.chan d).q :=
  Hw.level_keeps (fun h => (h.chan d).q) c (by intro h o w; simp; split <;> simp_all) (by simp) h q n
@[simp] theorem Hw.qLevels_chan_mlt (h : Hw) (q : Port) (d : ChanId) : ((h.qLevels q).chan d).mlt = (h.chan d).mlt :=
  Hw.qLevels_keeps (fun h => (h.chan d).mlt) (by intro h e o w; simp; split <;> simp_all) (by simp) h q
@[simp] theorem Hw.level_chan_mlt (h : Hw) (c : ChanId) (q n : Nat) (d : ChanId) : ((h.level c q n).chan d).mlt = (h.chan d).mlt :=
  Hw.level_keeps (fun h => (h.chan d).mlt) c (by intro h o w; simp; split <;> simp_all) (by simp) h q n
@[simp] theorem Hw.qLevels_chan_flt (h : Hw) (q : Port) (d : ChanId) : ((h.qLevels q).chan d).flt = (h.chan d).flt :=
  Hw.qLevels_keeps (fun h => (h.chan d).flt) (by intro h e o w; simp; split <;> simp_all) (by simp) h q
@[simp] theorem Hw.level_chan_flt (h : Hw) (c : ChanId) (q n : Nat) (d : ChanId) : ((h.level c q n).chan d).flt = (h.chan d).flt :=
  Hw.level_keeps (fun h => (h.chan d).flt) c (by intro h o w; simp; split <;> simp_all) (by simp) h q n

/-- The levels of a channel's queues are registers of that channel. -/
theorem Hw.level_chan_ne (h : Hw) (c : ChanId) (q n : Nat) {d : ChanId} (e : d ≠ c) : (h.level c q n).chan d = h.chan d :=
  Hw.level_keeps (fun h => h.chan d) c (by intro h o w; simp [e]) (by simp) h q n

/-- The levels of a port are registers of its channel. -/
theorem Hw.qLevels_chan_ne (h : Hw) (c : ChanId) {d : ChanId} (e : d ≠ c) : (h.qLevels (.chan c)).chan d = h.chan d := by
  simp only [Hw.qLevels, Hw.level_chan_ne _ c _ _ e]

@[simp] theorem Hw.qLevels_device (h : Hw) : h.qLevels .device = h := rfl


/-- A function's reset without a burst in progress leaves this. -/
@[simp] theorem Hw.resetFunc_boot (h : Hw) (f : Func) : (h.resetFunc f none).dev.boot = h.dev.boot := by
  unfold Hw.resetFunc Hw.abortBurst
  dsimp only
  refine (foldl_keeps _ (fun (h : Hw) => h.dev.boot) (fun b c => ?_) _ _).trans ?_
  · split
    · rfl
    · simp
  · cases f <;> rfl

@[simp] theorem Hw.linkDrop_boot (h : Hw) : (h.linkDrop none none).dev.boot = h.dev.boot := by simp [Hw.linkDrop]

/-- A function's reset without a burst in progress leaves this. -/
@[simp] theorem Hw.resetFunc_power (h : Hw) (f : Func) : (h.resetFunc f none).dev.power = h.dev.power := by
  unfold Hw.resetFunc Hw.abortBurst
  dsimp only
  refine (foldl_keeps _ (fun (h : Hw) => h.dev.power) (fun b c => ?_) _ _).trans ?_
  · split
    · rfl
    · simp
  · cases f <;> rfl

@[simp] theorem Hw.linkDrop_power (h : Hw) : (h.linkDrop none none).dev.power = h.dev.power := by simp [Hw.linkDrop]

/-- A function's reset without a burst in progress leaves this. -/
@[simp] theorem Hw.resetFunc_fuses (h : Hw) (f : Func) : (h.resetFunc f none).dev.fuses = h.dev.fuses := by
  unfold Hw.resetFunc Hw.abortBurst
  dsimp only
  refine (foldl_keeps _ (fun (h : Hw) => h.dev.fuses) (fun b c => ?_) _ _).trans ?_
  · split
    · rfl
    · simp
  · cases f <;> rfl

@[simp] theorem Hw.linkDrop_fuses (h : Hw) : (h.linkDrop none none).dev.fuses = h.dev.fuses := by simp [Hw.linkDrop]

/-- A function's reset without a burst in progress leaves this. -/
@[simp] theorem Hw.resetFunc_root (h : Hw) (f : Func) : (h.resetFunc f none).dev.root = h.dev.root := by
  unfold Hw.resetFunc Hw.abortBurst
  dsimp only
  refine (foldl_keeps _ (fun (h : Hw) => h.dev.root) (fun b c => ?_) _ _).trans ?_
  · split
    · rfl
    · simp
  · cases f <;> rfl

@[simp] theorem Hw.linkDrop_root (h : Hw) : (h.linkDrop none none).dev.root = h.dev.root := by simp [Hw.linkDrop]

/-- A function's reset without a burst in progress leaves this. -/
@[simp] theorem Hw.resetFunc_stn (h : Hw) (f : Func) : (h.resetFunc f none).dev.stn = h.dev.stn := by
  unfold Hw.resetFunc Hw.abortBurst
  dsimp only
  refine (foldl_keeps _ (fun (h : Hw) => h.dev.stn) (fun b c => ?_) _ _).trans ?_
  · split
    · rfl
    · simp
  · cases f <;> rfl

@[simp] theorem Hw.linkDrop_stn (h : Hw) : (h.linkDrop none none).dev.stn = h.dev.stn := by simp [Hw.linkDrop]

/-- A function's reset without a burst in progress leaves this. -/
@[simp] theorem Hw.resetFunc_sys (h : Hw) (f : Func) : (h.resetFunc f none).dev.sys = h.dev.sys := by
  unfold Hw.resetFunc Hw.abortBurst
  dsimp only
  refine (foldl_keeps _ (fun (h : Hw) => h.dev.sys) (fun b c => ?_) _ _).trans ?_
  · split
    · rfl
    · simp
  · cases f <;> rfl

@[simp] theorem Hw.linkDrop_sys (h : Hw) : (h.linkDrop none none).dev.sys = h.dev.sys := by simp [Hw.linkDrop]

/-- A function's reset without a burst in progress leaves this. -/
@[simp] theorem Hw.resetFunc_fcl (h : Hw) (f : Func) : (h.resetFunc f none).dev.fcl = h.dev.fcl := by
  unfold Hw.resetFunc Hw.abortBurst
  dsimp only
  refine (foldl_keeps _ (fun (h : Hw) => h.dev.fcl) (fun b c => ?_) _ _).trans ?_
  · split
    · rfl
    · simp
  · cases f <;> rfl

@[simp] theorem Hw.linkDrop_fcl (h : Hw) : (h.linkDrop none none).dev.fcl = h.dev.fcl := by simp [Hw.linkDrop]

end Sys2Proof.Machine
end

