-- ==== Sys2Proof/Laws/Quiet.lean ====
section
/-!
SUPPORT. Laws/Quiet.lean: what `Hw.quiet` does not see, and how it passes through the updates of the state.
-/
namespace Sys2Proof.Machine

theorem Completes.of {i : Instr} {s : State} {P : Hw → Prop} {h : Hw} (e : exec i s = .next { s with hw := h }) (p : P h) :
    Completes i s P := ⟨_, e, rfl, p⟩

/-! ## Completion, gate by gate -/

/-- The parts of a working module. -/
theorem works_parts {h : Hw} (w : h.works = true) : h.powered = true ∧ h.inMw = false ∧ h.dev.boot.inReset = false := by
  simpa [Hw.works, Bool.and_eq_true, and_assoc] using w

theorem supplied_on {s : State} {f : Hw → Hw} (h : s.hw.works = true) :
    supplied s f = .next { s with hw := (f s.hw).settle s.hw allChans } := by simp [supplied, answer, h]

theorem Completes.byAnswer {i : Instr} {s : State} {P : Hw → Prop} (f : Hw → Hw) (e : exec i s = answer s f)
    (p : P (f s.hw)) : Completes i s P := ⟨_, e, rfl, p⟩

theorem Completes.byLive {i : Instr} {s : State} {P : Hw → Prop} (f : Hw → Hw) (e : exec i s = live s f)
    (w : s.hw.works = true) (p : P (f s.hw)) : Completes i s P := .of (e.trans (live_on w)) p

theorem Completes.byWatched {i : Instr} {s : State} {P : Hw → Prop} (c : ChanId) (f : Hw → Hw)
    (e : exec i s = watched s c f) (w : s.hw.works = true) (p : P ((f s.hw).settle s.hw [c])) : Completes i s P :=
  .of (e.trans (watched_on w)) p

theorem Completes.byWatchedAll {i : Instr} {s : State} {P : Hw → Prop} (f : Hw → Hw) (e : exec i s = watchedAll s f)
    (w : s.hw.works = true) (p : P ((f s.hw).settle s.hw allChans)) : Completes i s P :=
  .of (e.trans (watchedAll_on w)) p

theorem Completes.bySupplied {i : Instr} {s : State} {P : Hw → Prop} (f : Hw → Hw) (e : exec i s = supplied s f)
    (w : s.hw.works = true) (p : P ((f s.hw).settle s.hw allChans)) : Completes i s P :=
  .of (e.trans (supplied_on w)) p

theorem Completes.byOnActive {i : Instr} {s : State} {P : Hw → Prop} (c : ChanId) (f : Hw → Hw)
    (e : exec i s = onActive s c f) (w : s.hw.works = true) (a : (s.hw.chan c).st = .active) (p : P (f s.hw)) :
    Completes i s P := .of (e.trans (onActive_on w a)) p

theorem Completes.byOnActiveW {i : Instr} {s : State} {P : Hw → Prop} (c : ChanId) (f : Hw → Hw)
    (e : exec i s = onActiveW s c f) (w : s.hw.works = true) (a : (s.hw.chan c).st = .active)
    (p : P ((f s.hw).settle s.hw [c])) : Completes i s P := .of (e.trans (onActiveW_on w a)) p

theorem Completes.byOnLanes {i : Instr} {s : State} {P : Hw → Prop} (c : ChanId) (f : Hw → Hw)
    (e : exec i s = onLanes s c f) (w : s.hw.works = true)
    (a : (s.hw.chan c).st = .active ∨ (s.hw.chan c).st = .diag) (p : P (f s.hw)) : Completes i s P :=
  .of (e.trans (onLanes_on w a)) p

theorem Completes.byOnLanesW {i : Instr} {s : State} {P : Hw → Prop} (c : ChanId) (f : Hw → Hw)
    (e : exec i s = onLanesW s c f) (w : s.hw.works = true)
    (a : (s.hw.chan c).st = .active ∨ (s.hw.chan c).st = .diag) (p : P ((f s.hw).settle s.hw [c])) : Completes i s P :=
  .of (e.trans (onLanesW_on w a)) p

/-! ## How `quiet` passes through updates -/

@[simp] theorem Hw.quiet_now (h : Hw) : h.quiet.now = h.now := rfl
@[simp] theorem Hw.quiet_drawn (h : Hw) : h.quiet.drawn = h.drawn := rfl
@[simp] theorem Hw.quiet_boot (h : Hw) : h.quiet.dev.boot = h.dev.boot := rfl
@[simp] theorem Hw.quiet_power (h : Hw) : h.quiet.dev.power = h.dev.power := rfl
@[simp] theorem Hw.quiet_root (h : Hw) : h.quiet.dev.root = h.dev.root := rfl
@[simp] theorem Hw.quiet_stn (h : Hw) : h.quiet.dev.stn = h.dev.stn := rfl
@[simp] theorem Hw.quiet_devReg (h : Hw) (o : Nat) : h.quiet.devReg o = h.devReg o := rfl
@[simp] theorem Hw.quiet_chan (h : Hw) (c : ChanId) : h.quiet.chan c = (h.chan c).quiet := by simp [Hw.quiet, Hw.chan]
@[simp] theorem Chan.quiet_reg (x : Chan) (o : Nat) : x.quiet.reg o = x.reg o := rfl
@[simp] theorem Chan.quiet_setReg (x : Chan) (o : Nat) (w : Word) : (x.setReg o w).quiet = x.quiet.setReg o w := rfl
@[simp] theorem Hw.quiet_chReg (h : Hw) (c : ChanId) (o : Nat) : h.quiet.chReg c o = h.chReg c o := by simp [Hw.chReg]

/-- A change of the spines that commutes with `quiet` passes through it. -/
theorem Hw.quiet_onDev (h : Hw) (f : Dev → Dev) (e : (f h.dev).quiet = f h.dev.quiet) : (h.onDev f).quiet = h.quiet.onDev f := by
  simp [Hw.quiet, Hw.onDev, e]

/-- A change of a channel that commutes with `quiet` passes through it. -/
theorem Hw.quiet_onChan (h : Hw) (c : ChanId) (f : Chan → Chan) (e : (f (h.chan c)).quiet = f (h.chan c).quiet) :
    (h.onChan c f).quiet = h.quiet.onChan c f := by
  have : h.quiet.chan c = (h.chan c).quiet := h.quiet_chan c
  simp only [Hw.onChan, Hw.setChan, this, ← e]
  simp [Hw.quiet, Hw.chan, Vector.map_set]

/-- A change that `quiet` does not see, of the spines. -/
theorem Hw.quiet_onDev_same (h : Hw) (f : Dev → Dev) (e : (f h.dev).quiet = h.dev.quiet) : (h.onDev f).quiet = h.quiet := by
  simp [Hw.quiet, Hw.onDev, e]

/-- A change that `quiet` does not see, of a channel. -/
theorem Hw.quiet_onChan_same (h : Hw) (c : ChanId) (f : Chan → Chan) (e : (f (h.chan c)).quiet = (h.chan c).quiet) :
    (h.onChan c f).quiet = h.quiet := by
  have : (h.chans.set c.val (f (h.chan c))).map Chan.quiet = h.chans.map Chan.quiet := by
    rw [Vector.map_set, e]
    ext i hi : 1
    rw [Vector.getElem_set]
    split
    · subst_vars; simp [Hw.chan]
    · rfl
  simp [Hw.quiet, Hw.onChan, Hw.setChan, this]

@[simp] theorem Hw.quiet_onBoot (h : Hw) (f : Boot → Boot) : (h.onBoot f).quiet = h.quiet.onBoot f := rfl
@[simp] theorem Hw.quiet_onPower (h : Hw) (f : Power → Power) : (h.onPower f).quiet = h.quiet.onPower f := rfl
@[simp] theorem Hw.quiet_setDevReg (h : Hw) (o : Nat) (w : Word) : (h.setDevReg o w).quiet = h.quiet.setDevReg o w := rfl
@[simp] theorem Hw.quiet_setChReg (h : Hw) (c : ChanId) (o : Nat) (w : Word) : (h.setChReg c o w).quiet = h.quiet.setChReg c o w :=
  h.quiet_onChan c _ rfl

/-! ## What `quiet` does not see -/

theorem Dev.quiet_event (d : Dev) (f : Func) (src : Nat) : (d.onFunc f (·.event src)).quiet = d.quiet := by
  cases f <;> simp only [Dev.onFunc, Dev.quiet, FuncSt.event] <;> split <;> simp [FuncSt.quiet]

@[simp] theorem Hw.quiet_notifyOne (h : Hw) (f : Func) (src : Nat) : (h.notifyOne f src).quiet = h.quiet := by
  unfold Hw.notifyOne
  split
  · rfl
  · exact h.quiet_onDev_same _ (Dev.quiet_event _ _ _)

@[simp] theorem Hw.quiet_notify (h : Hw) (src : Nat) : (h.notify src).quiet = h.quiet := by simp [Hw.notify]

@[simp] theorem Hw.quiet_chNotify (h : Hw) (c : ChanId) (j : Nat) : (h.chNotify c j).quiet = h.quiet := by
  unfold Hw.chNotify; split <;> simp

@[simp] theorem Hw.quiet_devEvent (h : Hw) (o d : Nat) (fl : Word) :
    (h.devEvent o d fl).quiet = h.quiet.setDevReg o (evWord (h.devReg o) fl) := by simp [Hw.devEvent]

/-- An event of a channel that raises events, without its latch. -/
theorem Hw.quiet_chEvent (h : Hw) (c : ChanId) (o j : Nat) (fl : Word) (r : (h.chan c).raises = true) :
    (h.chEvent c o j fl).quiet = h.quiet.setChReg c o (evWord (h.chReg c o) fl) := by simp [Hw.chEvent, r]

theorem Fcl.quiet_enter (f : Fcl) (m : BitVec 64) (ts : BitVec 40) (now : Nat) : (f.enter m ts now).quiet = f.quiet := by
  unfold Fcl.enter
  dsimp only
  split <;> rfl

@[simp] theorem Hw.quiet_raiseAny (h : Hw) (m : BitVec 64) : (h.raiseAny m).quiet = h.quiet := by
  unfold Hw.raiseAny
  split
  · rfl
  · refine h.quiet_onDev_same _ ?_
    simp [Dev.quiet, Fcl.quiet_enter]

@[simp] theorem Hw.quiet_raiseSpine (h : Hw) (u k n a : Nat) : (h.raiseSpine u k n a).quiet = h.quiet := by simp [Hw.raiseSpine]
@[simp] theorem Hw.quiet_raiseChan (h : Hw) (c : ChanId) (u k n a : Nat) : (h.raiseChan c u k n a).quiet = h.quiet := by
  unfold Hw.raiseChan; split <;> simp

@[simp] theorem Hw.quiet_recStep (h : Hw) (c : ChanId) : (h.recStep c).quiet = h.quiet := by
  simp only [Hw.recStep, Hw.quiet_chNotify]
  exact h.quiet_onChan_same c _ rfl

@[simp] theorem Hw.quiet_drecStep (h : Hw) : h.drecStep.quiet = h.quiet := by
  simp only [Hw.drecStep, Hw.quiet_notify]
  exact h.quiet_onDev_same _ rfl

@[simp] theorem Hw.quiet_settleChan (h h0 : Hw) (c : ChanId) : (h.settleChan h0 c).quiet = h.quiet := by
  have e : (if h.recView c = h0.recView c then h else h.recStep c).quiet = h.quiet := by split <;> simp
  unfold Hw.settleChan
  dsimp only
  revert e
  generalize (if h.recView c = h0.recView c then h else h.recStep c) = h'
  intro e
  split
  · exact e
  · rw [Hw.quiet_chNotify, ← e]
    exact h'.quiet_onChan_same c _ rfl

@[simp] theorem Hw.quiet_settleSum (h h0 : Hw) (g : Fin 6) : (h.settleSum h0 g).quiet = h.quiet := by
  unfold Hw.settleSum
  split
  · rfl
  · rw [Hw.quiet_notify]
    exact h.quiet_onDev_same _ rfl

/-- The channel-state events count one event a step; a step that counts none leaves them. -/
theorem Hw.oneChange_same (h h0 : Hw) (e : ∀ g < 6, h.devField (0x10C0 + 4 * g) 31 24 = h0.devField (0x10C0 + 4 * g) 31 24) :
    h.oneChange h0 = h := by
  unfold Hw.oneChange
  have : ∀ l : List Nat, (∀ g ∈ l, g < 6) → l.foldl (fun (h : Hw) g =>
      let off := 0x10C0 + 4 * g
      let n := h0.devField off 31 24
      if h.devField off 31 24 = n then h else h.setDevReg off (withField (h.devReg off) 31 24 (n + 1))) h = h := by
    intro l
    induction l with
    | nil => intro _; rfl
    | cons g l ih =>
      intro hl
      rw [List.foldl_cons]
      simp only [e g (hl g (by simp)), if_true]
      exact ih fun x hx => hl x (by simp [hx])
  exact this _ (by simp)

/-- The record registers follow a command that changes no channel's state: nothing but their SEQ and the latches moves. -/
theorem Hw.quiet_settle (h h0 : Hw) (cs : List ChanId) (e : ∀ g < 6, h.devReg (0x10C0 + 4 * g) = h0.devReg (0x10C0 + 4 * g)) :
    (h.settle h0 cs).quiet = h.quiet := by
  unfold Hw.settle
  dsimp only
  rw [Hw.oneChange_same h h0 fun g hg => by simp [Hw.devField, e g hg]]
  refine (foldl_keeps _ Hw.quiet (fun b a => b.quiet_settleSum h0 a) _ _).trans ?_
  have h1 : (cs.foldl (fun (h : Hw) c => h.settleChan h0 c) h).quiet = h.quiet :=
    foldl_keeps _ Hw.quiet (fun b a => b.quiet_settleChan h0 a) _ _
  split
  · exact h1
  · rw [Hw.quiet_drecStep]; exact h1

end Sys2Proof.Machine
end

