-- ==== Sys2Proof/Laws/Midwinter.lean ====
section
/-!
SUPPORT. Laws/Midwinter.lean: what the entry of Midwinter leaves, said once.
-/
namespace Sys2Proof.Machine

theorem Cmd.blank_blob (x : Cmd) : x.blank.blob = [] := rfl

/-- A frozen channel holds no key and drives nothing. -/
theorem Chan.freeze_blank (x : Chan) : x.freeze.blank = true := by
  simp [Chan.freeze, Chan.blank, Cmd.blank_blob]

/-- Entering Midwinter, in a state that allows it. -/
theorem Hw.midwinter_by (h : Hw) (m : BitVec 64) (ts : BitVec 40) (n : Nat) (a : h.dev.boot.st ≠ .powerOff)
    (b : h.dev.boot.st ≠ .supplyUp) (w : h.inMw = false) : (h.midwinter m ts n).MidwinterBy h m := by
  have w' : h.dev.boot.st ≠ .midwinter := by simpa [Hw.inMw] using w
  unfold Hw.midwinter
  rw [if_neg (by simp [a, b, w'])]
  dsimp only
  refine ⟨?_, ⟨?_, ?_⟩, ?_, ?_, ?_⟩
  · simp [Hw.inMw, Hw.log]
  · simp [Hw.log]
  · intro c
    simp [Hw.log, Chan.freeze_blank]
  · intro c
    simp [Hw.log, Chan.freeze]
  · simp [Hw.log, Hw.linkDrop]
  · intro e
    simp [Hw.log, Fcl.log, e]


@[simp] theorem Hw.midwinter_power (h : Hw) (m : BitVec 64) (ts : BitVec 40) (n : Nat) : (h.midwinter m ts n).dev.power = h.dev.power := by
  unfold Hw.midwinter
  split
  · rfl
  · simp [Hw.log]

@[simp] theorem Hw.midwinter_fuses (h : Hw) (m : BitVec 64) (ts : BitVec 40) (n : Nat) : (h.midwinter m ts n).dev.fuses = h.dev.fuses := by
  unfold Hw.midwinter
  split
  · rfl
  · simp [Hw.log]

@[simp] theorem Hw.midwinter_root (h : Hw) (m : BitVec 64) (ts : BitVec 40) (n : Nat) : (h.midwinter m ts n).dev.root = h.dev.root := by
  unfold Hw.midwinter
  split
  · rfl
  · simp [Hw.log]

@[simp] theorem Hw.midwinter_sys (h : Hw) (m : BitVec 64) (ts : BitVec 40) (n : Nat) : (h.midwinter m ts n).dev.sys = h.dev.sys := by
  unfold Hw.midwinter
  split
  · rfl
  · simp [Hw.log]

end Sys2Proof.Machine
end

