-- ==== Sys2Proof/WellFormed.lean ====
section
/-!
DEFINITION. WellFormed.lean: which commands the world outside can present: the sizes the spec fixes for what they carry.
`exec` gives every command a meaning, the ill-formed ones included.
-/
namespace Sys2Proof

/-- A sensed fuse copy has 64 words, each with its parity bit (R392, R394). -/
def fuseCopyWf (l : List (BitVec 33)) : Bool := l.length = 64

/-- A trace has 1, 16 or 64 bytes, or is absent (R116, R485). -/
def traceWf (t : Option (List Byte)) : Bool := t.all fun l => decide (l.length = 1 ∨ l.length = 16 ∨ l.length = 64)

/-- Path overhead is the nine bytes of a higher-order VC, or the four of a lower-order one. -/
def pohWf (o : PathOh) : Bool :=
  match o.lvl with
  | .tu => o.poh.length = 4
  | .au => o.poh.length = 9
  | .tu3 => o.poh.length = 9

/-- A register offset names a 32-bit register (R421). -/
def offsetWf (a : BitVec 22) : Bool := a.toNat % 4 = 0

/-- A span of a tributary: a place in a multiframe of 16 E1 frames or of two T1 superframes, and less than a byte that goes on (R66). -/
def spanWf : LineSpan → Bool
  | .trib t => decide (t.phase < 9264 ∧ t.tail.length < 8)
  | .bytes _ => true
  | .blocks66 _ _ => true
  | .codes _ => true

/-- What a flash gives: 2,048 header bytes of each slot (R399). -/
def flashWf (f : FlashView) : Bool := decide (f.hdrA.length = 2048 ∧ f.hdrB.length = 2048)

/-- A command that the world outside can present. -/
def Instr.wf : Instr → Bool
  | .fuseSenseDone a b => fuseCopyWf a && fuseCopyWf b
  | .fuseResense a b => fuseCopyWf a && fuseCopyWf b
  | .rootLock _ f => flashWf f
  | .rxFrame _ _ o => traceWf o.trace && o.paths.all pohWf
  | .trailerHeadReceive _ _ _ l => l.length = 6
  | .encBlockEnd _ _ x _ _ => spanWf x
  | .decTrailerReceive _ _ _ this next _ => spanWf this && spanWf next
  | .flwOpDone d => decide (d.length ≤ 64)
  | .eyeScanDone _ l _ => decide (l.length ≤ 64)
  | .registerWrite _ a _ _ => offsetWf a
  | .eventClear _ a _ => offsetWf a
  | _ => true

end Sys2Proof
end

