-- ==== Sys2Proof/Tests/Slice0.lean ====
section
/-!
SUPPORT. Tests/Slice0.lean: the WellFormed smoke tests, tests of single steps against the spec's own examples, and for each statement
of the certificate concrete states and operands that meet its hypotheses.
-/
namespace Sys2Proof.Tests
open Sys2Proof.Machine
set_option maxRecDepth 100000
set_option Elab.async false

/-! ## Small states -/

/-- An ACTIVE channel that works. -/
def chan0 : Chan := { st := .active, island := true, squelch := false, mlt := { run := true } }
/-- The module in RUN: channel 0 ACTIVE, the others PARKED, the link up. -/
def base : State :=
  { pending := []
    hw := {
      now := 5000000
      dev := {
        boot := { st := .run, tamperLive := true }
        power := { railOk := Vector.replicate 4 true, pgood := true, armed := true, vinMv := 12000 }
        sys := 0x123456789
        root := { rootOk := true, pllLock := true, everLocked := true, bkpOk := true }
        link := { up := true, speed := 4, width := 8 } }
      chans := (Vector.replicate 48 { st := .parked }).set 0 chan0 } }
/-- A change of the hardware. -/
def hw (f : Hw → Hw) : State := { base with hw := f base.hw }
/-- A change of channel 0. -/
def ch (f : Chan → Chan) : State := hw fun h => h.onChan 0 f
/-- A change of the spines. -/
def dv (f : Dev → Dev) : State := hw fun h => h.onDev f
/-- A change of the boot state. -/
def bt (f : Boot → Boot) : State := hw fun h => h.onBoot f
/-- A change of the supply. -/
def pw (f : Power → Power) : State := hw fun h => h.onPower f
/-- A command of PF0 with TAG 9. -/
def cmd (op : Byte) (w1 w2 w3 : Word) : Cmd := { op := op, tag := 9, chan := 0, w1 := w1, w2 := w2, w3 := w3, by_ := .pf0 }
/-- A lane in frame. -/
def good : LaneSt := { defects := 0, fr := .inframe, cur := 7, cdrLock := true, lost := false }
/-- A circuit word 0: the enable bit, the kind and an LCID of 0x55. -/
def w0e (kind : Nat) (en : Bool) : Word := BitVec.ofNat 32 ((if en then 2 ^ 31 else 0) + kind * 2 ^ 26 + 0x55)
/-- A circuit of a kind, its delays 250 µs and 500 µs. -/
def cir (kind : Nat) (en : Bool) (w1 : Nat := 0) : Circ :=
  { w0 := w0e kind en, w1 := BitVec.ofNat 32 w1, w2 := BitVec.ofNat 32 (200000 * 4096), w3 := BitVec.ofNat 32 (400000 * 4096), eseqE := 5, eseqO := 6 }
/-- A key of 32 bytes in a slot. -/
def key1 (st : SlotSt) : KeySlot := { st := st, key := List.replicate 32 7, kcv := 3, serial := 4 }
/-- An encryption block. -/
def eb : EncBlk := { seq := 4, odd := false, format := 3, clear := false, ect := 0, mep := false, aps := 0, carries := [1] }

/-- What a command does to the hardware; the hardware as it is where it stops. -/
def after (i : Instr) (s : State) : Hw :=
  match exec i s with
  | .next t => t.hw
  | _ => s.hw
/-- A count of microseconds in cycles of CK_CTRL. -/
def us (n : Nat) : Nat := n * 400

/-! ## Commands the world outside cannot present -/

theorem test_wf_fuse_copies : (Instr.fuseSenseDone [] (List.replicate 64 0)).wf = false ∧ (Instr.fuseResense (List.replicate 64 0) []).wf = false
    ∧ (Instr.fuseSenseDone (List.replicate 64 0) (List.replicate 64 0)).wf = true := by decide
theorem test_wf_flash_headers : (Instr.rootLock true ⟨true, [], []⟩).wf = false := by decide
theorem test_wf_trace : traceWf (some [1, 2]) = false ∧ traceWf (some [1]) = true ∧ traceWf none = true := by decide
theorem test_wf_trailer_head : (Instr.trailerHeadReceive 0 .bkw 0 [1]).wf = false ∧ (Instr.trailerHeadReceive 0 .bkw 0 [1, 2, 3, 4, 5, 6]).wf = true := by decide
theorem test_wf_path_overhead : pohWf ⟨⟨0, 0, 0, 0⟩, .au, [1, 2, 3, 4], 0, none⟩ = false ∧ pohWf ⟨⟨0, 0, 0, 0⟩, .tu, [1, 2, 3, 4], 0, none⟩ = true := by decide
theorem test_wf_spans : (Instr.encBlockEnd 0 0 (.trib ⟨[], 9264, []⟩) ⟨[], []⟩ []).wf = false
    ∧ (Instr.decTrailerReceive 0 .bkw ⟨0, 0⟩ (.bytes []) (.trib ⟨[], 0, List.replicate 8 true⟩) []).wf = false
    ∧ (Instr.decTrailerReceive 0 .bkw ⟨0, 0⟩ (.bytes []) (.trib ⟨[], 9263, [true]⟩) []).wf = true := by decide
theorem test_wf_flash_page : (Instr.flwOpDone (List.replicate 65 0)).wf = false := by decide
theorem test_wf_eye_scan : (Instr.eyeScanDone 0 (List.replicate 65 0) false).wf = false := by decide
theorem test_wf_offsets : (Instr.registerWrite .pf0 0x1002 0xF 0).wf = false ∧ (Instr.eventClear .pf0 0x107009 0).wf = false
    ∧ (Instr.registerWrite .pf0 0x1004 0xF 0).wf = true := by decide

/-! ## The spec's own examples -/

/-- 11_host_port.md, the three BAR0 offsets under R424. -/
theorem test_places : place 0x136044 = .chan 3 0x6044 ∧ place 0x0ED010 = .dev 0x10 ∧ place 0x101234 = .chan 0 0x1034 := by decide
/-- 02_reclaim_coding.md, the VC-12 example under R55: TYPE, SEQ and ECT. -/
theorem test_trailer_head : mkType 1 true false 0 = 0x60 ∧ trlHead 0x60 0x12C4F 3 = [0x60, 0x00, 0x00, 0x01, 0x2C, 0x4F, 0x03] := by decide
/-- 05_cipher_and_keys.md, the same block: its IV at role B, its first counter block and its AAD. -/
theorem test_iv_and_aad : ctrBlock (ivOf true 0x2A17 0x12C4F) 1 = [0x80, 0, 0x2A, 0x17, 0, 0, 0, 0, 0, 0x01, 0x2C, 0x4F, 0, 0, 0, 1]
    ∧ aadOf (trlHead 0x60 0x12C4F 3) 0x2A17 = [0x60, 0, 0, 0x01, 0x2C, 0x4F, 0x03, 0, 0x2A, 0x17] := by decide
/-- 02_reclaim_coding.md, the VC-3 example under R85: ECT 20 over 12 opportunities. -/
theorem test_reinsertion : (List.range 12).map (reinsert 12 20) = [1, 2, 2, 1, 2, 2, 1, 2, 2, 1, 2, 2] := by decide
/-- 09_checks_and_faults.md, the example under R331: the initial value of CRC-8. -/
theorem test_fold : fold331 8 8 (blockV 0x2A17 0x12C4F) = 0x5F := by decide
/-- FIPS 197, appendix C.3: AES-256 of 00 11 22 … under 00 01 02 …, the algorithm R183 names. -/
theorem test_aes_vector : aes ((List.range 32).map (BitVec.ofNat 8)) ((List.range 16).map fun i => BitVec.ofNat 8 (17 * i)) =
    [0x8E, 0xA2, 0xB7, 0xCA, 0x51, 0x67, 0x45, 0xBF, 0xEA, 0xFC, 0x49, 0x90, 0x4B, 0x49, 0x60, 0x89] := by decide +kernel

/-- CHn.PSW_EVT with SEQ 0x3B, SWITCH and MISMATCH, as in the example under R431. -/
def pswEvt : State := ch fun x => x.setReg 0x7008 0x3B018000
/-- 11_host_port.md, the example under R431, at 8 µs. -/
theorem test_stale_clear : (after (.eventClear .pf0 0x107008 0x3A008000) pswEvt).chReg 0 0x7008 = 0x3B018000 := by decide +kernel
/-- 11_host_port.md, the example under R431, at 10 µs. -/
theorem test_clear : (after (.eventClear .pf0 0x107008 0x3B018000) pswEvt).chReg 0 0x7008 = 0x3B000000 := by decide +kernel

/-- Channel 5's queue: a KEY_LOAD executes for `r` µs more, and commands wait. -/
def ch5 (r : Nat) (wait : List Cmd) (op : Byte) (tag : Byte) : State := hw fun h => h.onChan 5 fun x =>
  { x with st := .active, island := true, mlt := { run := true }
           q := { wait := wait, busyTill := base.hw.now + us r, pf0 := { w0 := BitVec.ofNat 32 (op.toNat * 2 ^ 24 + tag.toNat * 2 ^ 16) } } }
/-- 11_host_port.md, the example under R446, at 2 µs: KEY_LOAD, TAG 0x03, is REFUSED(QUEUE_LATE). -/
theorem test_queue_late : ((after (.cmdSubmit .pf0 (.chan 5) 0) (ch5 23 [cmd 0x10 0 0 0] 0x10 3)).chan 5).q.pf0.cpl = [0x1003450400000000] := by decide +kernel
/-- 11_host_port.md, the example under R446, at 4 µs: KEY_ZEROIZE_ALL, TAG 0x05, is accepted. -/
theorem test_queue_takes : (((after (.cmdSubmit .pf0 (.chan 5) 0) (ch5 21 [cmd 0x10 0 0 0] 0x12 5)).chan 5).q.wait.map fun x => (x.op, x.tag)) =
    [(0x10, 9), (0x12, 5)] := by decide +kernel
/-- 12_device_registers.md, the example under R473: TS3 reads WARN, and DEV.PWR_TEVT_3 reads 0x0140_0000. -/
theorem test_warn : (after (.tempSample ((Vector.replicate 7 100).set 3 405) 0) base).read .pf0 0x106C = 0x01400000 := by decide +kernel
/-- R454 and R392: before VIN rises nothing answers. -/
theorem test_reset_is_silent : State.reset.hw.read .pf0 0 = 0 := by decide +kernel
/-- A step takes the front of the queue of what waits. -/
theorem test_step_takes_front : step { base with pending := [.mailboxCaptureDone .pf0, .vinFall] } = exec (.mailboxCaptureDone .pf0) { base with pending := [.vinFall] } := rfl

/-! ## Midwinter -/

/-- MIDWINTER, entered for a cause, with a mailbox selector waiting. -/
def winter : State := { hw fun h => (h.onFcl fun f => { f with mw := some (5, 6, true) }).onBoot fun b => { b with st := .midwinter }
  with pending := [.mailboxSelect .pf0 0x20000005] }
/-- The hypotheses of MidwinterHolds are met: the module is in MIDWINTER with no key, and the step answers a next state. -/
theorem test_meets_MidwinterHolds : winter.inMidwinter ∧ ∃ t, step winter = .next t := by
  refine ⟨⟨by decide +kernel, by decide +kernel, by decide +kernel, ⟨rfl, by decide +kernel⟩, ?_⟩, ⟨_, rfl⟩⟩
  intro i hi
  simp only [winter, List.mem_singleton] at hi
  subst hi
  exact ⟨by decide, fun _ _ h => nomatch h⟩

/-! ## What words, blocks and lanes carry -/

/-- 04_circuits_and_slot_maps.md, the example before R182: the base index of the E1's timeslots. -/
theorem test_slot_index : posIndex 8 ⟨5, 1, 4, 2⟩ = 11200 := by decide
/-- R29, R30, R34: one payload byte, sealed, first of its block, stands in bits [39:32] with VCNT 0. -/
theorem test_word : mkWord [0xAA] true 0 true false false = 0xAA00000090 := by decide
/-- R35: a sealed payload word passes; an unsealed one only in clear mode; an overhead word, or a reclaim word that holds anything, never. -/
theorem test_seal_check : sealOk false 0 0x80 = true ∧ sealOk false 0 0x00 = false ∧ sealOk true 0 0x00 = true ∧ sealOk true 0 0x20 = false
    ∧ sealOk false 0 0x140 = false := by decide
/-- Bits of a block's reclaim positions, and of its payload positions. -/
def places (k : Nat) : Nat × Nat :=
  (((masks k).flatMap fun m => (byteBits m.rcl).filter id).length, ((masks k).flatMap fun m => (byteBits m.pay).filter id).length)
/-- 02_reclaim_coding.md, the table of R56 and R58: 168 and 773 bytes of a VC-11, 228 of a VC-12. -/
theorem test_low_order_places : (places 1).1 = 168 ∧ (places 1).2 ≤ 8 * 773 ∧ 8 * 772 < (places 1).2 ∧ (places 2).1 = 228 ∧ (places 2).2 = 8 * 512 + 4 := by
  decide +kernel
/-- R47: the spare bits repeat 01011010. -/
theorem test_spare : sparePattern 8 = [false, true, false, true, true, false, true, false] := by decide
/-- IEEE 802.3 clause 36: /K28.5/ and /D16.2/ from negative disparity. -/
theorem test_code_groups : encode10 true 0xBC false = 0b0011111010 ∧ encode10 false 0x50 false = 0b0110110101 := by decide
/-- R72: local fault begins with block type 0x4B, whose CT is 7. -/
theorem test_block_type : typeOf localFault.pay = 0x4B ∧ ctOf 0x4B = some 7 := by decide
/-- R74: h and NOT h stand before the 64 bits. -/
theorem test_xge_header : (xgeBlock (true :: List.replicate 64 false)).sync = 2 ∧ (xgeBlock (List.replicate 65 false)).sync = 1 := by decide
/-- R133: PRBS7 from seven ones. -/
theorem test_prbs7 : prbsBits 7 6 false 8 0x7F = [false, false, false, false, false, false, true, false] := by decide
/-- R102 and R116: a lane in LOS sends MS-RDI on its own transmitter. -/
theorem test_rdi : ((after (.losEntry 0 .red .noTransitions 0) (ch fun x => { (x.setReg 0x1000 1).setReg 0x1040 1 with red := good, bkw := good })).sohOut 0 .red).k2 &&& 7 = 6
    ∧ ((after (.losEntry 0 .red .noTransitions 0) (ch fun x => { (x.setReg 0x1000 1).setReg 0x1040 1 with red := good, bkw := good })).sohOut 0 .bkw).k2 &&& 7 ≠ 6 := by
  decide +kernel

/-! ## States and operands that meet the hypotheses of each statement -/

namespace P00

/-- A fuse copy of zeros. -/
def fus (n : Nat) : List (BitVec 33) := List.replicate n 0
def s1 : State := bt (fun b => { b with st := .supplyUp })
def s2 : State := bt (fun b => { b with st := .supplyUp, inReset := true })
def s3 : State := bt (fun b => { b with st := .powerOff, tripped := true })
def s5 : State := hw fun h => (h.onBoot fun b => { b with st := .fuseSense, inReset := true }).onPower fun p => { p with pgood := false }
def s6 : State := bt (fun b => { b with st := .fuseSense })
def s7 : State := { base with pending := [.nop .device] }
def s8 : State := pw (fun p => { p with railOk := (Vector.replicate 4 true).set 3 false, pgood := false, vinLow := true, warn := true })
def s9 : State := dv fun d => { d with fuses := { d.fuses with op := some (3, 5) } }
def s10 : State := hw fun h => (h.onPower fun p => { p with islands := [⟨0, false, .park⟩] }).onChan 0 fun x => { x with st := .parking, regs := [(0x1000, 5)] }
def s11 : State := hw fun h => (h.onPower fun p => { p with islands := [⟨0, true, .start⟩] }).onChan 0 fun x => { x with st := .starting }
def v12 : Vector (BitVec 12) 7 := (Vector.replicate 7 100).set 3 560
def v13 : Vector (BitVec 12) 7 := (Vector.replicate 7 100).set 3 559
def v14 : Vector (BitVec 12) 7 := Vector.replicate 7 479
def v15 : Vector (BitVec 12) 7 := Vector.replicate 7 100
def v17 : Vector (BitVec 12) 7 := (Vector.replicate 7 100).set 3 380
def v20 : IslReq := { (⟨0, false, .park⟩ : IslReq) with on := false }
def v21 : IslReq := { (⟨0, true, .start⟩ : IslReq) with on := true }


/-- Every hypothesis of StepRunsFront is met. -/
theorem test_meets_StepRunsFront :
    (s7.pending = [Instr.nop Port.device]) := by
  decide +kernel

/-- Every hypothesis of IdleStepIsOneCycle is met. -/
theorem test_meets_IdleStepIsOneCycle :
    (s1.pending = []) := by
  decide +kernel

/-- Every hypothesis of SupplyAndReset is met. -/
theorem test_meets_SupplyAndReset :
    (State.reset.hw.dev.boot.st = BootSt.powerOff)
    ∧ (State.reset.hw.dev.boot.tripped = false)
    ∧ (s1.hw.dev.boot.st ≠ BootSt.powerOff)
    ∧ (∃ k : Fin 7, 560 ≤ v12[k].toInt)
    ∧ (s3.hw.dev.boot.tripped = true)
    ∧ (s3.hw.dev.boot.tripMw = false)
    ∧ (∀ (k : Fin 7), v14[k].toInt < 480)
    ∧ (s1.hw.dev.boot.st = BootSt.supplyUp)
    ∧ (s1.hw.dev.boot.inReset = false)
    ∧ (s2.hw.dev.boot.st = BootSt.supplyUp)
    ∧ (s2.hw.dev.boot.inReset = true)
    ∧ (s1.hw.works = true)
    ∧ (s2.hw.dev.power.pgood = true)
    ∧ (s5.hw.dev.boot.inReset = true)
    ∧ (s5.hw.dev.power.pgood = false) := by
  and_intros <;> decide +kernel

/-- Every hypothesis of SupplyMonitored is met. -/
theorem test_meets_SupplyMonitored :
    (s1.hw.works = true)
    ∧ (s1.hw.dev.power.armed = true)
    ∧ (s1.hw.dev.power.railOk[railNum Rail.vio] = true)
    ∧ (s8.hw.works = true)
    ∧ (s8.hw.dev.boot.st ≠ BootSt.supplyUp)
    ∧ (s8.hw.dev.power.armed = true)
    ∧ (s8.hw.dev.power.railOk[railNum Rail.vio] = false)
    ∧ (s8.hw.dev.power.vinLow = true)
    ∧ (s1.hw.dev.boot.st ≠ BootSt.powerOff)
    ∧ (∀ (k : Fin 7), v13[k].toInt < 560)
    ∧ (∃ k : Fin 7, s1.hw.warnAt ≤ v13[k].toInt)
    ∧ (∀ (k : Fin 7), v15[k].toInt < 560)
    ∧ (∀ (k : Fin 7), v15[k].toInt < s1.hw.warnAt - 20)
    ∧ (∀ (k : Fin 7), v17[k].toInt < 560)
    ∧ (∃ k : Fin 7, s1.hw.warnAt - 20 ≤ v17[k].toInt)
    ∧ (∀ (k : Fin 7), v17[k].toInt < s1.hw.warnAt) := by
  and_intros <;> decide +kernel

/-- Every hypothesis of MidwinterTriggers is met. -/
theorem test_meets_MidwinterTriggers :
    (s6.hw.works = true)
    ∧ (s6.hw.dev.boot.st ≠ BootSt.supplyUp)
    ∧ (s6.hw.dev.power.armed = true)
    ∧ (s1.hw.dev.boot.tamperLive = true)
    ∧ (s1.hw.inMw = false)
    ∧ (s6.hw.dev.boot.st = BootSt.fuseSense)
    ∧ (s6.hw.dev.fuses.op = none)
    ∧ (senseBad (fus 63) (fus 63) none none = true)
    ∧ (s7.hw.works = true)
    ∧ (s7.hw.dev.boot.st ≠ BootSt.supplyUp)
    ∧ (s7.hw.dev.boot.st ≠ BootSt.fuseSense)
    ∧ (senseBad (fus 63) (fus 63) (some s7.hw.dev.fuses.words) (Option.map (fun x => x.1) s7.hw.dev.fuses.op) = true)
    ∧ (s9.hw.dev.boot.st ≠ BootSt.powerOff)
    ∧ (s9.hw.dev.boot.st ≠ BootSt.supplyUp)
    ∧ (s9.hw.inMw = false)
    ∧ (s9.hw.dev.fuses.op.isSome = true) := by
  and_intros <;> decide +kernel

/-- Every hypothesis of IslandsSwitch is met. -/
theorem test_meets_IslandsSwitch :
    (s11.hw.works = true)
    ∧ (s11.hw.dev.power.islands = [v21])
    ∧ (v21.chan = ↑0)
    ∧ (v21.why = IslWhy.start)
    ∧ (s11.hw.dev.boot.bareWhy = 0)
    ∧ (s10.hw.works = true)
    ∧ (s10.hw.dev.power.islands = [v20])
    ∧ (v20.chan = ↑0)
    ∧ (v20.why = IslWhy.park)
    ∧ (s10.hw.dev.boot.bareWhy = 0)
    ∧ (s1.hw.works = true)
    ∧ ((s1.hw.chan 0).raises = true)
    ∧ ((s1.hw.chan 0).island = true) := by
  and_intros <;> decide +kernel

end P00

namespace P02

/-- A fuse word with its parity bit. -/
def w33 (v : Nat) : BitVec 33 := BitVec.ofNat 33 (v + (if popcount 32 v % 2 = 1 then 0 else 2 ^ 32))
/-- A fuse copy that passes. -/
def good33 : List (BitVec 33) := (List.range 64).map fun i => w33 (if i = 5 then 0x1234 else if i = 38 then 7 else 0)
/-- A device command under way. -/
def dq (x : Cmd) (f : Hw → Hw := id) : State := hw fun h => f (h.onDev fun d => { d with q := { d.q with run := [x] } })
/-- The programmed words of a sealable module. -/
def owned : Table Word := ((List.range 12).map fun i => (12 + i, (3 : Word))) ++ ((List.range 8).map fun i => (24 + i, (3 : Word))) ++ [(42, 1)]
/-- An image that asks both thermometers to advance. -/
def askImage : List Byte := ((((List.replicate 800 0).set 133 1).set 7 1).set 132 3).set 13 2
/-- A header that passes, with CFG_ARB. -/
def hdr (arb : Nat) : List Byte :=
  let l : List Byte := beBytes 4 0x4E59494D ++ beBytes 2 1 ++ beBytes 2 0 ++ beBytes 4 0x900 ++ beBytes 1 3 ++ beBytes 1 arb ++ List.replicate (136 - 14) 0 ++ beBytes 4 0x4831 ++ List.replicate 112 0
  l ++ beBytes 4 (crc32c l).toNat ++ List.replicate (0x800 - 256) 0
def s1 : State := bt (fun b => { b with st := .fuseSense })
def s2 : State := hw (fun h => h.onFuses fun f => { f with words := [(5, 0x1234), (38, 7)] })
def s3 : State := bt (fun b => { b with st := .springLoad, slotB := true, loadAt := 40 })
def s4 : State := hw (fun h => (h.onBoot fun b => { b with st := .rootLock }).onChan 0 fun x => { x with island := false, st := .absent })
def s5 : State := bt (fun b => { b with st := .verify, toTry := [true, false], firstTried := some true })
def s6 : State := bt (fun b => { b with st := .verify, toTry := [false], firstTried := some true, image := [1, 2, 3], loadAt := 5 })
def s7 : State := hw (fun h => (h.onBoot fun b => { b with st := .selfTest, ownerOk := true }).onChan 0 fun x => { x with st := .starting })
def s8 : State := hw (fun h => (h.onBoot fun b => { b with st := .selfTest, ownerOk := false }).onChan 0 fun x => { x with st := .starting })
def s9 : State := bt (fun b => { b with st := .bringUp, imageOk := true, ownerOk := true })
def s10 : State := hw (fun h => (h.setDevReg 0x2010 12).onFuses fun f => { f with data := 6, result := 9 })
def s11 : State := hw (fun h => (h.setDevReg 0x2010 12).onFuses fun f => { f with data := 6, words := [(12, 1)] })
def s12 : State := hw (fun h => h.onFuses fun f => { f with words := owned })
def s13 : State := hw (fun h => h.onFuses fun f => { f with words := owned, op := some (42, 7), data := 5 })
def s14 : State := bt (fun b => { b with image := askImage })
def s15 : State := hw (fun h => (h.onPower fun p => { p with vinMv := 2999 }).onBoot fun b => { b with image := askImage })
def s16 : State := dq (cmd 0x60 0 0 0) (fun h => h.onChan 0 fun x => { x with st := .parked, island := false })
def s17 : State := dq (cmd 0x61 0 0 0)
def s18 : State := dq (cmd 0x62 0 0 0) (fun h => ((h.onBoot fun b => { b with st := .bare, bareWhy := 2 }).onChan 0 fun x => { x with st := .absent, island := false }).onFuses fun f => { f with words := [(32, 1)] })


/-- Every hypothesis of SenseAndLoad is met. -/
theorem test_meets_SenseAndLoad :
    (s1.hw.works = true)
    ∧ (s1.hw.dev.boot.st = BootSt.fuseSense)
    ∧ (s1.hw.dev.fuses.op = none)
    ∧ (senseBad good33 good33 none none = false)
    ∧ (s2.hw.works = true)
    ∧ (senseBad good33 good33 (some s2.hw.dev.fuses.words) (Option.map (fun x => x.1) s2.hw.dev.fuses.op) = false)
    ∧ (s3.hw.works = true)
    ∧ (s3.hw.dev.boot.st = BootSt.springLoad)
    ∧ (s3.hw.dev.boot.bareWhy = 0)
    ∧ (s3.hw.dev.power.islands = []) := by
  and_intros <;> decide +kernel

/-- Every hypothesis of RootLockChoosesSlot is met. -/
theorem test_meets_RootLockChoosesSlot :
    (s4.hw.works = true)
    ∧ (s4.hw.dev.boot.st = BootSt.rootLock)
    ∧ (s4.hw.dev.power.islands = [])
    ∧ (∀ (c : ChanId), (s4.hw.chan c).island = false)
    ∧ ({ sfdpOk := true, hdrA := hdr 3, hdrB := hdr 4 : FlashView }.sfdpOk = true)
    ∧ (hdrCheck (s4.hw.thermo 38) (s4.hw.thermo 40) { sfdpOk := true, hdrA := hdr 3, hdrB := hdr 4 : FlashView }.hdrA = 0 ∨
      hdrCheck (s4.hw.thermo 38) (s4.hw.thermo 40) { sfdpOk := true, hdrA := hdr 3, hdrB := hdr 4 : FlashView }.hdrB = 0)
    ∧ ({ sfdpOk := true, hdrA := [], hdrB := [] : FlashView }.sfdpOk = true)
    ∧ (hdrCheck (s4.hw.thermo 38) (s4.hw.thermo 40) { sfdpOk := true, hdrA := [], hdrB := [] : FlashView }.hdrA ≠ 0)
    ∧ (hdrCheck (s4.hw.thermo 38) (s4.hw.thermo 40) { sfdpOk := true, hdrA := [], hdrB := [] : FlashView }.hdrB ≠ 0)
    ∧ ({ sfdpOk := false, hdrA := [], hdrB := [] : FlashView }.sfdpOk = false) := by
  and_intros <;> decide +kernel

/-- The hypotheses of VerifyPassesOrFallsBack are met, and the case that VERIFY fails in both its forms. (Its case that VERIFY passes
needs an image signed with ECDSA P-384, too long for the kernel.) -/
theorem test_meets_VerifyPassesOrFallsBack :
    (s5.hw.works = true)
    ∧ (s5.hw.dev.boot.st = BootSt.verify)
    ∧ (s5.hw.dev.boot.bareWhy = 0)
    ∧ (s5.hw.dev.boot.toTry = [true, false])
    ∧ ([false] = [] ∨ [false] = [!true])
    ∧ (verifyImage s5.hw.dev.boot.image (s5.hw.hashWords 0) (s5.hw.hashWords 12) ≠ 0)
    ∧ ([false] = [!true])
    ∧ (s6.hw.works = true)
    ∧ (s6.hw.dev.boot.st = BootSt.verify)
    ∧ (s6.hw.dev.boot.bareWhy = 0)
    ∧ (s6.hw.dev.boot.toTry = [false])
    ∧ (([] : List Bool) = [] ∨ ([] : List Bool) = [!false])
    ∧ (verifyImage s6.hw.dev.boot.image (s6.hw.hashWords 0) (s6.hw.hashWords 12) ≠ 0) := by
  and_intros <;> decide +kernel

/-- Every hypothesis of SelfTestDecides is met. -/
theorem test_meets_SelfTestDecides :
    (s7.hw.works = true)
    ∧ (s7.hw.dev.boot.st = BootSt.selfTest)
    ∧ (s7.hw.dev.boot.bareWhy = 0)
    ∧ (s7.hw.dev.boot.ownerOk = true)
    ∧ (s8.hw.works = true)
    ∧ (s8.hw.dev.boot.st = BootSt.selfTest)
    ∧ (s8.hw.dev.boot.bareWhy = 0)
    ∧ (s8.hw.dev.boot.ownerOk = false)
    ∧ ((s7.hw.chan 0).st = ChSt.starting) := by
  and_intros <;> decide +kernel

/-- Every hypothesis of BringUpEntersRun is met. -/
theorem test_meets_BringUpEntersRun :
    (s9.hw.works = true)
    ∧ (s9.hw.dev.boot.st = BootSt.bringUp)
    ∧ (s9.hw.dev.boot.bareWhy = 0) := by
  and_intros <;> decide +kernel

/-- Every hypothesis of FusesProgrammed is met. -/
theorem test_meets_FusesProgrammed :
    (s10.hw.reachesDev Master.pf0 = true)
    ∧ (s10.hw.dev.fuses.op = none)
    ∧ (fieldOf 4032692225 31 16 = 61534)
    ∧ (bitOf 4032692225 0 = true)
    ∧ (bitOf 4032692225 2 = false)
    ∧ (ownerWord (s10.hw.devField 8208 5 0) = true)
    ∧ (s10.hw.sealed = false)
    ∧ (s10.hw.fuseWord (s10.hw.devField 8208 5 0) = 0)
    ∧ (3000 ≤ s10.hw.dev.power.vinMv.toNat)
    ∧ (s10.hw.dev.fuses.data ≠ 0)
    ∧ (s11.hw.reachesDev Master.pf0 = true)
    ∧ (s11.hw.dev.fuses.op = none)
    ∧ (s11.hw.sealed = true ∨ s11.hw.fuseWord (s11.hw.devField 8208 5 0) ≠ 0)
    ∧ (s12.hw.reachesDev Master.pf0 = true)
    ∧ (s12.hw.dev.fuses.op = none)
    ∧ (fieldOf 4032692229 31 16 = 61534)
    ∧ (bitOf 4032692229 0 = true)
    ∧ (bitOf 4032692229 2 = true)
    ∧ (s12.hw.sealed = false)
    ∧ (s12.hw.fusesSet 12 12 = true)
    ∧ (s12.hw.fusesSet 24 8 = true)
    ∧ (3000 ≤ s12.hw.dev.power.vinMv.toNat)
    ∧ (s13.hw.dev.boot.st ≠ BootSt.powerOff)
    ∧ (s13.hw.inMw = false)
    ∧ (s13.hw.dev.fuses.op = some (42, 7))
    ∧ (s13.hw.dev.fuses.resetWaits = false) := by
  and_intros <;> decide +kernel

/-- Every hypothesis of ArbitersAdvance is met. -/
theorem test_meets_ArbitersAdvance :
    (s14.hw.works = true)
    ∧ (s14.hw.dev.boot.st = BootSt.run)
    ∧ (s14.hw.dev.boot.dSinceRun = false)
    ∧ (s14.hw.dev.boot.arbDone = false)
    ∧ (3000 ≤ s14.hw.dev.power.vinMv.toNat)
    ∧ ((s14.hw.imageByte 133).testBit 0 = true)
    ∧ ((s14.hw.imageByte 7).testBit 0 = true)
    ∧ (s14.hw.thermo 38 < s14.hw.imageByte 132)
    ∧ (s14.hw.thermo 40 < s14.hw.imageByte 13)
    ∧ (s14.hw.imageByte 132 ≤ 64)
    ∧ (s14.hw.imageByte 13 ≤ 64)
    ∧ (s15.hw.works = true)
    ∧ (s15.hw.dev.boot.st = BootSt.run)
    ∧ (s15.hw.dev.boot.dSinceRun = false)
    ∧ (s15.hw.dev.boot.arbDone = false)
    ∧ (s15.hw.dev.power.vinMv.toNat < 3000)
    ∧ ((s15.hw.imageByte 133).testBit 0 = true)
    ∧ (s15.hw.thermo 38 < s15.hw.imageByte 132) := by
  and_intros <;> decide +kernel

/-- Every hypothesis of ChannelPowerBegins is met. -/
theorem test_meets_ChannelPowerBegins :
    (s16.hw.works = true)
    ∧ (s16.hw.executes Port.device = true)
    ∧ (List.find? (fresh 96) s16.hw.dev.q.run = some (cmd 96 0 0 0))
    ∧ (BitVec.toNat (cmd 96 0 0 0).chan = ↑0)
    ∧ (s16.hw.dev.boot.st = BootSt.run)
    ∧ ((s16.hw.chan 0).st = ChSt.parked)
    ∧ (s17.hw.works = true)
    ∧ (s17.hw.executes Port.device = true)
    ∧ (List.find? (fresh 97) s17.hw.dev.q.run = some (cmd 97 0 0 0))
    ∧ (BitVec.toNat (cmd 97 0 0 0).chan = ↑0)
    ∧ ((s17.hw.chan 0).st = ChSt.active)
    ∧ (s17.hw.waitsOn 0 = false)
    ∧ (s18.hw.works = true)
    ∧ (s18.hw.executes Port.device = true)
    ∧ (List.find? (fresh 98) s18.hw.dev.q.run = some (cmd 98 0 0 0))
    ∧ (BitVec.toNat (cmd 98 0 0 0).chan = ↑0)
    ∧ (s18.hw.dev.boot.st = BootSt.bare)
    ∧ (s18.hw.chEn 0 = true)
    ∧ ((s18.hw.chan 0).st = ChSt.parked ∨ (s18.hw.chan 0).st = ChSt.absent)
    ∧ (∀ r ∈ s18.hw.dev.power.islands, r.chan ≠ ↑0) := by
  and_intros <;> decide +kernel

end P02

namespace P03

/-- The engines of channel 0 and of the station in a state. -/
def eng (st : EngState) (f : Hw → Hw := id) : State := hw fun h => f ((h.onChan 0 fun x => { x with tim :=
  { x.tim with
    b := { st := st, slope := 500000, fh := 777, hoSecs := 8000, t0 := 30, sel := 1, ofs := 4000 }
    r := { st := st, samples := [(4, 5), (6, 7)], sel := 2, step := some 4000 } } }).onDev fun d =>
  { d with stn := { d.stn with eng := { st := st, hoSecs := 9, slope := 1000000 } } })
/-- Every candidate in a state. -/
def cnd (k : Cand) : State := hw fun h => (h.onChan 0 fun x =>
  { x with regs := [(0x8004, 0x21), (0x8008, 0x304)], tim := { x.tim with cand := Vector.replicate 7 k } }).onDev fun d =>
  { d with stn := { d.stn with inp := Vector.replicate 4 k }, regs := [(0x3010, 1), (0x301C, 2)] }
def s1 : State := hw fun h => h.onRoot fun r => { r with hold := true, pllLock := false, slew := true, epStop := true, epGlitch := true, epUnlock := true, epBkp := true }
def s3 : State := dv fun d => { d with armed := Vector.replicate 4 true, stn := { d.stn with slew := true, pull := 700 } }
def s4 : State := hw fun h => h.onRoot fun r => { r with epStop := true }
def s5 : State := eng .lost (fun h => h.onRoot fun r => { r with hold := true })
def s6 : State := eng .acquiring
def s7 : State := eng .locked
def s8 : State := eng .holdover
def s11 : State := cnd { qst := .qual }
def s12 : State := cnd { qst := .qual, overRun := 2 }
def s13 : State := cnd { qst := .pending, overRun := 1 }
def s14 : State := cnd { qst := .disq, fail := true }


/-- Every hypothesis of RootOscillator is met. -/
theorem test_meets_RootOscillator :
    (base.hw.works = true)
    ∧ (base.hw.dev.root.pllLock = true)
    ∧ (base.hw.dev.root.hold = false)
    ∧ (base.hw.dev.root.epStop = false)
    ∧ (base.hw.dev.root.epGlitch = false)
    ∧ (base.hw.dev.root.epUnlock = false)
    ∧ (s4.hw.works = true)
    ∧ (s4.hw.dev.root.pllLock = true)
    ∧ (s4.hw.dev.root.hold = false)
    ∧ (s4.hw.dev.root.epStop = true)
    ∧ (base.hw.dev.root.bkpOk = true)
    ∧ (base.hw.dev.root.epBkp = false)
    ∧ (s1.hw.works = true)
    ∧ (s1.hw.dev.root.hold = true)
    ∧ (s1.hw.dev.root.slew = true) := by
  and_intros <;> decide +kernel

/-- Every hypothesis of SyscntAlarms is met. -/
theorem test_meets_SyscntAlarms :
    (base.hw.works = true)
    ∧ (base.hw.dev.root.everLocked = true)
    ∧ (base.hw.reachesDev Master.pf0 = true)
    ∧ (s3.hw.works = true)
    ∧ (s3.hw.dev.armed[3] = true)
    ∧ (base.hw.dev.armed[3] = false) := by
  and_intros <;> decide +kernel

/-- Every hypothesis of EnginesLockAndLose is met. -/
theorem test_meets_EnginesLockAndLose :
    (s6.hw.works = true)
    ∧ (s6.hw.engRuns (Engine.synR 0) = true)
    ∧ ((s6.hw.eng (Engine.synR 0)).st = EngState.acquiring)
    ∧ (s6.hw.dev.root.hold = false)
    ∧ (s6.hw.engRuns Engine.stn = true)
    ∧ ((s6.hw.eng Engine.stn).st = EngState.acquiring)
    ∧ ((s6.hw.eng (Engine.synR 0)).unl = false)
    ∧ ((s6.hw.eng Engine.stn).unl = false)
    ∧ (s8.hw.works = true)
    ∧ (s8.hw.engRuns (Engine.synR 0) = true)
    ∧ ((s8.hw.eng (Engine.synR 0)).st = EngState.holdover)
    ∧ (s8.hw.engRuns Engine.stn = true)
    ∧ ((s8.hw.eng Engine.stn).st = EngState.holdover) := by
  and_intros <;> decide +kernel

/-- Every hypothesis of HoldoverAndPhaseSteps is met. -/
theorem test_meets_HoldoverAndPhaseSteps :
    (s7.hw.works = true)
    ∧ (s7.hw.engRuns (Engine.synR 0) = true)
    ∧ ((s7.hw.eng (Engine.synR 0)).st = EngState.locked)
    ∧ (s7.hw.dev.root.hold = false)
    ∧ (s8.hw.works = true)
    ∧ (s8.hw.engRuns (Engine.synR 0) = true)
    ∧ ((s8.hw.eng (Engine.synR 0)).st = EngState.holdover)
    ∧ (s8.hw.dev.root.hold = false)
    ∧ (s5.hw.works = true)
    ∧ (s5.hw.engRuns (Engine.synR 0) = true)
    ∧ ((s5.hw.eng (Engine.synR 0)).st = EngState.lost)
    ∧ (s5.hw.dev.root.hold = true)
    ∧ (base.hw.reaches Master.pf0 = true)
    ∧ (base.hw.lacks Master.pf0 Guard.guarded = false)
    ∧ ((base.hw.chan 0).st = ChSt.active)
    ∧ (((base.hw.chan 0).syn (bitOf 5 31)).step = none)
    ∧ ((signed 21 (fieldOf 5 20 0)).natAbs ≤ 1000000)
    ∧ ((((base.hw.chan 0).syn (bitOf 5 31)).ofs + signed 21 (fieldOf 5 20 0)).natAbs ≤ 10000000)
    ∧ ((s5.hw.chan 0).st = ChSt.active)
    ∧ (((s5.hw.chan 0).syn true).step = some 4000)
    ∧ (base.hw.reachesDev Master.pf0 = true)
    ∧ ((base.hw.dev.stn.pull + signed 21 (fieldOf 5 20 0)).natAbs ≤ 100000000)
    ∧ (s3.hw.works = true)
    ∧ (s3.hw.dev.stn.slew = true) := by
  and_intros <;> decide +kernel

/-- Every hypothesis of CandidatesQualify is met. -/
theorem test_meets_CandidatesQualify :
    (base.hw.works = true)
    ∧ ((base.hw.chan 0).st = ChSt.active)
    ∧ (base.hw.dev.root.hold = false)
    ∧ (↑0 < 3)
    ∧ ((base.hw.chan 0).rank false ↑0 ≠ 0)
    ∧ (((base.hw.chan 0).cand 0).qst = Qst.init)
    ∧ (((base.hw.chan 0).cand 0).fail = false)
    ∧ (((base.hw.chan 0).cand 0).fresh = true)
    ∧ (↑(Int.natAbs 0) ≤ thr (fieldOf ((base.hw.chan 0).reg 32780) 9 0))
    ∧ (s11.hw.works = true)
    ∧ ((s11.hw.chan 0).st = ChSt.active)
    ∧ (s11.hw.dev.root.hold = false)
    ∧ ((s11.hw.chan 0).rank false ↑0 ≠ 0)
    ∧ (((s11.hw.chan 0).cand 0).qst = Qst.qual)
    ∧ (((s11.hw.chan 0).cand 0).fail = false)
    ∧ (thr (fieldOf ((s11.hw.chan 0).reg 32780) 9 0) < ↑(Int.natAbs 9000000))
    ∧ (s12.hw.works = true)
    ∧ ((s12.hw.chan 0).st = ChSt.active)
    ∧ (s12.hw.dev.root.hold = false)
    ∧ ((s12.hw.chan 0).rank false ↑0 ≠ 0)
    ∧ (((s12.hw.chan 0).cand 0).qst = Qst.qual)
    ∧ (((s12.hw.chan 0).cand 0).fail = false)
    ∧ (thr (fieldOf ((s12.hw.chan 0).reg 32780) 9 0) < ↑(Int.natAbs 9000000))
    ∧ (((s12.hw.chan 0).cand 0).overRun = 2)
    ∧ (((s11.hw.chan 0).cand 0).overRun < 2)
    ∧ (s13.hw.works = true)
    ∧ ((s13.hw.chan 0).st = ChSt.active)
    ∧ (((s13.hw.chan 0).cand 0).qst = Qst.pending)
    ∧ (3 ≤ ↑3)
    ∧ (s13.hw.dev.stn.inp[stnIn 3].qst = Qst.pending)
    ∧ (base.hw.dev.stn.inp[3].fail = false)
    ∧ (s14.hw.works = true)
    ∧ (s14.hw.dev.stn.inp[3].fail = true)
    ∧ (s14.hw.dev.stnFreq ↑3 ≠ 0) := by
  and_intros <;> decide +kernel

end P03

namespace P04

/-- A path with errors, whole. -/
def pth : PathOh := ⟨⟨0, 0, 0, 0⟩, .au, [1, 2, 3, 4, 5, 6, 7, 8, 9], 2, none⟩
/-- A received frame's overhead. -/
def oh : RxOh :=
  { k1 := 5, k2 := 7, s1 := 1, m1 := 3, cv1 := 4, cv2 := 6, pmStat := 7, bdi := true, iae := true, pt := some 3, mfasOk := false, fecCorr := 4
    fecUnc := 3, estExp := 4, hiber := false, lf := false, rf := true, trace := some (List.replicate 16 9), paths := [pth, { pth with lvl := .tu, poh := [1, 2, 3, 4] }]
    tribs := [⟨⟨0, 0, 0, 0⟩, false, true, some true, some true, none, some true, 4⟩] }
/-- A circuit at work in both directions. -/
def circ0 : Circ := { w0 := 0x80000000, live := true, enc := [{ eb with format := 1, carries := [] }], w := { blk := .sync, open_ := [{ index := 1, ts := 5 }] } }
/-- Channel 0 with a rate and its three lanes in a state. -/
def rt (rate : Nat) (l : LaneSt) (regs : Table Word := []) (f : Chan → Chan := id) : State := hw fun h => h.onChan 0 fun x =>
  regs.foldl (fun x e => x.setReg e.1 e.2) (f
    { ((x.setReg 0x1000 (BitVec.ofNat 32 rate)).setReg 0x1040 (BitVec.ofNat 32 rate)).setReg 0x1080 (BitVec.ofNat 32 rate) with
      red := l, bkw := l, bkp := l, mlt := { run := true }, circ := [(0, circ0)] })
/-- The first AU pointer of each lane in a state. -/
def allp (q : PtrSt) : Chan → Chan := fun x => ((x.setPtr .red .au ⟨0, 0, 0, 0⟩ q).setPtr .bkw .au ⟨0, 0, 0, 0⟩ q).setPtr .bkp .au ⟨0, 0, 0, 0⟩ q
def s1 : State := rt 1 good
def s2 : State := rt 1 { good with fr := .hunt }
def s3 : State := rt 1 {}
def s4 : State := rt 1 { good with defects := 0x4000, fr := .hunt }
def s5 : State := rt 1 { good with defects := 0x2000 }
def s7 : State := rt 1 { good with defects := 0x1000 }
def s8 : State := rt 1 { good with fr := .runahead, confirm := 3, since := 2, ckpt := some { integ := { k1 := 6 } }, epWords := 5 }
def s9 : State := rt 1 { good with fr := .runahead, confirm := 3, since := 8, ckpt := some { integ := { k1 := 6 } }, epWords := 5, slots := [none, some ⟨3, 1⟩], resume := true }
def s10 : State := rt 1 { good with integ := { k1 := 5, k1N := 2, aisIn := 2, aisOut := 2, k2 := 7, acc := some [1] }, failures := 3 }
def s11 : State := rt 1 { good with defects := 0x0800, integ := { aisOut := 2, k1 := 9, k1N := 3, aisIn := 3 } }
def s12 : State := rt 1 good [] (allp { st := 0, ofs := 782, lastAdj := 2, candN := 2, cand := 5, aisN := 2, badN := 7 })
def s14 : State := rt 1 { good with txLock := false, txIdle := true, chkSync := true, defects := 0xFFFF } [(0x10C8, 0x80000000), (0x10C4, 0x80000000), (0x1004, 0x12), (0x1044, 0x12), (0x1084, 0x12)]
def s16 : State := rt 5 { good with integ := { oom := true } }
def s18 : State := rt 8 good
def s19 : State := rt 8 { good with fr := .hunt }
def s21 : State := rt 1 good [] fun x => { allp { st := 0, ofs := 700, lastAdj := 2, candN := 2, cand := 5, concN := 2 } x with circ := [(0, cir 5 true)], tim := { x.tim with b := { st := .locked, sel := 0 } } }
def v22 : RxOh := { oh with k1 := 9, k2 := 0, paths := [], tribs := [], trace := none, estExp := 12 }


/-- Every hypothesis of LaneDefectsComeAndGo is met. -/
theorem test_meets_LaneDefectsComeAndGo :
    (s1.hw.works = true)
    ∧ ((s1.hw.chan 0).st = ChSt.active ∨ (s1.hw.chan 0).st = ChSt.diag)
    ∧ (((s1.hw.chan 0).lane Lane.red).def_ 15 = false)
    ∧ (((s1.hw.chan 0).lane Lane.red).fr ≠ FrSt.runahead)
    ∧ (s3.hw.works = true)
    ∧ ((s3.hw.chan 0).st = ChSt.active ∨ (s3.hw.chan 0).st = ChSt.diag)
    ∧ (((s3.hw.chan 0).lane Lane.red).def_ 15 = true)
    ∧ (s4.hw.works = true)
    ∧ ((s4.hw.chan 0).st = ChSt.active ∨ (s4.hw.chan 0).st = ChSt.diag)
    ∧ (((s4.hw.chan 0).lane Lane.red).def_ 13 = false)
    ∧ (((s4.hw.chan 0).lane Lane.red).def_ 14 = true)
    ∧ (s5.hw.works = true)
    ∧ ((s5.hw.chan 0).st = ChSt.active ∨ (s5.hw.chan 0).st = ChSt.diag)
    ∧ (((s5.hw.chan 0).lane Lane.red).def_ 13 = true)
    ∧ (((s5.hw.chan 0).lane Lane.red).fr = FrSt.inframe)
    ∧ (((s5.hw.chan 0).lane Lane.red).def_ 12 = false)
    ∧ (((s5.hw.chan 0).lane Lane.red).def_ 15 = false)
    ∧ (s16.hw.works = true)
    ∧ ((s16.hw.chan 0).st = ChSt.active ∨ (s16.hw.chan 0).st = ChSt.diag)
    ∧ (((s16.hw.chan 0).lane Lane.red).def_ 12 = false)
    ∧ (((s16.hw.chan 0).lane Lane.red).integ.oom = true)
    ∧ (isOtn ((s16.hw.chan 0).rate Lane.red) = true)
    ∧ (s7.hw.works = true)
    ∧ ((s7.hw.chan 0).st = ChSt.active ∨ (s7.hw.chan 0).st = ChSt.diag)
    ∧ (((s7.hw.chan 0).lane Lane.red).def_ 12 = true)
    ∧ (((s7.hw.chan 0).lane Lane.red).integ.oom = false)
    ∧ (((s7.hw.chan 0).lane Lane.red).fr = FrSt.inframe)
    ∧ (((s7.hw.chan 0).lane Lane.red).def_ 13 = false)
    ∧ (((s7.hw.chan 0).lane Lane.red).def_ 15 = false) := by
  and_intros <;> decide +kernel

/-- Every hypothesis of FramerStates is met. -/
theorem test_meets_FramerStates :
    (s19.hw.works = true)
    ∧ ((s19.hw.chan 0).st = ChSt.active ∨ (s19.hw.chan 0).st = ChSt.diag)
    ∧ (((s19.hw.chan 0).lane Lane.red).def_ 15 = false)
    ∧ (geRed ((s19.hw.chan 0).rate Lane.red) Lane.red = true)
    ∧ (((s19.hw.chan 0).lane Lane.red).fr = FrSt.hunt)
    ∧ (((s19.hw.chan 0).lane Lane.red).slots = [])
    ∧ ({ align := 0, errs := 0, sync := some true, data := [1, 2] : Pattern }.errs < ((s19.hw.chan 0).frCfg Lane.red).doubt)
    ∧ ({ align := 0, errs := 0, sync := some true, data := [1, 2] : Pattern }.sync = some true)
    ∧ (s2.hw.works = true)
    ∧ ((s2.hw.chan 0).st = ChSt.active ∨ (s2.hw.chan 0).st = ChSt.diag)
    ∧ (((s2.hw.chan 0).lane Lane.red).def_ 15 = false)
    ∧ (geRed ((s2.hw.chan 0).rate Lane.red) Lane.red = false)
    ∧ (((s2.hw.chan 0).lane Lane.red).fr = FrSt.hunt)
    ∧ (((s2.hw.chan 0).lane Lane.red).slots = [])
    ∧ ({ align := 7, errs := 0, sync := none, data := [1, 2] : Pattern }.errs = 0)
    ∧ (2 ≤ ((s2.hw.chan 0).frCfg Lane.red).ifCnt)
    ∧ (s1.hw.works = true)
    ∧ ((s1.hw.chan 0).st = ChSt.active ∨ (s1.hw.chan 0).st = ChSt.diag)
    ∧ (((s1.hw.chan 0).lane Lane.red).def_ 15 = false)
    ∧ (((s1.hw.chan 0).lane Lane.red).fr = FrSt.inframe)
    ∧ ({ align := 7, errs := 0, sync := none, data := [1, 2] : Pattern }.align = ((s1.hw.chan 0).lane Lane.red).cur)
    ∧ ({ align := 7, errs := 0, sync := none, data := [1, 2] : Pattern }.errs < ((s1.hw.chan 0).frCfg Lane.red).doubt)
    ∧ ({ align := 7, errs := 1, sync := some false, data := [] : Pattern }.align = ((s1.hw.chan 0).lane Lane.red).cur)
    ∧ (((s1.hw.chan 0).frCfg Lane.red).doubt ≤ { align := 7, errs := 1, sync := some false, data := [] : Pattern }.errs)
    ∧ (s8.hw.works = true)
    ∧ ((s8.hw.chan 0).st = ChSt.active ∨ (s8.hw.chan 0).st = ChSt.diag)
    ∧ (((s8.hw.chan 0).lane Lane.red).def_ 15 = false)
    ∧ (((s8.hw.chan 0).lane Lane.red).fr = FrSt.runahead)
    ∧ (((s8.hw.chan 0).lane Lane.red).deferred = [])
    ∧ ({ align := 7, errs := 0, sync := none, data := [1, 2] : Pattern }.align = ((s8.hw.chan 0).lane Lane.red).cur)
    ∧ (1 ≤ ((s8.hw.chan 0).frCfg Lane.red).doubt)
    ∧ (((s8.hw.chan 0).frCfg Lane.red).confirm ≤ ((s8.hw.chan 0).lane Lane.red).confirm + 1)
    ∧ (((s8.hw.chan 0).lane Lane.red).since + 1 ≤ ((s8.hw.chan 0).frCfg Lane.red).horizon)
    ∧ (∀ (q : Sys2Proof.Path), Lane.red.path? = some q → ∀ e ∈ (s8.hw.chan 0).circ, (e.2.rx q).wait = [])
    ∧ (Lane.red = Lane.red → ∀ e ∈ (s8.hw.chan 0).circ, ∀ b ∈ e.2.enc, b.held = [])
    ∧ (s9.hw.works = true)
    ∧ ((s9.hw.chan 0).st = ChSt.active ∨ (s9.hw.chan 0).st = ChSt.diag)
    ∧ (((s9.hw.chan 0).lane Lane.red).def_ 15 = false)
    ∧ (((s9.hw.chan 0).lane Lane.red).fr = FrSt.runahead)
    ∧ (((s9.hw.chan 0).frCfg Lane.red).horizon ≤ ((s9.hw.chan 0).lane Lane.red).since) := by
  and_intros <;> decide +kernel

/-- Every hypothesis of ReceivedOverhead is met. -/
theorem test_meets_ReceivedOverhead :
    (s8.hw.works = true)
    ∧ ((s8.hw.chan 0).st = ChSt.active)
    ∧ (((s8.hw.chan 0).lane Lane.red).fr = FrSt.runahead)
    ∧ (s1.hw.works = true)
    ∧ ((s1.hw.chan 0).st = ChSt.active)
    ∧ (((s1.hw.chan 0).lane Lane.red).fr = FrSt.inframe)
    ∧ (isSdh ((s1.hw.chan 0).rate Lane.red) = true)
    ∧ (s10.hw.works = true)
    ∧ ((s10.hw.chan 0).st = ChSt.active)
    ∧ (((s10.hw.chan 0).lane Lane.red).fr = FrSt.inframe)
    ∧ (isSdh ((s10.hw.chan 0).rate Lane.red) = true)
    ∧ (2 ≤ ((s10.hw.chan 0).lane Lane.red).integ.k1N)
    ∧ (((s10.hw.chan 0).lane Lane.red).integ.k1 = oh.k1)
    ∧ (2 ≤ ((s10.hw.chan 0).lane Lane.red).integ.aisIn)
    ∧ (oh.k2 &&& 7#8 = 7#8)
    ∧ (s11.hw.works = true)
    ∧ ((s11.hw.chan 0).st = ChSt.active)
    ∧ (((s11.hw.chan 0).lane Lane.red).fr = FrSt.inframe)
    ∧ (isSdh ((s11.hw.chan 0).rate Lane.red) = true)
    ∧ (2 ≤ ((s11.hw.chan 0).lane Lane.red).integ.aisOut)
    ∧ (((s11.hw.chan 0).lane Lane.red).def_ 11 = true)
    ∧ (v22.k2 &&& 7#8 ≠ 7#8) := by
  and_intros <;> decide +kernel

/-- Every hypothesis of PointersFollowIntervals is met. -/
theorem test_meets_PointersFollowIntervals :
    (s12.hw.works = true)
    ∧ ((s12.hw.chan 0).st = ChSt.active)
    ∧ (((s12.hw.chan 0).lane Lane.red).fr = FrSt.inframe)
    ∧ (isSdh ((s12.hw.chan 0).rate Lane.red) = true)
    ∧ (false = true ∨ (s12.hw.chan 0).isConc { aug := 0, t3 := 0, t2 := 0, tu := 0 : Pos } = false)
    ∧ (((s12.hw.chan 0).ptr Lane.red PtrLevel.au { aug := 0, t3 := 0, t2 := 0, tu := 0 : Pos }).st = 0)
    ∧ (2 ≤ ((s12.hw.chan 0).ptr Lane.red PtrLevel.au { aug := 0, t3 := 0, t2 := 0, tu := 0 : Pos }).lastAdj)
    ∧ (((s12.hw.chan 0).ptr Lane.red PtrLevel.au { aug := 0, t3 := 0, t2 := 0, tu := 0 : Pos }).ofs.toNat < 783)
    ∧ (s21.hw.works = true)
    ∧ ((s21.hw.chan 0).st = ChSt.active)
    ∧ (((s21.hw.chan 0).lane Lane.red).fr = FrSt.inframe)
    ∧ (isSdh ((s21.hw.chan 0).rate Lane.red) = true)
    ∧ (true = true ∨ (s21.hw.chan 0).isConc { aug := 0, t3 := 0, t2 := 0, tu := 0 : Pos } = false)
    ∧ (((s21.hw.chan 0).ptr Lane.red PtrLevel.au { aug := 0, t3 := 0, t2 := 0, tu := 0 : Pos }).st = 0)
    ∧ (2 ≤ ((s21.hw.chan 0).ptr Lane.red PtrLevel.au { aug := 0, t3 := 0, t2 := 0, tu := 0 : Pos }).lastAdj)
    ∧ (((s21.hw.chan 0).ptr Lane.red PtrLevel.au { aug := 0, t3 := 0, t2 := 0, tu := 0 : Pos }).ofs.toNat < 783)
    ∧ ((s21.hw.chan 0).thruTimed false = true)
    ∧ (((s12.hw.chan 0).ptr Lane.red PtrLevel.au { aug := 0, t3 := 0, t2 := 0, tu := 0 : Pos }).cand = 5)
    ∧ (2 ≤ ((s12.hw.chan 0).ptr Lane.red PtrLevel.au { aug := 0, t3 := 0, t2 := 0, tu := 0 : Pos }).candN)
    ∧ (2 ≤ ((s12.hw.chan 0).ptr Lane.red PtrLevel.au { aug := 0, t3 := 0, t2 := 0, tu := 0 : Pos }).aisN)
    ∧ (7 ≤ ((s12.hw.chan 0).ptr Lane.red PtrLevel.au { aug := 0, t3 := 0, t2 := 0, tu := 0 : Pos }).badN)
    ∧ ((s21.hw.chan 0).isConc { aug := 0, t3 := 0, t2 := 0, tu := 0 : Pos } = true)
    ∧ (2 ≤ ((s21.hw.chan 0).ptr Lane.red PtrLevel.au { aug := 0, t3 := 0, t2 := 0, tu := 0 : Pos }).concN) := by
  and_intros <;> decide +kernel

/-- Every hypothesis of FailuresAndTransmitPlls is met. -/
theorem test_meets_FailuresAndTransmitPlls :
    (s3.hw.works = true)
    ∧ ((s3.hw.chan 0).st = ChSt.active)
    ∧ ((s3.hw.chan 0).mlt.run = true)
    ∧ (((s3.hw.chan 0).lane Lane.red).def_ (Defect.bit Defect.los) = true)
    ∧ (s1.hw.works = true)
    ∧ ((s1.hw.chan 0).st = ChSt.active)
    ∧ ((s1.hw.chan 0).mlt.run = true)
    ∧ (((s1.hw.chan 0).lane Lane.red).def_ (Defect.bit Defect.los) = false)
    ∧ (((s1.hw.chan 0).lane Lane.red).txLock = true)
    ∧ (s14.hw.works = true)
    ∧ ((s14.hw.chan 0).st = ChSt.active)
    ∧ (((s14.hw.chan 0).lane Lane.red).txLock = false) := by
  and_intros <;> decide +kernel

/-- Every hypothesis of PrbsQueuesAndEye is met. -/
theorem test_meets_PrbsQueuesAndEye :
    (s1.hw.works = true)
    ∧ ((s1.hw.chan 0).st = ChSt.active)
    ∧ (s1.hw.reaches Master.isund = true)
    ∧ (s14.hw.works = true)
    ∧ ((s14.hw.chan 0).st = ChSt.active)
    ∧ (prbsOn (s14.hw.chReg 0 (prbsReg Lane.red)) = true)
    ∧ (((s14.hw.chan 0).lane Lane.red).chkSync = true)
    ∧ (s18.hw.works = true)
    ∧ ((s18.hw.chan 0).st = ChSt.active)
    ∧ ((s18.hw.chan 0).rate Lane.red = 8)
    ∧ (bitOf (s1.hw.chReg 0 4296) 31 = false)
    ∧ (bitOf 2147483655 31 = true)
    ∧ (bitOf (s14.hw.chReg 0 4296) 31 = true) := by
  and_intros <;> decide +kernel

end P04

namespace P05

/-- Channel 0 on STM-1 with circuits and registers. -/
def cx (l : List (Nat × Circ)) (regs : Table Word) (f : Chan → Chan := id) : State := hw fun h => h.onChan 0 fun x =>
  regs.foldl (fun x e => x.setReg e.1 e.2) (f { ((x.setReg 0x1000 1).setReg 0x1040 1).setReg 0x1080 1 with circ := l, mlt := { run := true } })
/-- The table port has an owner. -/
def own (o : BitVec 3) (f : Chan → Chan := id) : Chan → Chan := fun x => f { x with map := { x.map with tpOwner := o } }
/-- The table port's registers: INDEX and TABLE, CTL, data. -/
def tr (idx tab : Nat) (c : Word) (d0 d1 d2 d3 : Word) : Table Word :=
  [(0x3014, BitVec.ofNat 32 (tab * 2 ^ 30 + idx)), (0x3018, c), (0x3020, d0), (0x3024, d1), (0x3028, d2), (0x302C, d3)]
/-- The table port holds the words that enable a circuit. -/
def trc (idx : Nat) (y : Circ) : Table Word := tr idx 0 0 (y.w0 ||| 0x80000000) y.w1 y.w2 y.w3
/-- Context 0. -/
def ctx (z : Ctx) (f : Chan → Chan := id) : Chan → Chan := fun x => f { x with cph := { x.cph with ctx := [(0, z)] } }
/-- A Slot Map entry. -/
def slotE (role c : Nat) : BitVec 16 := BitVec.ofNat 16 (2 ^ 15 + role * 8192 + c)
/-- Both banks map tributary 0 to circuit 1. -/
def frac (f : Chan → Chan) : Chan → Chan := fun x =>
  let b : Table (BitVec 16) := (List.range 24).map fun i => (i, slotE (if i < 20 then 0 else 1) 1)
  f { x with map := { x.map with bankA := b, bankB := b } }
/-- MAP_SWAP is under way. -/
def cmdq (f : Chan → Chan) : Chan → Chan := fun x => f { x with q := { x.q with run := [cmd 0x20 0 0 0] } }
/-- A live circuit. -/
def lv (y : Circ) : Circ := { y with live := true }
def s1 : State := cx [(0, cir 3 false)] (tr 0 0 0 0x0C000077 0xFFFFFFFF 0xFFFFFFFF 5) (own 1)
def s2 : State := cx [(0, cir 3 false)] (tr 2016 2 0x18 0 0 0 0) (own 1)
def s3 : State := cx [(0, cir 3 false)] (trc 0 (cir 3 false)) (own 1)
def s4 : State := cx [(0, cir 3 false), (1, cir 2 true)] (trc 0 (cir 3 false)) (own 3 (ctx { floorE := 7, floorO := 3 }))
def s5 : State := cx [(0, cir 3 false)] (tr 0 2 0x19 0 0 0 0) (own 1 fun x => { x with map := { x.map with tpOp := some (.enable 7), tpNext := 3 } })
def s6 : State := cx [(0, cir 3 false)] (tr 4 0 1 0 0 0 0) (own 1 fun x => { x with map := { x.map with tpOp := some .read, tpNext := 3 } })
def s8 : State := cx [(0, { cir 3 false with drain := true, enc := [eb] })] []
def s9 : State := cx [(0, cir 3 true)] [] (cmdq id)
def s10 : State := cx [(1, cir 9 true 0x40000)] [] (frac (cmdq id))
def s12 : State := cx [(1, cir 9 true 0x40000)] [] (frac fun x => { (cmdq id x) with map := { x.map with pending := true, swaps := [], encWas := false } })
def s14 : State := cx [(0, lv (cir 3 true)), (1, { lv (cir 2 true 8) with odd := false })] [] (ctx { even := key1 .current })
def s15 : State := cx [(0, { lv (cir 3 true) with odd := true, guard := false, kaLeft := 0, prevTrailer := [3] }), (1, { lv (cir 2 true) with odd := true, guard := false, clear := true, kaLeft := 4 })] [] (ctx { txp := true })
def s17 : State := cx [(0, { lv (cir 3 true) with enc := [eb] })] [] (ctx { even := key1 .current })
def s18 : State := cx [(0, { lv (cir 3 true) with enc := [{ eb with done := true }, { eb with clear := true, odd := true }], ectAcc := 5 })] [] (ctx { even := key1 .current })
def s21 : State := cx [(0, { lv (cir 3 true) with enc := [{ eb with done := true, body := [1, 2], spec := true }, eb] })] []
def s23 : State := cx [(0, { lv (cir 2 true) with enc := [{ eb with lost := 1, missed := true, done := true }] }), (1, { lv (cir 14 true) with enc := [{ eb with done := true, body := [1, 2], spec := false }] })] []
def s26 : State := cx [(0, { cir 9 false with drain := true, enc := [eb] })] []
def s27 : State := cx [(0, { cir 10 false with drain := true, enc := [eb] })] []
def s28 : State := cx [(0, cir 10 true)] [(0x1000, 5), (0x1040, 5), (0x1080, 5)]
def v30 : EncBlk := { eb with done := true }
def v34 : EncBlk := { eb with done := true, body := [1, 2], spec := true }
def v36 : EncBlk := { eb with lost := 1, missed := true, done := true }
def v37 : List EncBlk := [{ eb with clear := true, odd := true }]
def v38 : Kind := ⟨15000000, 1250000, 1500, false, 9072, 192, 192, 0, 12, 12, 8⟩

/-- Every hypothesis of TablePortOperates is met. -/
theorem test_meets_TablePortOperates :
    (base.hw.reaches Master.pf0 = true)
    ∧ (tpCode Master.pf0 ≠ 0)
    ∧ ((base.hw.chan 0).st = ChSt.active)
    ∧ ((base.hw.chan 0).map.tpOp = none)
    ∧ ((base.hw.chan 0).map.tpOwner = 0)
    ∧ (s1.hw.reaches Master.pf0 = true)
    ∧ ((s1.hw.chan 0).st = ChSt.active)
    ∧ ((s1.hw.chan 0).map.tpOp = none)
    ∧ ((s1.hw.chan 0).map.tpOwner = tpCode Master.pf0)
    ∧ (bitOf 1 0 = true)
    ∧ (bitOf 1 1 = false)
    ∧ (fieldOf (s1.hw.chReg 0 12308) 31 30 = 0)
    ∧ (fieldOf (s1.hw.chReg 0 12308) 16 0 < 8192)
    ∧ (bitOf 3 0 = true)
    ∧ (bitOf 3 1 = true)
    ∧ (((s1.hw.chan 0).circ! (BitVec.ofNat 13 (fieldOf (s1.hw.chReg 0 12308) 16 0))).en = false)
    ∧ (bitOf ((s1.hw.chan 0).tpD 0) 31 = false)
    ∧ (s2.hw.reaches Master.pf0 = true)
    ∧ ((s2.hw.chan 0).st = ChSt.active)
    ∧ ((s2.hw.chan 0).map.tpOp = none)
    ∧ ((s2.hw.chan 0).map.tpOwner = tpCode Master.pf0)
    ∧ (bitOf (s2.hw.chReg 0 12312) 4 = true)
    ∧ (fieldOf (s2.hw.chReg 0 12308) 31 30 = 2)
    ∧ (fieldOf (s2.hw.chReg 0 12308) 16 0 < 129024)
    ∧ ((s2.hw.chan 0).map.enc = false)
    ∧ ((s2.hw.chan 0).map.dec = false)
    ∧ ((s2.hw.chan 0).map.pending = false) := by
  and_intros <;> decide +kernel

/-- Every hypothesis of CircuitsServed is met. -/
theorem test_meets_CircuitsServed :
    (s3.hw.reaches Master.pf0 = true)
    ∧ (tpCode Master.pf0 ≠ 0)
    ∧ ((s3.hw.chan 0).st = ChSt.active)
    ∧ ((s3.hw.chan 0).map.tpOp = none)
    ∧ ((s3.hw.chan 0).map.tpOwner = tpCode Master.pf0)
    ∧ (bitOf 3 0 = true)
    ∧ (bitOf 3 1 = true)
    ∧ (fieldOf (s3.hw.chReg 0 12308) 31 30 = 0)
    ∧ (fieldOf (s3.hw.chReg 0 12308) 16 0 < 8192)
    ∧ (((s3.hw.chan 0).circ! (BitVec.ofNat 13 (fieldOf (s3.hw.chReg 0 12308) 16 0))).en = false)
    ∧ (bitOf ((s3.hw.chan 0).tpD 0) 31 = true)
    ∧ ((s3.hw.chan 0).sameEntry ((s3.hw.chan 0).circ! (BitVec.ofNat 13 (fieldOf (s3.hw.chReg 0 12308) 16 0))) = true)
    ∧ ((s3.hw.chan 0).enableCheck (BitVec.ofNat 13 (fieldOf (s3.hw.chReg 0 12308) 16 0)).toNat
    ((s3.hw.chan 0).circ! (BitVec.ofNat 13 (fieldOf (s3.hw.chReg 0 12308) 16 0))) =
      none)
    ∧ (s5.hw.works = true)
    ∧ ((s5.hw.chan 0).map.tpOp = some (TpOp.enable 7))
    ∧ (bitOf (s5.hw.chReg 0 12312) 3 = true)
    ∧ (fieldOf (s5.hw.chReg 0 12308) 16 0 < tpLast (fieldOf (s5.hw.chReg 0 12308) 31 30))
    ∧ (s6.hw.works = true)
    ∧ ((s6.hw.chan 0).map.tpOp = some TpOp.read)
    ∧ (bitOf (s6.hw.chReg 0 12312) 3 = false)
    ∧ (s4.hw.works = true)
    ∧ ((s4.hw.chan 0).serves 1 = true)
    ∧ (((s4.hw.chan 0).circ! 1).live = false)
    ∧ ((s4.hw.chan 0).atPhase
    { w0 := ((s4.hw.chan 0).circ! 1).w0, w1 := ((s4.hw.chan 0).circ! 1).w1, w2 := ((s4.hw.chan 0).circ! 1).w2,
      w3 := ((s4.hw.chan 0).circ! 1).w3, live := ((s4.hw.chan 0).circ! 1).live, quar := ((s4.hw.chan 0).circ! 1).quar,
      drain := ((s4.hw.chan 0).circ! 1).drain, starved := ((s4.hw.chan 0).circ! 1).starved,
      eseqE := ((s4.hw.chan 0).circ! 1).eseqE, eseqO := ((s4.hw.chan 0).circ! 1).eseqO,
      odd := ((s4.hw.chan 0).circ! 1).odd, switched := ((s4.hw.chan 0).circ! 1).switched,
      asNow := ((s4.hw.chan 0).circ! 1).asNow, clear := ((s4.hw.chan 0).circ! 1).clear,
      clearNext := ((s4.hw.chan 0).circ! 1).clearNext, kaLeft := ((s4.hw.chan 0).circ! 1).kaLeft,
      guard := ((s4.hw.chan 0).circ! 1).guard, aged := ((s4.hw.chan 0).circ! 1).aged,
      stopped := ((s4.hw.chan 0).circ! 1).stopped, ectAcc := ((s4.hw.chan 0).circ! 1).ectAcc,
      prevTrailer := ((s4.hw.chan 0).circ! 1).prevTrailer, enc := ((s4.hw.chan 0).circ! 1).enc,
      w := ((s4.hw.chan 0).circ! 1).w, p := ((s4.hw.chan 0).circ! 1).p, anchor := ((s4.hw.chan 0).circ! 1).anchor,
      gap := ((s4.hw.chan 0).circ! 1).gap, delta := ((s4.hw.chan 0).circ! 1).delta,
      diffs := ((s4.hw.chan 0).circ! 1).diffs, dovf := ((s4.hw.chan 0).circ! 1).dovf,
      dovfRun := ((s4.hw.chan 0).circ! 1).dovfRun, lead := ((s4.hw.chan 0).circ! 1).lead,
      misses := ((s4.hw.chan 0).circ! 1).misses, verifiedSinceMiss := ((s4.hw.chan 0).circ! 1).verifiedSinceMiss,
      reserved := ((s4.hw.chan 0).circ! 1).reserved, ge := ((s4.hw.chan 0).circ! 1).ge,
      rckpt := ((s4.hw.chan 0).circ! 1).rckpt, phase := (s4.hw.chan 0).startPhase ((s4.hw.chan 0).circ! 1) 0,
      black := ((s4.hw.chan 0).circ! 1).black, blackWas := ((s4.hw.chan 0).circ! 1).blackWas,
      red := ((s4.hw.chan 0).circ! 1).red, parB := ((s4.hw.chan 0).circ! 1).parB, parR := ((s4.hw.chan 0).circ! 1).parR,
      scr := ((s4.hw.chan 0).circ! 1).scr, rdB := ((s4.hw.chan 0).circ! 1).rdB, geTx := ((s4.hw.chan 0).circ! 1).geTx :
      Circ }
    0 =
      true)
    ∧ (s28.hw.works = true)
    ∧ ((s28.hw.chan 0).serves 0 = true)
    ∧ (((s28.hw.chan 0).circ! 0).live = false)
    ∧ ((s28.hw.chan 0).atPhase
    { w0 := ((s28.hw.chan 0).circ! 0).w0, w1 := ((s28.hw.chan 0).circ! 0).w1, w2 := ((s28.hw.chan 0).circ! 0).w2,
      w3 := ((s28.hw.chan 0).circ! 0).w3, live := ((s28.hw.chan 0).circ! 0).live,
      quar := ((s28.hw.chan 0).circ! 0).quar, drain := ((s28.hw.chan 0).circ! 0).drain,
      starved := ((s28.hw.chan 0).circ! 0).starved, eseqE := ((s28.hw.chan 0).circ! 0).eseqE,
      eseqO := ((s28.hw.chan 0).circ! 0).eseqO, odd := ((s28.hw.chan 0).circ! 0).odd,
      switched := ((s28.hw.chan 0).circ! 0).switched, asNow := ((s28.hw.chan 0).circ! 0).asNow,
      clear := ((s28.hw.chan 0).circ! 0).clear, clearNext := ((s28.hw.chan 0).circ! 0).clearNext,
      kaLeft := ((s28.hw.chan 0).circ! 0).kaLeft, guard := ((s28.hw.chan 0).circ! 0).guard,
      aged := ((s28.hw.chan 0).circ! 0).aged, stopped := ((s28.hw.chan 0).circ! 0).stopped,
      ectAcc := ((s28.hw.chan 0).circ! 0).ectAcc, prevTrailer := ((s28.hw.chan 0).circ! 0).prevTrailer,
      enc := ((s28.hw.chan 0).circ! 0).enc, w := ((s28.hw.chan 0).circ! 0).w, p := ((s28.hw.chan 0).circ! 0).p,
      anchor := ((s28.hw.chan 0).circ! 0).anchor, gap := ((s28.hw.chan 0).circ! 0).gap,
      delta := ((s28.hw.chan 0).circ! 0).delta, diffs := ((s28.hw.chan 0).circ! 0).diffs,
      dovf := ((s28.hw.chan 0).circ! 0).dovf, dovfRun := ((s28.hw.chan 0).circ! 0).dovfRun,
      lead := ((s28.hw.chan 0).circ! 0).lead, misses := ((s28.hw.chan 0).circ! 0).misses,
      verifiedSinceMiss := ((s28.hw.chan 0).circ! 0).verifiedSinceMiss, reserved := ((s28.hw.chan 0).circ! 0).reserved,
      ge := ((s28.hw.chan 0).circ! 0).ge, rckpt := ((s28.hw.chan 0).circ! 0).rckpt,
      phase := (s28.hw.chan 0).startPhase ((s28.hw.chan 0).circ! 0) 3, black := ((s28.hw.chan 0).circ! 0).black,
      blackWas := ((s28.hw.chan 0).circ! 0).blackWas, red := ((s28.hw.chan 0).circ! 0).red,
      parB := ((s28.hw.chan 0).circ! 0).parB, parR := ((s28.hw.chan 0).circ! 0).parR,
      scr := ((s28.hw.chan 0).circ! 0).scr, rdB := ((s28.hw.chan 0).circ! 0).rdB,
      geTx := ((s28.hw.chan 0).circ! 0).geTx : Circ }
    3 =
      false)
    ∧ (s8.hw.works = true)
    ∧ ((s8.hw.chan 0).st = ChSt.active)
    ∧ (((s8.hw.chan 0).circ! 0).drain = true)
    ∧ (s26.hw.works = true)
    ∧ ((s26.hw.chan 0).st = ChSt.active)
    ∧ (((s26.hw.chan 0).circ! 0).drain = true)
    ∧ (isFrac ((s26.hw.chan 0).circ! 0).kind = true)
    ∧ (s27.hw.works = true)
    ∧ ((s27.hw.chan 0).st = ChSt.active)
    ∧ (((s27.hw.chan 0).circ! 0).drain = true)
    ∧ (isWhole ((s27.hw.chan 0).circ! 0).kind = true)
    ∧ (frameLen ((s27.hw.chan 0).circ! 0).kind ≠ 0)
    ∧ (isFrac ((s8.hw.chan 0).circ! 0).kind = false)
    ∧ (isWhole ((s8.hw.chan 0).circ! 0).kind = false)
    ∧ (frameLen ((s8.hw.chan 0).circ! 0).kind ≠ 0) := by
  and_intros <;> decide +kernel

/-- Every hypothesis of BankSwaps is met. -/
theorem test_meets_BankSwaps :
    (s9.hw.works = true)
    ∧ (s9.hw.executes (Port.chan 0) = true)
    ∧ ((s9.hw.chan 0).q.run = [cmd 32 0 0 0])
    ∧ ((cmd 32 0 0 0).op = 32)
    ∧ ((cmd 32 0 0 0).held = false)
    ∧ ((cmd 32 0 0 0).parent = none)
    ∧ ((cmd 32 0 0 0).dropped = false)
    ∧ ((s9.hw.chan 0).map.pending = false)
    ∧ ((s9.hw.chan 0).swapRefusal = none)
    ∧ ((s9.hw.chan 0).fracTribs = [])
    ∧ (s10.hw.works = true)
    ∧ (s10.hw.executes (Port.chan 0) = true)
    ∧ ((s10.hw.chan 0).q.run = [cmd 32 0 0 0])
    ∧ ((s10.hw.chan 0).map.pending = false)
    ∧ ((s10.hw.chan 0).swapRefusal = none)
    ∧ ((s10.hw.chan 0).fracTribs ≠ [])
    ∧ (s12.hw.works = true)
    ∧ ((s12.hw.chan 0).st = ChSt.active)
    ∧ ((s12.hw.chan 0).map.pending = true)
    ∧ ({ aug := 0, t3 := 0, t2 := 0, tu := 0 : Pos } ∈ (s12.hw.chan 0).fracTribs)
    ∧ ((tget ({} : TribSwap) (s12.hw.chan 0).map.swaps { aug := 0, t3 := 0, t2 := 0, tu := 0 : Pos }.key).encB =
      (s12.hw.chan 0).map.encWas)
    ∧ ((tget ({} : TribSwap) (s12.hw.chan 0).map.swaps { aug := 0, t3 := 0, t2 := 0, tu := 0 : Pos }.key).followed = false)
    ∧ (4 ≤ (tget ({} : TribSwap) (s12.hw.chan 0).map.swaps { aug := 0, t3 := 0, t2 := 0, tu := 0 : Pos }.key).blocksSince)
    ∧ ((s10.hw.chan 0).st = ChSt.active)
    ∧ ({ aug := 0, t3 := 0, t2 := 0, tu := 0 : Pos } ∈ (s10.hw.chan 0).fracTribs) := by
  and_intros <;> decide +kernel

/-- Every hypothesis of EncryptBlockStarts is met. -/
theorem test_meets_EncryptBlockStarts :
    (s14.hw.works = true)
    ∧ ((s14.hw.chan 0).serves 0 = true)
    ∧ (((s14.hw.chan 0).circ! 0).live = true)
    ∧ (((s14.hw.chan 0).circ! 0).clearNext = none)
    ∧ (((s14.hw.chan 0).ctx! ((s14.hw.chan 0).circ! 0).kctx).arm = false)
    ∧ ((s14.hw.chan 0).atPhase ((s14.hw.chan 0).circ! 0) 3 = false)
    ∧ (s15.hw.works = true)
    ∧ ((s15.hw.chan 0).serves 1 = true)
    ∧ (((s15.hw.chan 0).circ! 1).live = true)
    ∧ (((s15.hw.chan 0).circ! 1).clearNext = none)
    ∧ (((s15.hw.chan 0).ctx! ((s15.hw.chan 0).circ! 1).kctx).arm = false)
    ∧ ((s15.hw.chan 0).atPhase ((s15.hw.chan 0).circ! 1) 0 = true)
    ∧ ((((s15.hw.chan 0).ctx! ((s15.hw.chan 0).circ! 1).kctx).slot ((s15.hw.chan 0).circ! 1).odd).corrupt 0 = false)
    ∧ (((s15.hw.chan 0).circ! 1).hardStop = false)
    ∧ ((((s15.hw.chan 0).ctx! ((s15.hw.chan 0).circ! 1).kctx).slot ((s15.hw.chan 0).circ! 1).odd).st ≠ SlotSt.empty ∨
      ((s15.hw.chan 0).circ! 1).clear = true)
    ∧ (ksLevel (s15.hw.chan 0).cph.ks[ksEnc] ≤ 512)
    ∧ ((s15.hw.chan 0).serves 0 = true)
    ∧ (((s15.hw.chan 0).circ! 0).live = true)
    ∧ (((s15.hw.chan 0).circ! 0).clearNext = none)
    ∧ (((s15.hw.chan 0).ctx! ((s15.hw.chan 0).circ! 0).kctx).arm = false)
    ∧ ((s15.hw.chan 0).atPhase ((s15.hw.chan 0).circ! 0) 0 = true)
    ∧ ((((s15.hw.chan 0).ctx! ((s15.hw.chan 0).circ! 0).kctx).slot ((s15.hw.chan 0).circ! 0).odd).corrupt 0 = false)
    ∧ (((s15.hw.chan 0).circ! 0).hardStop = true ∨
      (((s15.hw.chan 0).ctx! ((s15.hw.chan 0).circ! 0).kctx).slot ((s15.hw.chan 0).circ! 0).odd).st = SlotSt.empty ∧
    ((s15.hw.chan 0).circ! 0).clear = false)
    ∧ ((s14.hw.chan 0).atPhase ((s14.hw.chan 0).circ! 0) 0 = true)
    ∧ ((((s14.hw.chan 0).ctx! ((s14.hw.chan 0).circ! 0).kctx).slot ((s14.hw.chan 0).circ! 0).odd).corrupt 0 = true)
    ∧ (s14.hw.dev.boot.st ≠ BootSt.supplyUp) := by
  and_intros <;> decide +kernel

/-- Every hypothesis of EncryptBlockEnds is met. -/
theorem test_meets_EncryptBlockEnds :
    (s8.hw.works = true)
    ∧ ((s8.hw.chan 0).st = ChSt.active)
    ∧ (List.findIdx? (fun b => !b.done) ((s8.hw.chan 0).circ! 0).enc = some 0)
    ∧ (((s8.hw.chan 0).circ! 0).enc[0]? = some eb)
    ∧ (eb.lost = 0)
    ∧ (eb.format = 3)
    ∧ ((s8.hw.chan 0).kindOf ((s8.hw.chan 0).circ! 0) = some v38)
    ∧ ((s8.hw.chan 0).cvu.inj = none)
    ∧ (s17.hw.works = true)
    ∧ (s17.hw.dev.boot.st ≠ BootSt.supplyUp)
    ∧ ((s17.hw.chan 0).st = ChSt.active)
    ∧ (List.findIdx? (fun b => !b.done) ((s17.hw.chan 0).circ! 0).enc = some 0)
    ∧ (((s17.hw.chan 0).circ! 0).enc[0]? = some eb)
    ∧ ((if eb.clear = true then
    List.replicate
      ((s17.hw.chan 0).redBlock (0 : CircId).toNat ((s17.hw.chan 0).circ! 0) eb.mep
            (if eb.defAll = true then [(0, geTimes)] else if eb.defAny = true then [] else [])
            ((s17.hw.chan 0).seen Lane.red ((s17.hw.chan 0).circ! 0) ((s17.hw.chan 0).circ! 0).red
              (LineSpan.bytes (List.replicate 560 3)))).plain.length
      0
      else
    (gcmSeal (((s17.hw.chan 0).ctx! ((s17.hw.chan 0).circ! 0).kctx).slot eb.odd).key
        (ivOf (s17.hw.chan 0).roleB ((s17.hw.chan 0).circ! 0).lcid eb.seq)
        (aadOf (trlHead (mkType 3 eb.odd eb.mep (s17.hw.chan 0).psw.st.code) eb.seq 0) ((s17.hw.chan 0).circ! 0).lcid)
        (List.replicate
          ((s17.hw.chan 0).redBlock (0 : CircId).toNat ((s17.hw.chan 0).circ! 0) eb.mep
                (if eb.defAll = true then [(0, geTimes)] else if eb.defAny = true then [] else [])
                ((s17.hw.chan 0).seen Lane.red ((s17.hw.chan 0).circ! 0) ((s17.hw.chan 0).circ! 0).red
                  (LineSpan.bytes (List.replicate 560 3)))).plain.length
          0)
        ((Option.map (fun x => x.tagLen) ((s17.hw.chan 0).kindOf ((s17.hw.chan 0).circ! 0))).getD 12)).1) ≠
      [])
    ∧ (32 = 32#40 ∨ 32 = 128#40 ∧ eb.clear = false)
    ∧ (base.hw.works = true)
    ∧ (base.hw.dev.boot.st ≠ BootSt.supplyUp)
    ∧ ((base.hw.chan 0).st = ChSt.active)
    ∧ (∀ b ∈ ((base.hw.chan 0).circ! 0).enc, b.done = true)
    ∧ (∃ u ∈ [(0, 32)], sealOk ((base.hw.chan 0).circ! 0).clear 0 u.2 = false) := by
  and_intros <;> decide +kernel

/-- Every hypothesis of EncryptRelease is met. -/
theorem test_meets_EncryptRelease :
    (s18.hw.works = true)
    ∧ ((s18.hw.chan 0).st = ChSt.active)
    ∧ (((s18.hw.chan 0).circ! 0).enc = v30 :: v37)
    ∧ (v30.lost = 0)
    ∧ (v30.done = true)
    ∧ (v30.spec = false)
    ∧ (s21.hw.works = true)
    ∧ ((s21.hw.chan 0).st = ChSt.active)
    ∧ (((s21.hw.chan 0).circ! 0).enc = [v34, eb])
    ∧ (v34.lost = 0)
    ∧ (v34.spec = true)
    ∧ (v34.started = false)
    ∧ (v34.missed = false)
    ∧ (s23.hw.works = true)
    ∧ ((s23.hw.chan 0).st = ChSt.active)
    ∧ (((s23.hw.chan 0).circ! 0).enc = [v36])
    ∧ (v36.lost = 1)
    ∧ (v36.missed = true) := by
  and_intros <;> decide +kernel

end P05

namespace P06

/-- One step of the RFC 5649 wrap. -/
def wrapStep (ks : List (List Byte)) (n : Nat) (ar : List Byte × List (List Byte)) (t : Nat) : List Byte × List (List Byte) :=
  let i := (t - 1) % n
  let b := aesRounds ks (ar.1 ++ ar.2.getD i [])
  (xorBytes (b.take 8) (beBytes 8 t), ar.2.set i (b.drop 8))
/-- The wrap of a body of 48 bytes under a key of 32 bytes 9. -/
def wrap (body : List Byte) : List Byte :=
  let ks := roundKeys (List.replicate 32 9)
  let n := body.length / 8
  let r := ((List.range (6 * n)).map (· + 1)).foldl (wrapStep ks n) (beBytes 8 0xA65959A600000030, (List.range n).map fun i => slice body (8 * i) 8)
  r.1 ++ r.2.flatten
/-- A key. -/
def ky : List Byte := (List.range 32).map fun i => BitVec.ofNat 8 (i * 7 + 3)
/-- A blob for a channel, a slot, a context and a serial. -/
def blob (chan : Nat) (odd : Bool) (n serial : Nat) : List Word :=
  let h := [1, BitVec.ofNat 8 chan] ++ beBytes 2 (b2n odd * 32768 + n) ++ beBytes 4 serial ++ beBytes 3 (kcvOf ky).toNat ++ List.replicate 5 0
  let b := h ++ wrap (h ++ ky)
  (List.range 18).map fun i => BitVec.ofNat 32 (beNat (slice b (4 * i) 4))
/-- A good blob for channel 0, the odd slot of context 0 and serial 5. -/
def blob0 : List Word :=
  [16809984, 5, 3942412032, 0, 3290680816, 3109249229, 4070784877, 1208288974, 4073706267, 3930019466, 1269801835, 3635775207, 2005926367,
    4214998550, 3728367338, 1713107791, 587802338, 2774834645]
/-- KEY_LOAD of context 0, odd slot, with a good blob. -/
def kl : Cmd := { cmd 0x10 0x10000 0 0 with blob := blob0 }
/-- KEY_LOAD of context 0, odd slot, with a blob of zeros. -/
def kl0 : Cmd := { cmd 0x10 0x10000 0 0 with blob := List.replicate 18 0 }
/-- Two circuits at work. -/
def circs : List (Nat × Circ) := [(0, { cir 3 true with live := true }), (1, { cir 3 true 0x100000 with live := true, odd := true, clear := true })]
/-- An anchor. -/
def anch : Anchor := { path := .bkw, ts := 4, seq := 5, next := 9, gapTo := 0 }
/-- An anchored circuit and a disabled one. -/
def circs2 : List (Nat × Circ) := [(0, { cir 3 true with live := true, w := { blk := .sync }, anchor := some anch }), (1, { cir 3 false 0x100000 with live := true, odd := true, clear := true })]
/-- A command under way in channel 0, with context 0. -/
def kk (x : Cmd) (z : Ctx) (cs : List (Nat × Circ) := circs) (f : Chan → Chan := id) : State := hw fun h =>
  (h.onFuses fun g => { g with words := (List.range 8).map fun i => (24 + i, (0x09090909 : Word)) }).onChan 0 fun y =>
    f { y with q := { y.q with run := [{ cmd 0x05 0 0 0 with held := true }, x] }, circ := cs, cph := { y.cph with ctx := [(0, z)] }, mlt := { run := true } }
/-- The fuses hold no KWK, and permit channel 0 clear mode. -/
def nokwk (s : State) : State := { s with hw := s.hw.onFuses fun f => { f with words := [(34, 1)] } }
/-- Clear mode is armed. -/
def arm (x : Chan) : Chan := { x with cph := { x.cph with armed := true } }
/-- A CURRENT and a STANDBY slot. -/
def zz : Ctx := { even := key1 .current, odd := key1 .standby }
/-- The rekey schedule, late. -/
def sched (z : Ctx) (p : Word) : State :=
  let s := kk (cmd 0 0 0 0) z circs fun x => x.setReg 0x5004 p
  { s with hw := { s.hw with now := 900000000 } }
/-- A device KEY_LOAD under way. -/
def devk (chb : Byte) : State := dv fun d => { d with q := { d.q with run := [{ cmd 0x10 0 0 0 with blob := 0x01300000 :: List.replicate 17 0, chan := chb }] }, kbuf := [] }
/-- A device KEY_LOAD of channel 0 under way. -/
def dkl : Cmd := { cmd 0x10 0 0 0 with blob := 0x01000000 :: List.replicate 17 0 }
/-- Slots with their integrity words. -/
def zs : Ctx := { even := (key1 .current).stamp, odd := (key1 .standby).stamp }
def s1 : State := dv fun d => { d with q := { d.q with run := [dkl] } }
def s2 : State := kk (cmd 0x12 0 0 0) zs
def s3 : State := { sched zz 1 with hw := (sched zz 1).hw.onChan 0 fun y => { y with cph := { y.cph with katFail := true } } }
def s4 : State := kk kl { even := key1 .current }
def s5 : State := nokwk (kk kl {})
def s6 : State := kk kl0 { even := key1 .current }
def s7 : State := { kk kl {} with hw := (kk kl {}).hw.onChan 0 fun y => { y with cph := { y.cph with katFail := true } } }
def s8 : State := devk 3
def s9 : State := kk (cmd 0x11 0x10000 0 0) zz
def s12 : State := kk (cmd 0x13 0 0 0) zz
def s14 : State := kk (cmd 0x13 0 0 0) zz []
def s16 : State := kk (cmd 0x13 0 0 0) { even := key1 .current }
def s17 : State := { kk (cmd 0x13 0 0 0) zz with hw := (kk (cmd 0x13 0 0 0) zz).hw.onChan 0 fun y => { y with cph := { y.cph with katFail := true } } }
def s19 : State := sched zz 1
def s20 : State := sched { zz with odd := {} } 1
def s21 : State := sched { zz with odd := {}, staleRaised := true } 1
def s22 : State := sched { zz with arm := true } 1
def s24 : State := nokwk (kk (cmd 0x14 0x10000 0 0) zz circs arm)
def s25 : State := nokwk (kk (cmd 0x14 0x10000 0 0) zz circs)
def s26 : State := kk (cmd 0x14 0x10000 0 0) zz circs
def s28 : State := nokwk (kk (cmd 0x14 0x10007 0 0) zz circs arm)
def s29 : State := nokwk (kk (cmd 0x14 0x10007 0 0) zz circs fun x => { arm x with cph := { (arm x).cph with katFail := true } })
def s30 : State := kk (cmd 0x14 0x7 0 0) zz circs arm
def s31 : State := kk (cmd 0x30 0 0 0) zz circs2
def s32 : State := kk (cmd 0x30 0 0 0) zz circs
def s33 : State := kk { cmd 0x30 1 0 0 with held := true } zz circs2 (fun x => { x with q := { x.q with run := x.q.run.drop 1 } })
def v34 : Cmd := { cmd 0x30 1 0 0 with held := true }
def v35 : Cmd := { cmd 0x10 0 0 0 with blob := 0x01300000 :: List.replicate 17 0, chan := 3 }
def v36 : Ctx := { zz with arm := true }
def v37 : Ctx := { zz with odd := {} }
def v38 : Ctx := { zz with odd := {}, staleRaised := true }


/-! ### A blob that KEY_LOAD takes: the AES of its unwrap runs over tables, shown equal to the definitions -/

/-- Entry `b` of a table of bytes. -/
def look (t : Nat) (b : Byte) : Nat := Nat.land (Nat.shiftRight t (Nat.mul 8 b.toNat)) 255
/-- InvSubBytes as a table. -/
def isb (b : Byte) : Nat := look 0x7D0C2155631469E126D677BA7E042B17619953833CBBEBC8B0F52AAE4D3BE0A0EF9CC9939F7AE52D0D4AB519A97F51605FEC8027591012B131C7078833A8DD1FF45ACD78FEC0DB9A2079D2C64B3E56FC1BBE18AA0E62B76F89C5291D711AF1476EDF751CE837F9E28535ADE72274AC9673E6B4F0CECFF297EADC674F4111913A6B8A130103BDAFC1020F3FCA8F1E2CD00645B3B80558E4F70AD3BC8C00ABD890849D8DA75746155EDAB9EDFD5048706C92B6655DCC5CA4D41698688664F6F87225D18B6D49A25B76B224D92866A12E084EC3FA420B954CEE3D23C2A632947B54CBE9DEC444438E3487FF2F9B8239E37CFBD7F3819EA340BF38A53630D56A0952 b
/-- Multiplication by 9 in GF(2^8) as a table. -/
def t9 (b : Byte) : Nat := look 0x464F545D626B70790E071C152A233831D6DFC4CDF2FBE0E99E978C85BAB3A8A17D746F6659504B42353C272E1118030AEDE4FFF6C9C0DBD2A5ACB7BE8188939A3039222B141D060F78716A635C554E47A0A9B2BB848D969FE8E1FAF3CCC5DED70B0219102F263D34434A5158676E757C9B928980BFB6ADA4D3DAC1C8F7FEE5ECAAA3B8B18E879C95E2EBF0F9C6CFD4DD3A3328211E170C05727B6069565F444D9198838AB5BCA7AED9D0CBC2FDF4EFE60108131A252C373E49405B526D647F76DCD5CEC7F8F1EAE3949D868FB0B9A2AB4C455E5768617A73040D161F2029323BE7EEF5FCC3CAD1D8AFA6BDB48B829990777E656C535A41483F362D241B120900 b
/-- Multiplication by 11. -/
def t11 (b : Byte) : Nat := look 0xA3A8B5BE8F849992FBF0EDE6D7DCC1CA1318050E3F3429224B405D56676C717AD8D3CEC5F4FFE2E9808B969DACA7BAB168637E75444F5259303B262D1C170A01555E434879726F640D061B10212A373CE5EEF3F8C9C2DFD4BDB6ABA0919A878C2E2538330209141F767D606B5A514C479E958883B2B9A4AFC6CDD0DBEAE1FCF7545F424978736E650C071A11202B363DE4EFF2F9C8C3DED5BCB7AAA1909B868D2F2439320308151E777C616A5B504D469F948982B3B8A5AEC7CCD1DAEBE0FDF6A2A9B4BF8E859893FAF1ECE7D6DDC0CB1219040F3E3528234A415C57666D707BD9D2CFC4F5FEE3E8818A979CADA6BBB069627F74454E5358313A272C1D160B00 b
/-- Multiplication by 13. -/
def t13 (b : Byte) : Nat := look 0x979A8D80A3AEB9B4FFF2E5E8CBC6D1DC474A5D50737E69642F2235381B16010C2C21363B1815020F44495E53707D6A67FCF1E6EBC8C5D2DF94998E83A0ADBAB7FAF7E0EDCEC3D4D9929F8885A6ABBCB12A27303D1E130409424F5855767B6C61414C5B5675786F622924333E1D10070A919C8B86A5A8BFB2F9F4E3EECDC0D7DA4D40575A7974636E25283F32111C0B069D90878AA9A4B3BEF5F8EFE2C1CCDBD6F6FBECE1C2CFD8D59E938489AAA7B0BD262B3C31121F08054E4354597A77606D202D3A3714190E034845525F7C71666BF0FDEAE7C4C9DED39895828FACA1B6BB9B96818CAFA2B5B8F3FEE9E4C7CADDD04B46515C7F726568232E3934171A0D00 b
/-- Multiplication by 14. -/
def t14 (b : Byte) : Nat := look 0x8D83919FB5BBA9A7FDF3E1EFC5CBD9D76D63717F555B49471D13010F252B393756584A446E60727C26283A341E10020CB6B8AAA48E80929CC6C8DAD4FEF0E2EC202E3C321816040A505E4C426866747AC0CEDCD2F8F6E4EAB0BEACA28886949AFBF5E7E9C3CDDFD18B859799B3BDAFA11B150709232D3F316B657779535D4F41CCC2D0DEF4FAE8E6BCB2A0AE848A98962C22303E141A08065C52404E646A787617190B052F21333D67697B755F51434DF7F9EBE5CFC1D3DD87899B95BFB1A3AD616F7D735957454B111F0D032927353B818F9D93B9B7A5ABF1FFEDE3C9C7D5DBBAB4A6A8828C9E90CAC4D6D8F2FCEEE05A544648626C7E702A243638121C0E00 b
/-- A byte exclusive-ored of numbers. -/
def bx (a b : Nat) : Byte := BitVec.ofNat 8 (Nat.xor a b)
theorem isb_eq : ∀ b : BitVec 8, invSubByte b = BitVec.ofNat 8 (isb b) := by decide +kernel
theorem t9_eq : ∀ b : BitVec 8, gmul 9 b = BitVec.ofNat 8 (t9 b) := by decide +kernel
theorem t11_eq : ∀ b : BitVec 8, gmul 11 b = BitVec.ofNat 8 (t11 b) := by decide +kernel
theorem t13_eq : ∀ b : BitVec 8, gmul 13 b = BitVec.ofNat 8 (t13 b) := by decide +kernel
theorem t14_eq : ∀ b : BitVec 8, gmul 14 b = BitVec.ofNat 8 (t14 b) := by decide +kernel
/-- InvMixColumns over the tables. -/
def mixF : List Byte → List Byte
  | a :: b :: c :: d :: t =>
    bx (Nat.xor (Nat.xor (t14 a) (t11 b)) (t13 c)) (t9 d) :: bx (Nat.xor (Nat.xor (t9 a) (t14 b)) (t11 c)) (t13 d) ::
      bx (Nat.xor (Nat.xor (t13 a) (t9 b)) (t14 c)) (t11 d) :: bx (Nat.xor (Nat.xor (t11 a) (t13 b)) (t9 c)) (t14 d) :: mixF t
  | _ => []
theorem bx_eq (a b : Nat) : bx a b = BitVec.ofNat 8 a ^^^ BitVec.ofNat 8 b := BitVec.ofNat_xor
theorem mixF_eq : ∀ l, mixCols 14 11 13 9 l = mixF l
  | a :: b :: c :: d :: t => by simp [mixCols, mixF, mixCol, mixF_eq t, t9_eq, t11_eq, t13_eq, t14_eq, bx_eq]
  | [] | [_] | [_, _] | [_, _, _] => rfl
/-- InvShiftRows written out. -/
def rowsF : List Byte → List Byte
  | [b0, b1, b2, b3, b4, b5, b6, b7, b8, b9, b10, b11, b12, b13, b14, b15] =>
    [b0, b13, b10, b7, b4, b1, b14, b11, b8, b5, b2, b15, b12, b9, b6, b3]
  | l => shiftRows 3 l
theorem rowsF_eq (l : List Byte) : shiftRows 3 l = rowsF l := by unfold rowsF; split <;> rfl
/-- InvSubBytes and AddRoundKey over the tables. -/
def subF : List Byte → List Byte → List Byte
  | b :: l, k :: m => bx (isb b) k.toNat :: subF l m
  | _, _ => []
theorem subF_eq : ∀ l m, xorBytes (l.map invSubByte) m = subF l m
  | b :: l, k :: m => by
    have := subF_eq l m
    simp only [xorBytes] at this
    simp [xorBytes, subF, this, isb_eq, bx_eq]
  | [], _ => rfl
  | _ :: _, [] => rfl
/-- The decryption of a block over the tables. -/
def invF (ks : List (List Byte)) (b : List Byte) : List Byte :=
  let s := (List.range 13).foldl (fun s r => mixF (subF (rowsF s) (ks.getD (13 - r) []))) (xorBytes b (ks.getD 14 []))
  subF (rowsF s) (ks.getD 0 [])
theorem invF_eq (ks : List (List Byte)) (b : List Byte) : aesInvRounds ks b = invF ks b := by
  simp only [aesInvRounds, invF, rowsF_eq, mixF_eq, subF_eq]
/-- The round keys of the key of 32 bytes 9. -/
def ks9 : List (List Byte) :=
    [[9, 9, 9, 9, 9, 9, 9, 9, 9, 9, 9, 9, 9, 9, 9, 9], [9, 9, 9, 9, 9, 9, 9, 9, 9, 9, 9, 9, 9, 9, 9, 9], [9, 8, 8, 8, 0, 1, 1, 1,
    9, 8, 8, 8, 0, 1, 1, 1], [106, 117, 117, 117, 99, 124, 124, 124, 106, 117, 117, 117, 99, 124, 124, 124], [27, 24, 24, 243,
    27, 25, 25, 242, 18, 17, 17, 250, 18, 16, 16, 251], [163, 191, 191, 122, 192, 195, 195, 6, 170, 182, 182, 115, 201, 202, 202,
    15], [107, 108, 110, 46, 112, 117, 119, 220, 98, 100, 102, 38, 112, 116, 118, 221], [242, 45, 135, 187, 50, 238, 68, 189,
    152, 88, 242, 206, 81, 146, 56, 193], [44, 107, 22, 255, 92, 30, 97, 35, 62, 122, 7, 5, 78, 14, 113, 216], [221, 134, 36,
    218, 239, 104, 96, 103, 119, 48, 146, 169, 38, 162, 170, 104], [6, 199, 83, 8, 90, 217, 50, 43, 100, 163, 53, 46, 42, 173,
    68, 246], [56, 19, 63, 152, 215, 123, 95, 255, 160, 75, 205, 86, 134, 233, 103, 62], [56, 66, 225, 76, 98, 155, 211, 103, 6,
    56, 230, 73, 44, 149, 162, 191], [73, 57, 5, 144, 158, 66, 90, 111, 62, 9, 151, 57, 184, 224, 240, 7], [153, 206, 36, 32,
    251, 85, 247, 71, 253, 109, 17, 14, 209, 248, 179, 177]]
theorem body_eq : slice (blobBytes blob0) 16 56 =
    [196, 35, 205, 240, 185, 83, 96, 205, 242, 163, 63, 109, 72, 5, 6, 206, 242, 207, 211, 27, 234, 63, 86, 138, 75, 175, 163,
    107, 216, 181, 134, 231, 119, 144, 1, 223, 251, 59, 198, 22, 222, 58, 94, 234, 102, 27, 243, 79, 35, 9, 38, 226, 165, 100,
    157, 213] := by decide +kernel
theorem ks9_eq : roundKeys (List.replicate 32 9) = ks9 := by decide +kernel
theorem fold_eq : ((List.range 36).map fun t => 36 - t).foldl (unwrapStep ks9 6) (
    ([196, 35, 205, 240, 185, 83, 96, 205], [[242, 163, 63, 109, 72, 5, 6, 206], [242, 207, 211, 27, 234, 63, 86, 138], [75, 175,
    163, 107, 216, 181, 134, 231], [119, 144, 1, 223, 251, 59, 198, 22], [222, 58, 94, 234, 102, 27, 243, 79], [35, 9, 38, 226,
    165, 100, 157, 213]])) = (
    ([166, 89, 89, 166, 0, 0, 0, 48], [[1, 0, 128, 0, 0, 0, 0, 5], [234, 252, 111, 0, 0, 0, 0, 0], [3, 10, 17, 24, 31, 38, 45,
    52], [59, 66, 73, 80, 87, 94, 101, 108], [115, 122, 129, 136, 143, 150, 157, 164], [171, 178, 185, 192, 199, 206, 213, 220]])) := by
  have h : ((List.range 36).map fun t => 36 - t) =
    [36, 35, 34, 33, 32, 31, 30, 29, 28, 27, 26, 25, 24, 23, 22, 21, 20, 19, 18, 17, 16, 15, 14, 13, 12, 11, 10, 9, 8, 7, 6, 5, 4, 3, 2, 1] := by decide
  rw [h]
  simp only [List.foldl, unwrapStep, invF_eq]
  decide +kernel
theorem unwrap_eq : unwrap (List.replicate 32 9) (slice (blobBytes blob0) 16 56) = some (slice (blobBytes blob0) 0 16 ++ ky) := by
  rw [body_eq]
  have h := fold_eq
  rw [← ks9_eq] at h
  exact (congrArg (fun r : List Byte × List (List Byte) => if r.1 = beBytes 8 0xA65959A600000030 then some r.2.flatten else none) h).trans
    (by decide +kernel)
theorem kcv_eq : kcvOf ky = 15400047 := by decide +kernel
theorem keyCheck_ok : keyCheck (List.replicate 32 9) false 0 { even := key1 .current } 0 true (blobBytes blob0) = .inr (ky, 15400047, 5) := by
  have hb : slice (slice (blobBytes blob0) 0 16 ++ ky) 16 32 = ky := by decide +kernel
  unfold keyCheck
  simp only [unwrap_eq, hb, kcv_eq]
  decide +kernel

/-- Every hypothesis of KeyLoadStores is met. -/
theorem test_meets_KeyLoadStores :
    (s7.hw.Runs 0 (fresh 16) kl)
    ∧ ((s7.hw.chan 0).cph.katFail = true)
    ∧ (s5.hw.Runs 0 (fresh 16) kl)
    ∧ ((s5.hw.chan 0).cph.katFail = false)
    ∧ (s5.hw.dev.boot.st ≠ BootSt.bare)
    ∧ (∀ b ∈ s5.hw.kwk, b = 0)
    ∧ (s6.hw.Runs 0 (fresh 16) kl0)
    ∧ (keyCheck s6.hw.kwk (s6.hw.cipherOff 0) 0 ((s6.hw.chan 0).ctx! (cmdCtx kl0)) (cmdCtx kl0) (bitOf kl0.w1 16)
    (blobBytes kl0.blob) =
      Sum.inl 34)
    ∧ (s4.hw.Runs 0 (fresh 16) kl)
    ∧ (keyCheck s4.hw.kwk (s4.hw.cipherOff 0) 0 ((s4.hw.chan 0).ctx! (cmdCtx kl)) (cmdCtx kl) (bitOf kl.w1 16)
    (blobBytes kl.blob) =
      Sum.inr (ky, kcvOf ky, 5))
    ∧ (s8.hw.works = true)
    ∧ (s8.hw.dev.boot.st = BootSt.run)
    ∧ (s8.hw.dev.isvStall = false)
    ∧ (s8.hw.dev.q.run = [v35])
    ∧ (fresh 16 v35 = true)
    ∧ (v35.parent = none)
    ∧ (v35.dropped = false)
    ∧ (48 ≤ BitVec.toNat ((blobBytes v35.blob).getD 1 0))
    ∧ (s1.hw.works = true)
    ∧ (s1.hw.dev.boot.st = BootSt.run)
    ∧ (s1.hw.dev.isvStall = false)
    ∧ (s1.hw.dev.q.run = [dkl])
    ∧ (fresh 16 dkl = true)
    ∧ (BitVec.toNat ((blobBytes dkl.blob).getD 1 0) = ↑0)
    ∧ (dkl.blob.length = 18)
    ∧ ((s1.hw.chan 0).st = ChSt.active)
    ∧ (s1.hw.credit (Port.chan 0) Master.isund ≠ 0)
    ∧ (s1.hw.judge (Port.chan 0) 0
    {
      op :=
        { op := dkl.op, tag := dkl.tag, chan := dkl.chan, w1 := dkl.w1, w2 := dkl.w2, w3 := dkl.w3, by_ := Master.isund,
            blob := dkl.blob, parent := some (dkl.by_, dkl.tag), dropped := dkl.dropped : Cmd }.op,
      tag :=
        { op := dkl.op, tag := dkl.tag, chan := dkl.chan, w1 := dkl.w1, w2 := dkl.w2, w3 := dkl.w3, by_ := Master.isund,
            blob := dkl.blob, parent := some (dkl.by_, dkl.tag), dropped := dkl.dropped : Cmd }.tag,
      chan :=
        { op := dkl.op, tag := dkl.tag, chan := dkl.chan, w1 := dkl.w1, w2 := dkl.w2, w3 := dkl.w3, by_ := Master.isund,
            blob := dkl.blob, parent := some (dkl.by_, dkl.tag), dropped := dkl.dropped : Cmd }.chan,
      w1 :=
        { op := dkl.op, tag := dkl.tag, chan := dkl.chan, w1 := dkl.w1, w2 := dkl.w2, w3 := dkl.w3, by_ := Master.isund,
            blob := dkl.blob, parent := some (dkl.by_, dkl.tag), dropped := dkl.dropped : Cmd }.w1,
      w2 :=
        { op := dkl.op, tag := dkl.tag, chan := dkl.chan, w1 := dkl.w1, w2 := dkl.w2, w3 := dkl.w3, by_ := Master.isund,
            blob := dkl.blob, parent := some (dkl.by_, dkl.tag), dropped := dkl.dropped : Cmd }.w2,
      w3 :=
        { op := dkl.op, tag := dkl.tag, chan := dkl.chan, w1 := dkl.w1, w2 := dkl.w2, w3 := dkl.w3, by_ := Master.isund,
            blob := dkl.blob, parent := some (dkl.by_, dkl.tag), dropped := dkl.dropped : Cmd }.w3,
      by_ :=
        { op := dkl.op, tag := dkl.tag, chan := dkl.chan, w1 := dkl.w1, w2 := dkl.w2, w3 := dkl.w3, by_ := Master.isund,
            blob := dkl.blob, parent := some (dkl.by_, dkl.tag), dropped := dkl.dropped : Cmd }.by_,
      parent :=
        { op := dkl.op, tag := dkl.tag, chan := dkl.chan, w1 := dkl.w1, w2 := dkl.w2, w3 := dkl.w3, by_ := Master.isund,
            blob := dkl.blob, parent := some (dkl.by_, dkl.tag), dropped := dkl.dropped : Cmd }.parent,
      dropped :=
        { op := dkl.op, tag := dkl.tag, chan := dkl.chan, w1 := dkl.w1, w2 := dkl.w2, w3 := dkl.w3, by_ := Master.isund,
            blob := dkl.blob, parent := some (dkl.by_, dkl.tag), dropped := dkl.dropped : Cmd }.dropped :
      Cmd } =
      none) := by
  and_intros
  case refine_2.refine_2.refine_2.refine_2.refine_2.refine_2.refine_2.refine_2.refine_2.refine_1 =>
    have e1 : s4.hw.kwk = List.replicate 32 9 := by decide +kernel
    have e2 : s4.hw.cipherOff 0 = false := by decide +kernel
    have e3 : (s4.hw.chan 0).ctx! (cmdCtx kl) = { even := key1 .current } := by decide +kernel
    have e4 : cmdCtx kl = 0 := by decide +kernel
    have e5 : bitOf kl.w1 16 = true := by decide +kernel
    rw [e3, e4, e1, e2, e5, kcv_eq]
    exact keyCheck_ok
  all_goals first | decide +kernel | exact ⟨by decide +kernel, by decide +kernel, rfl, rfl, rfl⟩

/-- Every hypothesis of KeysZeroized is met. -/
theorem test_meets_KeysZeroized :
    (s9.hw.Runs 0 (fresh 17) (cmd 17 65536 0 0))
    ∧ (((s9.hw.chan 0).ctx! (cmdCtx (cmd 17 65536 0 0))).arm = false)
    ∧ (s2.hw.Runs 0 (fresh 18) (cmd 18 0 0 0))
    ∧ (∀ (n : ℕ), ((s2.hw.chan 0).ctx! n).arm = false)
    ∧ (s1.hw.works = true)
    ∧ ((s1.hw.chan 0).st = ChSt.active)
    ∧ (((s1.hw.chan 0).ctx! (0 : CtxId).toNat).arm = false) := by
  and_intros <;> first | decide +kernel | (constructor <;> decide +kernel) | (intro n; cases n <;> rfl)

/-- Every hypothesis of EpochsAdvance is met. -/
theorem test_meets_EpochsAdvance :
    (s17.hw.Runs 0 (fresh 19) (cmd 19 0 0 0))
    ∧ (s17.hw.cipherOff 0 = true)
    ∧ (s16.hw.Runs 0 (fresh 19) (cmd 19 0 0 0))
    ∧ (s16.hw.cipherOff 0 = false)
    ∧ ((((s16.hw.chan 0).ctx! (cmdCtx (cmd 19 0 0 0))).slot !((s16.hw.chan 0).ctx! (cmdCtx (cmd 19 0 0 0))).txp).st ≠
      SlotSt.standby)
    ∧ (s12.hw.Runs 0 (fresh 19) (cmd 19 0 0 0))
    ∧ (s12.hw.cipherOff 0 = false)
    ∧ ((((s12.hw.chan 0).ctx! (cmdCtx (cmd 19 0 0 0))).slot !((s12.hw.chan 0).ctx! (cmdCtx (cmd 19 0 0 0))).txp).st =
      SlotSt.standby)
    ∧ (∃ e ∈ (s12.hw.chan 0).ctxCircs (cmdCtx (cmd 19 0 0 0)), (s12.hw.chan 0).builds e.1 e.2 = true)
    ∧ (s14.hw.Runs 0 (fresh 19) (cmd 19 0 0 0))
    ∧ (s14.hw.cipherOff 0 = false)
    ∧ ((((s14.hw.chan 0).ctx! (cmdCtx (cmd 19 0 0 0))).slot !((s14.hw.chan 0).ctx! (cmdCtx (cmd 19 0 0 0))).txp).st =
      SlotSt.standby)
    ∧ (¬∃ e ∈ (s14.hw.chan 0).ctxCircs (cmdCtx (cmd 19 0 0 0)), (s14.hw.chan 0).builds e.1 e.2 = true)
    ∧ ((((s14.hw.chan 0).ctx! (cmdCtx (cmd 19 0 0 0))).slot ((s14.hw.chan 0).ctx! (cmdCtx (cmd 19 0 0 0))).txp).st =
      SlotSt.current) := by
  and_intros <;> first | decide +kernel | (constructor <;> decide +kernel)

/-- Every hypothesis of KeyStoreWatched is met. -/
theorem test_meets_KeyStoreWatched :
    (s1.hw.works = true)
    ∧ ((s1.hw.chan 0).st = ChSt.active)
    ∧ (((s1.hw.chan 0).ctx! (0 : CtxId).toNat).even.corrupt 1129054208 = false)
    ∧ (((s1.hw.chan 0).ctx! (0 : CtxId).toNat).odd.corrupt 1129054208 = false)
    ∧ (((s1.hw.chan 0).ctx! (0 : CtxId).toNat).even.st = SlotSt.empty)
    ∧ (((s1.hw.chan 0).ctx! (0 : CtxId).toNat).odd.st = SlotSt.empty)
    ∧ (s2.hw.works = true)
    ∧ ((s2.hw.chan 0).st = ChSt.active)
    ∧ (s2.hw.dev.boot.st ≠ BootSt.supplyUp)
    ∧ (((s2.hw.chan 0).ctx! (0 : CtxId).toNat).even.corrupt 1129054208 = true ∨
      ((s2.hw.chan 0).ctx! (0 : CtxId).toNat).odd.corrupt 1129054208 = true)
    ∧ (((s2.hw.chan 0).ctx! (0 : CtxId).toNat).odd.st ≠ SlotSt.empty)
    ∧ (((s2.hw.chan 0).ctx! (0 : CtxId).toNat).odd.integ = ((s2.hw.chan 0).ctx! (0 : CtxId).toNat).odd.check)
    ∧ (1129054208 ≠ 0)
    ∧ (s1.hw.chReg 0 20484 = 0)
    ∧ (s22.hw.works = true)
    ∧ ((s22.hw.chan 0).st = ChSt.active)
    ∧ ((s22.hw.chan 0).mlt.run = true)
    ∧ (s22.hw.chReg 0 20484 ≠ 0)
    ∧ ((s22.hw.chan 0).cph.ctx = [(0, v36)])
    ∧ (v36.due s22.hw.now (BitVec.toNat (s22.hw.chReg 0 20484)) = some false)
    ∧ (v36.arm = true)
    ∧ (s20.hw.works = true)
    ∧ ((s20.hw.chan 0).st = ChSt.active)
    ∧ ((s20.hw.chan 0).mlt.run = true)
    ∧ (s20.hw.chReg 0 20484 ≠ 0)
    ∧ ((s20.hw.chan 0).cph.ctx = [(0, v37)])
    ∧ (v37.due s20.hw.now (BitVec.toNat (s20.hw.chReg 0 20484)) = some false)
    ∧ (v37.arm = false)
    ∧ ((v37.slot !false).st ≠ SlotSt.standby)
    ∧ (v37.staleRaised = false)
    ∧ (s21.hw.works = true)
    ∧ ((s21.hw.chan 0).st = ChSt.active)
    ∧ ((s21.hw.chan 0).mlt.run = true)
    ∧ (s21.hw.chReg 0 20484 ≠ 0)
    ∧ ((s21.hw.chan 0).cph.ctx = [(0, v38)])
    ∧ (v38.due s21.hw.now (BitVec.toNat (s21.hw.chReg 0 20484)) = some false)
    ∧ (v38.arm = false)
    ∧ ((v38.slot !false).st ≠ SlotSt.standby)
    ∧ (v38.staleRaised = true)
    ∧ (s3.hw.works = true)
    ∧ ((s3.hw.chan 0).st = ChSt.active)
    ∧ ((s3.hw.chan 0).mlt.run = true)
    ∧ (s3.hw.chReg 0 20484 ≠ 0)
    ∧ ((s3.hw.chan 0).cph.ctx = [(0, zz)])
    ∧ (zz.due s3.hw.now (BitVec.toNat (s3.hw.chReg 0 20484)) = some false)
    ∧ (zz.arm = false)
    ∧ ((zz.slot !false).st = SlotSt.standby)
    ∧ (s3.hw.cipherOff 0 = true ∨ (zz.slot !zz.txp).st ≠ SlotSt.standby)
    ∧ (s19.hw.works = true)
    ∧ ((s19.hw.chan 0).st = ChSt.active)
    ∧ ((s19.hw.chan 0).mlt.run = true)
    ∧ (s19.hw.chReg 0 20484 ≠ 0)
    ∧ ((s19.hw.chan 0).cph.ctx = [(0, zz)])
    ∧ (zz.due s19.hw.now (BitVec.toNat (s19.hw.chReg 0 20484)) = some false)
    ∧ (s19.hw.cipherOff 0 = false)
    ∧ ((zz.slot !zz.txp).st = SlotSt.standby)
    ∧ (∃ e ∈ (s19.hw.chan 0).ctxCircs 0, (s19.hw.chan 0).builds e.1 e.2 = true) := by
  and_intros <;> decide +kernel

/-- Every hypothesis of CircuitCommands is met. -/
theorem test_meets_CircuitCommands :
    (s1.hw.reaches Master.pf0 = true)
    ∧ ((s1.hw.chan 0).st = ChSt.active)
    ∧ (s1.hw.lacks Master.pf0 Guard.diagnostic = false)
    ∧ (s1.hw.reaches Master.pf1 = true)
    ∧ (s1.hw.lacks Master.pf1 Guard.diagnostic = true)
    ∧ (s1.hw.works = true)
    ∧ (s26.hw.Runs 0 (fresh 20) (cmd 20 65536 0 0))
    ∧ (bitOf (cmd 20 65536 0 0).w1 16 = true)
    ∧ (s26.hw.clearPermit 0 = false)
    ∧ (s25.hw.Runs 0 (fresh 20) (cmd 20 65536 0 0))
    ∧ (s25.hw.clearPermit 0 = true)
    ∧ ((s25.hw.chan 0).cph.armed = false)
    ∧ (s29.hw.Runs 0 (fresh 20) (cmd 20 65543 0 0))
    ∧ (bitOf (cmd 20 65543 0 0).w1 16 = true)
    ∧ (s29.hw.clearPermit 0 = true)
    ∧ ((s29.hw.chan 0).cph.armed = true)
    ∧ (s29.hw.cipherOff 0 = true)
    ∧ (s28.hw.Runs 0 (fresh 20) (cmd 20 65543 0 0))
    ∧ (s28.hw.clearPermit 0 = true)
    ∧ ((s28.hw.chan 0).cph.armed = true)
    ∧ (s28.hw.cipherOff 0 = false)
    ∧ (((s28.hw.chan 0).circ! (BitVec.ofNat 13 (fieldOf (cmd 20 65543 0 0).w1 15 0))).en = false)
    ∧ (s30.hw.Runs 0 (fresh 20) (cmd 20 7 0 0))
    ∧ (bitOf (cmd 20 7 0 0).w1 16 = false)
    ∧ (((s30.hw.chan 0).circ! (BitVec.ofNat 13 (fieldOf (cmd 20 7 0 0).w1 15 0))).en = false)
    ∧ (s24.hw.Runs 0 (fresh 20) (cmd 20 65536 0 0))
    ∧ (((s24.hw.chan 0).circ! (BitVec.ofNat 13 (fieldOf (cmd 20 65536 0 0).w1 15 0))).en = true)
    ∧ (bitOf (cmd 20 65536 0 0).w1 16 = true →
      s24.hw.clearPermit 0 = true ∧ (s24.hw.chan 0).cph.armed = true ∧ s24.hw.cipherOff 0 = false)
    ∧ (s31.hw.Runs 0 (fresh 48) (cmd 48 0 0 0))
    ∧ (((s31.hw.chan 0).circ! (BitVec.ofNat 13 (fieldOf (cmd 48 0 0 0).w1 15 0))).en = true)
    ∧ (((s31.hw.chan 0).circ! (BitVec.ofNat 13 (fieldOf (cmd 48 0 0 0).w1 15 0))).inSync Path.bkw = true ∨
      ((s31.hw.chan 0).circ! (BitVec.ofNat 13 (fieldOf (cmd 48 0 0 0).w1 15 0))).inSync Path.bkp = true)
    ∧ (s32.hw.Runs 0 (fresh 48) (cmd 48 0 0 0))
    ∧ (((s32.hw.chan 0).circ! (BitVec.ofNat 13 (fieldOf (cmd 48 0 0 0).w1 15 0))).en = true)
    ∧ (((s32.hw.chan 0).circ! (BitVec.ofNat 13 (fieldOf (cmd 48 0 0 0).w1 15 0))).inSync Path.bkw = false)
    ∧ (((s32.hw.chan 0).circ! (BitVec.ofNat 13 (fieldOf (cmd 48 0 0 0).w1 15 0))).inSync Path.bkp = false)
    ∧ (s31.hw.works = true)
    ∧ ((s31.hw.chan 0).st = ChSt.active)
    ∧ (((s31.hw.chan 0).circ! 0).anchor = some anch)
    ∧ (s33.hw.works = true)
    ∧ ((s33.hw.chan 0).st = ChSt.active)
    ∧ (((s33.hw.chan 0).circ! 1).anchor = none)
    ∧ ((s33.hw.chan 0).q.run = [v34])
    ∧ (v34.held = true)
    ∧ (isReanchor 1 v34 = true)
    ∧ (v34.parent = none)
    ∧ (v34.dropped = false) := by
  and_intros <;> first | decide +kernel | (constructor <;> decide +kernel)

end P06

namespace P07

/-- The block that arrives. -/
def blk0 : RxBlk := { index := 4, ts := 77 }
/-- A path in BLK_SYNC. -/
def rx (f : RxPath → RxPath := id) : RxPath :=
  f { blk := .sync, open_ := [blk0, { blk0 with index := 5 }], index := 6, known := some (100, false, 3), kep := false, winE := { h := some 100, map := 1 } }
/-- Channel 0 with a circuit that receives. -/
def cs (f : Circ → Circ) (z : Ctx := {}) (l : LaneSt := good) (g : Chan → Chan := id) : State := hw fun h => h.onChan 0 fun x => g
  { ((x.setReg 0x1000 1).setReg 0x1040 1).setReg 0x1080 1 with
    red := l, bkw := l, bkp := l, circ := [(0, f { cir 3 true with w := rx, p := rx, live := true })], cph := { x.cph with ctx := [(0, z)] }, mlt := { run := true } }
/-- A trailer head. -/
def head (seq : Seq) (kep : Bool) : List Byte := trlHead (mkType 1 kep false 3) seq 0
/-- A trailer with a tag of 12 bytes. -/
def trl (seq : Seq) (kep : Bool) (tag : List Byte) : List Byte := mkTrailer (head seq kep) tag 0x55
/-- A payload that the key of slot EVEN seals, with SEQ 101, to 16 bytes of zeros. -/
def plain0 : List Byte := [95, 197, 159, 69, 136, 182, 211, 171, 78, 224, 217, 246, 150, 219, 166, 116]
/-- Its tag. -/
def tag0 : List Byte := [8, 110, 17, 244, 38, 27, 50, 197, 205, 56, 155, 136]
/-- A VC-12 block of zeros whose reclaim positions carry a trailer. -/
def vc (t : List Byte) : LineSpan := .trib ⟨placeBlock 2 (List.replicate 560 0) [] (reclaimSeq 228 21 t), 0, []⟩
/-- A fractional E1 circuit of one timeslot. -/
def e1 (f : Circ → Circ) (z : Ctx := {}) : State := cs (fun y => f { y with w0 := w0e 8 true }) z good fun x =>
  { x with map := { x.map with bankA := [(1, 0x8000)] } }
/-- The deep store. -/
def ents : List DsEnt :=
  [{ circ := 0, seq := 9, path := .bkp, format := 1, ect := 0, body := [5], tout := 0 }, { circ := 0, seq := 10, path := .bkw, format := 2, ect := 0, body := [5], tout := 0 }]
/-- An anchor whose next block is `n`. -/
def an (n : Seq) : Anchor := { path := .bkw, ts := 5, seq := 3, next := n, gapTo := n }
/-- A circuit anchored at `a`. -/
def sto (a : Seq) (f : Circ → Circ := id) : State := cs (fun y => f { y with anchor := some (an a), misses := 2 }) {} good fun x => { x with store := ents }
/-- The registers of CVU 0. -/
def cvu (a b m : Word) (f : Chan → Chan := id) : State := hw fun h => h.onChan 0 fun x => f (((x.setReg 0xA100 a).setReg 0xA104 b).setReg 0xA108 m)
def s1 : State := e1 id { even := key1 .current, odd := key1 .standby }
def s2 : State := e1 id
def s6 : State := cs (fun y => { y with w := { rx with blk := .hunt }, p := { rx with checking := true, cb := false } })
def s7 : State := cs id {} { good with fr := .runahead }
def s9 : State := sto 9
def s10 : State := sto 10
def s11 : State := sto 11
def s13 : State := cs (fun y => { y with enc := [{ eb with started := true, lost := 1, cause := 2 }, { eb with started := true }, { eb with seq := 5 }] }) {} good (fun x => { x with store := ents, map := { x.map with bankA := [(1, 5), (5, 0x8001)], bankB := [(5, 3)] } })
def s14 : State := hw (fun h => (h.setDevReg 0x4018 (BitVec.ofNat 32 ((mkMsg 0 2 clsH 0x12 5).toNat / 2 ^ 32))).setDevReg 0x401C 0x00050000)
def s17 : State := cs id {} good fun x => { x with store := ents.reverse.map fun e => { e with freed := 3 } }
def s18 : State := cs id {} good fun x => { x with store := ents.map fun e => { e with freed := 3 } }
def v19 : LineSpan := vc (trl 100 false (List.replicate 12 0))
def v20 : LineSpan := vc (trl 101 true (List.replicate 12 0))
def v22 : List RxBlk := [{ blk0 with index := 5 }]
def v23 : DsEnt := { circ := 0, seq := 10, path := .bkw, format := 2, ect := 0, body := [5], tout := 0, freed := 3 }
def v24 : DsEnt := { circ := 0, seq := 9, path := .bkp, format := 1, ect := 0, body := [5], tout := 0, freed := 3 }
def v25 : DsEnt := { circ := 0, seq := 9, path := .bkp, format := 1, ect := 0, body := [5], tout := 0 }
def v26 : DsEnt := { circ := 0, seq := 10, path := .bkw, format := 2, ect := 0, body := [5], tout := 0 }
def v27 : EncBlk := { eb with started := true }


/-- Every hypothesis of DecryptJudges is met. Part 1. -/
theorem test_meets_DecryptJudges :
    (s1.hw.works = true)
    ∧ ((s1.hw.chan 0).st = ChSt.active)
    ∧ (((s1.hw.chan 0).lane Path.bkw.lane).delivers = true)
    ∧ ((((s1.hw.chan 0).circ! 0).rx Path.bkw).blk ≠ BlkSt.off)
    ∧ ((s1.hw.chan 0).rxAt ((s1.hw.chan 0).circ! 0) (((s1.hw.chan 0).circ! 0).rx Path.bkw) 20 = true)
    ∧ ((s1.hw.chan 0).rxAt ((s1.hw.chan 0).circ! 0) (((s1.hw.chan 0).circ! 0).rx Path.bkw) 17 = false)
    ∧ ((((s1.hw.chan 0).circ! 0).rx Path.bkw).open_ = blk0 :: v22)
    ∧ ((((s1.hw.chan 0).circ! 0).rx Path.bkw).known = some (100, false, 3))
    ∧ ((((s1.hw.chan 0).circ! 0).rx Path.bkw).blk = BlkSt.sync)
    ∧ (blk0.resynced = false)
    ∧ (trlNull plain0 = false)
    ∧ (trlSeq plain0 ≠ 100 + BitVec.ofInt 40 (↑blk0.index - ↑3) ∨ trlKep plain0 ≠ false)
    ∧ (trlSeq (head 101 false) = 100 + BitVec.ofInt 40 (↑blk0.index - ↑3))
    ∧ (trlKep (head 101 false) = false)
    ∧ (List.find? (fun b => decide (b.phase = 17 % (s1.hw.chan 0).phases ((s1.hw.chan 0).circ! 0)))
    (((s1.hw.chan 0).circ! 0).rx Path.bkw).open_ =
      none) := by
  decide +kernel

/-- Every hypothesis of DecryptJudges is met. Part 2. -/
theorem test_meets_DecryptJudges_2 :
    (s7.hw.works = true)
    ∧ ((s7.hw.chan 0).st = ChSt.active)
    ∧ (List.find? (fun b => decide (b.phase = 0 % (s7.hw.chan 0).phases ((s7.hw.chan 0).circ! 0)))
    (((s7.hw.chan 0).circ! 0).rx Path.bkw).open_ =
      some blk0)
    ∧ (((s7.hw.chan 0).lane Path.bkw.lane).fr = FrSt.runahead)
    ∧ (List.find? (fun b => decide (b.phase = 20 % (s1.hw.chan 0).phases ((s1.hw.chan 0).circ! 0)))
    (((s1.hw.chan 0).circ! 0).rx Path.bkw).open_ =
      some blk0)
    ∧ (((s1.hw.chan 0).lane Path.bkw.lane).fr ≠ FrSt.runahead)
    ∧ ((s1.hw.chan 0).pathDead Path.bkw.lane = false)
    ∧ ((s1.hw.chan 0).circDefect Path.bkw.lane ((s1.hw.chan 0).circ! 0) = false)
    ∧ (isFrac ((s1.hw.chan 0).circ! 0).kind = false ∨ (s1.hw.chan 0).map.pending = false)
    ∧ ((s1.hw.chan 0).cvu.inj = none)
    ∧ (trlNull
    (s1.hw.parts 0 0 Path.bkw
          ((s1.hw.chan 0).seen Path.bkw.lane ((s1.hw.chan 0).circ! 0) ((s1.hw.chan 0).circ! 0).blackWas (vc []))
          ((s1.hw.chan 0).seen Path.bkw.lane ((s1.hw.chan 0).circ! 0) ((s1.hw.chan 0).circ! 0).black (vc []))).1.trl =
      true) := by
  decide +kernel

/-- Every hypothesis of DecryptJudges is met. Part 3. -/
theorem test_meets_DecryptJudges_3 :
    (trlNull
    (s1.hw.parts 0 0 Path.bkw
          ((s1.hw.chan 0).seen Path.bkw.lane ((s1.hw.chan 0).circ! 0) ((s1.hw.chan 0).circ! 0).blackWas (vc []))
          ((s1.hw.chan 0).seen Path.bkw.lane ((s1.hw.chan 0).circ! 0) ((s1.hw.chan 0).circ! 0).black
            (vc (List.replicate 21 3)))).1.trl =
      false)
    ∧ (trlGood ((s1.hw.chan 0).circ! 0).lcid ((s1.hw.chan 0).trlLen ((s1.hw.chan 0).circ! 0) - 9)
    (s1.hw.parts 0 0 Path.bkw
          ((s1.hw.chan 0).seen Path.bkw.lane ((s1.hw.chan 0).circ! 0) ((s1.hw.chan 0).circ! 0).blackWas (vc []))
          ((s1.hw.chan 0).seen Path.bkw.lane ((s1.hw.chan 0).circ! 0) ((s1.hw.chan 0).circ! 0).black
            (vc (List.replicate 21 3)))).1.trl =
      false)
    ∧ (s2.hw.works = true)
    ∧ ((s2.hw.chan 0).st = ChSt.active)
    ∧ (List.find? (fun b => decide (b.phase = 20 % (s2.hw.chan 0).phases ((s2.hw.chan 0).circ! 0)))
    (((s2.hw.chan 0).circ! 0).rx Path.bkw).open_ =
      some blk0)
    ∧ (((s2.hw.chan 0).lane Path.bkw.lane).fr ≠ FrSt.runahead)
    ∧ ((((s2.hw.chan 0).circ! 0).rx Path.bkw).blk = BlkSt.sync)
    ∧ ((s2.hw.chan 0).pathDead Path.bkw.lane = false)
    ∧ ((s2.hw.chan 0).circDefect Path.bkw.lane ((s2.hw.chan 0).circ! 0) = false) := by
  decide +kernel

/-- Every hypothesis of DecryptJudges is met. Part 4. -/
theorem test_meets_DecryptJudges_4 :
    (isFrac ((s2.hw.chan 0).circ! 0).kind = false ∨ (s2.hw.chan 0).map.pending = false)
    ∧ ((s2.hw.chan 0).cvu.inj = none)
    ∧ (trlNull
    (s2.hw.parts 0 0 Path.bkw
          ((s2.hw.chan 0).seen Path.bkw.lane ((s2.hw.chan 0).circ! 0) ((s2.hw.chan 0).circ! 0).blackWas (vc []))
          ((s2.hw.chan 0).seen Path.bkw.lane ((s2.hw.chan 0).circ! 0) ((s2.hw.chan 0).circ! 0).black v19)).1.trl =
      false)
    ∧ (trlGood ((s2.hw.chan 0).circ! 0).lcid ((s2.hw.chan 0).trlLen ((s2.hw.chan 0).circ! 0) - 9)
    (s2.hw.parts 0 0 Path.bkw
          ((s2.hw.chan 0).seen Path.bkw.lane ((s2.hw.chan 0).circ! 0) ((s2.hw.chan 0).circ! 0).blackWas (vc []))
          ((s2.hw.chan 0).seen Path.bkw.lane ((s2.hw.chan 0).circ! 0) ((s2.hw.chan 0).circ! 0).black v19)).1.trl =
      true)
    ∧ (((s2.hw.chan 0).circ! 0).clear = false)
    ∧ ((((s2.hw.chan 0).ctx! ((s2.hw.chan 0).circ! 0).kctx).slot
      (trlKep
        (s2.hw.parts 0 0 Path.bkw
              ((s2.hw.chan 0).seen Path.bkw.lane ((s2.hw.chan 0).circ! 0) ((s2.hw.chan 0).circ! 0).blackWas (vc []))
              ((s2.hw.chan 0).seen Path.bkw.lane ((s2.hw.chan 0).circ! 0) ((s2.hw.chan 0).circ! 0).black
                v19)).1.trl)).st =
      SlotSt.empty)
    ∧ (trlNull
    (s1.hw.parts 0 0 Path.bkw
          ((s1.hw.chan 0).seen Path.bkw.lane ((s1.hw.chan 0).circ! 0) ((s1.hw.chan 0).circ! 0).blackWas (vc []))
          ((s1.hw.chan 0).seen Path.bkw.lane ((s1.hw.chan 0).circ! 0) ((s1.hw.chan 0).circ! 0).black v19)).1.trl =
      false)
    ∧ (trlGood ((s1.hw.chan 0).circ! 0).lcid ((s1.hw.chan 0).trlLen ((s1.hw.chan 0).circ! 0) - 9)
    (s1.hw.parts 0 0 Path.bkw
          ((s1.hw.chan 0).seen Path.bkw.lane ((s1.hw.chan 0).circ! 0) ((s1.hw.chan 0).circ! 0).blackWas (vc []))
          ((s1.hw.chan 0).seen Path.bkw.lane ((s1.hw.chan 0).circ! 0) ((s1.hw.chan 0).circ! 0).black v19)).1.trl =
      true)
    ∧ (((s1.hw.chan 0).circ! 0).clear = false) := by
  decide +kernel

/-- Every hypothesis of DecryptJudges is met. Part 5. -/
theorem test_meets_DecryptJudges_5 :
    ((((s1.hw.chan 0).ctx! ((s1.hw.chan 0).circ! 0).kctx).slot
      (trlKep
        (s1.hw.parts 0 0 Path.bkw
              ((s1.hw.chan 0).seen Path.bkw.lane ((s1.hw.chan 0).circ! 0) ((s1.hw.chan 0).circ! 0).blackWas (vc []))
              ((s1.hw.chan 0).seen Path.bkw.lane ((s1.hw.chan 0).circ! 0) ((s1.hw.chan 0).circ! 0).black
                v19)).1.trl)).st ≠
      SlotSt.empty)
    ∧ ((if
          trlKep
              (s1.hw.parts 0 0 Path.bkw
                    ((s1.hw.chan 0).seen Path.bkw.lane ((s1.hw.chan 0).circ! 0) ((s1.hw.chan 0).circ! 0).blackWas
                      (vc []))
                    ((s1.hw.chan 0).seen Path.bkw.lane ((s1.hw.chan 0).circ! 0) ((s1.hw.chan 0).circ! 0).black
                      v19)).1.trl =
            true then
        (((s1.hw.chan 0).circ! 0).rx Path.bkw).winO
      else (((s1.hw.chan 0).circ! 0).rx Path.bkw).winE).eligible
    (trlSeq
      (s1.hw.parts 0 0 Path.bkw
            ((s1.hw.chan 0).seen Path.bkw.lane ((s1.hw.chan 0).circ! 0) ((s1.hw.chan 0).circ! 0).blackWas (vc []))
            ((s1.hw.chan 0).seen Path.bkw.lane ((s1.hw.chan 0).circ! 0) ((s1.hw.chan 0).circ! 0).black v19)).1.trl) =
      false)
    ∧ (trlNull
    (s1.hw.parts 0 0 Path.bkw
          ((s1.hw.chan 0).seen Path.bkw.lane ((s1.hw.chan 0).circ! 0) ((s1.hw.chan 0).circ! 0).blackWas (vc []))
          ((s1.hw.chan 0).seen Path.bkw.lane ((s1.hw.chan 0).circ! 0) ((s1.hw.chan 0).circ! 0).black v20)).1.trl =
      false)
    ∧ (trlGood ((s1.hw.chan 0).circ! 0).lcid ((s1.hw.chan 0).trlLen ((s1.hw.chan 0).circ! 0) - 9)
    (s1.hw.parts 0 0 Path.bkw
          ((s1.hw.chan 0).seen Path.bkw.lane ((s1.hw.chan 0).circ! 0) ((s1.hw.chan 0).circ! 0).blackWas (vc []))
          ((s1.hw.chan 0).seen Path.bkw.lane ((s1.hw.chan 0).circ! 0) ((s1.hw.chan 0).circ! 0).black v20)).1.trl =
      true)
    ∧ ((((s1.hw.chan 0).ctx! ((s1.hw.chan 0).circ! 0).kctx).slot
      (trlKep
        (s1.hw.parts 0 0 Path.bkw
              ((s1.hw.chan 0).seen Path.bkw.lane ((s1.hw.chan 0).circ! 0) ((s1.hw.chan 0).circ! 0).blackWas (vc []))
              ((s1.hw.chan 0).seen Path.bkw.lane ((s1.hw.chan 0).circ! 0) ((s1.hw.chan 0).circ! 0).black
                v20)).1.trl)).st ≠
      SlotSt.empty)
    ∧ ((if
          trlKep
              (s1.hw.parts 0 0 Path.bkw
                    ((s1.hw.chan 0).seen Path.bkw.lane ((s1.hw.chan 0).circ! 0) ((s1.hw.chan 0).circ! 0).blackWas
                      (vc []))
                    ((s1.hw.chan 0).seen Path.bkw.lane ((s1.hw.chan 0).circ! 0) ((s1.hw.chan 0).circ! 0).black
                      v20)).1.trl =
            true then
        (((s1.hw.chan 0).circ! 0).rx Path.bkw).winO
      else (((s1.hw.chan 0).circ! 0).rx Path.bkw).winE).eligible
    (trlSeq
      (s1.hw.parts 0 0 Path.bkw
            ((s1.hw.chan 0).seen Path.bkw.lane ((s1.hw.chan 0).circ! 0) ((s1.hw.chan 0).circ! 0).blackWas (vc []))
            ((s1.hw.chan 0).seen Path.bkw.lane ((s1.hw.chan 0).circ! 0) ((s1.hw.chan 0).circ! 0).black v20)).1.trl) =
      true)
    ∧ (gcmOpen
    (((s1.hw.chan 0).ctx! ((s1.hw.chan 0).circ! 0).kctx).slot
        (trlKep
          (s1.hw.parts 0 0 Path.bkw
                ((s1.hw.chan 0).seen Path.bkw.lane ((s1.hw.chan 0).circ! 0) ((s1.hw.chan 0).circ! 0).blackWas (vc []))
                ((s1.hw.chan 0).seen Path.bkw.lane ((s1.hw.chan 0).circ! 0) ((s1.hw.chan 0).circ! 0).black
                  v20)).1.trl)).key
    (ivOf (!(s1.hw.chan 0).roleB) ((s1.hw.chan 0).circ! 0).lcid
      (trlSeq
        (s1.hw.parts 0 0 Path.bkw
              ((s1.hw.chan 0).seen Path.bkw.lane ((s1.hw.chan 0).circ! 0) ((s1.hw.chan 0).circ! 0).blackWas (vc []))
              ((s1.hw.chan 0).seen Path.bkw.lane ((s1.hw.chan 0).circ! 0) ((s1.hw.chan 0).circ! 0).black v20)).1.trl))
    (aadOf
      (List.take 7
        (s1.hw.parts 0 0 Path.bkw
              ((s1.hw.chan 0).seen Path.bkw.lane ((s1.hw.chan 0).circ! 0) ((s1.hw.chan 0).circ! 0).blackWas (vc []))
              ((s1.hw.chan 0).seen Path.bkw.lane ((s1.hw.chan 0).circ! 0) ((s1.hw.chan 0).circ! 0).black v20)).1.trl)
      ((s1.hw.chan 0).circ! 0).lcid)
    ((s1.hw.chan 0).padCipher ((s1.hw.chan 0).circ! 0)
      (s1.hw.parts 0 0 Path.bkw
            ((s1.hw.chan 0).seen Path.bkw.lane ((s1.hw.chan 0).circ! 0) ((s1.hw.chan 0).circ! 0).blackWas (vc []))
            ((s1.hw.chan 0).seen Path.bkw.lane ((s1.hw.chan 0).circ! 0) ((s1.hw.chan 0).circ! 0).black v20)).1.trl
      (s1.hw.parts 0 0 Path.bkw
            ((s1.hw.chan 0).seen Path.bkw.lane ((s1.hw.chan 0).circ! 0) ((s1.hw.chan 0).circ! 0).blackWas (vc []))
            ((s1.hw.chan 0).seen Path.bkw.lane ((s1.hw.chan 0).circ! 0) ((s1.hw.chan 0).circ! 0).black v20)).1.cipher)
    (trlTag
      (s1.hw.parts 0 0 Path.bkw
            ((s1.hw.chan 0).seen Path.bkw.lane ((s1.hw.chan 0).circ! 0) ((s1.hw.chan 0).circ! 0).blackWas (vc []))
            ((s1.hw.chan 0).seen Path.bkw.lane ((s1.hw.chan 0).circ! 0) ((s1.hw.chan 0).circ! 0).black v20)).1.trl
      ((s1.hw.chan 0).trlLen ((s1.hw.chan 0).circ! 0) - 9)) =
      none)
    ∧ (trlNull
    (s1.hw.parts 0 0 Path.bkw
          ((s1.hw.chan 0).seen Path.bkw.lane ((s1.hw.chan 0).circ! 0) ((s1.hw.chan 0).circ! 0).blackWas (vc []))
          ((s1.hw.chan 0).seen Path.bkw.lane ((s1.hw.chan 0).circ! 0) ((s1.hw.chan 0).circ! 0).black
            (vc (trl 101 false tag0)))).1.trl =
      false)
    ∧ (trlGood ((s1.hw.chan 0).circ! 0).lcid ((s1.hw.chan 0).trlLen ((s1.hw.chan 0).circ! 0) - 9)
    (s1.hw.parts 0 0 Path.bkw
          ((s1.hw.chan 0).seen Path.bkw.lane ((s1.hw.chan 0).circ! 0) ((s1.hw.chan 0).circ! 0).blackWas (vc []))
          ((s1.hw.chan 0).seen Path.bkw.lane ((s1.hw.chan 0).circ! 0) ((s1.hw.chan 0).circ! 0).black
            (vc (trl 101 false tag0)))).1.trl =
      true) := by
  decide +kernel

/-- Every hypothesis of DecryptJudges is met. Part 6. -/
theorem test_meets_DecryptJudges_6 :
    ((((s1.hw.chan 0).ctx! ((s1.hw.chan 0).circ! 0).kctx).slot
      (trlKep
        (s1.hw.parts 0 0 Path.bkw
              ((s1.hw.chan 0).seen Path.bkw.lane ((s1.hw.chan 0).circ! 0) ((s1.hw.chan 0).circ! 0).blackWas (vc []))
              ((s1.hw.chan 0).seen Path.bkw.lane ((s1.hw.chan 0).circ! 0) ((s1.hw.chan 0).circ! 0).black
                (vc (trl 101 false tag0)))).1.trl)).st ≠
      SlotSt.empty)
    ∧ ((if
          trlKep
              (s1.hw.parts 0 0 Path.bkw
                    ((s1.hw.chan 0).seen Path.bkw.lane ((s1.hw.chan 0).circ! 0) ((s1.hw.chan 0).circ! 0).blackWas
                      (vc []))
                    ((s1.hw.chan 0).seen Path.bkw.lane ((s1.hw.chan 0).circ! 0) ((s1.hw.chan 0).circ! 0).black
                      (vc (trl 101 false tag0)))).1.trl =
            true then
        (((s1.hw.chan 0).circ! 0).rx Path.bkw).winO
      else (((s1.hw.chan 0).circ! 0).rx Path.bkw).winE).eligible
    (trlSeq
      (s1.hw.parts 0 0 Path.bkw
            ((s1.hw.chan 0).seen Path.bkw.lane ((s1.hw.chan 0).circ! 0) ((s1.hw.chan 0).circ! 0).blackWas (vc []))
            ((s1.hw.chan 0).seen Path.bkw.lane ((s1.hw.chan 0).circ! 0) ((s1.hw.chan 0).circ! 0).black
              (vc (trl 101 false tag0)))).1.trl) =
      true)
    ∧ (gcmOpen
    (((s1.hw.chan 0).ctx! ((s1.hw.chan 0).circ! 0).kctx).slot
        (trlKep
          (s1.hw.parts 0 0 Path.bkw
                ((s1.hw.chan 0).seen Path.bkw.lane ((s1.hw.chan 0).circ! 0) ((s1.hw.chan 0).circ! 0).blackWas (vc []))
                ((s1.hw.chan 0).seen Path.bkw.lane ((s1.hw.chan 0).circ! 0) ((s1.hw.chan 0).circ! 0).black
                  (vc (trl 101 false tag0)))).1.trl)).key
    (ivOf (!(s1.hw.chan 0).roleB) ((s1.hw.chan 0).circ! 0).lcid
      (trlSeq
        (s1.hw.parts 0 0 Path.bkw
              ((s1.hw.chan 0).seen Path.bkw.lane ((s1.hw.chan 0).circ! 0) ((s1.hw.chan 0).circ! 0).blackWas (vc []))
              ((s1.hw.chan 0).seen Path.bkw.lane ((s1.hw.chan 0).circ! 0) ((s1.hw.chan 0).circ! 0).black
                (vc (trl 101 false tag0)))).1.trl))
    (aadOf
      (List.take 7
        (s1.hw.parts 0 0 Path.bkw
              ((s1.hw.chan 0).seen Path.bkw.lane ((s1.hw.chan 0).circ! 0) ((s1.hw.chan 0).circ! 0).blackWas (vc []))
              ((s1.hw.chan 0).seen Path.bkw.lane ((s1.hw.chan 0).circ! 0) ((s1.hw.chan 0).circ! 0).black
                (vc (trl 101 false tag0)))).1.trl)
      ((s1.hw.chan 0).circ! 0).lcid)
    ((s1.hw.chan 0).padCipher ((s1.hw.chan 0).circ! 0)
      (s1.hw.parts 0 0 Path.bkw
            ((s1.hw.chan 0).seen Path.bkw.lane ((s1.hw.chan 0).circ! 0) ((s1.hw.chan 0).circ! 0).blackWas (vc []))
            ((s1.hw.chan 0).seen Path.bkw.lane ((s1.hw.chan 0).circ! 0) ((s1.hw.chan 0).circ! 0).black
              (vc (trl 101 false tag0)))).1.trl
      (s1.hw.parts 0 0 Path.bkw
            ((s1.hw.chan 0).seen Path.bkw.lane ((s1.hw.chan 0).circ! 0) ((s1.hw.chan 0).circ! 0).blackWas (vc []))
            ((s1.hw.chan 0).seen Path.bkw.lane ((s1.hw.chan 0).circ! 0) ((s1.hw.chan 0).circ! 0).black
              (vc (trl 101 false tag0)))).1.cipher)
    (trlTag
      (s1.hw.parts 0 0 Path.bkw
            ((s1.hw.chan 0).seen Path.bkw.lane ((s1.hw.chan 0).circ! 0) ((s1.hw.chan 0).circ! 0).blackWas (vc []))
            ((s1.hw.chan 0).seen Path.bkw.lane ((s1.hw.chan 0).circ! 0) ((s1.hw.chan 0).circ! 0).black
              (vc (trl 101 false tag0)))).1.trl
      ((s1.hw.chan 0).trlLen ((s1.hw.chan 0).circ! 0) - 9)) =
      some plain0) := by
  decide +kernel

/-- Every hypothesis of DecryptReleases is met. -/
theorem test_meets_DecryptReleases :
    (s6.hw.works = true)
    ∧ ((s6.hw.chan 0).st = ChSt.active)
    ∧ (((s6.hw.chan 0).circ! 0).en = true)
    ∧ ((((s6.hw.chan 0).circ! 0).rx Path.bkp).checking = true)
    ∧ ((((s6.hw.chan 0).circ! 0).rx Path.bkp).cb = false)
    ∧ (s17.hw.works = true)
    ∧ ((s17.hw.chan 0).st = ChSt.active)
    ∧ ((s17.hw.chan 0).cvu.inj = none)
    ∧ (List.find? (fun e => decide (e.circ = 0 ∧ e.freed ≠ 0)) (s17.hw.chan 0).store = some v23)
    ∧ (s18.hw.works = true)
    ∧ ((s18.hw.chan 0).st = ChSt.active)
    ∧ ((s18.hw.chan 0).cvu.inj = none)
    ∧ (List.find? (fun e => decide (e.circ = 0 ∧ e.freed ≠ 0)) (s18.hw.chan 0).store = some v24)
    ∧ (v24.format = 1)
    ∧ (v23.format ≠ 1)
    ∧ (s1.hw.works = true)
    ∧ ((s1.hw.chan 0).st = ChSt.active)
    ∧ ((s1.hw.chan 0).cvu.inj = none)
    ∧ (List.find? (fun e => decide (e.circ = 0 ∧ e.freed ≠ 0)) (s1.hw.chan 0).store = none)
    ∧ (((s1.hw.chan 0).circ! 0).anchor = none)
    ∧ (((s1.hw.chan 0).circ! 0).en = true)
    ∧ (s9.hw.works = true)
    ∧ ((s9.hw.chan 0).st = ChSt.active)
    ∧ ((s9.hw.chan 0).cvu.inj = none)
    ∧ (List.find? (fun e => decide (e.circ = 0 ∧ e.freed ≠ 0)) (s9.hw.chan 0).store = none)
    ∧ (((s9.hw.chan 0).circ! 0).anchor = some (an 9))
    ∧ (List.find? (fun e => decide (e.circ = 0 ∧ e.seq = (an 9).next ∧ e.freed = 0)) (s9.hw.chan 0).store = some v25)
    ∧ (v25.format = 1)
    ∧ (s10.hw.works = true)
    ∧ ((s10.hw.chan 0).st = ChSt.active)
    ∧ ((s10.hw.chan 0).cvu.inj = none)
    ∧ (List.find? (fun e => decide (e.circ = 0 ∧ e.freed ≠ 0)) (s10.hw.chan 0).store = none)
    ∧ (((s10.hw.chan 0).circ! 0).anchor = some (an 10))
    ∧ (List.find? (fun e => decide (e.circ = 0 ∧ e.seq = (an 10).next ∧ e.freed = 0)) (s10.hw.chan 0).store = some v26)
    ∧ (v26.format ≠ 1)
    ∧ (s11.hw.works = true)
    ∧ ((s11.hw.chan 0).st = ChSt.active)
    ∧ ((s11.hw.chan 0).cvu.inj = none)
    ∧ (List.find? (fun e => decide (e.circ = 0 ∧ e.freed ≠ 0)) (s11.hw.chan 0).store = none)
    ∧ (((s11.hw.chan 0).circ! 0).anchor = some (an 11))
    ∧ (List.find? (fun e => decide (e.circ = 0 ∧ e.seq = (an 11).next ∧ e.freed = 0)) (s11.hw.chan 0).store = none)
    ∧ ((an 11).gapTo = (an 11).next) := by
  and_intros <;> decide +kernel

/-- Every hypothesis of MemoryErrors is met. -/
theorem test_meets_MemoryErrors :
    (s1.hw.works = true)
    ∧ ((s1.hw.chan 0).raises = true)
    ∧ (memOwner false 3 = some 5)
    ∧ (memOwner false 10 = none)
    ∧ (s13.hw.works = true)
    ∧ ((s13.hw.chan 0).raises = true)
    ∧ (List.find? (fun e => decide (e.lost = 0)) ((s13.hw.chan 0).circ! 0).enc = some v27)
    ∧ (s9.hw.works = true)
    ∧ ((s9.hw.chan 0).raises = true)
    ∧ (List.find? (fun e => decide (e.circ = 0 ∧ e.freed = 0)) (s9.hw.chan 0).store = some v25)
    ∧ (memOwner true 10 = some 17)
    ∧ (s1.hw.dev.boot.st ≠ BootSt.supplyUp)
    ∧ (∀ (c : ChanId), IntegAt.dRecord ≠ IntegAt.chan c) := by
  and_intros <;> decide +kernel

/-- Every hypothesis of FaultsInjected is met. -/
theorem test_meets_FaultsInjected :
    (s1.hw.reaches Master.pf0 = true)
    ∧ ((s1.hw.chan 0).st = ChSt.active)
    ∧ (s1.hw.lacks Master.pf0 Guard.diagnostic = false)
    ∧ (bitOf 2147483653 31 = true)
    ∧ (s1.hw.reaches Master.pf1 = true)
    ∧ (s1.hw.lacks Master.pf1 Guard.diagnostic = true)
    ∧ (s14.hw.reaches Master.pf0 = true)
    ∧ (Master.pf0 ≠ Master.malot)
    ∧ (s14.hw.lacks Master.pf0 Guard.diagnostic = false)
    ∧ (s14.hw.injBad s14.hw.injMsg = false)
    ∧ (s1.hw.injBad s1.hw.injMsg = true)
    ∧ (Master.pf1 ≠ Master.malot) := by
  and_intros <;> decide +kernel

/-- Every hypothesis of CheckValueUnits is met. -/
theorem test_meets_CheckValueUnits :
    (s1.hw.reaches Master.pf0 = true)
    ∧ (s1.hw.lacks Master.pf0 Guard.guarded = false)
    ∧ ((s1.hw.chan 0).st = ChSt.active)
    ∧ (bitOf 0 18 = false)
    ∧ (bitOf 0 19 = false)
    ∧ (bitOf 32505856 18 = false)
    ∧ (bitOf 32505856 19 = false)
    ∧ (32505856 &&& cvuMajor = (s1.hw.chan 0).reg (cvuReg ↑0) &&& cvuMajor)
    ∧ (0 &&& cvuMajor ≠ (s1.hw.chan 0).reg (cvuReg ↑0) &&& cvuMajor)
    ∧ (CvuReg.poly ≠ CvuReg.ctl)
    ∧ ((s1.hw.chan 0).reg (cvuReg ↑0) &&& 1040384 = 0)
    ∧ ((s1.hw.chan 0).cvuMulti ↑0 = false)
    ∧ (↑0 = fieldOf 0 19 16) := by
  and_intros <;> decide +kernel

end P07

namespace P08

/-- Channel 0 with its protection in a state. -/
def ps (p : Psw) (cfg : Word := 0x40010000) (run : List Cmd := []) : State := hw fun h => h.onChan 0 fun x =>
  { (((x.setReg 0x1000 1).setReg 0x1040 1).setReg 0x1080 1).setReg 0x7000 cfg with
    red := good, bkw := good, bkp := good, mlt := { run := true }, psw := p, q := { x.q with run := run } }
/-- All four conditions. -/
def tt : Vector Bool 4 := Vector.replicate 4 true
/-- Trailers with a code, seen in the last 8 ms. -/
def seen (v : BitVec 4) (n : Nat) : List (Nat × CircId × Seq × BitVec 4) := (List.range n).map fun i => (4900000, 0, BitVec.ofNat 40 i, v)
/-- One request. -/
def rq (i : Fin 4) : Vector Bool 4 := (Vector.replicate 4 false).set i true
/-- PSW_CMD with an operation. -/
def op (n : Nat) (h : Bool := false) : List Cmd := [{ cmd 0x40 (BitVec.ofNat 32 n) 0 0 with held := h }]
def s1 : State := ps {}
def s2 : State := ps { ho := tt, cond := tt }
def s3 : State := ps { seen := seen 0xD 5 ++ seen 2 3, majRun := 2, majLast := 0xD }
def s4 : State := ps { seen := seen 0xD 5, majRun := 2, majLast := 7 }
def s5 : State := ps { seen := seen 0xE 5, majRun := 2, majLast := 0xE }
def s7 : State := ps { rxValid := true, rxCode := 5, active := .bkw } 0xC0010000
def s8 : State := ps { rxValid := true, rxCode := 0xD, active := .bkw } 0xC0010000
def s10 : State := ps { cmd := 1 }
def s11 : State := ps { cmd := 1, active := .bkp }
def s12 : State := ps { active := .bkp }
def s13 : State := ps { req := rq 1, active := .bkp, st := .fs, cmd := 2 }
def s14 : State := ps { cmd := 2, st := .nr }
def s15 : State := ps { req := rq 0 }
def s16 : State := ps { req := rq 2 }
def s17 : State := ps { st := .wtr, wtr := true, active := .bkp }
def s18 : State := ps { st := .exer, cmd := 4, exerSeen := true } 0x40010000 (op 4 true)
def s19 : State := ps { st := .sfW, active := .bkp }
def s20 : State := ps { st := .sfW, active := .bkp } 0x00010000
def s21 : State := ps {} 0x40010000 (op 1)
def s22 : State := ps {} 0x40010000 (op 2)
def s23 : State := ps { st := .lo, cmd := 1 } 0x40010000 (op 2)
def s24 : State := ps {} 0x40010000 (op 3)
def s25 : State := ps { st := .lo, cmd := 1 } 0x40010000 (op 3)
def s26 : State := ps {} 0x40010000 (op 4)
def s27 : State := ps { st := .lo, cmd := 1 } 0x40010000 (op 4)
def s28 : State := ps { st := .fs, cmd := 2, active := .bkp } 0x40010000 (op 5)
def s29 : State := ps { st := .fs, cmd := 2, active := .bkp } 0x00010000 (op 5)
def s30 : State := ps {} 0x40010000 (op 7)
def v31 : Cmd := { cmd 0x40 1 0 0 with held := false }
def v32 : Cmd := { cmd 0x40 2 0 0 with held := false }
def v33 : Cmd := { cmd 0x40 3 0 0 with held := false }
def v34 : Cmd := { cmd 0x40 4 0 0 with held := false }
def v35 : Cmd := { cmd 0x40 5 0 0 with held := false }
def v36 : Cmd := { cmd 0x40 7 0 0 with held := false }
def v37 : Cmd := { cmd 0x40 4 0 0 with held := true }


/-- Every hypothesis of FarEndObserved is met. -/
theorem test_meets_FarEndObserved :
    (s2.hw.works = true)
    ∧ ((s2.hw.chan 0).st = ChSt.active)
    ∧ ((s2.hw.chan 0).psw.ho[condIdx Cond.sfW] = true)
    ∧ ((s2.hw.chan 0).psw.cond[condIdx Cond.sfW] = true)
    ∧ (s1.hw.works = true)
    ∧ ((s1.hw.chan 0).st = ChSt.active)
    ∧ ((s1.hw.chan 0).malotRuns = true)
    ∧ (majority
    (List.map (fun e => e.2.2.2) (List.filter (fun e => decide (s1.hw.now - e.1 ≤ 3200000)) (s1.hw.chan 0).psw.seen)) =
      none)
    ∧ (s5.hw.works = true)
    ∧ ((s5.hw.chan 0).st = ChSt.active)
    ∧ ((s5.hw.chan 0).malotRuns = true)
    ∧ (majority
    (List.map (fun e => e.2.2.2) (List.filter (fun e => decide (s5.hw.now - e.1 ≤ 3200000)) (s5.hw.chan 0).psw.seen)) =
      some 14)
    ∧ (pswOfCode 14 = none)
    ∧ ((s5.hw.chan 0).psw.rsvSeen = false)
    ∧ (s3.hw.works = true)
    ∧ ((s3.hw.chan 0).st = ChSt.active)
    ∧ ((s3.hw.chan 0).malotRuns = true)
    ∧ (majority
    (List.map (fun e => e.2.2.2) (List.filter (fun e => decide (s3.hw.now - e.1 ≤ 3200000)) (s3.hw.chan 0).psw.seen)) =
      some 13)
    ∧ (pswOfCode 13 = some PswState.fs)
    ∧ (13 ≠ (s3.hw.chan 0).psw.rxCode)
    ∧ ((s3.hw.chan 0).psw.majRun = 2)
    ∧ ((s3.hw.chan 0).psw.majLast = 13)
    ∧ (s4.hw.works = true)
    ∧ ((s4.hw.chan 0).st = ChSt.active)
    ∧ ((s4.hw.chan 0).malotRuns = true)
    ∧ (majority
    (List.map (fun e => e.2.2.2) (List.filter (fun e => decide (s4.hw.now - e.1 ≤ 3200000)) (s4.hw.chan 0).psw.seen)) =
      some 13)
    ∧ (13 ≠ (s4.hw.chan 0).psw.rxCode)
    ∧ ((s4.hw.chan 0).psw.majLast ≠ 13)
    ∧ (s7.hw.works = true)
    ∧ ((s7.hw.chan 0).st = ChSt.active)
    ∧ ((s7.hw.chan 0).misHolds = true)
    ∧ ((s7.hw.chan 0).psw.mismatch = false)
    ∧ ((s1.hw.chan 0).misHolds = false) := by
  and_intros <;> decide +kernel

/-- Every hypothesis of ProtectionEvaluates is met. -/
theorem test_meets_ProtectionEvaluates :
    (s10.hw.works = true)
    ∧ ((s10.hw.chan 0).malotRuns = true)
    ∧ ((s10.hw.chan 0).psw.cmd = 1)
    ∧ (s11.hw.works = true)
    ∧ ((s11.hw.chan 0).malotRuns = true)
    ∧ ((s11.hw.chan 0).psw.cmd = 1)
    ∧ (Path.bkw ≠ (s11.hw.chan 0).psw.active)
    ∧ (s13.hw.works = true)
    ∧ ((s13.hw.chan 0).malotRuns = true)
    ∧ ((s13.hw.chan 0).pswCfg.one = false)
    ∧ ((s13.hw.chan 0).psw.req[1] = true)
    ∧ ((s13.hw.chan 0).psw.cmd ≠ 1)
    ∧ (Path.bkw ≠ (s13.hw.chan 0).psw.active)
    ∧ (s14.hw.works = true)
    ∧ ((s14.hw.chan 0).malotRuns = true)
    ∧ ((s14.hw.chan 0).pswCfg.one = false)
    ∧ ((s14.hw.chan 0).psw.cmd = 2)
    ∧ ((s14.hw.chan 0).psw.req[1] = false)
    ∧ (Path.bkp ≠ (s14.hw.chan 0).psw.active)
    ∧ (s15.hw.works = true)
    ∧ ((s15.hw.chan 0).malotRuns = true)
    ∧ ((s15.hw.chan 0).pswCfg.one = false)
    ∧ ((s15.hw.chan 0).psw.cmd = 0)
    ∧ ((s15.hw.chan 0).psw.req[1] = false)
    ∧ ((s15.hw.chan 0).psw.req[0] = true)
    ∧ (Path.bkp ≠ (s15.hw.chan 0).psw.active)
    ∧ (s16.hw.works = true)
    ∧ ((s16.hw.chan 0).malotRuns = true)
    ∧ ((s16.hw.chan 0).pswCfg.one = false)
    ∧ ((s16.hw.chan 0).psw.cmd = 0)
    ∧ ((s16.hw.chan 0).psw.req[1] = false)
    ∧ ((s16.hw.chan 0).psw.req[0] = false)
    ∧ ((s16.hw.chan 0).psw.req[2] = true)
    ∧ (Path.bkp ≠ (s16.hw.chan 0).psw.active)
    ∧ (s1.hw.works = true)
    ∧ ((s1.hw.chan 0).malotRuns = true)
    ∧ ((s1.hw.chan 0).pswCfg.one = false)
    ∧ ((s1.hw.chan 0).psw.cmd = 0)
    ∧ ((s1.hw.chan 0).psw.req[0] = false)
    ∧ ((s1.hw.chan 0).psw.req[1] = false)
    ∧ ((s1.hw.chan 0).psw.req[2] = false)
    ∧ ((s1.hw.chan 0).psw.wtr = false)
    ∧ ((s1.hw.chan 0).psw.dnr = false)
    ∧ ((s1.hw.chan 0).psw.st = PswState.nr)
    ∧ (s12.hw.works = true)
    ∧ ((s12.hw.chan 0).malotRuns = true)
    ∧ ((s12.hw.chan 0).pswCfg.one = false)
    ∧ ((s12.hw.chan 0).psw.cmd = 0)
    ∧ ((s12.hw.chan 0).psw.req[0] = false)
    ∧ ((s12.hw.chan 0).psw.req[1] = false)
    ∧ ((s12.hw.chan 0).psw.req[2] = false)
    ∧ ((s12.hw.chan 0).psw.wtr = false)
    ∧ ((s12.hw.chan 0).psw.dnr = false)
    ∧ ((s12.hw.chan 0).psw.st = PswState.nr)
    ∧ (Path.bkw ≠ (s12.hw.chan 0).psw.active)
    ∧ (s8.hw.works = true)
    ∧ ((s8.hw.chan 0).malotRuns = true)
    ∧ ((s8.hw.chan 0).pswCfg.one = true)
    ∧ ((s8.hw.chan 0).psw.rxValid = true)
    ∧ ((s8.hw.chan 0).psw.cmd = 0)
    ∧ ((s8.hw.chan 0).psw.req[0] = false)
    ∧ ((s8.hw.chan 0).psw.req[1] = false)
    ∧ ((s8.hw.chan 0).psw.req[2] = false)
    ∧ ((s8.hw.chan 0).psw.wtr = false)
    ∧ ((s8.hw.chan 0).psw.dnr = false)
    ∧ ((s8.hw.chan 0).psw.st = PswState.nr)
    ∧ ((s8.hw.chan 0).psw.rxCode = 13)
    ∧ (Path.bkp ≠ (s8.hw.chan 0).psw.active)
    ∧ (s17.hw.works = true)
    ∧ ((s17.hw.chan 0).malotRuns = true)
    ∧ ((s17.hw.chan 0).pswCfg.one = false)
    ∧ ((s17.hw.chan 0).psw.req[0] = false)
    ∧ ((s17.hw.chan 0).psw.req[1] = false)
    ∧ ((s17.hw.chan 0).psw.req[2] = false)
    ∧ ((s17.hw.chan 0).psw.dnr = false)
    ∧ ((s17.hw.chan 0).psw.st = PswState.wtr)
    ∧ ((s17.hw.chan 0).psw.wtr = true)
    ∧ ((s17.hw.chan 0).psw.cmd = 0)
    ∧ (s18.hw.works = true)
    ∧ ((s18.hw.chan 0).malotRuns = true)
    ∧ ((s18.hw.chan 0).pswCfg.one = false)
    ∧ ((s18.hw.chan 0).psw.req[0] = false)
    ∧ ((s18.hw.chan 0).psw.req[1] = false)
    ∧ ((s18.hw.chan 0).psw.req[2] = false)
    ∧ ((s18.hw.chan 0).psw.dnr = false)
    ∧ ((s18.hw.chan 0).psw.st = PswState.exer)
    ∧ ((s18.hw.chan 0).psw.wtr = false)
    ∧ ((s18.hw.chan 0).psw.cmd = 4)
    ∧ ((s18.hw.chan 0).q.run = [v37])
    ∧ (v37.op = 64)
    ∧ (v37.held = true)
    ∧ (v37.parent = none)
    ∧ (v37.dropped = false)
    ∧ (s19.hw.works = true)
    ∧ ((s19.hw.chan 0).malotRuns = true)
    ∧ ((s19.hw.chan 0).pswCfg.one = false)
    ∧ ((s19.hw.chan 0).psw.req[0] = false)
    ∧ ((s19.hw.chan 0).psw.req[1] = false)
    ∧ ((s19.hw.chan 0).psw.req[2] = false)
    ∧ ((s19.hw.chan 0).psw.dnr = false)
    ∧ ((s19.hw.chan 0).psw.st = PswState.sfW)
    ∧ ((s19.hw.chan 0).psw.wtr = false)
    ∧ ((s19.hw.chan 0).psw.cmd = 0)
    ∧ ((s19.hw.chan 0).pswCfg.revert = true)
    ∧ (0 < (s19.hw.chan 0).pswCfg.wtrTime)
    ∧ (s20.hw.works = true)
    ∧ ((s20.hw.chan 0).malotRuns = true)
    ∧ ((s20.hw.chan 0).pswCfg.one = false)
    ∧ ((s20.hw.chan 0).psw.req[0] = false)
    ∧ ((s20.hw.chan 0).psw.req[1] = false)
    ∧ ((s20.hw.chan 0).psw.req[2] = false)
    ∧ ((s20.hw.chan 0).psw.dnr = false)
    ∧ ((s20.hw.chan 0).psw.st = PswState.sfW)
    ∧ ((s20.hw.chan 0).psw.wtr = false)
    ∧ ((s20.hw.chan 0).psw.cmd = 0)
    ∧ ((s20.hw.chan 0).pswCfg.revert = false) := by
  and_intros <;> decide +kernel

/-- Every hypothesis of ProtectionCommanded is met. -/
theorem test_meets_ProtectionCommanded :
    ((s21.hw.chan 0).quarantined = false)
    ∧ ((s21.hw.chan 0).psw.cmd ≠ 4)
    ∧ (s21.hw.Runs 0 (pswSel [1]) v31)
    ∧ ((s22.hw.chan 0).quarantined = false)
    ∧ ((s22.hw.chan 0).psw.cmd ≠ 4)
    ∧ (s22.hw.Runs 0 (pswSel [2]) v32)
    ∧ ((s22.hw.chan 0).psw.st ≠ PswState.lo)
    ∧ ((s22.hw.chan 0).psw.st ≠ PswState.sfP)
    ∧ ((s22.hw.chan 0).pswCfg.one = false ∧
      (s22.hw.chan 0).psw.req[0] = false ∧ (s22.hw.chan 0).psw.req[1] = false ∧ (s22.hw.chan 0).psw.req[2] = false)
    ∧ ((s23.hw.chan 0).quarantined = false)
    ∧ ((s23.hw.chan 0).psw.cmd ≠ 4)
    ∧ (s23.hw.Runs 0 (pswSel [2]) v32)
    ∧ ((s23.hw.chan 0).psw.st = PswState.lo ∨ (s23.hw.chan 0).psw.st = PswState.sfP)
    ∧ ((s24.hw.chan 0).quarantined = false)
    ∧ ((s24.hw.chan 0).psw.cmd ≠ 4)
    ∧ (s24.hw.Runs 0 (pswSel [3]) v33)
    ∧ (manualOk (s24.hw.chan 0).psw.st = true)
    ∧ ((s24.hw.chan 0).pswCfg.one = false ∧
      (s24.hw.chan 0).psw.req[0] = false ∧ (s24.hw.chan 0).psw.req[1] = false ∧ (s24.hw.chan 0).psw.req[2] = false)
    ∧ ((s25.hw.chan 0).quarantined = false)
    ∧ ((s25.hw.chan 0).psw.cmd ≠ 4)
    ∧ (s25.hw.Runs 0 (pswSel [3]) v33)
    ∧ (manualOk (s25.hw.chan 0).psw.st = false)
    ∧ ((s26.hw.chan 0).quarantined = false)
    ∧ ((s26.hw.chan 0).psw.cmd ≠ 4)
    ∧ (s26.hw.Runs 0 (pswSel [4]) v34)
    ∧ ((s26.hw.chan 0).psw.st = PswState.nr ∨ (s26.hw.chan 0).psw.st = PswState.dnr)
    ∧ ((s26.hw.chan 0).pswCfg.one = false ∧
      (s26.hw.chan 0).psw.req[0] = false ∧ (s26.hw.chan 0).psw.req[1] = false ∧ (s26.hw.chan 0).psw.req[2] = false)
    ∧ ((s26.hw.chan 0).psw.wtr = false)
    ∧ ((s27.hw.chan 0).quarantined = false)
    ∧ ((s27.hw.chan 0).psw.cmd ≠ 4)
    ∧ (s27.hw.Runs 0 (pswSel [4]) v34)
    ∧ ((s27.hw.chan 0).psw.st ≠ PswState.nr)
    ∧ ((s27.hw.chan 0).psw.st ≠ PswState.dnr)
    ∧ ((s28.hw.chan 0).quarantined = false)
    ∧ ((s28.hw.chan 0).psw.cmd ≠ 4)
    ∧ (s28.hw.Runs 0 (pswSel [5]) v35)
    ∧ ((s28.hw.chan 0).psw.st = PswState.fs ∨ (s28.hw.chan 0).psw.st = PswState.ms)
    ∧ ((s28.hw.chan 0).pswCfg.one = false ∧
      (s28.hw.chan 0).psw.req[0] = false ∧ (s28.hw.chan 0).psw.req[1] = false ∧ (s28.hw.chan 0).psw.req[2] = false)
    ∧ ((s28.hw.chan 0).psw.wtr = false)
    ∧ ((s28.hw.chan 0).pswCfg.revert = true)
    ∧ ((s29.hw.chan 0).quarantined = false)
    ∧ ((s29.hw.chan 0).psw.cmd ≠ 4)
    ∧ (s29.hw.Runs 0 (pswSel [5]) v35)
    ∧ ((s29.hw.chan 0).psw.st = PswState.fs ∨ (s29.hw.chan 0).psw.st = PswState.ms)
    ∧ ((s29.hw.chan 0).pswCfg.one = false ∧
      (s29.hw.chan 0).psw.req[0] = false ∧ (s29.hw.chan 0).psw.req[1] = false ∧ (s29.hw.chan 0).psw.req[2] = false)
    ∧ ((s29.hw.chan 0).psw.wtr = false)
    ∧ ((s29.hw.chan 0).pswCfg.revert = false)
    ∧ ((s30.hw.chan 0).quarantined = false)
    ∧ ((s30.hw.chan 0).psw.cmd ≠ 4)
    ∧ (s30.hw.Runs 0 (pswSel [0, 6, 7]) v36) := by
  and_intros <;> first | decide +kernel | (constructor <;> decide +kernel)

end P08

namespace P09

/-- An encryption block that has begun. -/
def e0 : EncBlk := { eb with started := true }
/-- A circuit at work. -/
def cr (kind : Nat) (en : Bool) (w1 : Nat := 0) : Circ :=
  { cir kind en w1 with live := true, clear := true, enc := [e0, { e0 with started := false, seq := 5 }], anchor := some { path := .bkw, ts := 4, seq := 5, next := 9, gapTo := 0 } }
/-- Channel 0 at work. -/
def cs (f : Chan → Chan) : State := hw fun h => h.onChan 0 fun x => f
  { ((x.setReg 0x1000 1).setReg 0x1040 1).setReg 0x1080 1 with
    red := good, bkw := good, bkp := good, circ := [(0, cr 3 true), (1, cr 2 true 8)], mlt := { run := true }
    store := [{ circ := 0, seq := 9, path := .bkp, format := 1, ect := 0, body := [5], tout := 0 }]
    q := { x.q with wait := [cmd 0x14 0 0 0], run := [{ cmd 0x30 0 0 0 with held := true }, cmd 0x10 0 0 0] }
    cph := { x.cph with ctx := [(0, { even := { st := .current, key := [4] }, odd := { st := .standby }, arm := true })] }
    psw := { x.psw with st := .fs, cmd := 2, active := .bkp } }
/-- Messages of the classes. -/
def mN : BitVec 64 := mkMsg 0 5 clsN 0x20 0
def mC : BitVec 64 := mkMsg 0 5 clsC 0x50 1
def mH : BitVec 64 := mkMsg 0 6 clsH 0x31 3
def mD : BitVec 64 := mkMsg 63 11 clsD 0x73 1
def mM : BitVec 64 := mkMsg 63 11 clsM 0x7E 1
/-- A message in its slot. -/
def withSlot (m : BitVec 64) : State := { cs id with hw := (cs id).hw.onFcl fun f => { f with slots := [(slotKey m, { msg := m, ts := 44, order := 4, at_ := 4999000 })] } }
/-- Channel 0 with its records. -/
def flt (f : Flt) (g : Chan → Chan := id) : State := cs fun x => g { x with flt := f }
/-- A record that is PENDING. -/
def rc (m : BitVec 64) : Rec := { pend := true, msg := m, timer := 100, openedAt := 7 }
/-- A change of the collector. -/
def fclS (f : Fcl → Fcl) (g : Chan → Chan := id) : State := { cs g with hw := (cs g).hw.onFcl f }
/-- Every circuit is quarantined. -/
def qc (x : Chan) : Chan := { x with circ := x.circ.map fun e => (e.1, { e.2 with quar := true, live := false }) }
/-- The supervisor's policy. -/
def pol (n : BitVec 2) (s : State) : State := { s with hw := s.hw.onFcl fun f => { f with pol := Vector.replicate 3 (n, 5) } }
def s1 : State := cs id
def s2 : State := withSlot mN
def s3 : State := withSlot mC
def s4 : State := withSlot mH
def s5 : State := withSlot mD
def s6 : State := withSlot mM
def s7 : State := flt { c := rc mC, ccirc := 1, seq := 5 }
def s8 : State := flt { h := rc mH, seq := 5 }
def s9 : State := flt { hq := { window := true, cause := 7 }, hQuar := true, seq := 5 }
def s10 : State := flt { hq := { window := true, done := true, cause := 7 }, hQuar := true }
def s11 : State := flt { hq := { window := true, done := true, cause := mkMsg 0 11 clsH 0x72 0 }, hQuar := true, seq := 5 } (fun x => { x with island := false })
def s13 : State := fclS (fun f => { f with d := rc mD, dseq := 5, dq := { window := true, cause := 6 } })
def s14 : State := fclS (fun f => { f with dQuar := true, dq := { window := true, cause := 6 }, dseq := 5 }) (fun x => { x with flt := { x.flt with underD := true } })
def s16 : State := flt { cq := [(0, { cause := 8 }), (1, { cause := mC })], seq := 0 } qc
def s18 : State := pol 1 (flt { h := rc mH, seq := 5 })
def s19 : State := pol 2 (flt { h := rc mH, seq := 5 })
def s25 : State := { cs id with hw := (cs id).hw.onDev fun d => { d with isvStall := true } }
def v31 : Slot := { msg := mN, ts := 44, order := 4, at_ := 4999000 }
def v32 : Slot := { msg := mC, ts := 44, order := 4, at_ := 4999000 }
def v33 : Slot := { msg := mH, ts := 44, order := 4, at_ := 4999000 }
def v34 : Slot := { msg := mD, ts := 44, order := 4, at_ := 4999000 }
def v35 : Slot := { msg := mM, ts := 44, order := 4, at_ := 4999000 }


/-- Every hypothesis of FaultMessagesServed is met. -/
theorem test_meets_FaultMessagesServed :
    (s1.hw.works = true)
    ∧ (s1.hw.dev.fcl.slots = [])
    ∧ (s2.hw.works = true)
    ∧ (s2.hw.dev.boot.st = BootSt.run)
    ∧ (v31.msg ≠ 0)
    ∧ (msgInj v31.msg = false)
    ∧ (v31.count = 0)
    ∧ (s2.hw.dev.fcl.slots = [(slotKey v31.msg, v31)])
    ∧ (tget 0 s2.hw.dev.fcl.held (slotKey v31.msg) = 0)
    ∧ (msgCls v31.msg = clsN)
    ∧ (tget 0 s2.hw.dev.fcl.servedN (slotKey v31.msg * 256 + msgKind v31.msg) = 0)
    ∧ (s3.hw.works = true)
    ∧ (s3.hw.dev.boot.st = BootSt.run)
    ∧ (v32.msg ≠ 0)
    ∧ (msgInj v32.msg = false)
    ∧ (v32.count = 0)
    ∧ (s3.hw.dev.fcl.slots = [(slotKey v32.msg, v32)])
    ∧ (tget 0 s3.hw.dev.fcl.held (slotKey v32.msg) = 0)
    ∧ (msgCls v32.msg = clsC)
    ∧ (msgChan v32.msg = ↑0)
    ∧ (msgKind v32.msg ≠ 40)
    ∧ (s3.hw.shadowed v32.msg = false)
    ∧ (s3.hw.scopeQuar v32.msg = false)
    ∧ ((s3.hw.chan 0).flt.c.pend = false)
    ∧ (s4.hw.works = true)
    ∧ (s4.hw.dev.boot.st = BootSt.run)
    ∧ (v33.msg ≠ 0)
    ∧ (msgInj v33.msg = false)
    ∧ (v33.count = 0)
    ∧ (s4.hw.dev.fcl.slots = [(slotKey v33.msg, v33)])
    ∧ (tget 0 s4.hw.dev.fcl.held (slotKey v33.msg) = 0)
    ∧ (msgCls v33.msg = clsH)
    ∧ (msgChan v33.msg = ↑0)
    ∧ (msgKind v33.msg ≠ 40)
    ∧ (s4.hw.shadowed v33.msg = false)
    ∧ (s4.hw.scopeQuar v33.msg = false)
    ∧ (∀ (d : ChanId), (s4.hw.chan d).flt.h.pend = false)
    ∧ (s5.hw.works = true)
    ∧ (s5.hw.dev.boot.st = BootSt.run)
    ∧ (v34.msg ≠ 0)
    ∧ (msgInj v34.msg = false)
    ∧ (v34.count = 0)
    ∧ (s5.hw.dev.fcl.slots = [(slotKey v34.msg, v34)])
    ∧ (tget 0 s5.hw.dev.fcl.held (slotKey v34.msg) = 0)
    ∧ (msgCls v34.msg = clsD)
    ∧ (msgKind v34.msg ≠ 40)
    ∧ (s5.hw.shadowed v34.msg = false)
    ∧ (s5.hw.dev.fcl.dQuar = false)
    ∧ (s5.hw.dev.fcl.d.pend = false)
    ∧ (s6.hw.works = true)
    ∧ (s6.hw.dev.boot.st = BootSt.run)
    ∧ (v35.msg ≠ 0)
    ∧ (msgInj v35.msg = false)
    ∧ (v35.count = 0)
    ∧ (s6.hw.dev.fcl.slots = [(slotKey v35.msg, v35)])
    ∧ (tget 0 s6.hw.dev.fcl.held (slotKey v35.msg) = 0)
    ∧ (msgCls v35.msg = clsM) := by
  and_intros <;> decide +kernel

/-- Every hypothesis of RecordTimersReact is met. -/
theorem test_meets_RecordTimersReact :
    (s1.hw.works = true)
    ∧ ((s1.hw.chan 0).flt.c.pend = false)
    ∧ ((s1.hw.chan 0).flt.h.pend = false)
    ∧ (s7.hw.works = true)
    ∧ ((s7.hw.chan 0).st = ChSt.active)
    ∧ ((s7.hw.chan 0).flt.c.pend = true)
    ∧ (((s7.hw.chan 0).circ! (s7.hw.chan 0).flt.ccirc).en = true)
    ∧ ((s7.hw.chan 0).map.tpOp = none)
    ∧ (s8.hw.works = true)
    ∧ ((s8.hw.chan 0).st = ChSt.active)
    ∧ ((s8.hw.chan 0).flt.h.pend = true)
    ∧ (s1.hw.dev.fcl.d.pend = false)
    ∧ (s13.hw.works = true)
    ∧ (s13.hw.dev.fcl.d.pend = true)
    ∧ (s9.hw.works = true)
    ∧ ((s9.hw.chan 0).flt.hq.window = true)
    ∧ ((s9.hw.chan 0).flt.hq.done = false)
    ∧ (s10.hw.works = true)
    ∧ ((s10.hw.chan 0).st = ChSt.active)
    ∧ ((s10.hw.chan 0).flt.hq.window = true)
    ∧ ((s10.hw.chan 0).flt.hq.done = true)
    ∧ (∀ (p : Lane), ((s10.hw.chan 0).lane p).txLock = true)
    ∧ ((s10.hw.chan 0).tim.b.unl = false)
    ∧ ((s10.hw.chan 0).tim.r.unl = false)
    ∧ ((s10.hw.chan 0).island = true)
    ∧ (s11.hw.works = true)
    ∧ ((s11.hw.chan 0).st = ChSt.active)
    ∧ ((s11.hw.chan 0).flt.hq.window = true)
    ∧ ((s11.hw.chan 0).flt.hq.done = true)
    ∧ (∀ (p : Lane), ((s11.hw.chan 0).lane p).txLock = true)
    ∧ ((s11.hw.chan 0).tim.b.unl = false)
    ∧ ((s11.hw.chan 0).tim.r.unl = false)
    ∧ ((s11.hw.chan 0).island = false)
    ∧ (s13.hw.dev.fcl.dq.window = true)
    ∧ (s13.hw.dev.fcl.dq.done = false) := by
  and_intros <;> first | decide +kernel | (intro p; cases p <;> decide +kernel)

/-- Every hypothesis of DutyHolderActs is met. -/
theorem test_meets_DutyHolderActs :
    (s1.hw.reaches Master.pf0 = true)
    ∧ (Master.pf0 ≠ s1.hw.dutyOf (Instr.ackC Master.pf0 0 0, 0).2)
    ∧ (s1.hw.reaches Master.isund = true)
    ∧ (Master.isund = s1.hw.dutyOf (Instr.ackC Master.isund 0 5, 0).2)
    ∧ (5 ≠ (s1.hw.chan 0).flt.seq)
    ∧ (0 = (s1.hw.chan 0).flt.seq)
    ∧ (Master.isund = s1.hw.dutyOf 0)
    ∧ (s7.hw.reaches Master.isund = true)
    ∧ (5 = (s7.hw.chan 0).flt.seq)
    ∧ (Master.isund = s7.hw.dutyOf 0)
    ∧ ((s7.hw.chan 0).st = ChSt.active)
    ∧ ((s7.hw.chan 0).flt.c.pend = true)
    ∧ (((s7.hw.chan 0).circ! (s7.hw.chan 0).flt.ccirc).en = true)
    ∧ ((s7.hw.chan 0).map.tpOp = none)
    ∧ (s16.hw.reaches Master.isund = true)
    ∧ (0 = (s16.hw.chan 0).flt.seq)
    ∧ (Master.isund = s16.hw.dutyOf 0)
    ∧ (((s16.hw.chan 0).circ! 1).quar = true)
    ∧ (s16.hw.causePresent (tget ({} : Reaction) (s16.hw.chan 0).flt.cq (1 : CircId).toNat).cause = false)
    ∧ (Master.isund = s1.hw.dutyOf 1)
    ∧ (s8.hw.reaches Master.isund = true)
    ∧ (5 = (s8.hw.chan 0).flt.seq)
    ∧ (Master.isund = s8.hw.dutyOf 1)
    ∧ ((s8.hw.chan 0).st = ChSt.active)
    ∧ ((s8.hw.chan 0).flt.h.pend = true)
    ∧ (s9.hw.reaches Master.isund = true)
    ∧ (5 = (s9.hw.chan 0).flt.seq)
    ∧ (Master.isund = s9.hw.dutyOf 1)
    ∧ ((s9.hw.chan 0).flt.hQuar = true)
    ∧ (s9.hw.causePresent (s9.hw.chan 0).flt.hq.cause = false)
    ∧ (s1.hw.reachesDev Master.pf0 = true)
    ∧ (Master.pf0 ≠ s1.hw.dutyOf 2)
    ∧ (s1.hw.reachesDev Master.isund = true)
    ∧ (Master.isund = s1.hw.dutyOf 2)
    ∧ (5 ≠ s1.hw.dev.fcl.dseq)
    ∧ (0 = s1.hw.dev.fcl.dseq)
    ∧ (s13.hw.reachesDev Master.isund = true)
    ∧ (5 = s13.hw.dev.fcl.dseq)
    ∧ (Master.isund = s13.hw.dutyOf 2)
    ∧ (s13.hw.dev.fcl.d.pend = true)
    ∧ (s14.hw.reachesDev Master.isund = true)
    ∧ (5 = s14.hw.dev.fcl.dseq)
    ∧ (Master.isund = s14.hw.dutyOf 2)
    ∧ (s14.hw.dev.fcl.dQuar = true)
    ∧ (s14.hw.causePresent s14.hw.dev.fcl.dq.cause = false) := by
  and_intros <;> decide +kernel

/-- Every hypothesis of SupervisorActs is met. -/
theorem test_meets_SupervisorActs :
    (s8.hw.works = true)
    ∧ (s8.hw.supervises 1 = true)
    ∧ ((s8.hw.chan 0).flt.h.pend = true)
    ∧ (s8.hw.dev.fcl.pol[1].1 ≠ 1)
    ∧ (s8.hw.dev.fcl.pol[1].1 ≠ 2)
    ∧ (s19.hw.works = true)
    ∧ (s19.hw.supervises 1 = true)
    ∧ ((s19.hw.chan 0).flt.h.pend = true)
    ∧ (s19.hw.dev.fcl.pol[1].1 = 2)
    ∧ (s18.hw.works = true)
    ∧ (s18.hw.supervises 1 = true)
    ∧ ((s18.hw.chan 0).flt.h.pend = true)
    ∧ (s18.hw.dev.fcl.pol[1].1 = 1)
    ∧ ((s18.hw.chan 0).st = ChSt.active)
    ∧ (s11.hw.works = true)
    ∧ (s11.hw.supervises 1 = true)
    ∧ ((s11.hw.chan 0).flt.hQuar = true)
    ∧ ((s11.hw.chan 0).flt.hq.done = true)
    ∧ (s11.hw.causePresent (s11.hw.chan 0).flt.hq.cause = true)
    ∧ (s10.hw.works = true)
    ∧ (s10.hw.supervises 1 = true)
    ∧ ((s10.hw.chan 0).flt.hQuar = true)
    ∧ ((s10.hw.chan 0).flt.hq.done = true)
    ∧ (s10.hw.causePresent (s10.hw.chan 0).flt.hq.cause = false)
    ∧ (s1.hw.works = true)
    ∧ ((s1.hw.chan 0).st = ChSt.active)
    ∧ ((s1.hw.chan 0).mlt.run = true)
    ∧ (s1.hw.dev.isvStall = false)
    ∧ (s25.hw.works = true)
    ∧ (s25.hw.dev.isvStall = true) := by
  and_intros <;> decide +kernel

end P09

namespace P10

/-- A change of the link. -/
def lk (f : Link → Link) (s : State := base) : State := { s with hw := s.hw.onDev fun d => { d with link := f d.link } }
/-- Programmed fuse words. -/
def fs (l : Table Word) : State := dv fun d => { d with fuses := { d.fuses with words := l } }
/-- Midwinter, the link drop over or not. -/
def mwS (b : Bool) : State := { base with hw := (lk fun l => { l with mwUp := b, up := b }).hw.onBoot fun b => { b with st := .midwinter } }
def s1 : State := lk fun l => { l with up := false }
def s2 : State := lk fun l => { l with up := false, training := true }
def s3 : State := lk fun l => { l with debugOn := true }
def s5 : State := fs [(36, 2)]
def s6 : State := mwS false
def s10 : State := bt fun b => { b with st := .fuseSense, inReset := true }
def s11 : State := ch fun x => { x with st := .parked }
def s14 : State := hw fun h => h.onChan 0 fun x => { x with flt := { x.flt with h := { pend := true, msg := 5 } } }
def s15 : State := hw fun h => h.onFcl fun f => { f with d := { pend := true, msg := 5 } }


/-- Every hypothesis of LinkAndFunctions is met. -/
theorem test_meets_LinkAndFunctions :
    (s1.hw.endpointOn = true)
    ∧ (s1.hw.canTrain = true)
    ∧ (s1.hw.dev.link.up = false)
    ∧ (s2.hw.endpointOn = true)
    ∧ (s2.hw.dev.link.training = true)
    ∧ (s2.hw.inMw = false)
    ∧ (base.hw.endpointOn = true)
    ∧ (base.hw.dev.link.up = true)
    ∧ (base.hw.inMw = false)
    ∧ (s6.hw.inMw = true)
    ∧ (s6.hw.dev.link.mwUp = false)
    ∧ (base.hw.works = true)
    ∧ (base.hw.dev.boot.st = BootSt.run)
    ∧ (base.hw.linkOn = true)
    ∧ (Instr.linkDown none none = Instr.linkDown none none ∨ Instr.linkDown none none = Instr.perstN none none)
    ∧ (Instr.perstN none none = Instr.linkDown none none ∨ Instr.perstN none none = Instr.perstN none none) := by
  and_intros <;> decide +kernel

/-- Every hypothesis of DebugAndMatrix is met. -/
theorem test_meets_DebugAndMatrix :
    (base.hw.works = true)
    ∧ (base.hw.debugEnabled = true)
    ∧ (base.hw.dev.link.debugOn = false)
    ∧ (s5.hw.works = true)
    ∧ (s5.hw.debugEnabled = false)
    ∧ (s3.hw.works = true)
    ∧ (s3.hw.dev.link.debugOn = true)
    ∧ (base.hw.dev.link.jtag ≠ JtagOp.debug)
    ∧ (JtagOp.extest ≠ JtagOp.debug ∨ base.hw.debugEnabled = false)
    ∧ (midUsed ↑0 = false)
    ∧ (midUsed ↑5 = true)
    ∧ (s10.hw.dev.boot.inReset = true)
    ∧ (s10.hw.powered = true)
    ∧ (s10.hw.inMw = false)
    ∧ (s10.hw.dev.link.jtag ≠ JtagOp.debug)
    ∧ (JtagOp.extest ≠ JtagOp.debug)
    ∧ (base.hw.reachesDev Master.pf0 = true)
    ∧ (base.hw.lacks Master.pf0 Guard.guarded = false)
    ∧ (base.hw.reachesDev Master.pf1 = true)
    ∧ (base.hw.lacks Master.pf1 Guard.guarded = true)
    ∧ (0 &&& 1 = base.hw.devReg 20500)
    ∧ (base.hw.reachesDev Master.isund = true)
    ∧ (1 &&& 1 ≠ base.hw.devReg 20500)
    ∧ (base.hw.dev.remapSet = false)
    ∧ (Master.pf0 ≠ Master.isund ∨ base.hw.dev.remapSet = true)
    ∧ (273285653 &&& 2147422207 = base.hw.devReg 20516)
    ∧ (277348900 &&& 2147422207 ≠ base.hw.devReg 20516)
    ∧ (base.hw.dev.shareSet = false)
    ∧ (fieldOf 277348900 3 0 + fieldOf 277348900 7 4 + fieldOf 277348900 11 8 = 8)
    ∧ (fieldOf 277348900 20 16 + fieldOf 277348900 25 21 + fieldOf 277348900 30 26 = 16)
    ∧ (0 &&& 2147422207 ≠ base.hw.devReg 20516)
    ∧ (Master.pf0 ≠ Master.isund ∨ base.hw.dev.shareSet = true)
    ∧ (base.hw.linkOn = true)
    ∧ (base.hw.dev.f0.d3 = false)
    ∧ (base.hw.dev.f1.d3 = false) := by
  and_intros <;> decide +kernel

/-- Every hypothesis of RegisterBeats is met. -/
theorem test_meets_RegisterBeats :
    (base.hw.reachesDev Master.pf0 = true)
    ∧ (7 ≠ 15)
    ∧ (base.hw.reaches Master.pf0 = true)
    ∧ ((base.hw.chan 0).st = ChSt.active)
    ∧ (place 1060912 = Place.chan 0 (Instr.mapAuselWrite Master.pf0 0 0, 12336, 4026540031).2.1)
    ∧ (s11.hw.reaches Master.pf0 = true)
    ∧ ((s11.hw.chan 0).st = ChSt.parked) := by
  and_intros <;> decide +kernel

/-- Every hypothesis of EventRegistersFollowSeq is met. -/
theorem test_meets_EventRegistersFollowSeq :
    (fieldOf 0 31 24 = 0)
    ∧ (0 < 24)
    ∧ (4100 ≠ 0)
    ∧ ((base.hw.chan 0).raises = true)
    ∧ (base.hw.reachesDev Master.pf0 = true)
    ∧ (base.hw.lacks Master.pf0 Guard.guarded = false)
    ∧ (place 4100 = Place.dev (4100, 14680064#32).1)
    ∧ (fieldOf 0 31 24 = fieldOf (base.hw.devReg (4100, 14680064#32).1) 31 24)
    ∧ (fieldOf 273285653 31 24 ≠ fieldOf (base.hw.devReg (4100, 14680064#32).1) 31 24)
    ∧ (s14.hw.reaches Master.isund = true)
    ∧ (Master.isund = s14.hw.dutyOf 1)
    ∧ ((s14.hw.chan 0).flt.h.pend = true)
    ∧ (s15.hw.reachesDev Master.isund = true)
    ∧ (Master.isund = s15.hw.dutyOf 2)
    ∧ (s15.hw.dev.fcl.d.pend = true)
    ∧ (base.hw.reaches Master.pf0 = true)
    ∧ ((base.hw.chan 0).st = ChSt.active)
    ∧ (place 1057536 = Place.chan 0 (8960, 16760832#32).1)
    ∧ (fieldOf 0 31 24 = fieldOf (base.hw.chReg 0 (8960, 16760832#32).1) 31 24)
    ∧ (fieldOf 273285653 31 24 ≠ fieldOf (base.hw.chReg 0 (8960, 16760832#32).1) 31 24) := by
  and_intros <;> decide +kernel

end P10

namespace P11

/-- CMD_W0. -/
def wv (op tag chan : Nat) : Word := BitVec.ofNat 32 (op * 2 ^ 24 + tag * 2 ^ 16 + chan)
/-- A submitter's bank. -/
def bk (w0 w1 : Word) (used : Nat := 0) : CmdBank := { w0 := w0, w1 := w1, used := used, cpl := [5, 0x123456789ABCDEF], latch := some 7 }
/-- A queue. -/
def qs (b : CmdBank) (wait run : List Cmd) : CmdQ := { wait := wait, run := run, pf0 := b, pf1 := b, isv := { b with latch := none } }
/-- Both ports of the module in a state. -/
def st (b : CmdBank) (wait : List Cmd := []) (run : List Cmd := []) : State := hw fun h =>
  ((h.onDev fun d => { d with q := qs b wait run }).onChan 0 fun x => { x with q := qs b wait run, mlt := { run := true } }).onChan 2 fun x => { x with st := .absent }
/-- A command of PF1 for a channel. -/
def c2 (op chan : Byte) : Cmd := { cmd op 5 0 0 with chan := chan, by_ := .pf1, tag := 200 }
/-- The functions in a state. -/
def fn (f : FuncSt → FuncSt) : State := dv fun d => { d with f0 := f d.f0, f1 := f d.f1 }
/-- A mailbox selector. -/
def sel (clr g n i : Nat) : Word := BitVec.ofNat 32 (clr * 2 ^ 31 + g * 2 ^ 24 + n * 2 ^ 18 + i)
/-- PF0's mailbox. -/
def cap (s : Word) (v : Option (BitVec 128)) (c : Bool) : State := dv fun d => { d with pf0 := { sel := s, snap := v, capturing := c } }
/-- The flash window. -/
def fw (f : Flw) (cmd : Word) : State := { base with hw := ((base.hw.onDev fun d => { d with flw := f }).setDevReg 0x9004 cmd).setDevReg 0x9008 0x4000 }
/-- A second of performance data. -/
def sec (b e : Nat) (d : Bool) : PmSec := { blocks := b, errored := e, defect := d, feErrored := e / 2, feDefect := !d }
/-- A waiting second. -/
def wt : PmWait := { sec := #v[sec 8000 5 false, sec 8000 5 false, sec 8000 5 true] }
/-- Channel 0 with waiting seconds. -/
def pms (n : Nat) (f : Mlt → Mlt := id) : State := ch fun x => { x with mlt := f { x.mlt with wait := List.replicate n wt } }
/-- Midwinter, its trigger recorded. -/
def mw : State := hw fun h => (h.onFcl fun f => { f with mw := some (5, 6, true) }).onBoot fun b => { b with st := .midwinter }
def s1 : State := st (bk (wv 0 9 0) 0)
def s2 : State := st (bk (wv 0 9 0) 0 40)
def s3 : State := st (bk (wv 0x77 9 0) 0)
def s4 : State := st (bk (wv 0x14 3 2) 0x1FFF)
def s5 : State := st (bk 0 0) [c2 0x00 2, c2 0 0]
def s6 : State := st (bk 0 0) [c2 0x14 2, c2 0 0]
def s7 : State := st (bk 0 0) [] [cmd 0 0 0 0]
def s8 : State := fn fun x => { x with pend := 4, msix := [(11, 0)] }
def s10 : State := cap (sel 1 0x20 0 5) none true
def s11 : State := cap (sel 1 0x20 0 5) (some 44) true
def s12 : State := cap (sel 0 1 63 0) none true
def s13 : State := cap (sel 0 0x7F 0 0) none true
def s15 : State := fw { owner := 1 } 0x05
def s16 : State := fw { owner := 1 } 0x8005
def s17 : State := fw { owner := 1, busy := true, cmd := 0x07 } 0x8005
def s18 : State := fw { owner := 1, busy := true, cmd := 0x8007 } 0x8005
def s19 : State := fw { owner := 1, busy := true, cmd := 0x07, releaseWaits := true } 0x8005
def s21 : State := pms 10
def s22 : State := pms 0 (fun m => { m with run := false })
def v24 : Instr := .mailboxSnapshotClear .pf0 (sel 1 0x20 0 5)


/-- Every hypothesis of CommandPortRuns is met. -/
theorem test_meets_CommandPortRuns :
    (s2.hw.reaches Master.pf0 = true)
    ∧ (submits Master.pf0 = true)
    ∧ (s2.hw.portRuns Port.device = true)
    ∧ (s2.hw.credit Port.device Master.pf0 = 0)
    ∧ (s1.hw.reaches Master.pf0 = true)
    ∧ (s1.hw.portRuns Port.device = true)
    ∧ (s1.hw.credit Port.device Master.pf0 ≠ 0)
    ∧ (s1.hw.judge Port.device ((s1.hw.queue Port.device).bank Master.pf0).w0 (s1.hw.cmdOf Master.pf0 Port.device 0) = none)
    ∧ (s1.hw.judge Port.device ((s1.hw.queue Port.device).bank Master.pf0).w0 (s1.hw.cmdOf Master.pf0 Port.device 7) = some 2)
    ∧ (s3.hw.reaches Master.pf0 = true)
    ∧ (s3.hw.portRuns Port.device = true)
    ∧ ((s3.hw.cmdOf Master.pf0 Port.device 0).op ∉ [0#8, 16, 17, 18, 19, 20, 32, 48, 64, 96, 97, 98])
    ∧ (s4.hw.reaches Master.pf1 = true)
    ∧ (submits Master.pf1 = true)
    ∧ (s4.hw.portRuns Port.device = true)
    ∧ ((s4.hw.cmdOf Master.pf1 Port.device 0).op ∈ [16#8, 17, 18, 19, 20, 32, 48, 64])
    ∧ (s5.hw.works = true)
    ∧ (s5.hw.executes (Port.chan 0) = true)
    ∧ ((s5.hw.chan 0).q.wait = [c2 0 2, c2 0 0])
    ∧ (s5.hw.executes Port.device = true)
    ∧ (s5.hw.dev.q.wait = [c2 0 2, c2 0 0])
    ∧ (isChanOp (c2 0 2).op = false ∨ (c2 0 2).op = 16)
    ∧ (s6.hw.works = true)
    ∧ (s6.hw.executes Port.device = true)
    ∧ (s6.hw.dev.q.wait = [c2 20 2, c2 0 0])
    ∧ (isChanOp (c2 20 2).op = true)
    ∧ ((c2 20 2).op ≠ 16)
    ∧ (BitVec.toNat (c2 20 2).chan = ↑2)
    ∧ ((s6.hw.chan 2).st = ChSt.absent)
    ∧ ((c2 20 2).parent = none)
    ∧ ((c2 20 2).dropped = false)
    ∧ (s7.hw.Runs 0 (fresh 0) (cmd 0 0 0 0))
    ∧ (s1.hw.portReads Master.pf0 Port.device = true)
    ∧ (((s1.hw.queue Port.device).bank Master.pf0).latch = some 7)
    ∧ (s8.hw.reaches Master.pf0 = true)
    ∧ (s8.hw.portReads Master.pf0 Port.device = true)
    ∧ (((s8.hw.queue Port.device).bank Master.pf0).latch = none)
    ∧ (s1.hw.msixReady Func.f0 0 = false)
    ∧ (s8.hw.msixReady Func.f0 2 = true) := by
  and_intros <;> first | decide +kernel | (constructor <;> decide +kernel)

/-- Every hypothesis of MailboxCaptures is met. -/
theorem test_meets_MailboxCaptures :
    (Instr.mailboxSelect Master.pf0 (sel 0 1 63 0) = Instr.mailboxSelect Master.pf0 (sel 0 1 63 0) ∨
      Instr.mailboxSelect Master.pf0 (sel 0 1 63 0) = Instr.mailboxSnapshotClear Master.pf0 (sel 0 1 63 0))
    ∧ (s10.hw.mbxReaches Master.pf0 = true)
    ∧ ((s10.hw.dev.bank Master.pf0).capturing = true)
    ∧ (s1.hw.mbxReaches Master.pf0 = true)
    ∧ ((s1.hw.dev.bank Master.pf0).capturing = false)
    ∧ (bitOf (sel 0 1 63 0) 31 = false)
    ∧ (v24 = Instr.mailboxSelect Master.pf0 (sel 1 32 0 5) ∨ v24 = Instr.mailboxSnapshotClear Master.pf0 (sel 1 32 0 5))
    ∧ (bitOf (sel 1 32 0 5) 31 = true)
    ∧ (Master.pf0 ≠ Master.pf1)
    ∧ (s1.hw.inMw = false)
    ∧ (ctrGroup (fieldOf (sel 1 32 0 5) 30 24) = true)
    ∧ (fieldOf (sel 1 32 0 5) 23 18 = ↑0)
    ∧ (ctrOk (fieldOf (sel 1 32 0 5) 30 24) (fieldOf (sel 1 32 0 5) 17 0) = true)
    ∧ ((s1.hw.chan 0).raises = true)
    ∧ (s11.hw.endpointOn = true)
    ∧ (Master.pf0 ≠ Master.malot)
    ∧ ((s11.hw.dev.bank Master.pf0).capturing = true)
    ∧ (s11.hw.inMw = false)
    ∧ ((s11.hw.dev.bank Master.pf0).snap = some 44)
    ∧ (s12.hw.endpointOn = true)
    ∧ ((s12.hw.dev.bank Master.pf0).capturing = true)
    ∧ (s12.hw.inMw = false)
    ∧ ((s12.hw.dev.bank Master.pf0).snap = none)
    ∧ (fieldOf (s12.hw.dev.bank Master.pf0).sel 30 0 = 33292288)
    ∧ (s13.hw.endpointOn = true)
    ∧ ((s13.hw.dev.bank Master.pf0).capturing = true)
    ∧ (s13.hw.inMw = false)
    ∧ ((s13.hw.dev.bank Master.pf0).snap = none)
    ∧ (s13.hw.mbxVal Master.pf0 (s13.hw.dev.bank Master.pf0).sel = MbxVal.err) := by
  and_intros <;> decide +kernel

/-- Every hypothesis of FlashWindow is met. -/
theorem test_meets_FlashWindow :
    (s1.hw.reaches Master.pf0 = true)
    ∧ (Master.pf0 = Master.pf0 ∨ Master.pf0 = Master.isund)
    ∧ (s1.hw.dev.boot.st = BootSt.run)
    ∧ (s1.hw.dev.flw.owner = 0)
    ∧ (s15.hw.reaches Master.pf0 = true)
    ∧ (s15.hw.dev.boot.st = BootSt.run)
    ∧ (s15.hw.dev.flw.owner ≠ 0)
    ∧ (s15.hw.dev.flw.owner = flwCode Master.pf0)
    ∧ (s15.hw.dev.flw.busy = false)
    ∧ (bitOf (s15.hw.devReg 36868) 15 = false ∨ 20054 = 20054)
    ∧ (s16.hw.reaches Master.pf0 = true)
    ∧ (s16.hw.dev.boot.st = BootSt.run)
    ∧ (s16.hw.dev.flw.owner = flwCode Master.pf0)
    ∧ (s16.hw.dev.flw.busy = false)
    ∧ (bitOf (s16.hw.devReg 36868) 15 = true)
    ∧ (0 ≠ 20054)
    ∧ (s17.hw.reaches Master.pf0 = true)
    ∧ (s17.hw.dev.boot.st = BootSt.run)
    ∧ (s17.hw.dev.flw.owner = flwCode Master.pf0)
    ∧ (s17.hw.dev.flw.busy = true)
    ∧ (s1.hw.works = true)
    ∧ (s1.hw.dev.flw.busy = false)
    ∧ (s17.hw.works = true)
    ∧ (s17.hw.dev.flw.releaseWaits = false)
    ∧ (bitOf s17.hw.dev.flw.cmd 15 = false)
    ∧ (s18.hw.works = true)
    ∧ (s18.hw.dev.flw.busy = true)
    ∧ (s18.hw.dev.flw.releaseWaits = false)
    ∧ (bitOf s18.hw.dev.flw.cmd 15 = true)
    ∧ (s19.hw.works = true)
    ∧ (s19.hw.dev.flw.busy = true)
    ∧ (s19.hw.dev.flw.releaseWaits = true) := by
  and_intros <;> decide +kernel

/-- Every hypothesis of PerformanceCounted is met. -/
theorem test_meets_PerformanceCounted :
    (s22.hw.works = true)
    ∧ ((s22.hw.chan 0).st = ChSt.active)
    ∧ ((s22.hw.chan 0).mlt.run = false)
    ∧ (s1.hw.works = true)
    ∧ ((s1.hw.chan 0).st = ChSt.active)
    ∧ ((s1.hw.chan 0).mlt.run = true)
    ∧ ((s1.hw.chan 0).mlt.wait.length < 10)
    ∧ (s21.hw.works = true)
    ∧ ((s21.hw.chan 0).st = ChSt.active)
    ∧ ((s21.hw.chan 0).mlt.run = true)
    ∧ ((s21.hw.chan 0).mlt.wait = wt :: List.replicate 9 wt)
    ∧ ((List.replicate 9 wt).length = 9)
    ∧ (wt.old = 0)
    ∧ ((s21.hw.chan 0).mlt.unavail[0] = false)
    ∧ ((pmEnd (s21.hw.chan 0).pmEth wt.sec (0 : Fin 6)).ses = false)
    ∧ (Instr.pmIntervalEnd 0 = Instr.pmIntervalEnd 0 ∨
      Instr.pmIntervalEnd 0 = Instr.pmSync Master.pf0 0 ∧ s1.hw.reaches Master.pf0 = true) := by
  and_intros <;> decide +kernel

/-- Every hypothesis of StatesAndRecordsShown is met. -/
theorem test_meets_StatesAndRecordsShown :
    (base.hw.inMw = false)
    ∧ (base.hw.reachesDev Master.pf0 = true)
    ∧ (base.hw.dev.boot.st ≠ BootSt.powerOff)
    ∧ (base.hw.dev.boot.st ≠ BootSt.supplyUp)
    ∧ (mw.hw.inMw = true)
    ∧ (mw.hw.mbxReaches Master.pf0 = true)
    ∧ (mw.hw.dev.fcl.mw = some (5, 6, true))
    ∧ (base.hw.dev.fcl.mw = none)
    ∧ (base.hw.works = true) := by
  and_intros <;> decide +kernel

end P11

end Sys2Proof.Tests
end

section
/-!
PROOF. The bank swap (O30). `Obligations.BankSwaps` speaks of every state, those included whose Circuit Table is not in the canonical
form of Laws/Tables.lean. Its clauses on MAP_SWAP, MAP_SWAP_FORCED and MAP_SKEW_TIMEOUT hold there too; its clause on
TRIB_BANK_SWITCH holds under a table in canonical form, which `tput` keeps (`tableWf_tput`), and fails without it.
-/
namespace Sys2Proof.Machine

/-! ## What stays beside the mapper -/

theorem Hw.Local.refl (h : Hw) (c : ChanId) : h.Local h c := ⟨fun _ _ => rfl, rfl, rfl, rfl, rfl, rfl, rfl, rfl, rfl, rfl⟩

theorem Hw.Local.trans {t u h : Hw} {c : ChanId} (a : t.Local u c) (b : u.Local h c) : t.Local h c where
  others d n := (a.others d n).trans (b.others d n)
  boot := a.boot.trans b.boot
  power := a.power.trans b.power
  fuses := a.fuses.trans b.fuses
  root := a.root.trans b.root
  stn := a.stn.trans b.stn
  sys := a.sys.trans b.sys
  link := a.link.trans b.link
  flw := a.flw.trans b.flw
  now := a.now.trans b.now

theorem Hw.onChan_local (h : Hw) (c : ChanId) (f : Chan → Chan) : (h.onChan c f).Local h c :=
  ⟨fun d n => by simp [n], rfl, rfl, rfl, rfl, rfl, rfl, rfl, rfl, rfl⟩

theorem Hw.notifyOne_local (h : Hw) (c : ChanId) (f : Func) (src : Nat) : (h.notifyOne f src).Local h c := by constructor <;> simp

theorem Hw.chEvent_local (h : Hw) (c : ChanId) (off j : Nat) (fl : Word) : (h.chEvent c off j fl).Local h c := by
  constructor <;> simp +contextual [Hw.chEvent_chan_ne]

theorem Hw.raiseChan_local (h : Hw) (c d : ChanId) (u k n a : Nat) : (h.raiseChan c u k n a).Local h d := by constructor <;> simp

/-- The queues a channel's command can touch: the channel's own, and the device's where it was forwarded from (R445). -/
def nearPort (c : ChanId) (p : Port) : Prop := p = .device ∨ p = .chan c

/-- What a command on channel `c` leaves as it is where it does not move the Slot Map itself: all but the channel, and of the channel
its state, the mapper, the registers of the blocks before the cipher's, and the words of every circuit's entry that hold EN, KIND and
the position. -/
structure Hw.Beside (t h : Hw) (c : ChanId) : Prop where
  here : t.Local h c
  st : (t.chan c).st = (h.chan c).st
  map : (t.chan c).map = (h.chan c).map
  low : ∀ off < 0x5000, (t.chan c).reg off = (h.chan c).reg off
  w0 : ∀ n, (tget {} (t.chan c).circ n).w0 = (tget {} (h.chan c).circ n).w0
  w1 : ∀ n, (tget {} (t.chan c).circ n).w1 = (tget {} (h.chan c).circ n).w1

theorem Hw.Beside.refl (h : Hw) (c : ChanId) : h.Beside h c := ⟨.refl h c, rfl, rfl, fun _ _ => rfl, fun _ => rfl, fun _ => rfl⟩

theorem Hw.Beside.trans {t u h : Hw} {c : ChanId} (a : t.Beside u c) (b : u.Beside h c) : t.Beside h c where
  here := a.here.trans b.here
  st := a.st.trans b.st
  map := a.map.trans b.map
  low off l := (a.low off l).trans (b.low off l)
  w0 n := (a.w0 n).trans (b.w0 n)
  w1 n := (a.w1 n).trans (b.w1 n)

/-- A change of the spines alone, seen from a channel. -/
theorem Hw.Beside.of_chan_eq {t h : Hw} {c : ChanId} (l : t.Local h c) (e : t.chan c = h.chan c) : t.Beside h c := by
  constructor <;> simp [e, l]

theorem Hw.foldl_beside {α : Type} (c : ChanId) (f : Hw → α → Hw) (hf : ∀ h a, (f h a).Beside h c) :
    ∀ (l : List α) (h : Hw), (l.foldl f h).Beside h c
  | [], h => .refl h c
  | a :: l, h => (Hw.foldl_beside c f hf l (f h a)).trans (hf h a)

theorem Hw.ite_beside {p : Prop} [Decidable p] {t u h : Hw} {c : ChanId} (a : p → t.Beside h c) (b : ¬p → u.Beside h c) :
    (if p then t else u).Beside h c := by split <;> simp_all

theorem Hw.notifyOne_beside (h : Hw) (c : ChanId) (f : Func) (src : Nat) : (h.notifyOne f src).Beside h c :=
  .of_chan_eq (h.notifyOne_local c f src) (by simp)

theorem Hw.raiseChan_beside (h : Hw) (c : ChanId) (u k n a : Nat) : (h.raiseChan c u k n a).Beside h c :=
  .of_chan_eq (h.raiseChan_local c c u k n a) (by simp)

theorem Hw.onChan_beside (h : Hw) (c : ChanId) (f : Chan → Chan) (st : (f (h.chan c)).st = (h.chan c).st)
    (map : (f (h.chan c)).map = (h.chan c).map) (low : ∀ off < 0x5000, (f (h.chan c)).reg off = (h.chan c).reg off)
    (circ : (f (h.chan c)).circ = (h.chan c).circ) : (h.onChan c f).Beside h c := by
  constructor <;> simp +contextual [Hw.onChan_local, st, map, low, circ]

theorem Hw.setChReg_beside (h : Hw) (c : ChanId) (off : Nat) (w : Word) (o : 0x5000 ≤ off) : (h.setChReg c off w).Beside h c :=
  h.onChan_beside c _ rfl rfl (fun p l => by rw [Chan.reg_setReg, if_neg (by omega)]) rfl

theorem Hw.chEvent_beside (h : Hw) (c : ChanId) (off j : Nat) (fl : Word) (o : 0x5000 ≤ off) : (h.chEvent c off j fl).Beside h c := by
  refine ⟨h.chEvent_local c off j fl, by simp, by simp, fun p l => ?_, by simp, by simp⟩
  unfold Hw.chEvent
  split <;> simp [Chan.reg_setReg, show p ≠ off by omega]

theorem Hw.onCirc_beside (h : Hw) (c : ChanId) (k : CircId) (f : Circ → Circ) (a : ∀ y, (f y).w0 = y.w0) (b : ∀ y, (f y).w1 = y.w1) :
    (h.onCirc c k f).Beside h c := by
  refine ⟨h.onChan_local c _, by simp, by simp, by simp, fun n => ?_, fun n => ?_⟩ <;>
    · simp only [Hw.onCirc_chan, if_pos, Chan.setCirc, tget_tput]
      split <;> simp_all [Chan.circ!]

theorem Hw.onCtx_beside (h : Hw) (c : ChanId) (n : Nat) (f : Ctx → Ctx) : (h.onCtx c n f).Beside h c :=
  h.onChan_beside c _ rfl rfl (fun _ _ => rfl) rfl

/-- A table whose entries are changed under their keys, seen through a projection that the change leaves. -/
theorem tget_map_keeps {α β : Type} (d : α) (g : Nat × α → Nat × α) (p : α → β) (key : ∀ e, (g e).1 = e.1) (val : ∀ e, p (g e).2 = p e.2)
    (n : Nat) : ∀ t : Table α, p (tget d (t.map g) n) = p (tget d t n)
  | [] => rfl
  | e :: t => by
    simp only [List.map_cons, tget, key]
    split
    · exact val e
    · exact tget_map_keeps d g p key val n t

theorem Hw.onCtxCircs_beside (h : Hw) (c : ChanId) (n : Nat) (f : Circ → Circ) (a : ∀ y, (f y).w0 = y.w0) (b : ∀ y, (f y).w1 = y.w1) :
    (h.onCtxCircs c n f).Beside h c := by
  refine ⟨h.onChan_local c _, by simp [Hw.onCtxCircs], by simp [Hw.onCtxCircs], by simp [Hw.onCtxCircs, Chan.reg], fun m => ?_, fun m => ?_⟩ <;>
    · simp only [Hw.onCtxCircs, Hw.onChan_chan, if_pos]
      refine tget_map_keeps _ _ _ (fun e => ?_) (fun e => ?_) m _ <;> split <;> simp [a, b]

/-! ## Queues beside the mapper -/

theorem Hw.onQueue_beside (h : Hw) {c : ChanId} {p : Port} (near : nearPort c p) (f : CmdQ → CmdQ) : (h.onQueue p f).Beside h c := by
  rcases near with rfl | rfl
  · exact .of_chan_eq (by constructor <;> simp [Hw.onQueue]) rfl
  · exact h.onChan_beside c (fun x => { x with q := f x.q }) rfl rfl (fun _ _ => rfl) rfl

theorem Hw.wmEvent_beside (h : Hw) (c : ChanId) (q : Nat) (fl : Word) : (h.wmEvent c q fl).Beside h c :=
  (Hw.chEvent_beside _ c _ _ _ (by omega)).trans (h.setChReg_beside c _ _ (by omega))

theorem Hw.level_beside (h : Hw) (c : ChanId) (q n : Nat) : (h.level c q n).Beside h c := by
  have level := h.setChReg_beside c (0x60C0 + 4 * q) (BitVec.ofNat 32 (clamp 0 65535 n)) (by omega)
  have peak (h : Hw) (b : Prop) [Decidable b] (w : Word) : (if b then h.setChReg c (0x6080 + 4 * q) w else h).Beside h c :=
    Hw.ite_beside (fun _ => h.setChReg_beside c _ _ (by omega)) fun _ => .refl h c
  have mark (h : Hw) (b : Bool) : (if b then h.wmEvent c q 0x00800000 else h).Beside h c :=
    Hw.ite_beside (fun _ => h.wmEvent_beside c q _) fun _ => .refl h c
  exact (mark _ _).trans ((peak _ _ _).trans level)

theorem Hw.qLevels_beside (h : Hw) {c : ChanId} {p : Port} (near : nearPort c p) : (h.qLevels p).Beside h c := by
  rcases near with rfl | rfl
  · exact .refl h c
  · exact (Hw.level_beside _ c _ _).trans (h.level_beside c _ _)

theorem Hw.deliver_beside (h : Hw) {c : ChanId} {p : Port} (near : nearPort c p) (m : Master) (w : BitVec 64) : (h.deliver p m w).Beside h c := by
  have queued := (Hw.qLevels_beside (h.onQueue p fun q => q.onBank m fun b => { b with cpl := b.cpl ++ [w] }) near).trans (h.onQueue_beside near _)
  refine Hw.ite_beside (fun _ => ?_) fun _ => queued
  cases m with
  | pf0 => exact (Hw.notifyOne_beside _ c _ _).trans queued
  | pf1 => exact (Hw.notifyOne_beside _ c _ _).trans queued
  | _ => exact queued

theorem Hw.kbufDone_beside (h : Hw) (c : ChanId) : h.kbufDone.Beside h c :=
  .of_chan_eq ⟨fun _ _ => rfl, rfl, rfl, rfl, rfl, rfl, rfl, rfl, rfl, rfl⟩ rfl

theorem Hw.complete_beside (h : Hw) (c : ChanId) (x : Cmd) (status reason result : Nat) :
    (h.complete (.chan c) x status reason result).Beside h c := by
  have device : nearPort c .device := .inl rfl
  have own : nearPort c (.chan c) := .inr rfl
  unfold Hw.complete
  split
  · refine (Hw.ite_beside (fun _ => Hw.onQueue_beside _ own _) fun _ => Hw.deliver_beside _ own _ _).trans ?_
    exact Hw.ite_beside (fun _ => h.kbufDone_beside c) fun _ => .refl h c
  · have credit : (h.credited (.chan c) .isund).Beside h c := h.onQueue_beside own _
    dsimp only
    split
    · exact credit
    · refine (Hw.ite_beside (fun _ => Hw.onQueue_beside _ device _) fun _ => Hw.deliver_beside _ device _ _).trans ?_
      refine (Hw.ite_beside (fun _ => Hw.kbufDone_beside _ c) fun _ => .refl _ c).trans ?_
      exact (Hw.onQueue_beside _ device _).trans credit

theorem Hw.finish_beside (h : Hw) (c : ChanId) (sel : Cmd → Bool) (status reason result : Nat) :
    (h.finish (.chan c) sel status reason result).Beside h c :=
  (Hw.qLevels_beside _ (.inr rfl)).trans
    ((Hw.foldl_beside c _ (fun h x => h.complete_beside c x _ _ _) _ _).trans (h.onQueue_beside (.inr rfl) _))

/-! ## Epoch switches and holds beside the mapper -/

theorem Hw.switchDone_beside (h : Hw) (c : ChanId) (n : Nat) : (h.switchDone c n).Beside h c := by
  refine (Hw.finish_beside _ c _ _ _ _).trans ((Hw.chEvent_beside _ c _ _ _ (by omega)).trans ?_)
  refine (Hw.onCtxCircs_beside _ c n _ (fun _ => ?_) fun _ => ?_).trans (h.onCtx_beside c n _)
  all_goals rfl

theorem Hw.switchCheck_beside (h : Hw) (c : ChanId) (n : Nat) : (h.switchCheck c n).Beside h c :=
  Hw.ite_beside (fun _ => h.switchDone_beside c n) fun _ => .refl h c

theorem Hw.rereserve_beside (h : Hw) (c : ChanId) (b : Bool) (k : CircId) : (h.rereserve c b k).Beside h c := by
  refine Hw.ite_beside (fun _ => .refl h c) fun _ => Hw.ite_beside (fun _ => h.onCirc_beside c k _ (fun _ => rfl) fun _ => rfl) fun _ => ?_
  exact (Hw.switchCheck_beside _ c _).trans ((Hw.chEvent_beside _ c _ _ _ (by omega)).trans
    ((Hw.raiseChan_beside _ c _ _ _ _).trans (h.onCirc_beside c k _ (fun _ => rfl) fun _ => rfl)))

theorem Hw.reserve_beside (h : Hw) (c : ChanId) (k : CircId) : (h.reserve c k).Beside h c := by
  refine Hw.ite_beside (fun _ => ?_) fun _ => ?_
  · refine h.onCirc_beside c k _ (fun y => ?_) fun y => ?_ <;> (dsimp only; split <;> rfl)
  · exact (Hw.chEvent_beside _ c _ _ _ (by omega)).trans
      ((Hw.raiseChan_beside _ c _ _ _ _).trans (h.onCirc_beside c k _ (fun _ => rfl) fun _ => rfl))

theorem Hw.retryStarved_beside (h : Hw) (c : ChanId) : (h.retryStarved c).Beside h c :=
  Hw.foldl_beside c _ (fun h _ => Hw.ite_beside (fun _ => h.reserve_beside c _) fun _ => .refl h c) _ h

/-! ## The steps of a swap -/

/-- The mapper after a completed swap (R174). -/
def MapSt.swapped (m : MapSt) : MapSt :=
  { m with
      enc := !m.encWas, dec := !m.encWas, pending := false
      swaps := m.swaps.map fun e => (e.1, { e.2 with encB := !m.encWas, followed := false }) }

/-- What a completed swap leaves of the hardware; the queue is said apart. -/
structure Hw.Swapped (t h : Hw) (c : ChanId) : Prop where
  here : t.Local h c
  map : (t.chan c).map = (h.chan c).map.swapped
  event : (h.chan c).st = .active → (t.chan c).reg 0x3008 = evWord ((h.chan c).reg 0x3008) 0x00800000

theorem Hw.swapDone_swapped (h : Hw) (c : ChanId) (forced : Bool) : (h.swapDone c forced).Swapped h c := by
  let h1 := h.onChan c fun x => { x with map := x.map.swapped }
  have after : (h.swapDone c forced).Beside (h1.evMap c 0x00800000) c :=
    (Hw.retryStarved_beside _ c).trans (Hw.finish_beside _ c _ _ _ _)
  have before : (h1.evMap c 0x00800000).Local h c := (Hw.chEvent_local _ c _ _ _).trans (h.onChan_local c _)
  refine ⟨after.here.trans before, after.map.trans (by simp [Hw.evMap, h1]), fun active => (after.low _ (by omega)).trans ?_⟩
  have raises : (h1.chan c).raises = true := raises_of_active (by simpa [h1] using active)
  rw [Hw.evMap, Hw.chEvent_chan_on _ _ _ _ _ raises, if_pos rfl, Chan.reg_setReg_self]
  simp [h1, Chan.reg]

/-- The channel after its encrypt side has switched as a whole. -/
def Chan.encSwitched (x : Chan) : Chan := { x with map := { x.map with enc := !x.map.encWas } }

@[simp] theorem Chan.encSwitched_fracTribs (x : Chan) : x.encSwitched.fracTribs = x.fracTribs := rfl
@[simp] theorem Chan.encSwitched_map (x : Chan) : x.encSwitched.map = { x.map with enc := !x.map.encWas } := rfl
@[simp] theorem Chan.encSwitched_q (x : Chan) : x.encSwitched.q = x.q := rfl

theorem Hw.swapEnc_cases (h : Hw) (c : ChanId) : h.swapEnc c = h ∨ h.swapEnc c = h.onChan c Chan.encSwitched := by
  unfold Hw.swapEnc
  dsimp only
  split
  · exact .inr rfl
  · exact .inl rfl

/-- A tributary that has not followed keeps the swap PENDING. -/
theorem Hw.swapCheck_of_lagging {h : Hw} {c : ChanId} {pos : Pos} (mem : pos ∈ (h.chan c).fracTribs)
    (lags : (tget ({} : TribSwap) (h.chan c).map.swaps pos.key).followed = false) : h.swapCheck c = h.swapEnc c := by
  have same : ((h.swapEnc c).chan c).fracTribs = (h.chan c).fracTribs ∧ ((h.swapEnc c).chan c).map.swaps = (h.chan c).map.swaps := by
    rcases h.swapEnc_cases c with e | e <;> simp [e]
  have all : ((h.swapEnc c).chan c).fracTribs.all (fun t => (tget ({} : TribSwap) ((h.swapEnc c).chan c).map.swaps t.key).followed) = false := by
    rw [same.1, same.2, List.all_eq_false]
    exact ⟨pos, mem, by simp [lags]⟩
  unfold Hw.swapCheck
  simp only [all, Bool.and_false, Bool.false_eq_true, if_false]

/-- A tributary whose encrypt side has not switched keeps ENC. -/
theorem Hw.swapEnc_of_waiting {h : Hw} {c : ChanId} {pos : Pos} (mem : pos ∈ (h.chan c).fracTribs)
    (waits : (tget ({} : TribSwap) (h.chan c).map.swaps pos.key).encB = (h.chan c).map.encWas) : h.swapEnc c = h := by
  have all : (h.chan c).fracTribs.all (fun t => (tget ({} : TribSwap) (h.chan c).map.swaps t.key).encB == !(h.chan c).map.encWas) = false := by
    rw [List.all_eq_false]
    exact ⟨pos, mem, by simp [waits]⟩
  unfold Hw.swapEnc
  simp only [all, Bool.and_false, Bool.false_eq_true, if_false]

/-- With no fractional tributary a pending swap completes at once (R172; log entries 13 and 61). -/
theorem Hw.swapCheck_of_no_trib {h : Hw} {c : ChanId} (pending : (h.chan c).map.pending = true) (noTrib : (h.chan c).fracTribs = []) :
    h.swapCheck c = (h.onChan c Chan.encSwitched).swapDone c false := by
  have enc : h.swapEnc c = h.onChan c Chan.encSwitched := by simp [Hw.swapEnc, pending, noTrib]; rfl
  simp [Hw.swapCheck, enc, pending, noTrib]

/-! ## The swap is forced, and the far end alone swaps -/

theorem bitOf_evWord (w fl : Word) {i : Nat} (hi : i < 24) : bitOf (evWord w fl) i = (bitOf w i || bitOf fl i) := by
  have mask : (fieldMask 31 24).getLsbD i = false := by
    have : ∀ i < 24, (fieldMask 31 24).getLsbD i = false := by decide
    exact this i hi
  simp only [evWord, withField, bitOf, BitVec.getLsbD_or, BitVec.getLsbD_and, BitVec.getLsbD_not, mask]
  simp [show i < 32 by omega]

/-- MAP_SKEW raises its message and its flag and moves nothing else. -/
theorem Hw.skew_spec {h : Hw} {c : ChanId} (index : Nat) (active : (h.chan c).st = .active) :
    (h.skew c index).Local h c ∧ (h.skew c index).chan c = (h.chan c).setReg 0x3008 (evWord ((h.chan c).reg 0x3008) 0x00400000) := by
  have raises : ((h.raiseChan c 3 clsN 0x12 index).chan c).raises = true := raises_of_active (by simpa using active)
  refine ⟨(Hw.chEvent_local _ c _ _ _).trans (h.raiseChan_local c c _ _ _ _), ?_⟩
  rw [Hw.skew, Hw.evMap, Hw.chEvent_chan_on _ _ _ _ _ raises]
  simp

/-- SWAP_TO after the swap was accepted it is forced, with MAP_SKEW (R174; log entry 79 for ENC). -/
theorem mapSwapForced_completes (s : State) (c : ChanId) (works : s.hw.works = true) (active : (s.hw.chan c).st = .active)
    (pending : (s.hw.chan c).map.pending = true) :
    Completes (.mapSwapForced c) s fun t =>
      (t.chan c).map.enc = !(s.hw.chan c).map.encWas ∧ (t.chan c).map.dec = !(s.hw.chan c).map.encWas ∧ (t.chan c).map.pending = false
      ∧ bitOf (t.chReg c 0x3008) 23 = true ∧ bitOf (t.chReg c 0x3008) 22 = true ∧ t.Local s.hw c := by
  refine .byOnActive c (·.swapForce c) rfl works active ?_
  obtain ⟨skewLocal, skewed⟩ := Hw.skew_spec (s.hw.chan c).lowestLag active
  obtain ⟨here, map, event⟩ := (s.hw.skew c (s.hw.chan c).lowestLag).swapDone_swapped c true
  have forced : s.hw.swapForce c = (s.hw.skew c (s.hw.chan c).lowestLag).swapDone c true := by rw [Hw.swapForce, if_pos pending]
  rw [skewed] at map
  rw [skewed, Chan.setReg_st, Chan.reg_setReg_self] at event
  rw [forced, Hw.chReg, event active, map]
  refine ⟨rfl, rfl, rfl, ?_, ?_, here.trans skewLocal⟩
  · rw [bitOf_evWord _ _ (by omega)]; simp [bitOf]
  · rw [bitOf_evWord _ _ (by omega), bitOf_evWord _ _ (by omega)]; simp [bitOf]

/-- Foreign epochs without a swap raise MAP_SKEW with the tributary's index and change no bank (R175). -/
theorem mapSkewTimeout_completes (s : State) (c : ChanId) (pos : Pos) (works : s.hw.works = true) (active : (s.hw.chan c).st = .active)
    (idle : (s.hw.chan c).map.pending = false) (mem : pos ∈ (s.hw.chan c).fracTribs) :
    Completes (.mapSkewTimeout c pos) s fun t =>
      t.is (s.hw.setChReg c 0x3008 (evWord (s.hw.chReg c 0x3008) 0x00400000))
      ∧ t.tookMsg s.hw (mkMsg c.val 3 clsN 0x12 ((s.hw.chan c).tribIndex pos)) := by
  refine .byOnActive c (fun h => if (h.chan c).map.pending || !(h.chan c).fracTribs.contains pos then h else h.skew c ((h.chan c).tribIndex pos))
    rfl works active ?_
  rw [if_neg (by simp [idle, mem])]
  have raises : (s.hw.chan c).raises = true := raises_of_active active
  refine ⟨?_, ?_⟩
  · rw [Hw.is, Hw.skew, Hw.evMap, Hw.quiet_chEvent _ _ _ _ _ (by simpa using raises)]
    simp [Hw.chReg]
  · obtain ⟨-, notMw, -⟩ := works_parts works
    simp [Hw.tookMsg, Hw.skew, Hw.evMap, Hw.raiseChan, raises, Hw.raiseAny, notMw]

/-! ## A tributary's encrypt side switches -/

theorem tget_mem {α : Type} (d : α) (n : Nat) : ∀ t : Table α, tget d t n ≠ d → (n, tget d t n) ∈ t
  | [], h => absurd rfl h
  | e :: t, h => by
    by_cases k : e.1 = n
    · subst k; simp [tget]
    · simp only [tget, if_neg k] at h ⊢
      exact List.mem_cons_of_mem _ (tget_mem d n t h)

/-- In a table in canonical form every entry is what its key reads. -/
theorem tget_of_mem {α : Type} (d : α) : ∀ {t : Table α} {e : Nat × α}, (t.map (·.1)).Pairwise (· < ·) → e ∈ t → tget d t e.1 = e.2
  | [], _, _, m => absurd m List.not_mem_nil
  | x :: t, e, o, m => by
    obtain ⟨first, rest⟩ := List.pairwise_cons.1 o
    rcases List.mem_cons.1 m with rfl | m
    · simp [tget]
    · have : x.1 ≠ e.1 := (first e.1 (List.mem_map_of_mem m)).ne
      simp only [tget, if_neg this, tget_of_mem d rest m]

theorem Chan.mem_fracTribs {x : Chan} {pos : Pos} :
    pos ∈ x.fracTribs ↔ ∃ e ∈ x.circ, (e.2.en = true ∧ isFrac e.2.kind = true) ∧ e.2.pos = pos := by
  simp only [Chan.fracTribs, List.mem_dedup, List.mem_map, List.mem_filter, Bool.and_eq_true, and_assoc]

/-- What leaves EN, KIND and the position of every circuit keeps a fractional tributary, under a Circuit Table in canonical form. -/
theorem Hw.Beside.mem_fracTribs {t h : Hw} {c : ChanId} {pos : Pos} (b : t.Beside h c) (wf : tableWf {} (h.chan c).circ = true)
    (mem : pos ∈ (h.chan c).fracTribs) : pos ∈ (t.chan c).fracTribs := by
  obtain ⟨e, listed, ⟨en, frac⟩, at_⟩ := Chan.mem_fracTribs.1 mem
  have read : tget {} (h.chan c).circ e.1 = e.2 := tget_of_mem {} ((tableWf_iff _ _).1 wf).1 listed
  have w0 : (tget {} (t.chan c).circ e.1).w0 = e.2.w0 := (b.w0 e.1).trans (by rw [read])
  have w1 : (tget {} (t.chan c).circ e.1).w1 = e.2.w1 := (b.w1 e.1).trans (by rw [read])
  have en' : (tget {} (t.chan c).circ e.1).en = true := by rw [Circ.en, w0]; exact en
  have still : (e.1, tget {} (t.chan c).circ e.1) ∈ (t.chan c).circ := by
    refine tget_mem ({} : Circ) e.1 _ fun unlisted => ?_
    rw [unlisted] at en'
    exact absurd en' (by decide)
  refine Chan.mem_fracTribs.2 ⟨_, still, ⟨en', ?_⟩, ?_⟩
  · rw [Circ.kind, w0]; exact frac
  · rw [Circ.pos, w1]; exact at_

/-- The swap table after a tributary's encrypt side has switched (R172). -/
def MapSt.tribSwitched (m : MapSt) (pos : Pos) : MapSt :=
  { m with swaps := tput {} m.swaps pos.key { tget ({} : TribSwap) m.swaps pos.key with encB := !m.encWas, blocksSince := 0 } }

/-- A tributary's encrypt side switches, and holds are reserved anew; then the swap completes if nothing is left to wait for. -/
theorem Hw.tribSwitch_eq {h : Hw} {c : ChanId} {pos : Pos} (pending : (h.chan c).map.pending = true) (mem : pos ∈ (h.chan c).fracTribs)
    (waits : (tget ({} : TribSwap) (h.chan c).map.swaps pos.key).encB = (h.chan c).map.encWas)
    (apart : 4 ≤ (tget ({} : TribSwap) (h.chan c).map.swaps pos.key).blocksSince) :
    ∃ u : Hw, u.Beside (h.onChan c fun x => { x with map := x.map.tribSwitched pos }) c ∧ h.tribSwitch c pos = u.swapCheck c := by
  refine ⟨_, Hw.foldl_beside c _ (fun h e => ?_) _ _, if_neg ?_⟩
  · exact Hw.ite_beside (fun _ => h.rereserve_beside c _ _) fun _ => .refl h c
  · simp [pending, mem, waits, apart]

/-- A tributary's encrypt side switches at a block boundary at least 4 blocks after its last swap; the swap stays PENDING and the
decrypt side keeps its bank (R172). The Circuit Table is in canonical form. -/
theorem tribBankSwitch_completes (s : State) (c : ChanId) (pos : Pos) (wf : tableWf {} (s.hw.chan c).circ = true)
    (works : s.hw.works = true) (active : (s.hw.chan c).st = .active)
    (pending : (s.hw.chan c).map.pending = true) (mem : pos ∈ (s.hw.chan c).fracTribs)
    (waits : (tget ({} : TribSwap) (s.hw.chan c).map.swaps pos.key).encB = (s.hw.chan c).map.encWas)
    (lags : (tget ({} : TribSwap) (s.hw.chan c).map.swaps pos.key).followed = false)
    (apart : 4 ≤ (tget ({} : TribSwap) (s.hw.chan c).map.swaps pos.key).blocksSince) :
    Completes (.tribBankSwitch c pos) s fun t =>
      tget ({} : TribSwap) (t.chan c).map.swaps pos.key
        = { tget ({} : TribSwap) (s.hw.chan c).map.swaps pos.key with encB := !(s.hw.chan c).map.encWas, blocksSince := 0 }
      ∧ (t.chan c).map.pending = true ∧ (t.chan c).map.dec = (s.hw.chan c).map.dec ∧ t.Local s.hw c := by
  obtain ⟨u, beside, switched⟩ := Hw.tribSwitch_eq pending mem waits apart
  have map : (u.chan c).map = (s.hw.chan c).map.tribSwitched pos := beside.map.trans (by simp)
  have here : u.Local s.hw c := beside.here.trans (s.hw.onChan_local c _)
  have mem' : pos ∈ (u.chan c).fracTribs := beside.mem_fracTribs (by simpa using wf) (by simpa [Chan.fracTribs] using mem)
  have lags' : (tget ({} : TribSwap) (u.chan c).map.swaps pos.key).followed = false := by simpa [map, MapSt.tribSwitched] using lags
  refine .byOnActive c (·.tribSwitch c pos) rfl works active ?_
  rw [switched, Hw.swapCheck_of_lagging mem' lags']
  rcases u.swapEnc_cases c with e | e
  · rw [e, map]
    exact ⟨by simp [MapSt.tribSwitched], pending, rfl, here⟩
  · rw [e, Hw.onChan_chan, if_pos rfl, Chan.encSwitched_map, map]
    exact ⟨by simp [MapSt.tribSwitched], pending, rfl, (u.onChan_local c _).trans here⟩

/-! ## Completions in a channel's queue -/

theorem Hw.onQueue_chan_q (h : Hw) (c : ChanId) (f : CmdQ → CmdQ) : ((h.onQueue (.chan c) f).chan c).q = f (h.chan c).q := by
  simp [Hw.onQueue]

theorem Hw.deliver_chan_q (h : Hw) (c : ChanId) (m : Master) (w : BitVec 64) :
    ((h.deliver (.chan c) m w).chan c).q = (h.chan c).q.onBank m fun b => { b with cpl := b.cpl ++ [w] } := by
  unfold Hw.deliver
  dsimp only
  split
  · cases m <;> simp [Hw.onQueue_chan_q]
  · simp [Hw.onQueue_chan_q]

@[simp] theorem CmdQ.onBank_run (q : CmdQ) (m : Master) (f : CmdBank → CmdBank) : (q.onBank m f).run = q.run := by cases m <;> rfl

/-- The only command that runs is held and meets the test: it completes to its submitter's bank (R444). -/
theorem Hw.finish_only_q {h : Hw} {c : ChanId} {x : Cmd} {sel : Cmd → Bool} (status reason result : Nat) (run : (h.chan c).q.run = [x])
    (held : x.held = true) (meets : sel x = true) (own : x.parent = none) (kept : x.dropped = false) :
    ((h.finish (.chan c) sel status reason result).chan c).q
      = ({ (h.chan c).q with run := [] } : CmdQ).onBank x.by_ fun b =>
          { b with cpl := b.cpl ++ [cplWord x.op x.tag status c.val reason result] } := by
  have out : (h.queue (.chan c)).run.filter (fun x => x.held && sel x) = [x] := by simp [Hw.queue, run, held, meets]
  rw [Hw.finish, out]
  simp [Hw.complete, own, kept, Hw.deliver_chan_q, Hw.onQueue_chan_q, run, held, meets, portChan]

theorem Hw.reserve_q (h : Hw) (c d : ChanId) (k : CircId) : ((h.reserve c k).chan d).q = (h.chan d).q := by
  unfold Hw.reserve
  dsimp only
  split
  · by_cases e : d = c <;> simp [e]
  · by_cases e : d = c <;> simp [e, Hw.evLat]

theorem Hw.retryStarved_q (h : Hw) (c d : ChanId) : ((h.retryStarved c).chan d).q = (h.chan d).q :=
  foldl_keeps _ (fun h => (Hw.chan h d).q) (fun h e => by dsimp only; split <;> simp [Hw.reserve_q]) _ _

theorem Hw.swapDone_q (h : Hw) (c : ChanId) {x : Cmd} (run : (h.chan c).q.run = [x]) (held : x.held = true) (op : x.op = 0x20)
    (own : x.parent = none) (kept : x.dropped = false) :
    ((h.swapDone c false).chan c).q
      = ({ (h.chan c).q with run := [] } : CmdQ).onBank x.by_ fun b => { b with cpl := b.cpl ++ [cplWord x.op x.tag stDone c.val 0 0] } := by
  rw [Hw.swapDone, Hw.retryStarved_q, Hw.finish_only_q (x := x) _ _ _ (by simpa [Hw.evMap] using run) held (by simp [isSwap, op]) own kept]
  simp [Hw.evMap, b2n]

/-! ## A swap is accepted -/

/-- The checks of a MAP_SWAP read the mapper, the circuits and CHn.RCL_CFG alone (R171). -/
theorem Chan.swapRefusal_congr {x y : Chan} (map : x.map = y.map) (circ : x.circ = y.circ) (cfg : x.reg 0x4000 = y.reg 0x4000) :
    x.swapRefusal = y.swapRefusal := by
  have kind : x.kindOf = y.kindOf := by funext z; rw [Chan.kindOf, Chan.geMax, cfg]; rfl
  have admission : x.admission = y.admission := by
    funext b n z
    unfold Chan.admission
    rw [kind]
    cases x; cases y; cases map; cases circ; rfl
  unfold Chan.swapRefusal
  rw [admission]
  cases x; cases y; cases map; cases circ; rfl

/-- A tributary maps under a bank and has not followed. -/
def TribSwap.waits (t : TribSwap) (bank : Bool) : Prop := t.encB = bank ∧ t.followed = false

/-- Arming reaches every tributary it lists, whatever shares its key. -/
theorem armed_waits (bank : Bool) (p : Pos) : ∀ (l : List Pos) (t : Table TribSwap), p ∈ l ∨ (tget ({} : TribSwap) t p.key).waits bank →
    (tget ({} : TribSwap) (l.foldl (fun t p => tput {} t p.key { tget ({} : TribSwap) t p.key with encB := bank, followed := false }) t) p.key).waits bank
  | [], _, h => h.resolve_left List.not_mem_nil
  | q :: l, t, h => by
    refine armed_waits bank p l _ ?_
    rw [tget_tput]
    split
    · exact .inr ⟨rfl, rfl⟩
    · next other =>
      rcases h with m | w
      · exact .inl ((List.mem_cons.1 m).resolve_left fun e => other (by rw [e]))
      · exact .inr w

/-- What an armed swap leaves of the hardware: it is PENDING under the old bank, and its command alone runs and is held. -/
structure Hw.Armed (t h : Hw) (c : ChanId) (x : Cmd) : Prop where
  here : t.Local h c
  map : ∃ (at_ to_ : Nat), (t.chan c).map = { (h.chan c).map with
    pending := true, encWas := (h.chan c).map.enc, acceptedAt := at_, swapTo := to_
    swaps := (h.chan c).fracTribs.foldl
      (fun t p => tput {} t p.key { tget ({} : TribSwap) t p.key with encB := (h.chan c).map.enc, followed := false }) (h.chan c).map.swaps }
  trib : (t.chan c).fracTribs = (h.chan c).fracTribs
  q : (t.chan c).q = { (h.chan c).q with run := [{ x with held := true }] }

/-- An accepted MAP_SWAP arms the swap and completes it if nothing waits (R171, R172). -/
theorem Hw.swapStart_armed {h : Hw} {c : ChanId} {x : Cmd} (run : (h.chan c).q.run = [x]) (op : x.op = 0x20) (begins : x.held = false)
    (idle : (h.chan c).map.pending = false) (ok : (h.chan c).swapRefusal = none) :
    ∃ u : Hw, u.Armed h c x ∧ h.swapStart c = u.swapCheck c := by
  let h1 := (h.onQueue (.chan c) fun q => { q with run := q.run.eraseP (fresh 0x20) }).qLevels (.chan c)
  have meets : fresh 0x20 x = true := by simp [fresh, op, begins]
  have take : h.takeRun (.chan c) (fresh 0x20) = some (x, h1) := by
    simp only [Hw.takeRun, Hw.queue, run, List.find?, meets, h1]
  have beside : h1.Beside h c := (Hw.qLevels_beside _ (.inr rfl)).trans (h.onQueue_beside (.inr rfl) _)
  have circ : (h1.chan c).circ = (h.chan c).circ := by simp [h1, Hw.onQueue]
  have q : (h1.chan c).q = { (h.chan c).q with run := [] } := by
    simp only [h1, Hw.qLevels_chan_q, Hw.onQueue_chan_q, run, List.eraseP_cons_of_pos meets]
  have ok1 : (h1.chan c).swapRefusal = none := (Chan.swapRefusal_congr beside.map circ (beside.low _ (by omega))).trans ok
  have hold : ((h1.onChan c (·.swapArm h1.now)).hold (.chan c) x).Beside (h1.onChan c (·.swapArm h1.now)) c :=
    (Hw.qLevels_beside _ (.inr rfl)).trans (Hw.onQueue_beside _ (.inr rfl) _)
  have trib : (h1.chan c).fracTribs = (h.chan c).fracTribs := by simp only [Chan.fracTribs, circ]
  refine ⟨(h1.onChan c (·.swapArm h1.now)).hold (.chan c) x, ⟨?_, ?_, ?_, ?_⟩, ?_⟩
  · exact hold.here.trans ((h1.onChan_local c _).trans beside.here)
  · refine ⟨h1.now, clamp 1 1000 (fieldOf ((h1.chan c).reg 0x3000) 9 0), hold.map.trans ?_⟩
    simp [Chan.swapArm, beside.map, trib]
  · simp [Hw.hold, Hw.onQueue, Chan.swapArm, Chan.fracTribs, circ]
  · simp [Hw.hold, Hw.onQueue, Chan.swapArm, q]
  · rw [Hw.swapStart, Hw.carry, take]
    simp [beside.map, idle, ok1]

/-- MAP_SWAP, accepted: with no fractional tributary both directions take the other bank at once and it completes DONE; with one the
swap is PENDING under the old bank (R171, R172; log entries 13 and 61). -/
theorem mapSwap_completes (s : State) (c : ChanId) (x : Cmd) (works : s.hw.works = true) (executes : s.hw.executes (.chan c) = true)
    (run : (s.hw.chan c).q.run = [x]) (op : x.op = 0x20) (begins : x.held = false) (own : x.parent = none) (kept : x.dropped = false)
    (idle : (s.hw.chan c).map.pending = false) (ok : (s.hw.chan c).swapRefusal = none) :
    Completes (.mapSwap c) s fun t =>
      ((s.hw.chan c).fracTribs = [] →
        (t.chan c).map.enc = !(s.hw.chan c).map.enc ∧ (t.chan c).map.dec = !(s.hw.chan c).map.enc ∧ (t.chan c).map.pending = false
        ∧ (t.chan c).q.run = [] ∧ ((t.chan c).q.bank x.by_).cpl = ((s.hw.chan c).q.bank x.by_).cpl ++ [cplWord 0x20 x.tag stDone c.val 0 0])
      ∧ ((s.hw.chan c).fracTribs ≠ [] →
        (t.chan c).map.enc = (s.hw.chan c).map.enc ∧ (t.chan c).map.dec = (s.hw.chan c).map.dec ∧ (t.chan c).map.pending = true
        ∧ (t.chan c).q.run = [{ x with held := true }])
      ∧ (t.chan c).map.bankA = (s.hw.chan c).map.bankA ∧ (t.chan c).map.bankB = (s.hw.chan c).map.bankB ∧ t.Local s.hw c := by
  have active : (s.hw.chan c).st = .active := by simp_all [Hw.executes, Chan.isActive]
  obtain ⟨u, ⟨here, ⟨at_, to_, map⟩, trib, q⟩, start⟩ := Hw.swapStart_armed run op begins idle ok
  refine .byOnActive c (·.swapStart c) rfl works active ?_
  rw [start]
  rcases tribs : (s.hw.chan c).fracTribs with _ | ⟨pos, rest⟩
  · let v := u.onChan c Chan.encSwitched
    have done : u.swapCheck c = v.swapDone c false := Hw.swapCheck_of_no_trib (by rw [map]) (trib.trans tribs)
    obtain ⟨here', map', -⟩ := v.swapDone_swapped c false
    have q' := v.swapDone_q c (x := { x with held := true }) (by simp [v, q]) rfl op own kept
    have mapV : (v.chan c).map.encWas = (s.hw.chan c).map.enc ∧ (v.chan c).map.bankA = (s.hw.chan c).map.bankA
        ∧ (v.chan c).map.bankB = (s.hw.chan c).map.bankB := by simp [v, map]
    obtain ⟨was, bankA, bankB⟩ := mapV
    rw [done, map', q']
    refine ⟨fun _ => ⟨?_, ?_, rfl, by simp, ?_⟩, fun n => absurd rfl n, bankA, bankB, here'.trans ((u.onChan_local c _).trans here)⟩
    · simp [MapSt.swapped, was]
    · simp [MapSt.swapped, was]
    · cases x.by_ <;> simp [v, q, op, CmdQ.bank, CmdQ.onBank]
  · have mem : pos ∈ (s.hw.chan c).fracTribs := by simp [tribs]
    have waits : (tget ({} : TribSwap) (u.chan c).map.swaps pos.key).waits (s.hw.chan c).map.enc := by
      rw [map]; exact armed_waits _ pos _ _ (.inl mem)
    have was : (u.chan c).map.encWas = (s.hw.chan c).map.enc := by rw [map]
    rw [← trib] at mem
    rw [Hw.swapCheck_of_lagging mem waits.2, Hw.swapEnc_of_waiting mem (waits.1.trans was.symm), map, q]
    exact ⟨fun n => absurd n (by simp), fun _ => ⟨rfl, rfl, rfl, rfl⟩, rfl, rfl, here⟩

/-! ## A Circuit Table with a hidden entry -/

/-- A Circuit Table that lists circuit 0 twice: disabled, and behind that as an enabled E1 sub-circuit of the first tributary. No read
sees the second entry; `Chan.fracTribs` and the fold of `Hw.tribSwitch` do. -/
def hiddenTable : Table Circ := [(0, { eseqE := 1 }), (0, { w0 := 0xA0000000 })]

/-- The module in RUN with its channels ACTIVE under a Circuit Table, and a swap PENDING. -/
def swapState (t : Table Circ) : State :=
  { pending := []
    hw := {
      dev := { boot := { st := .run } }
      chans := Vector.replicate 48 { st := .active, circ := t, map := { pending := true } } } }

theorem hiddenTable_not_wf : tableWf ({} : Circ) hiddenTable = false := by decide

/-- Where circuit 0 is written its hidden entry goes, no fractional tributary is left to follow, and the swap completes. -/
theorem tribSwitch_hiddenTable_not_pending : (((swapState hiddenTable).hw.tribSwitch 0 (posOf 0)).chan 0).map.pending = false := by decide +kernel

/-- A state meets the hypotheses of `tribBankSwitch_completes`, the canonical form included. -/
theorem tribBankSwitch_completes_met : ∃ (s : State) (c : ChanId) (pos : Pos), tableWf {} (s.hw.chan c).circ = true ∧ s.hw.works = true
    ∧ (s.hw.chan c).st = .active ∧ (s.hw.chan c).map.pending = true ∧ pos ∈ (s.hw.chan c).fracTribs
    ∧ (tget ({} : TribSwap) (s.hw.chan c).map.swaps pos.key).encB = (s.hw.chan c).map.encWas
    ∧ (tget ({} : TribSwap) (s.hw.chan c).map.swaps pos.key).followed = false
    ∧ 4 ≤ (tget ({} : TribSwap) (s.hw.chan c).map.swaps pos.key).blocksSince := by
  refine ⟨swapState [(0, { w0 := 0xA0000000 })], 0, posOf 0, ?_⟩
  and_intros <;> decide

theorem exec_tribBankSwitch {s : State} {c : ChanId} {pos : Pos} (works : s.hw.works = true) (active : (s.hw.chan c).st = .active) :
    exec (.tribBankSwitch c pos) s = .next { s with hw := s.hw.tribSwitch c pos } :=
  onActive_on (f := (·.tribSwitch c pos)) works active

/-- Refutes O30: the clause on TRIB_BANK_SWITCH lacks the hypothesis that the Circuit Table is in canonical form (`tableWf`). In
`swapState hiddenTable` the swap that should stay PENDING completes. With that hypothesis the clause is `tribBankSwitch_completes`; the other
three hold as they stand: `mapSwap_completes`, `mapSwapForced_completes`, `mapSkewTimeout_completes`. -/
theorem not_bankSwaps : ¬ Obligations.BankSwaps := by
  unfold Obligations.BankSwaps
  rintro ⟨-, switch, -⟩
  obtain ⟨t, run, -, -, pending, -⟩ :=
    switch (swapState hiddenTable) 0 (posOf 0) (by decide) (by decide) (by decide) (by decide) (by decide) (by decide) (by decide)
  rw [exec_tribBankSwitch (by decide) (by decide)] at run
  cases run
  exact absurd pending (by simp [tribSwitch_hiddenTable_not_pending])

end Sys2Proof.Machine
end

section
/-!
PROOF. What is seen (O59): reads of DEV.CH_STATE_g and DEV.FCL_MW, the trigger that DEV.FCL_MW keeps, and FAULT_N.
-/
namespace Sys2Proof.Machine

/-! ## A word of eight nibbles -/

theorem word_nibbles {n : Nat} (f : Fin n → Nat) :
    word ((List.finRange n).map fun k => (f k, 4 * k.val)) = BitVec.ofNat 32 (Nat.ofDigits 16 (List.ofFn f)) := by
  rw [word, Nat.ofDigits_eq_sum_mapIdx]
  have digits : ((List.finRange n).map fun k => (f k, 4 * k.val)).map (fun e => e.1 * 2 ^ e.2) = (List.ofFn f).mapIdx fun i a => a * 16 ^ i :=
    List.ext_getElem (by simp) fun i _ _ => by simp [pow_mul]
  rw [digits]

theorem fieldOf_word_nibbles (f : Fin 8 → Nat) (nibble : ∀ k, f k < 16) (k : Fin 8) :
    fieldOf (word ((List.finRange 8).map fun k => (f k, 4 * k.val))) (4 * k.val + 3) (4 * k.val) = f k := by
  have digit : ∀ a ∈ List.ofFn f, a < 16 := List.forall_mem_ofFn_iff.mpr nibble
  have fits : Nat.ofDigits 16 (List.ofFn f) < 2 ^ 32 := by
    simpa using Nat.ofDigits_lt_base_pow_length (by decide) digit
  have width : 4 * k.val + 3 + 1 - 4 * k.val = 4 := by omega
  have weight : 2 ^ (4 * k.val) = 16 ^ k.val := pow_mul 2 4 k.val
  rw [word_nibbles, fieldOf, BitVec.toNat_ofNat, Nat.mod_eq_of_lt fits, width, weight,
    Nat.ofDigits_div_pow_eq_ofDigits_drop k.val (by decide) _ digit, List.drop_eq_getElem_cons (by simp), Nat.ofDigits_cons,
    List.getElem_ofFn]
  exact (Nat.add_mul_mod_self_left _ _ _).trans (Nat.mod_eq_of_lt (nibble k))

/-! ## Reads of device registers without fields to hide -/

theorem place_devAddr {off : Nat} (space : off < 0x10000) : place (devAddr off) = .dev (devOff off) := by
  have lo : (devAddr off).toNat = off := by simp [devAddr]; omega
  have dev : off / 0x10000 = 0 := Nat.div_eq_of_lt space
  simp [place, lo, dev, Nat.mod_eq_of_lt space]

theorem Hw.read_devAddr {h : Hw} {m : Master} {off : Nat} (space : off < 0x10000) (canon : devOff off = off) (w : h.inMw = false)
    (r : h.reachesDev m = true) : h.read m (devAddr off) = h.devRead m off := by
  simp [Hw.read, place_devAddr space, canon, w, r]

theorem Hw.read_devAddr_inMw {h : Hw} {m : Master} {off : Nat} (space : off < 0x10000) (canon : devOff off = off) (w : h.inMw = true)
    (r : h.mbxReaches m = true) (answers : mwReads off = true) : h.read m (devAddr off) = h.devRead m off := by
  simp [Hw.read, place_devAddr space, canon, w, r, answers]

theorem Hw.lacks_plain (h : Hw) (m : Master) : h.lacks m .plain = false := by cases m <;> simp [Hw.lacks]

theorem RegDef.shown_readOnly {r : RegDef} (readOnly : r.flds = []) (m : Master) (w : Word) : r.shown m w = w := by
  have mask (p : Acc → Bool) : maskOf r p = 0#32 := by simp [maskOf, readOnly]
  simp only [RegDef.shown, mask, BitVec.ofNat_eq_ofNat, ite_self, BitVec.not_zero, BitVec.and_allOnes]

/-- An unguarded register whose fields are all read-only shows its view to every master. -/
theorem Hw.devRead_readOnly (h : Hw) (m : Master) {off : Nat} {r : RegDef} (listed : findReg devRegs off = some r)
    (plain : r.guarded = false) (readOnly : r.flds = []) : h.devRead m off = h.devView m off := by
  simp [Hw.devRead, listed, RegDef.guard, plain, Hw.lacks_plain, RegDef.shown_readOnly readOnly]

/-! ## DEV.CH_STATE_g (R417) -/

theorem devOff_chState (g : Fin 6) : devOff (0x10A0 + 4 * g.val) = 0x10A0 + 4 * g.val := by decide +revert

theorem findReg_chState (g : Fin 6) : findReg devRegs (0x10A0 + 4 * g.val) = some ⟨0x10A0, 6, 0x4, 0x0, [], false, 0x0⟩ := by
  decide +revert

theorem ChSt.code_lt (st : ChSt) : st.code < 16 := by cases st <;> decide

/-- Field `k` of DEV.CH_STATE_g holds the code of channel 8g + k. -/
theorem Hw.pwrView_chState (h : Hw) (g : Fin 6) : h.pwrView (0x10A0 + 4 * g.val) =
    word ((List.finRange 8).map fun k => ((h.chan ⟨8 * g.val + k.val, by omega⟩).st.code, 4 * k.val)) := by
  have lane (k : Fin 8) : (8 * g.val + k.val) % 8 = k.val := by omega
  unfold Hw.pwrView
  rw [if_neg (by omega), if_neg (by omega), if_neg (by omega), if_neg (by omega), dif_neg (by omega), dif_pos (by omega)]
  simp [groupChans, lane, Function.comp_def]

theorem Hw.read_chState {h : Hw} {m : Master} (g : Fin 6) (w : h.inMw = false) (r : h.reachesDev m = true) :
    h.read m (devAddr (0x10A0 + 4 * g.val)) =
      word ((List.finRange 8).map fun k => ((h.chan ⟨8 * g.val + k.val, by omega⟩).st.code, 4 * k.val)) := by
  rw [Hw.read_devAddr (by omega) (devOff_chState g) w r, h.devRead_readOnly m (findReg_chState g) rfl rfl, Hw.devView, if_neg (by omega),
    if_pos (by omega), h.pwrView_chState]

/-! ## DEV.FCL_MW (R374) -/

/-- What DEV.FCL_MW shows. -/
theorem Hw.devRead_fclMw (h : Hw) (m : Master) : h.devRead m 0x4014 = match h.dev.fcl.mw with
    | none => 0
    | some (src, kind, inj) => word [(b2n h.inMw, 31), (b2n inj, 20), (src.toNat, 8), (kind.toNat, 0)] := by
  rw [h.devRead_readOnly m (r := ⟨0x4014, 1, 0x4, 0x0, [], false, 0x0⟩) (by decide) rfl rfl]
  rfl

/-- The first trigger stays; only where there was none does Midwinter record its own. -/
theorem Hw.midwinter_mw {h : Hw} (v : BitVec 64) (ts : BitVec 40) (n : Nat) (a : h.dev.boot.st ≠ .powerOff) (b : h.dev.boot.st ≠ .supplyUp)
    (w : h.inMw = false) : (h.midwinter v ts n).dev.fcl.mw = match h.dev.fcl.mw with
      | some first => some first
      | none => some (BitVec.ofNat 12 (msgSrc v), BitVec.ofNat 8 (msgKind v), msgInj v) := by
  have w' : h.dev.boot.st ≠ .midwinter := by simpa [Hw.inMw] using w
  unfold Hw.midwinter
  rw [if_neg (by simp [a, b, w'])]
  cases mw : h.dev.fcl.mw <;> simp [Hw.log, Fcl.log, mw]

/-! ## FAULT_N (R368) -/

theorem Hw.drives_iff (h : Hw) (r : Rec) : h.drives r = true ↔ r.pend = true ∧ (msgInj r.msg = false ∨ h.injReact = true) := by
  simp [Hw.drives]

/-- The second bit of a channel's summary: the channel or one of its circuits is quarantined. -/
theorem Chan.csumBits_snd_iff (x : Chan) : x.csumBits.2 = true ↔ x.flt.hQuar = true ∨ ∃ e ∈ x.circ, e.2.quar = true := by
  simp [Chan.csumBits]

theorem Hw.anyFault_iff (h : Hw) : h.anyFault = true ↔ h.drives h.dev.fcl.d = true ∨ h.dev.fcl.dQuar = true ∨ ∃ c : ChanId,
    h.drives (h.chan c).flt.c = true ∨ h.drives (h.chan c).flt.h = true ∨ (h.chan c).csumBits.2 = true := by
  simp [Hw.anyFault, allChans, or_assoc]

theorem Hw.pinFault_inMw {h : Hw} (w : h.inMw = true) : h.pinFault = .low := by simp [Hw.pinFault, w]

theorem Hw.pinFault_low_iff {h : Hw} (w : h.works = true) (u : h.dev.boot.st ≠ .supplyUp) : h.pinFault = .low ↔ h.anyFault = true := by
  obtain ⟨-, running, -⟩ := works_parts w
  simp [Hw.pinFault, running, w, u]

/-- Settles O59: each register's read goes through `Hw.devRead_readOnly`, the states of a group are the nibbles of one word, and FAULT_N
is low exactly under `Hw.anyFault`. -/
theorem statesAndRecordsShown : Obligations.StatesAndRecordsShown := by
  unfold Obligations.StatesAndRecordsShown
  refine ⟨fun h m g k w r => ?_, rfl, fun h v ts n a b w => ⟨(h.midwinter_by v ts n a b w).entered, Hw.midwinter_mw v ts n a b w⟩,
    fun h m src kind inj w r mw => ?_, fun h m r w mw => ?_, fun h w => Hw.pinFault_inMw w, fun h w u => ?_⟩
  · rw [Hw.read_chState g w r, fieldOf_word_nibbles _ (fun _ => ChSt.code_lt _)]
    rfl
  · rw [Hw.read_devAddr_inMw (by decide) (by decide) w r (by decide), Hw.devRead_fclMw, mw, w]
    simp [word, b2n, Nat.add_assoc]
  · rw [Hw.read_devAddr (by decide) (by decide) w r, Hw.devRead_fclMw, mw]
  · simp only [Hw.pinFault_low_iff w u, Hw.anyFault_iff, Hw.drives_iff, Chan.csumBits_snd_iff]

end Sys2Proof.Machine
end

section
/-!
PROOF. Event registers (O54, R430): a hardware event advances SEQ; a write clears by SEQ, or is stale and flagged; an accepted
acknowledgement advances the SEQ of a record register.
-/
namespace Sys2Proof.Machine

/-! ## Words -/

/-- SEQ of an event word. -/
theorem fieldOf_seq (w : Word) : fieldOf w 31 24 = (w.extractLsb' 24 8).toNat := by
  simp [fieldOf, Nat.shiftRight_eq_div_pow]

theorem extractLsb'_not_seq (w : Word) : (~~~ w).extractLsb' 24 8 = ~~~ w.extractLsb' 24 8 := by
  ext i hi
  simp [show 24 + i < 32 by omega]

theorem fieldOf_withField_seq (w : Word) (v : Nat) : fieldOf (withField w 31 24 v) 31 24 = v % 256 := by
  have mask : (fieldMask 31 24).extractLsb' 24 8 = BitVec.allOnes 8 := by decide
  have bits : (withField w 31 24 v).extractLsb' 24 8 = (BitVec.ofNat 32 (v * 2 ^ 24)).extractLsb' 24 8 := by
    rw [withField, BitVec.extractLsb'_or, BitVec.extractLsb'_and, BitVec.extractLsb'_and, extractLsb'_not_seq, mask, BitVec.not_allOnes,
      BitVec.and_zero, BitVec.zero_or, BitVec.and_allOnes]
  rw [fieldOf_seq, bits, ← fieldOf_seq, fieldOf, BitVec.toNat_ofNat]
  omega

/-- R430: an event advances SEQ by 1 modulo 256, whatever flags it sets. -/
theorem fieldOf_evWord (w flags : Word) : fieldOf (evWord w flags) 31 24 = (fieldOf w 31 24 + 1) % 256 :=
  fieldOf_withField_seq _ _

/-- Clearing flags below bit 24 leaves SEQ. -/
theorem fieldOf_clear {mask : Word} (below : mask.extractLsb' 24 8 = 0) (w d : Word) :
    fieldOf (w &&& ~~~ (d &&& mask)) 31 24 = fieldOf w 31 24 := by
  rw [fieldOf_seq, fieldOf_seq, BitVec.extractLsb'_and, extractLsb'_not_seq, BitVec.extractLsb'_and, below, BitVec.ofNat_eq_ofNat,
    BitVec.and_zero, BitVec.not_zero, BitVec.and_allOnes]

/-! ## What a write to an event register leaves -/

/-- A write to an event register changes of a channel no more than its registers, and of the spines neither the collector nor what
`Hw.Local` keeps: their registers and the writer's bank are left to move. -/
structure Hw.RegsOnly (t h : Hw) : Prop where
  chan : ∀ c : ChanId, ∃ regs, t.chan c = { h.chan c with regs := regs }
  fcl : t.dev.fcl = h.dev.fcl
  boot : t.dev.boot = h.dev.boot
  power : t.dev.power = h.dev.power
  fuses : t.dev.fuses = h.dev.fuses
  root : t.dev.root = h.dev.root
  stn : t.dev.stn = h.dev.stn
  sys : t.dev.sys = h.dev.sys
  link : t.dev.link = h.dev.link
  flw : t.dev.flw = h.dev.flw
  now : t.now = h.now

theorem Hw.RegsOnly.trans {t u h : Hw} (a : t.RegsOnly u) (b : u.RegsOnly h) : t.RegsOnly h where
  chan c := by
    obtain ⟨regs, e⟩ := a.chan c
    obtain ⟨_, e'⟩ := b.chan c
    exact ⟨regs, by rw [e, e']⟩
  fcl := a.fcl.trans b.fcl
  boot := a.boot.trans b.boot
  power := a.power.trans b.power
  fuses := a.fuses.trans b.fuses
  root := a.root.trans b.root
  stn := a.stn.trans b.stn
  sys := a.sys.trans b.sys
  link := a.link.trans b.link
  flw := a.flw.trans b.flw
  now := a.now.trans b.now

theorem Hw.RegsOnly.toLocal {t h : Hw} {c : ChanId} (a : t.RegsOnly h) (others : ∀ d : ChanId, d ≠ c → t.chan d = h.chan d) : t.Local h c :=
  ⟨others, a.boot, a.power, a.fuses, a.root, a.stn, a.sys, a.link, a.flw, a.now⟩

theorem Hw.bmx_regsOnly (h : Hw) (mid which : Nat) : (h.bmx mid which).RegsOnly h := by
  constructor <;> simp
  exact fun c => ⟨(h.chan c).regs, rfl⟩

theorem Hw.ignored_regsOnly (h : Hw) (m : Master) (w : WFlag) (a : BitVec 22) : (h.ignored m w a).RegsOnly h := by
  constructor <;> simp
  exact fun c => ⟨(h.chan c).regs, rfl⟩

theorem Hw.setDevReg_regsOnly (h : Hw) (off : Nat) (w : Word) : (h.setDevReg off w).RegsOnly h := by
  constructor <;> simp
  exact fun c => ⟨(h.chan c).regs, rfl⟩

theorem Hw.setChReg_regsOnly (h : Hw) (c : ChanId) (off : Nat) (w : Word) : (h.setChReg c off w).RegsOnly h := by
  refine ⟨fun d => ?_, rfl, rfl, rfl, rfl, rfl, rfl, rfl, rfl, rfl, rfl⟩
  rw [Hw.setChReg_chan]
  split
  next e => subst e; exact ⟨_, rfl⟩
  next => exact ⟨_, rfl⟩

/-! `asWritten` keeps the offset a write was made at, and nothing else. -/

theorem Hw.asWritten_cases (h h0 : Hw) (m : Master) (a : BitVec 22) :
    h.asWritten h0 m a = h ∨ h.asWritten h0 m a = h.onDev (·.onBank m fun b => { b with waddr := a }) := by
  unfold Hw.asWritten
  split
  · exact .inl rfl
  · exact .inr rfl

@[simp] theorem Hw.asWritten_chan (h h0 : Hw) (m : Master) (a : BitVec 22) (c : ChanId) : (h.asWritten h0 m a).chan c = h.chan c := by
  obtain e | e := h.asWritten_cases h0 m a <;> simp [e]

@[simp] theorem Hw.asWritten_devReg (h h0 : Hw) (m : Master) (a : BitVec 22) (o : Nat) : (h.asWritten h0 m a).devReg o = h.devReg o := by
  obtain e | e := h.asWritten_cases h0 m a <;> simp [e, Hw.devReg]

@[simp] theorem Hw.asWritten_wflags (h h0 : Hw) (m : Master) (a : BitVec 22) :
    ((h.asWritten h0 m a).dev.bank m).wflags = (h.dev.bank m).wflags := by
  obtain e | e := h.asWritten_cases h0 m a <;> simp [e]

theorem Hw.asWritten_regsOnly (h h0 : Hw) (m : Master) (a : BitVec 22) : (h.asWritten h0 m a).RegsOnly h := by
  obtain e | e := h.asWritten_cases h0 m a <;> rw [e] <;> constructor <;> simp
  all_goals exact fun c => ⟨(h.chan c).regs, rfl⟩

/-! ## The record registers stand where nothing they show changes -/

theorem Hw.RegsOnly.causePresent {t h : Hw} (k : t.RegsOnly h) (m : BitVec 64) : t.causePresent m = h.causePresent m := by
  have lane (c : ChanId) (p : Lane) : (t.chan c).lane p = (h.chan c).lane p := by
    obtain ⟨regs, e⟩ := k.chan c
    cases p <;> simp only [Chan.lane, e]
  have syn (c : ChanId) (r : Bool) : (t.chan c).syn r = (h.chan c).syn r := by
    obtain ⟨regs, e⟩ := k.chan c
    simp only [Chan.syn, e]
  have island (c : ChanId) : (t.chan c).island = (h.chan c).island := by
    obtain ⟨regs, e⟩ := k.chan c
    simp only [e]
  simp only [Hw.causePresent, k.root, k.power, lane, syn, island]

theorem Hw.settleChan_same {t h : Hw} (k : t.RegsOnly h) (c : ChanId) : t.settleChan h c = t := by
  obtain ⟨regs, e⟩ := k.chan c
  have record : t.recView c = h.recView c := by simp only [Hw.recView, e, k.causePresent]
  have quar : (t.chan c).quarView = (h.chan c).quarView := by rw [e]; rfl
  simp [Hw.settleChan, record, quar]

theorem Hw.settleSum_same {t h : Hw} (k : t.RegsOnly h) (g : Fin 6) : t.settleSum h g = t := by
  have bits (c : ChanId) : (t.chan c).csumBits = (h.chan c).csumBits := by
    obtain ⟨regs, e⟩ := k.chan c
    rw [e]
    rfl
  simp [Hw.settleSum, bits]

/-- A command that moves registers alone moves no record register. -/
theorem Hw.settle_same {t h : Hw} (k : t.RegsOnly h) (cs : List ChanId)
    (seq : ∀ g < 6, t.devField (0x10C0 + 4 * g) 31 24 = h.devField (0x10C0 + 4 * g) 31 24) : t.settle h cs = t := by
  have record : t.drecView = h.drecView := by simp only [Hw.drecView, k.fcl, k.causePresent]
  unfold Hw.settle
  simp only [Hw.oneChange_same t h seq, List.foldl_fixed' (f := fun u c => Hw.settleChan u h c) (Hw.settleChan_same k), record, if_true,
    List.foldl_fixed' (f := fun u g => Hw.settleSum u h g) (Hw.settleSum_same k)]

theorem Hw.works_of_reaches {h : Hw} {m : Master} (r : h.reaches m = true) : h.works = true := by
  simp only [Hw.reaches, Bool.and_eq_true] at r
  exact r.1

theorem Hw.reaches_of_reachesDev {h : Hw} {m : Master} (r : h.reachesDev m = true) : h.reaches m = true := by
  simp only [Hw.reachesDev, Bool.and_eq_true] at r
  exact r.1

theorem exec_eventClear {s : State} {m : Master} {a : BitVec 22} {d : Word} (works : s.hw.works = true)
    (k : (s.hw.write m a 0xF d).RegsOnly s.hw)
    (seq : ∀ g < 6, (s.hw.write m a 0xF d).devField (0x10C0 + 4 * g) 31 24 = s.hw.devField (0x10C0 + 4 * g) 31 24) :
    exec (.eventClear m a d) s = .next { s with hw := s.hw.write m a 0xF d } := by
  have run : exec (.eventClear m a d) s = .next { s with hw := s.hw.beatAt m a 0xF d } := rfl
  rw [run, Hw.beatAt, if_pos works, Hw.settle_same k _ seq]

/-! ## A write to an event register of device space -/

/-- The event registers of device space whose word holds their flags, each family by its first (CH_EVT by its last too), with those flags. -/
def devEvents : List (Nat × Word) :=
  [(0x1004, 0xE00000), (0x1018, 0xC00000), (0x101C, 0xC00000), (0x1060, 0xE00000), (0x1080, 0xC00000), (0x10C0, 0xFF), (0x10D4, 0xFF),
    (0x2004, 0xC00000), (0x2008, 0xE00000), (0x3004, 0xE00000), (0x300C, 0xE00000), (0x3050, 0xE00000), (0x3060, 0xC00000), (0x4024, 0xC00000),
    (0x5020, 0xE00000), (0x502C, 0xF80000), (0x5030, 0xC00000), (0x5034, 0x800000), (0x5050, 0x800000)]

/-- The flags of a register that a write of 1 clears under R430. -/
def RegDef.wsMask (r : RegDef) : Word := maskOf r fun a => decide (a = .ws)

theorem findReg_devEvents : ∀ e ∈ devEvents, (findReg devRegs e.1).map RegDef.wsMask = some e.2 := by decide

theorem devEvents_space : ∀ e ∈ devEvents, isEvent devRegs e.1 = true ∧ e.1 < 0x5100 ∧ e.1 ≠ 0x4008 ∧ e.1 ≠ 0x5000 ∧ e.2.extractLsb' 24 8 = 0 := by
  decide

theorem Hw.lacks_guard {h : Hw} {m : Master} (right : h.lacks m .guarded = false) (r : RegDef) : h.lacks m r.guard = false := by
  cases g : r.guarded <;> simp [RegDef.guard, g, right, Hw.lacks_plain]

/-- Below block 6, a write to an event register goes by the rule of R430. -/
theorem devWrite_event {off : Nat} (event : isEvent devRegs off = true) (low : off < 0x6000) (h : Hw) (m : Master) (d : Word) :
    devWrite h m off d = devClear h m off d := by
  have other : ∀ o ∈ [0x2010, 0x2014, 0x2018, 0x4000, 0x4010, 0x4020, 0x5010, 0x5014, 0x5024], off ≠ o := by
    rintro o ho rfl
    have : ∀ o ∈ [0x2010, 0x2014, 0x2018, 0x4000, 0x4010, 0x4020, 0x5010, 0x5014, 0x5024], isEvent devRegs o = false := by decide
    simp [this off ho] at event
  simp only [List.forall_mem_cons] at other
  unfold devWrite
  split
  case h_1 | h_2 | h_3 | h_4 | h_12 => simp [event, other]
  all_goals omega

theorem Hw.bmx_devReg_low (h : Hw) (m : Master) (which : Nat) {off : Nat} (low : off < 0x5100) : (h.bmx m.id which).devReg off = h.devReg off :=
  Hw.bmx_devReg h m.id which off (by omega)

section
variable {h : Hw} {m : Master} {off : Nat} {d : Word} {r : RegDef}

/-- A write with the SEQ of a device event register clears its flags. -/
theorem devClear_accepted (listed : findReg devRegs off = some r) (low : off < 0x5100) (hstat : off ≠ 0x4008) (wstat : off ≠ 0x5000)
    (reach : h.reachesDev m = true) (right : h.lacks m .guarded = false) (seq : fieldOf d 31 24 = fieldOf (h.devReg off) 31 24) :
    devClear h m off d = (h.bmx m.id 0).setDevReg off (h.devReg off &&& ~~~ (d &&& r.wsMask)) := by
  simp [devClear, listed, devBeat, reach, Hw.lacks_guard right, hstat, wstat, evClear, Hw.bmx_devReg_low h m 0 low, seq, RegDef.wsMask]

/-- A write with another SEQ is flagged ACK_STALE. -/
theorem devClear_stale (listed : findReg devRegs off = some r) (low : off < 0x5100) (hstat : off ≠ 0x4008) (wstat : off ≠ 0x5000)
    (reach : h.reachesDev m = true) (right : h.lacks m .guarded = false) (stale : fieldOf d 31 24 ≠ fieldOf (h.devReg off) 31 24) :
    devClear h m off d = (h.bmx m.id 0).ignored m .ackStale (devAddr off) := by
  simp [devClear, listed, devBeat, reach, Hw.lacks_guard right, hstat, wstat, evClear, Hw.bmx_devReg_low h m 0 low, stale]

end

/-! ## A write to an event register of a channel -/

/-- The event registers of a channel without a level beside them, with their flags. -/
def chEvents : List (Nat × Word) :=
  [(0x2300, 0xFFC000), (0x3008, 0xF00000), (0x4008, 0xF00000), (0x5010, 0xFF0000), (0x6014, 0xF80000), (0x7008, 0x078000), (0x802C, 0xFE0000),
    (0x9008, 0xC00000), (0xA008, 0xE00000)]

theorem findReg_chEvents : ∀ e ∈ chEvents, (findReg chRegs e.1).map RegDef.wsMask = some e.2 := by decide

theorem chWrite_event : ∀ e ∈ chEvents, ∀ (h : Hw) (m : Master) (c : ChanId) (d : Word), chWrite h m c e.1 d = chClear h m c e.1 d := by
  simp only [chEvents, List.forall_mem_cons, List.not_mem_nil, false_imp_iff, implies_true, and_true]
  and_intros <;> exact fun _ _ _ _ => rfl

theorem chEvents_space : ∀ e ∈ chEvents, ¬ (0x6080 ≤ e.1 ∧ e.1 < 0x60BC) := by decide

@[simp] theorem Hw.bmx_chReg (h : Hw) (mid which : Nat) (c : ChanId) (off : Nat) : (h.bmx mid which).chReg c off = h.chReg c off := by
  simp [Hw.chReg]

section
variable {h : Hw} {m : Master} {c : ChanId} {off : Nat} {d : Word} {r : RegDef}

/-- A write beat of a master with the right reaches a register of an ACTIVE channel. -/
theorem chBeat_active {g : Guard} {f : Hw → Hw} (reach : h.reaches m = true) (right : h.lacks m g = false) (active : (h.chan c).st = .active) :
    chBeat h m c off g f = f (h.bmx m.id 0) := by
  simp [chBeat, reach, right, raises_of_active active, active]

/-- A write with the SEQ of a channel's event register clears its flags. -/
theorem chClear_accepted (listed : findReg chRegs off = some r) (noWm : ¬ (0x6080 ≤ off ∧ off < 0x60BC)) (reach : h.reaches m = true)
    (right : h.lacks m .guarded = false) (active : (h.chan c).st = .active) (seq : fieldOf d 31 24 = fieldOf (h.chReg c off) 31 24) :
    chClear h m c off d = (h.bmx m.id 0).setChReg c off (h.chReg c off &&& ~~~ (d &&& r.wsMask)) := by
  have watermark : ¬ (0x6080 ≤ off ∧ off < 0x60BC ∧ bitOf d 23 = true) := fun ⟨lo, hi, _⟩ => noWm ⟨lo, hi⟩
  simp only [chClear, listed, chBeat_active reach (Hw.lacks_guard right r) active, evClear, Hw.bmx_chReg, seq, if_true, if_neg watermark, RegDef.wsMask]

/-- A write with another SEQ is flagged ACK_STALE. -/
theorem chClear_stale (listed : findReg chRegs off = some r) (reach : h.reaches m = true) (right : h.lacks m .guarded = false)
    (active : (h.chan c).st = .active) (stale : fieldOf d 31 24 ≠ fieldOf (h.chReg c off) 31 24) :
    chClear h m c off d = (h.bmx m.id 0).ignored m .ackStale (chAddr c off) := by
  simp only [chClear, listed, chBeat_active reach (Hw.lacks_guard right r) active, evClear, Hw.bmx_chReg, if_neg stale]

end

/-! ## The writer's bank, and a clear as a whole -/

theorem Hw.ignored_ackStale (h : Hw) (m : Master) (a : BitVec 22) :
    ((h.ignored m .ackStale a).dev.bank m).wflags.getLsbD 2 = true := by
  rw [Hw.ignored, Hw.flagged_bank _ _ _ _ (by decide), MBank.ignore, BitVec.getLsbD_or]
  simp [wbit]

theorem Hw.chans_ext {t h : Hw} (e : ∀ c, t.chan c = h.chan c) : t.chans = h.chans :=
  Vector.ext fun i hi => e ⟨i, hi⟩

theorem Completes.mono {i : Instr} {s : State} {P Q : Hw → Prop} (imp : ∀ t, P t → Q t) (ran : Completes i s P) : Completes i s Q := by
  obtain ⟨t, run, pending, p⟩ := ran
  exact ⟨t, run, pending, imp _ p⟩

/-- A stale EVENT_CLEAR shows in the writer's bank and in the matrix's counters, which lie from 0x5100 on. -/
theorem eventClear_stale {s : State} {m : Master} {a b : BitVec 22} {d : Word} (works : s.hw.works = true)
    (write : s.hw.write m a 0xF d = ((s.hw.bmx m.id 0).ignored m .ackStale b).asWritten s.hw m a) :
    Completes (.eventClear m a d) s fun t => t.RegsOnly s.hw ∧ (∀ o < 0x5100, t.devReg o = s.hw.devReg o) ∧ (∀ c, t.chan c = s.hw.chan c)
      ∧ (t.dev.bank m).wflags.getLsbD 2 = true := by
  have regs : (s.hw.write m a 0xF d).RegsOnly s.hw := by
    rw [write]
    exact (Hw.asWritten_regsOnly _ _ _ _).trans ((Hw.ignored_regsOnly _ _ _ _).trans (Hw.bmx_regsOnly _ _ _))
  have low (o : Nat) (ho : o < 0x5100) : (s.hw.write m a 0xF d).devReg o = s.hw.devReg o := by
    rw [write, Hw.asWritten_devReg, Hw.ignored_devReg, Hw.bmx_devReg_low _ _ _ ho]
  refine .of (exec_eventClear works regs fun g hg => ?_) ⟨regs, low, fun c => ?_, ?_⟩
  · rw [Hw.devField, low _ (by omega), Hw.devField]
  · rw [write]
    simp
  · rw [write, Hw.asWritten_wflags, Hw.ignored_ackStale]

section
variable {s : State} {m : Master} {a : BitVec 22} {d : Word} {e : Nat × Word}

theorem Hw.write_devEvent (h : Hw) (m : Master) (d : Word) (mem : e ∈ devEvents) (place_eq : place a = .dev e.1) :
    h.write m a 0xF d = (devClear h m e.1 d).asWritten h m a := by
  obtain ⟨event, low, -⟩ := devEvents_space e mem
  simp only [Hw.write, if_true, place_eq, placeWrite, devWrite_event event (show e.1 < 0x6000 by omega)]

theorem eventClear_dev_accepted (mem : e ∈ devEvents) (place_eq : place a = .dev e.1) (reach : s.hw.reachesDev m = true)
    (right : s.hw.lacks m .guarded = false) (seq : fieldOf d 31 24 = fieldOf (s.hw.devReg e.1) 31 24) :
    Completes (.eventClear m a d) s fun t => t.devReg e.1 = s.hw.devReg e.1 &&& ~~~ (d &&& e.2) ∧ t.chans = s.hw.chans := by
  obtain ⟨-, low, hstat, wstat, below⟩ := devEvents_space e mem
  obtain ⟨r, listed, mask⟩ := Option.map_eq_some_iff.mp (findReg_devEvents e mem)
  have write := s.hw.write_devEvent m d mem place_eq
  rw [devClear_accepted listed low hstat wstat reach right seq, mask] at write
  refine .of (exec_eventClear (Hw.works_of_reaches (Hw.reaches_of_reachesDev reach)) ?_ fun g hg => ?_) ⟨?_, Hw.chans_ext fun c => ?_⟩ <;> rw [write]
  · exact (Hw.asWritten_regsOnly _ _ _ _).trans ((Hw.setDevReg_regsOnly _ _ _).trans (Hw.bmx_regsOnly _ _ _))
  · rw [Hw.devField, Hw.asWritten_devReg, Hw.setDevReg_devReg, Hw.bmx_devReg_low _ _ _ (by omega)]
    split
    next same => rw [fieldOf_clear below, ← same, Hw.devField]
    next => rfl
  · simp
  · simp

theorem eventClear_dev_stale (mem : e ∈ devEvents) (place_eq : place a = .dev e.1) (reach : s.hw.reachesDev m = true)
    (right : s.hw.lacks m .guarded = false) (stale : fieldOf d 31 24 ≠ fieldOf (s.hw.devReg e.1) 31 24) :
    Completes (.eventClear m a d) s fun t =>
      t.devReg e.1 = s.hw.devReg e.1 ∧ t.chans = s.hw.chans ∧ (t.dev.bank m).wflags.getLsbD 2 = true := by
  obtain ⟨-, low, hstat, wstat, -⟩ := devEvents_space e mem
  obtain ⟨r, listed, -⟩ := Option.map_eq_some_iff.mp (findReg_devEvents e mem)
  have write := s.hw.write_devEvent m d mem place_eq
  rw [devClear_stale listed low hstat wstat reach right stale] at write
  refine (eventClear_stale (Hw.works_of_reaches (Hw.reaches_of_reachesDev reach)) write).mono ?_
  exact fun t ⟨_, regs, chan, flag⟩ => ⟨regs _ low, Hw.chans_ext chan, flag⟩

variable {c : ChanId}

theorem Hw.write_chEvent (h : Hw) (m : Master) (d : Word) (mem : e ∈ chEvents) (place_eq : place a = .chan c e.1) :
    h.write m a 0xF d = (chClear h m c e.1 d).asWritten h m a := by
  simp only [Hw.write, if_true, place_eq, placeWrite, chWrite_event e mem]

theorem eventClear_chan_accepted (mem : e ∈ chEvents) (place_eq : place a = .chan c e.1) (reach : s.hw.reaches m = true)
    (right : s.hw.lacks m .guarded = false) (active : (s.hw.chan c).st = .active) (seq : fieldOf d 31 24 = fieldOf (s.hw.chReg c e.1) 31 24) :
    Completes (.eventClear m a d) s fun t => t.chReg c e.1 = s.hw.chReg c e.1 &&& ~~~ (d &&& e.2) ∧ t.Local s.hw c := by
  obtain ⟨r, listed, mask⟩ := Option.map_eq_some_iff.mp (findReg_chEvents e mem)
  have write := s.hw.write_chEvent m d mem place_eq
  rw [chClear_accepted listed (chEvents_space e mem) reach right active seq, mask] at write
  have regs : (s.hw.write m a 0xF d).RegsOnly s.hw := by
    rw [write]
    exact (Hw.asWritten_regsOnly _ _ _ _).trans ((Hw.setChReg_regsOnly _ _ _ _).trans (Hw.bmx_regsOnly _ _ _))
  refine .of (exec_eventClear (Hw.works_of_reaches reach) regs fun g hg => ?_) ⟨?_, regs.toLocal fun x hx => ?_⟩ <;> rw [write]
  · rw [Hw.devField, Hw.asWritten_devReg, Hw.setChReg_devReg, Hw.bmx_devReg_low _ _ _ (by omega), Hw.devField]
  · simp [Hw.chReg]
  · simp [hx]

theorem eventClear_chan_stale (mem : e ∈ chEvents) (place_eq : place a = .chan c e.1) (reach : s.hw.reaches m = true)
    (right : s.hw.lacks m .guarded = false) (active : (s.hw.chan c).st = .active) (stale : fieldOf d 31 24 ≠ fieldOf (s.hw.chReg c e.1) 31 24) :
    Completes (.eventClear m a d) s fun t =>
      t.chReg c e.1 = s.hw.chReg c e.1 ∧ (t.dev.bank m).wflags.getLsbD 2 = true ∧ t.Local s.hw c := by
  obtain ⟨r, listed, -⟩ := Option.map_eq_some_iff.mp (findReg_chEvents e mem)
  have write := s.hw.write_chEvent m d mem place_eq
  rw [chClear_stale listed reach right active stale] at write
  refine (eventClear_stale (Hw.works_of_reaches reach) write).mono ?_
  exact fun t ⟨regs, _, chan, flag⟩ => ⟨by rw [Hw.chReg, chan, Hw.chReg], flag, regs.toLocal fun x _ => chan x⟩

end

/-! ## Record registers -/

theorem Hw.settleSum_keeps {γ : Type} (p : Hw → γ) (hn : ∀ (h : Hw) (src : Nat), p (h.notify src) = p h)
    (hc : ∀ (h : Hw) (f : Fcl → Vector Byte 6), p (h.onFcl fun x => { x with csumSeq := f x }) = p h) (h h0 : Hw) (g : Fin 6) :
    p (h.settleSum h0 g) = p h := by
  unfold Hw.settleSum
  split
  · rfl
  · exact (hn _ _).trans (hc h fun x => x.csumSeq.set g.val (x.csumSeq[g.val] + 1))

@[simp] theorem Hw.settleSum_chan (h h0 : Hw) (g : Fin 6) (c : ChanId) : (h.settleSum h0 g).chan c = h.chan c :=
  Hw.settleSum_keeps (·.chan c) (by simp) (by simp) h h0 g

@[simp] theorem Hw.settleSum_dseq (h h0 : Hw) (g : Fin 6) : (h.settleSum h0 g).dev.fcl.dseq = h.dev.fcl.dseq :=
  Hw.settleSum_keeps (·.dev.fcl.dseq) (by simp) (by simp) h h0 g

@[simp] theorem Hw.drecStep_chan (h : Hw) (c : ChanId) : h.drecStep.chan c = h.chan c := by simp [Hw.drecStep]

@[simp] theorem Hw.drecStep_dseq (h : Hw) : h.drecStep.dev.fcl.dseq = h.dev.fcl.dseq + 1 := by simp [Hw.drecStep]

@[simp] theorem Hw.recStep_fcl (h : Hw) (c : ChanId) : (h.recStep c).dev.fcl = h.dev.fcl := by simp [Hw.recStep]

@[simp] theorem Hw.settleChan_fcl (h h0 : Hw) (c : ChanId) : (h.settleChan h0 c).dev.fcl = h.dev.fcl := by
  unfold Hw.settleChan
  dsimp only
  split <;> split <;> simp

/-- A change of what CHn.FLT_REC shows advances its SEQ. -/
theorem Hw.settle_seq {h h0 : Hw} {c : ChanId} (changed : h.recView c ≠ h0.recView c) :
    ((h.settle h0 [c]).chan c).flt.seq = (h.chan c).flt.seq + 1 := by
  have view : (h.oneChange h0).recView c = h.recView c := Hw.oneChange_keeps (·.recView c) (fun _ _ _ => rfl) h h0
  have chan : (h.oneChange h0).chan c = h.chan c := Hw.oneChange_keeps (·.chan c) (by simp) h h0
  have step : (([c].foldl (fun u c => Hw.settleChan u h0 c) (h.oneChange h0)).chan c).flt.seq = (h.chan c).flt.seq + 1 := by
    simp only [List.foldl_cons, List.foldl_nil, Hw.settleChan, view, if_neg changed]
    split <;> simp [Hw.recStep, chan]
  unfold Hw.settle
  dsimp only
  rw [foldl_keeps _ (fun u : Hw => u.chan c) fun u g => u.settleSum_chan h0 g c,
    apply_ite (fun u : Hw => u.chan c), Hw.drecStep_chan, ite_self, step]

/-- The D record's closing advances the SEQ of DEV.FCL_DREC. -/
theorem Hw.settle_dseq {h h0 : Hw} (cs : List ChanId) (changed : h.dev.fcl.d.pend ≠ h0.dev.fcl.d.pend) :
    (h.settle h0 cs).dev.fcl.dseq = h.dev.fcl.dseq + 1 := by
  have fcl : (cs.foldl (fun u c => Hw.settleChan u h0 c) (h.oneChange h0)).dev.fcl = h.dev.fcl :=
    (foldl_keeps _ (fun u : Hw => u.dev.fcl) (fun u c => u.settleChan_fcl h0 c) _ _).trans (Hw.oneChange_keeps (·.dev.fcl) (by simp) h h0)
  have view : (cs.foldl (fun u c => Hw.settleChan u h0 c) (h.oneChange h0)).drecView ≠ h0.drecView := fun same =>
    changed (by simpa [Hw.drecView, fcl] using congrArg Prod.fst same)
  unfold Hw.settle
  simp only [if_neg view]
  rw [foldl_keeps _ (fun u : Hw => u.dev.fcl.dseq) fun u g => u.settleSum_dseq h0 g, Hw.drecStep_dseq, fcl]

theorem Hw.bmx_dutyOf (h : Hw) (m : Master) (which i : Nat) : (h.bmx m.id which).dutyOf i = h.dutyOf i := by
  simp only [Hw.dutyOf, Hw.bmx_devReg_low h m which (show 0x4000 < 0x5100 by decide)]

/-- The duty holder's write with the SEQ of the record register acts (R366). -/
theorem dutyBeat_on {h : Hw} {m : Master} {i : Nat} (reach : h.reaches m = true) (duty : m = h.dutyOf i) (a : BitVec 22) (f : Hw → Hw) :
    dutyBeat h m a i true f = f (h.bmx m.id 0) := by
  simp [dutyBeat, reach, Hw.bmx_dutyOf, ← duty]

theorem ackH_seq {s : State} {m : Master} {c : ChanId} (reach : s.hw.reaches m = true) (duty : m = s.hw.dutyOf 1)
    (pend : (s.hw.chan c).flt.h.pend = true) :
    Completes (.ackH m c (s.hw.chan c).flt.seq) s fun t => (t.chan c).flt.seq = (s.hw.chan c).flt.seq + 1 := by
  have act : fltOp s.hw m c 1 (s.hw.chan c).flt.seq (·.doAckH c) = (s.hw.bmx m.id 0).doAckH c := by
    rw [fltOp, decide_eq_true rfl, dutyBeat_on reach duty]
  have closed : ((s.hw.bmx m.id 0).doAckH c).recView c ≠ s.hw.recView c := fun same => by
    simpa [Hw.recView, Hw.doAckH, pend] using congrArg RecView.hpend same
  have run : exec (.ackH m c (s.hw.chan c).flt.seq) s = watched s c fun h => fltOp h m c 1 (s.hw.chan c).flt.seq (·.doAckH c) := rfl
  refine .of (run.trans (watched_on (Hw.works_of_reaches reach))) ?_
  rw [act, Hw.settle_seq closed]
  simp [Hw.doAckH]

theorem ackD_dseq {s : State} {m : Master} (reach : s.hw.reachesDev m = true) (duty : m = s.hw.dutyOf 2) (pend : s.hw.dev.fcl.d.pend = true) :
    Completes (.ackD m s.hw.dev.fcl.dseq) s fun t => t.dev.fcl.dseq = s.hw.dev.fcl.dseq + 1 := by
  obtain ⟨reaches, notMalot⟩ : s.hw.reaches m = true ∧ m ≠ .malot := by simpa [Hw.reachesDev] using reach
  have act : drecOp s.hw m s.hw.dev.fcl.dseq Hw.doAckD = (s.hw.bmx m.id 0).doAckD := by
    rw [drecOp, if_neg notMalot, decide_eq_true rfl, dutyBeat_on reaches duty]
  have closed : (s.hw.bmx m.id 0).doAckD.dev.fcl.d.pend ≠ s.hw.dev.fcl.d.pend := by simp [Hw.doAckD, pend]
  have run : exec (.ackD m s.hw.dev.fcl.dseq) s = watchedAll s fun h => drecOp h m s.hw.dev.fcl.dseq Hw.doAckD := rfl
  refine .of (run.trans (watchedAll_on (Hw.works_of_reaches reaches))) ?_
  rw [act, Hw.settle_dseq allChans closed]
  simp [Hw.doAckD]

/-- Settles O54: an event writes `evWord`, a write to an event register changes registers and the writer's bank alone (so that no record
register moves), and an accepted acknowledgement changes what its record register shows. -/
theorem eventRegistersFollowSeq : Obligations.EventRegistersFollowSeq := by
  unfold Obligations.EventRegistersFollowSeq
  refine ⟨fun h off src flags _ => ?_, fun h c off src flags raises _ => ?_,
    fun s m a d reach right e mem place_eq =>
      ⟨eventClear_dev_accepted mem place_eq reach right, eventClear_dev_stale mem place_eq reach right⟩,
    fun s m c reach duty pend => ackH_seq reach duty pend, fun s m reach duty pend => ackD_dseq reach duty pend,
    fun s m c a d reach right active e mem place_eq =>
      ⟨eventClear_chan_accepted mem place_eq reach right active, eventClear_chan_stale mem place_eq reach right active⟩⟩
  · simp only [Hw.devEvent_devReg, if_true]
    exact ⟨fieldOf_evWord _ _, fun i low => bitOf_evWord _ _ low, fun o other => if_neg other⟩
  · have event (o : Nat) : (h.chEvent c off src flags).chReg c o = if o = off then evWord (h.chReg c off) flags else h.chReg c o := by
      simp [Hw.chReg, Hw.chEvent_chan_on h c off src flags raises, Chan.reg_setReg]
    simp only [event, if_true]
    exact ⟨fieldOf_evWord _ _, fun i low => bitOf_evWord _ _ low, fun o other => if_neg other⟩

end Sys2Proof.Machine
end

section
/-!
PROOF. The block (O1 to O4) and the end of everything, Midwinter (O60). Every command is answered by a change of the hardware; a command whose
gate is closed changes nothing, and what still acts in MIDWINTER is the link, the pins of the supply and the mailbox.
-/
namespace Sys2Proof.Machine

/-- Settles O1: `step` of a queue with a front command is `exec` on its rest. -/
theorem stepRunsFront : Obligations.StepRunsFront := by
  unfold Obligations.StepRunsFront
  intro s c rest front
  simp only [step, front]

/-- Settles O2: an empty queue is one tick, which `Hw.pass` counts in `now` and in SYSCNT. -/
theorem idleStepIsOneCycle : Obligations.IdleStepIsOneCycle := by
  unfold Obligations.IdleStepIsOneCycle
  intro s idle
  simp only [step, idle, Hw.tick, Hw.pass, Hw.powered, Bool.and_eq_true, decide_eq_true_eq]
  rfl

/-- Every command is answered by a change of the hardware alone (log entry 5). -/
theorem exec_answers (i : Instr) (s : State) : ∃ h : Hw, exec i s = .next { s with hw := h } := by
  cases i with
  | synLocked e => cases e <;> exact ⟨_, rfl⟩
  | synUnlock e => cases e <;> exact ⟨_, rfl⟩
  | timLost e => cases e <;> exact ⟨_, rfl⟩
  | lockSample e => cases e <;> exact ⟨_, rfl⟩
  | holdoverUpdate e => cases e <;> exact ⟨_, rfl⟩
  | qualWindow q => cases q <;> exact ⟨_, rfl⟩
  | qualWtrExpire q => cases q <;> exact ⟨_, rfl⟩
  | _ => exact ⟨_, rfl⟩

/-- Settles O3, by `exec_answers`: the answer is a next state with the queue as it was. -/
theorem everyCommandAnswers : Obligations.EveryCommandAnswers := by
  unfold Obligations.EveryCommandAnswers
  intro i s
  obtain ⟨h, answered⟩ := exec_answers i s
  exact .of answered trivial

theorem Hw.chan_reset (c : ChanId) : State.reset.hw.chan c = {} := by simp [State.reset, Hw.chan]

/-- Settles O4: the reset state is the default of every field, and a register that nothing has written holds its reset value. -/
theorem resetIsPowerOff : Obligations.ResetIsPowerOff := by
  unfold Obligations.ResetIsPowerOff
  refine ⟨rfl, rfl, ⟨rfl, fun c => ?_⟩, rfl, rfl, rfl, rfl, rfl, fun o => rfl, fun c => ?_⟩
  · rw [Hw.chan_reset]; decide
  · rw [Hw.chan_reset]
    refine ⟨rfl, rfl, rfl, rfl, rfl, rfl, fun o => ?_⟩
    rw [Hw.chReg, Hw.chan_reset]
    rfl

/-! ## What a closed gate leaves -/

/-- A command of the link, the supply, the pins, the fuse controller or the mailbox: one that some gate lets act although the module
does not work. -/
def actsBesideWork : Instr → Bool
  | .vinRise _ | .vinFall | .railsUp | .resetNAssert | .resetNRelease | .tamper | .tempSample _ _ | .tripRelease _ | .railFault _
  | .railBack _ | .fuseOpDone _ | .pcieFlr _ _ | .linkDown _ _ | .perstN _ _ | .linkTrainingStart | .linkUp _ _ | .linkRateChange _ _
  | .midwinterLinkRetrain | .d3hotEnter _ | .d3hotExit _ | .poisonedWrite _ | .jtagInstruction _ | .registerWrite _ _ _ _
  | .eventClear _ _ _ | .mailboxSelect _ _ | .mailboxSnapshotClear _ _ | .mailboxCaptureDone _ | .msixSend _ _ => true
  | _ => false

/-- A command whose answer stands behind the gate of the working module. -/
def onlyWorking (i : Instr) (s : State) : Prop := ∃ h : Hw, exec i s = .next { s with hw := if s.hw.works = true then h else s.hw }

theorem onlyWorking.off {i : Instr} {s : State} (gated : onlyWorking i s) (w : s.hw.works = false) : exec i s = .next s := by
  obtain ⟨h, run⟩ := gated
  simpa [w] using run

/-- Every other command acts only while the module works (R373, R408; log entry 4). -/
theorem exec_onlyWorking {i : Instr} (gated : actsBesideWork i = false) (s : State) : onlyWorking i s := by
  cases i with
  | vinRise | vinFall | railsUp | resetNAssert | resetNRelease | tamper | tempSample | tripRelease | railFault | railBack | fuseOpDone | pcieFlr
  | linkDown | perstN | linkTrainingStart | linkUp | linkRateChange | midwinterLinkRetrain | d3hotEnter | d3hotExit | poisonedWrite
  | jtagInstruction | registerWrite | eventClear | mailboxSelect | mailboxSnapshotClear | mailboxCaptureDone | msixSend =>
    exact Bool.noConfusion gated
  | synLocked e => cases e <;> exact ⟨_, rfl⟩
  | synUnlock e => cases e <;> exact ⟨_, rfl⟩
  | timLost e => cases e <;> exact ⟨_, rfl⟩
  | lockSample e => cases e <;> exact ⟨_, rfl⟩
  | holdoverUpdate e => cases e <;> exact ⟨_, rfl⟩
  | qualWindow q => cases q <;> exact ⟨_, rfl⟩
  | qualWtrExpire q => cases q <;> exact ⟨_, rfl⟩
  | _ => exact ⟨_, rfl⟩

/-! ## What every command leaves in MIDWINTER -/

/-- A channel holds what Midwinter left: its state, its idle transmitters, its circuits and stored blocks, and no key. -/
structure Chan.StaysFrozen (y x : Chan) : Prop where
  st : y.st = x.st
  squelch : y.squelch = x.squelch
  circ : y.circ = x.circ
  store : y.store = x.store
  blank : x.blank = true → y.blank = true

/-- The module holds what Midwinter left: start-up's state, no key in the blob buffer, the first trigger and the channels. -/
structure Hw.StaysFrozen (t h : Hw) : Prop where
  boot : t.dev.boot = h.dev.boot
  kbuf : t.dev.kbuf = h.dev.kbuf
  mw : t.dev.fcl.mw = h.dev.fcl.mw
  chan : ∀ c : ChanId, (t.chan c).StaysFrozen (h.chan c)

theorem Chan.StaysFrozen.refl (x : Chan) : x.StaysFrozen x := ⟨rfl, rfl, rfl, rfl, id⟩

theorem Chan.StaysFrozen.trans {z y x : Chan} (a : z.StaysFrozen y) (b : y.StaysFrozen x) : z.StaysFrozen x :=
  ⟨a.st.trans b.st, a.squelch.trans b.squelch, a.circ.trans b.circ, a.store.trans b.store, a.blank ∘ b.blank⟩

/-- Keys stand in the cipher and in the commands' blobs alone. -/
theorem Chan.blank_congr {y x : Chan} (cph : y.cph = x.cph) (q : y.q = x.q) : y.blank = x.blank := by simp only [Chan.blank, cph, q]

theorem Hw.StaysFrozen.refl (h : Hw) : h.StaysFrozen h := ⟨rfl, rfl, rfl, fun _ => .refl _⟩

theorem Hw.StaysFrozen.trans {t u h : Hw} (a : t.StaysFrozen u) (b : u.StaysFrozen h) : t.StaysFrozen h :=
  ⟨a.boot.trans b.boot, a.kbuf.trans b.kbuf, a.mw.trans b.mw, fun c => (a.chan c).trans (b.chan c)⟩

/-- A change of the spines outside start-up, the blob buffer and DEV.FCL_MW. -/
theorem Hw.StaysFrozen.of_dev {t h : Hw} (boot : t.dev.boot = h.dev.boot) (kbuf : t.dev.kbuf = h.dev.kbuf)
    (mw : t.dev.fcl.mw = h.dev.fcl.mw) (chan : ∀ c, t.chan c = h.chan c) : t.StaysFrozen h :=
  ⟨boot, kbuf, mw, fun c => by rw [chan c]; exact .refl _⟩

theorem Hw.StaysFrozen.ite {p : Prop} [Decidable p] {t u h : Hw} (a : p → t.StaysFrozen h) (b : ¬ p → u.StaysFrozen h) :
    (if p then t else u).StaysFrozen h := by
  split
  · exact a ‹_›
  · exact b ‹_›

theorem Hw.StaysFrozen.inMw {t h : Hw} (a : t.StaysFrozen h) : t.inMw = h.inMw := by simp only [Hw.inMw, a.boot]

theorem Hw.onLink_frozen (h : Hw) (f : Link → Link) : (h.onLink f).StaysFrozen h := .of_dev rfl rfl rfl fun _ => rfl

theorem Hw.onPower_frozen (h : Hw) (f : Power → Power) : (h.onPower f).StaysFrozen h := .of_dev rfl rfl rfl fun _ => rfl

theorem Hw.onDev_onFunc_frozen (h : Hw) (f : Func) (g : FuncSt → FuncSt) : (h.onDev fun d => d.onFunc f g).StaysFrozen h := by
  cases f <;> exact .of_dev rfl rfl rfl fun _ => rfl

theorem Hw.onDev_onBank_frozen (h : Hw) (m : Master) (g : MBank → MBank) : (h.onDev fun d => d.onBank m g).StaysFrozen h :=
  .of_dev (by simp) (by simp) (by simp) (by simp)

@[simp] theorem Fcl.enter_mw (f : Fcl) (m : BitVec 64) (ts : BitVec 40) (now : Nat) : (f.enter m ts now).mw = f.mw := by
  unfold Fcl.enter Fcl.coalesce
  dsimp only
  split <;> rfl

@[simp] theorem Hw.raiseAny_mw (h : Hw) (m : BitVec 64) : (h.raiseAny m).dev.fcl.mw = h.dev.fcl.mw := by
  unfold Hw.raiseAny
  split
  · rfl
  · simp

@[simp] theorem Hw.raiseSpine_mw (h : Hw) (u k n a : Nat) : (h.raiseSpine u k n a).dev.fcl.mw = h.dev.fcl.mw := h.raiseAny_mw _

@[simp] theorem Hw.raiseChan_mw (h : Hw) (c : ChanId) (u k n a : Nat) : (h.raiseChan c u k n a).dev.fcl.mw = h.dev.fcl.mw := by
  unfold Hw.raiseChan
  split
  · exact h.raiseAny_mw _
  · rfl

theorem Hw.devEvent_frozen (h : Hw) (off d : Nat) (fl : Word) : (h.devEvent off d fl).StaysFrozen h :=
  .of_dev (by simp) (by simp) (by simp) (by simp)

theorem Hw.raiseSpine_frozen (h : Hw) (u k n a : Nat) : (h.raiseSpine u k n a).StaysFrozen h :=
  .of_dev (by simp) (by simp) (by simp) (by simp)

theorem Hw.setDevReg_frozen (h : Hw) (off : Nat) (w : Word) : (h.setDevReg off w).StaysFrozen h := .of_dev rfl rfl rfl fun _ => rfl

theorem Hw.abortBurst_frozen (h : Hw) (mid : Nat) (b : Option Burst) : (h.abortBurst mid b).StaysFrozen h := by
  cases b with
  | none => exact .refl h
  | some b =>
    unfold Hw.abortBurst
    exact (Hw.raiseSpine_frozen _ _ _ _ _).trans ((Hw.devEvent_frozen _ _ _ _).trans
      ((Hw.setDevReg_frozen _ _ _).trans (Hw.setDevReg_frozen _ _ _)))

theorem Cmd.mark_blob (m : Master) (x : Cmd) : (if x.by_ = m then { x with dropped := true } else x).blob = x.blob := by split <;> rfl

/-- A submitter's reset marks its commands, whose blobs stay as they are. -/
theorem CmdQ.drop_blobs (q : CmdQ) (m : Master) : ((q.drop m).wait.all fun y => y.blob.isEmpty) = (q.wait.all fun y => y.blob.isEmpty)
    ∧ ((q.drop m).run.all fun y => y.blob.isEmpty) = (q.run.all fun y => y.blob.isEmpty) := by
  simp [CmdQ.drop, List.all_map, Function.comp_def, Cmd.mark_blob]

theorem Hw.qLevels_frozen (h : Hw) (q : Port) : (h.qLevels q).StaysFrozen h :=
  ⟨by simp, by simp, by simp, fun c =>
    ⟨by simp, by simp, by simp, by simp, fun b => (Chan.blank_congr (by simp) (by simp)).trans b⟩⟩

theorem Hw.foldl_frozen {α : Type} (f : Hw → α → Hw) (each : ∀ h a, (f h a).StaysFrozen h) : ∀ (l : List α) (h : Hw),
    (l.foldl f h).StaysFrozen h
  | [], h => .refl h
  | a :: l, h => (Hw.foldl_frozen f each l (f h a)).trans (each h a)

/-- A master's reset touches no key, no circuit and no record (R422). -/
theorem Hw.resetFunc_frozen (h : Hw) (f : Func) (b : Option Burst) : (h.resetFunc f b).StaysFrozen h := by
  unfold Hw.resetFunc
  dsimp only
  refine (Hw.foldl_frozen _ (fun u c => .ite (fun _ => .refl u) fun _ => u.qLevels_frozen _) _ _).trans (.trans ?_ (h.abortBurst_frozen f.toMaster.id b))
  generalize h.abortBurst f.toMaster.id b = u
  refine ⟨by cases f <;> simp [Dev.onFunc], by cases f <;> simp [Dev.onFunc], by cases f <;> simp [Dev.onFunc], fun c => ?_⟩
  rw [Hw.onAll_chan]
  refine ⟨rfl, rfl, rfl, rfl, fun blank => ?_⟩
  have blobs := CmdQ.drop_blobs (u.chan c).q f.toMaster
  simpa only [Chan.blank, blobs.1, blobs.2, Hw.onDev_chan] using blank

theorem Hw.linkDrop_frozen (h : Hw) (b0 b1 : Option Burst) : (h.linkDrop b0 b1).StaysFrozen h := by
  have reset := ((h.resetFunc .f0 b0).resetFunc_frozen .f1 b1).trans (h.resetFunc_frozen .f0 b0)
  unfold Hw.linkDrop
  dsimp only
  generalize (h.resetFunc .f0 b0).resetFunc .f1 b1 = u at reset ⊢
  exact .trans (u := u) (.of_dev rfl rfl rfl fun _ => rfl) reset

theorem Hw.hptEvent_frozen (h : Hw) (flags : Word) : (h.hptEvent flags).StaysFrozen h :=
  .ite (fun _ => .refl h) fun _ => h.devEvent_frozen _ _ _

/-! ### The mailbox in MIDWINTER (R373) -/

/-- In MIDWINTER a selector names a history entry or nothing. -/
theorem Hw.mbxVal_inMw {h : Hw} (w : h.inMw = true) (m : Master) (sel : Word) :
    (∃ v, h.mbxVal m sel = .val v ∧ fieldOf sel 30 24 = 2) ∨ h.mbxVal m sel = .err := by
  unfold Hw.mbxVal
  simp only [w, if_true]
  split
  · split
    · exact .inl ⟨_, rfl, ‹_›⟩
    · exact .inr rfl
  · exact .inr rfl

/-- A history entry is no counter, so a selector takes and clears none. -/
theorem isCounter_history {sel : Word} (g : fieldOf sel 30 24 = 2) : isCounter sel = false := by simp [isCounter, ctrGroup, g]

theorem Hw.ignored_frozen (h : Hw) (m : Master) (w : WFlag) (a : BitVec 22) : (h.ignored m w a).StaysFrozen h :=
  .of_dev (by simp) (by simp) (by simp) (by simp)

theorem Hw.bmx_frozen (h : Hw) (mid which : Nat) : (h.bmx mid which).StaysFrozen h := .of_dev (by simp) (by simp) (by simp) (by simp)

theorem Hw.draws_frozen (h : Hw) : h.draw.2.draw.2.StaysFrozen h := .of_dev rfl rfl rfl fun _ => rfl

theorem mbxSelect_frozen {h : Hw} (w : h.inMw = true) (m : Master) (d : Word) : (mbxSelect h m d).StaysFrozen h := by
  unfold mbxSelect
  refine .ite (fun _ => .refl h) fun _ => ?_
  refine .trans ?_ (h.bmx_frozen m.id 0)
  have w' : (h.bmx m.id 0).inMw = true := (h.bmx_frozen m.id 0).inMw.trans w
  generalize h.bmx m.id 0 = u at w'
  refine .ite (fun _ => u.ignored_frozen _ _ _) fun _ => ?_
  dsimp only
  generalize (decide (m = .pf1) && bitOf d 31) = pf1
  have k : (if pf1 = true then u.ignored m .guard (devAddr 0x6000) else u).StaysFrozen u :=
    .ite (fun _ => u.ignored_frozen _ _ _) fun _ => .refl u
  generalize (if pf1 = true then u.ignored m .guard (devAddr 0x6000) else u) = v at k
  generalize (if pf1 = true then d &&& 0x7FFFFFFF else d) = sel
  refine .trans ?_ k
  obtain ⟨x, value, history⟩ | nothing := Hw.mbxVal_inMw (k.inMw.trans w') m sel
  · simp only [value, isCounter_history history, Bool.and_false, Bool.false_eq_true, if_false, Option.isSome_none]
    exact (Hw.onDev_onBank_frozen _ _ _).trans (v.draws_frozen)
  · simp only [nothing, Bool.false_eq_true, if_false, Option.isSome_none]
    exact (Hw.onDev_onBank_frozen _ _ _).trans (v.draws_frozen)

theorem Hw.mbxPut_frozen (h : Hw) (m : Master) (v : Option (BitVec 128)) : (h.mbxPut m v).StaysFrozen h := h.onDev_onBank_frozen m _

/-- The read of a history entry is no read of a check value. -/
theorem Hw.cvuRead_history {h : Hw} {sel : Word} (g : fieldOf sel 30 24 = 2) (m : Master) : h.cvuRead m sel = h := by
  unfold Hw.cvuRead
  cases chanOf (fieldOf sel 23 18) <;> simp [g]

theorem Hw.mbxCapture_frozen {h : Hw} (w : h.inMw = true) (m : Master) : (h.mbxCapture m).StaysFrozen h := by
  unfold Hw.mbxCapture
  refine .ite (fun _ => .refl h) fun _ => ?_
  split
  · exact h.mbxPut_frozen m _
  · obtain ⟨x, value, history⟩ | nothing := Hw.mbxVal_inMw w m (h.dev.bank m).sel
    · simp only [value, Hw.cvuRead_history history]
      exact h.mbxPut_frozen m _
    · simp only [nothing]
      exact h.mbxPut_frozen m _

/-! ### Every command in MIDWINTER -/

/-- MIDWINTER as `State.inMidwinter` gives it, without the queue. -/
structure Hw.Ended (h : Hw) : Prop where
  entered : h.inMw = true
  released : h.dev.boot.inReset = false
  supplied : h.dev.boot.tripped = false

theorem Hw.Ended.st {h : Hw} (e : h.Ended) : h.dev.boot.st = .midwinter := by simpa [Hw.inMw] using e.entered

theorem Hw.Ended.works {h : Hw} (e : h.Ended) : h.works = false := by simp [Hw.works, e.entered]

theorem Hw.Ended.powered {h : Hw} (e : h.Ended) : h.powered = true := by simp [Hw.powered, e.st]

/-- A command answered by a change that leaves MIDWINTER as it is. -/
theorem answer_frozen {s t : State} {h : Hw} (run : (.next { s with hw := h } : Host.Outcome State Fault Refusal) = .next t)
    (frozen : h.StaysFrozen s.hw) : t.hw.StaysFrozen s.hw ∧ t.pending = s.pending := by
  cases run
  exact ⟨frozen, rfl⟩

theorem Hw.railOut_frozen {h : Hw} (e : h.Ended) (r : Fin 4) : (h.railOut r).StaysFrozen h := by
  unfold Hw.railOut
  refine .ite (fun _ => .refl h) fun _ => ?_
  have off : (h.onPower fun p => { p with railOk := p.railOk.set r false, pgood := false }).works = false := e.works
  simp only [off, Bool.false_and, Bool.false_eq_true, if_false]
  exact h.onPower_frozen _

/-- With start-up out of SUPPLY_UP a rise of PGOOD shows on the pin alone. -/
theorem Hw.pgoodRise_frozen {h : Hw} (e : h.Ended) : h.pgoodRise.StaysFrozen h := by
  unfold Hw.pgoodRise
  simp only [Hw.onPower_dev, e.st, reduceCtorEq, false_and, if_false]
  exact h.onPower_frozen _

theorem Hw.railIn_frozen {h : Hw} (e : h.Ended) (r : Fin 4) : (h.railIn r).StaysFrozen h := by
  unfold Hw.railIn
  refine .ite (fun _ => .refl h) fun _ => ?_
  have e' : (h.onPower fun p => { p with railOk := p.railOk.set r true }).Ended := ⟨e.entered, e.released, e.supplied⟩
  simp only [e'.works, Bool.false_eq_true, if_false]
  refine .ite (fun _ => .trans (Hw.pgoodRise_frozen e') (h.onPower_frozen _)) fun _ => h.onPower_frozen _

theorem Hw.sampled_frozen {h : Hw} (e : h.Ended) (t : Temps) (mv : BitVec 16) : (h.sampled t mv).StaysFrozen h := by
  unfold Hw.sampled
  have off (f : Power → Power) : (h.onPower f).works = false := e.works
  simp only [off, Bool.false_and, Bool.false_eq_true, if_false]
  exact h.onPower_frozen _

/-- No diode at 140 °C: no trip (R391). -/
theorem not_trips {t : Temps} (cool : ∀ k : Fin 7, t[k].toInt < 560) :
    ((List.finRange 7).any fun k => decide (quarters 140 ≤ tempAt t k)) = false := by
  refine List.any_eq_false.2 fun k _ hot => ?_
  exact absurd (of_decide_eq_true hot) (not_le.2 (cool k))

/-- An instruction of JTAG changes in MIDWINTER which one is held, and connects no debug port (R526). -/
theorem Hw.jtag_frozen {h : Hw} (e : h.Ended) (op : JtagOp) :
    ((if !h.powered then h
      else
        let was := h.dev.link.jtag
        let now := h.jtagActs op
        let h := h.onLink fun l => { l with jtag := now }
        if now = .debug ∧ was ≠ .debug then h.dbgConnect
        else if was = .debug ∧ now ≠ .debug ∧ h.works = true then h.dbgDisconnect none
        else h)).StaysFrozen h := by
  have noDebug : h.jtagActs op ≠ .debug := by cases op <;> simp [Hw.jtagActs, e.works, e.entered]
  have off (f : Link → Link) : (h.onLink f).works = false := e.works
  simp only [e.powered, noDebug, off, false_and, and_false, Bool.not_true, Bool.false_eq_true, if_false]
  exact h.onLink_frozen _

theorem Hw.beatAt_frozen {h : Hw} (e : h.Ended) (m : Master) (a : BitVec 22) (be : BitVec 4) (d : Word) : (h.beatAt m a be d).StaysFrozen h := by
  unfold Hw.beatAt
  rw [if_neg (by simp [e.works])]
  exact .ite (fun _ => mbxSelect_frozen e.entered m d) fun _ => .refl h

/-- Every command but the loss of VIN and a trip leaves the ended module as it is (R372, R373). -/
theorem exec_frozen {s t : State} (i : Instr) (e : s.hw.Ended) (noFall : i ≠ .vinFall)
    (noTrip : ∀ x mv, i = .tempSample x mv → ∀ k : Fin 7, x[k].toInt < 560) (run : exec i s = .next t) :
    t.hw.StaysFrozen s.hw ∧ t.pending = s.pending := by
  cases gate : actsBesideWork i with
  | false =>
    rw [(exec_onlyWorking gate s).off e.works] at run
    cases run
    exact ⟨.refl _, rfl⟩
  | true =>
    cases i with
    | vinFall => exact absurd rfl noFall
    | vinRise => exact answer_frozen run (by simp only [e.powered, Bool.true_or, if_true]; exact .refl _)
    | railsUp => exact answer_frozen run (by simp only [e.st, reduceCtorEq, if_false]; exact .refl _)
    | resetNAssert => exact answer_frozen run (by simp only [e.entered, Bool.not_true, Bool.and_false, Bool.false_and, Bool.false_eq_true, if_false]; exact .refl _)
    | resetNRelease => exact answer_frozen run (by simp only [e.released, Bool.false_eq_true, if_false]; exact .refl _)
    | tamper => exact answer_frozen run (by simp only [e.entered, Bool.not_true, Bool.and_false, Bool.false_eq_true, if_false]; exact .refl _)
    | tempSample x mv =>
      refine answer_frozen run ?_
      simp only [e.powered, not_trips (noTrip x mv rfl), e.works, Bool.not_true, Bool.false_eq_true, if_false]
      exact Hw.sampled_frozen e x mv
    | tripRelease => exact answer_frozen run (by simp only [e.supplied, Bool.false_and, Bool.false_eq_true, if_false]; exact .refl _)
    | railFault r => exact answer_frozen run (by simp only [e.works, Bool.false_eq_true, if_false]; exact Hw.railOut_frozen e _)
    | railBack r => exact answer_frozen run (by simp only [e.works, Bool.false_eq_true, if_false]; exact Hw.railIn_frozen e _)
    | fuseOpDone => exact answer_frozen run (by simp only [e.entered, Bool.not_true, Bool.and_false, Bool.false_eq_true, if_false]; exact .refl _)
    | pcieFlr f b => exact answer_frozen run (.ite (fun _ => .trans (Hw.hptEvent_frozen _ _) (s.hw.resetFunc_frozen f b)) fun _ => .refl _)
    | linkDown b0 b1 =>
      exact answer_frozen run (.ite (fun _ => .trans (Hw.onLink_frozen _ _) ((Hw.hptEvent_frozen _ _).trans (s.hw.linkDrop_frozen b0 b1))) fun _ => .refl _)
    | perstN b0 b1 =>
      exact answer_frozen run (.ite (fun _ => .refl _) fun _ => .ite (fun _ => (Hw.hptEvent_frozen _ _).trans (s.hw.linkDrop_frozen b0 b1))
        fun _ => (Hw.hptEvent_frozen _ _).trans (Hw.onLink_frozen _ _))
    | linkTrainingStart => exact answer_frozen run (.ite (fun _ => s.hw.onLink_frozen _) fun _ => .refl _)
    | linkUp => exact answer_frozen run (.ite (fun _ => (Hw.hptEvent_frozen _ _).trans (s.hw.onLink_frozen _)) fun _ => .refl _)
    | linkRateChange => exact answer_frozen run (.ite (fun _ => (Hw.hptEvent_frozen _ _).trans (s.hw.onLink_frozen _)) fun _ => .refl _)
    | midwinterLinkRetrain => exact answer_frozen run (.ite (fun _ => s.hw.onLink_frozen _) fun _ => .refl _)
    | d3hotEnter f => exact answer_frozen run (.ite (fun _ => s.hw.onDev_onFunc_frozen f _) fun _ => .refl _)
    | d3hotExit f => exact answer_frozen run (.ite (fun _ => s.hw.onDev_onFunc_frozen f _) fun _ => .refl _)
    | poisonedWrite f => exact answer_frozen run (.ite (fun _ => by cases f <;> exact s.hw.onLink_frozen _) fun _ => .refl _)
    | jtagInstruction op => exact answer_frozen run (Hw.jtag_frozen e op)
    | registerWrite m a be d => exact answer_frozen run (Hw.beatAt_frozen e m a be d)
    | eventClear m a d => exact answer_frozen run (Hw.beatAt_frozen e m a 0xF d)
    | mailboxSelect m d => exact answer_frozen run (mbxSelect_frozen e.entered m d)
    | mailboxSnapshotClear m d => exact answer_frozen run (mbxSelect_frozen e.entered m d)
    | mailboxCaptureDone m => exact answer_frozen run (.ite (fun _ => Hw.mbxCapture_frozen e.entered m) fun _ => .refl _)
    | msixSend f => exact answer_frozen run (.ite (fun _ => s.hw.onDev_onFunc_frozen f _) fun _ => .refl _)
    | _ => exact Bool.noConfusion gate

theorem Hw.tick_frozen (h : Hw) : h.tick.StaysFrozen h := .of_dev rfl rfl rfl fun _ => rfl

theorem State.inMidwinter.ended {s : State} (m : s.inMidwinter) : s.hw.Ended := ⟨m.entered, m.released, m.supplied⟩

/-- One step from MIDWINTER, and what is left of the queue. -/
theorem step_frozen {s t : State} (m : s.inMidwinter) (run : step s = .next t) : t.hw.StaysFrozen s.hw ∧ ∀ i ∈ t.pending, i ∈ s.pending := by
  unfold step at run
  split at run
  next idle =>
    cases run
    exact ⟨s.hw.tick_frozen, fun i mem => mem⟩
  next i rest front =>
    obtain ⟨noFall, noTrip⟩ := m.stays i (by simp [front])
    obtain ⟨frozen, queue⟩ := exec_frozen (s := { s with pending := rest }) i m.ended noFall noTrip run
    refine ⟨frozen, fun j mem => ?_⟩
    rw [queue] at mem
    simp [front, mem]

/-- Settles O60: what the step leaves (`step_frozen`) is what `State.inMidwinter` speaks of. -/
theorem midwinterHolds : Obligations.MidwinterHolds := by
  unfold Obligations.MidwinterHolds
  intro s t m run
  obtain ⟨frozen, queue⟩ := step_frozen m run
  refine ⟨⟨frozen.inMw.trans m.entered, by rw [frozen.boot]; exact m.released, by rw [frozen.boot]; exact m.supplied,
    ⟨frozen.kbuf.trans m.noKeys.1, fun c => (frozen.chan c).blank (m.noKeys.2 c)⟩, fun i mem => m.stays i (queue i mem)⟩, frozen.mw,
    fun c => ⟨(frozen.chan c).squelch, (frozen.chan c).st, (frozen.chan c).circ, (frozen.chan c).store⟩⟩

end Sys2Proof.Machine
end

section
/-!
PROOF. The supply, reset and the triggers of Midwinter (O5, O6, O7).
-/
namespace Sys2Proof.Machine

/-! ## Gates -/

/-- An answer behind an open gate. -/
theorem next_pos {s : State} {p : Prop} [Decidable p] {a b : Hw} (open_ : p) :
    (.next { s with hw := if p then a else b } : Host.Outcome State Fault Refusal) = .next { s with hw := a } := by rw [if_pos open_]

/-- An answer behind a closed gate. -/
theorem next_neg {s : State} {p : Prop} [Decidable p] {a b : Hw} (shut : ¬ p) :
    (.next { s with hw := if p then a else b } : Host.Outcome State Fault Refusal) = .next { s with hw := b } := by rw [if_neg shut]

theorem Hw.inMw_of_works {h : Hw} (w : h.works = true) : h.inMw = false := (works_parts w).2.1

theorem Hw.powered_of_works {h : Hw} (w : h.works = true) : h.powered = true := (works_parts w).1

theorem Hw.inReset_of_works {h : Hw} (w : h.works = true) : h.dev.boot.inReset = false := (works_parts w).2.2

/-- Whether the module works is start-up's state alone. -/
theorem Hw.works_congr {t h : Hw} (boot : t.dev.boot = h.dev.boot) : t.works = h.works := by simp only [Hw.works, Hw.powered, Hw.inMw, boot]

/-! ## Messages -/

theorem Hw.raiseAny_slots {h : Hw} (w : h.inMw = false) (m : BitVec 64) :
    (h.raiseAny m).dev.fcl.slots = (h.dev.fcl.enter m (h.dev.sys.truncate 40) h.now).slots := by
  rw [Hw.raiseAny, if_neg (by simp [w])]
  rfl

theorem Hw.raiseSpine_slots {h : Hw} (w : h.inMw = false) (u k n a : Nat) :
    (h.raiseSpine u k n a).dev.fcl.slots = (h.dev.fcl.enter (mkMsg 63 u k n a) (h.dev.sys.truncate 40) h.now).slots := Hw.raiseAny_slots w _

theorem Hw.raiseChan_slots {h : Hw} (w : h.inMw = false) {c : ChanId} (raises : (h.chan c).raises = true) (u k n a : Nat) :
    (h.raiseChan c u k n a).dev.fcl.slots = (h.dev.fcl.enter (mkMsg c.val u k n a) (h.dev.sys.truncate 40) h.now).slots := by
  rw [Hw.raiseChan, if_pos raises]
  exact Hw.raiseAny_slots w _

/-! ## Supply and reset (O5) -/

/-- A sensor at 140 °C or more: the trip (R391). -/
theorem trips {t : Temps} (hot : ∃ k : Fin 7, 560 ≤ t[k].toInt) : ((List.finRange 7).any fun k => decide (quarters 140 ≤ tempAt t k)) = true := by
  obtain ⟨k, at_k⟩ := hot
  exact List.any_eq_true.2 ⟨k, List.mem_finRange k, decide_eq_true at_k⟩

/-- Every sensor below 120 °C (R391). -/
theorem cooled {t : Temps} (cool : ∀ k : Fin 7, t[k].toInt < 480) : ((List.finRange 7).all fun k => decide (tempAt t k < quarters 120)) = true :=
  List.all_eq_true.2 fun k _ => decide_eq_true (cool k)

/-- RESET_N high ends the instructions that need it low (R526). -/
theorem jtagReleased_eq (op : JtagOp) : jtagReleased op = if op = .idcode ∨ op = .sample ∨ op = .debug then op else .bypass := by
  cases op <;> rfl

/-- RESET_N is high, and start-up has not gone on yet. -/
def Hw.released (h : Hw) : Hw := (h.onBoot fun b => { b with inReset := false }).onLink fun l => { l with jtag := jtagReleased l.jtag }

theorem Hw.resetEnds_pgood {h : Hw} (up : h.dev.power.pgood = true) : h.resetEnds = h.released.enterFuseSense :=
  if_pos up

theorem Hw.resetEnds_down {h : Hw} (down : h.dev.power.pgood = false) : h.resetEnds = h.released.onBoot fun b => { b with st := .supplyUp } :=
  if_neg (by simpa [Hw.onLink] using down)

theorem Hw.pgoodRise_enters {h : Hw} (st : h.dev.boot.st = .supplyUp) (released : h.dev.boot.inReset = false) :
    h.pgoodRise = (h.onPower fun p => { p with pgood := true }).enterFuseSense := if_pos ⟨st, released⟩

theorem Hw.pgoodRise_shows {h : Hw} (stays : h.dev.boot.st ≠ .supplyUp ∨ h.dev.boot.inReset = true) :
    h.pgoodRise = h.onPower fun p => { p with pgood := true } := by
  refine if_neg fun enters => ?_
  obtain ⟨st, released⟩ := enters
  cases stays with
  | inl other => exact other st
  | inr held => exact Bool.noConfusion (released.symm.trans held)

/-- Settles O5: each command of the supply stands behind a gate that its hypotheses open. -/
theorem supplyAndReset : Obligations.SupplyAndReset := by
  unfold Obligations.SupplyAndReset
  refine ⟨⟨fun s mv off untripped => ?_, fun s => rfl, fun s t mv powered hot => ?_, fun s t tripped outside cool => ?_⟩,
    fun s up released => ?_, fun s up held => ?_, fun s works => ?_, fun s held pgood => ?_, fun s held down => ?_⟩
  · exact next_neg (by simp [Hw.powered, off, untripped])
  · refine (next_neg (by simpa [Hw.powered] using powered)).trans ((next_pos (trips hot)).trans ?_)
    simp only [Hw.trip, Hw.inMw, Hw.unpowered]
  · exact next_pos (by simp only [tripped, outside, cooled cool]; rfl)
  · refine (next_pos up).trans ?_
    rw [Hw.pgoodRise_enters (h := s.hw.onPower _) up released]
    rfl
  · refine (next_pos up).trans ?_
    rw [Hw.pgoodRise_shows (h := s.hw.onPower _) (.inr held)]
    rfl
  · obtain ⟨powered, outside, released⟩ := works_parts works
    exact next_pos (by simp [powered, outside, released])
  · refine (next_pos held).trans ?_
    rw [Hw.resetEnds_pgood pgood, ← jtagReleased_eq]
    rfl
  · refine (next_pos held).trans ?_
    rw [Hw.resetEnds_down down, ← jtagReleased_eq]
    rfl

/-! ## Monitoring (O6) -/

/-- A command of the supply changes no channel's state: the record registers move beside its effect alone. -/
theorem Completes.bySuppliedIs {i : Instr} {s : State} (f : Hw → Hw) {e : Hw} {Q : Hw → Prop} (run : exec i s = supplied s f)
    (w : s.hw.works = true) (regs : ∀ g < 6, (f s.hw).devReg (0x10C0 + 4 * g) = s.hw.devReg (0x10C0 + 4 * g))
    (effect : (f s.hw).is e) (rest : Q ((f s.hw).settle s.hw allChans)) : Completes i s fun t => t.is e ∧ Q t :=
  .bySupplied f run w ⟨(Hw.quiet_settle _ _ _ regs).trans effect, rest⟩

theorem Hw.railOut_on {h : Hw} (w : h.works = true) (armed : h.dev.power.armed = true) {r : Fin 4} (ok : h.dev.power.railOk[r] = true) :
    h.railOut r = ((h.onPower fun p => { p with railOk := p.railOk.set r false, pgood := false }).raiseSpine 11 clsD 0x73 r.val).devEvent
      (0x1080 + 4 * r.val) (14 + r.val) 0x00800000 := by
  have w' : (h.onPower fun p => { p with railOk := p.railOk.set r false, pgood := false }).works = true := w
  rw [Hw.railOut, if_neg (by simp [Hw.powered_of_works w, ok])]
  exact if_pos (by simp only [w', Hw.onPower_dev, armed]; rfl)

/-- A rail that is back, out of SUPPLY_UP: PGOOD rises with the last of the four. -/
theorem Hw.railIn_on {h : Hw} (w : h.works = true) (st : h.dev.boot.st ≠ .supplyUp) (armed : h.dev.power.armed = true) {r : Fin 4}
    (out : h.dev.power.railOk[r] = false) : ∃ u : Hw,
      h.railIn r = (u.onPower fun p => { p with pgood := p.pgood || p.railOk.all id })
      ∧ u = (h.onPower fun p => { p with railOk := p.railOk.set r true }).devEvent (0x1080 + 4 * r.val) (14 + r.val) 0x00400000 := by
  refine ⟨_, ?_, rfl⟩
  have w' : (h.onPower fun p => { p with railOk := p.railOk.set r true }).works = true := w
  rw [Hw.railIn, if_neg (by simp [Hw.powered_of_works w, out, armed])]
  simp only [w', if_true]
  generalize eq : (h.onPower fun p => { p with railOk := p.railOk.set r true }).devEvent (0x1080 + 4 * r.val) (14 + r.val) 0x00400000 = u
  have st' : u.dev.boot.st ≠ .supplyUp := by rw [← eq]; simpa using st
  cases all : u.dev.power.railOk.all id with
  | true =>
    rw [if_pos rfl, Hw.pgoodRise_shows (.inl st')]
    simp only [Hw.onPower, Hw.onDev, all, Bool.or_true]
  | false =>
    rw [if_neg (by simp)]
    simp only [Hw.onPower, Hw.onDev, all, Bool.or_false]

/-- What the events of the sensors and the collector leave, a sample leaves. -/
theorem Hw.sensed_keeps {γ : Type} (p : Hw → γ) (event : ∀ (u : Hw) (k : Fin 7) (d : Nat) (fl : Word), p (u.devEvent (0x1060 + 4 * k.val) d fl) = p u)
    (raise : ∀ (u : Hw) (c k a : Nat), p (u.raiseSpine 11 c k a) = p u)
    (power : ∀ (u : Hw) (a b : Vector Bool 7), p (u.onPower fun q => { q with warned := a, crit := b }) = p u)
    (h : Hw) (t : Temps) (w : Int) (cool : Bool) : p (h.sensed t w cool) = p h := by
  have events := foldl_keeps (fun (u : Hw) (k : Fin 7) =>
      if tevtFlags h.dev.power t w cool k = 0 then u else u.devEvent (0x1060 + 4 * k.val) (7 + k.val) (tevtFlags h.dev.power t w cool k)) p
    (fun u k => by split <;> [rfl; exact event _ _ _ _]) (List.finRange 7) h
  have crits (u : Hw) := foldl_keeps (fun (u : Hw) (k : Fin 7) =>
      if quarters 125 ≤ tempAt t k ∧ h.dev.power.crit[k] = false then u.raiseSpine 11 clsD 0x71 k.val else u) p
    (fun u k => by split <;> [exact raise _ _ _ _; rfl]) (List.finRange 7) u
  unfold Hw.sensed
  dsimp only
  refine (power _ _ _).trans ((crits _).trans (.trans ?_ events))
  split
  · rfl
  · split
    · exact raise _ _ _ _
    · rfl

/-- What a sample of the sensors shows: the readings, THERM_N's episode, and nothing of the channels (R391, R457). -/
theorem Hw.sampled_keeps {γ : Type} (p : Hw → γ) (event : ∀ (u : Hw) (k : Fin 7) (d : Nat) (fl : Word), p (u.devEvent (0x1060 + 4 * k.val) d fl) = p u)
    (raise : ∀ (u : Hw) (c k a : Nat), p (u.raiseSpine 11 c k a) = p u)
    (power : ∀ (u : Hw) (a b : Vector Bool 7), p (u.onPower fun q => { q with warned := a, crit := b }) = p u)
    (h : Hw) (t : Temps) (mv : BitVec 16) : p (h.sampled t mv) = p (h.onPower fun q =>
      { q with temp := t, vinMv := mv
               warn := (List.finRange 7).any (fun k => decide (h.warnAt ≤ tempAt t k))
                 || (q.warn && !(List.finRange 7).all fun k => decide (tempAt t k < h.warnAt - quarters 5)) }) := by
  unfold Hw.sampled
  dsimp only
  split
  · exact Hw.sensed_keeps p event raise power _ t _ _
  · rfl

/-- The readings after a sample, on the working module and off it. -/
def Hw.Shows (u h : Hw) (t : Temps) (mv : BitVec 16) : Prop :=
  u.dev.power.temp = t ∧ u.dev.power.vinMv = mv ∧ u.dev.power.railOk = h.dev.power.railOk
    ∧ u.dev.power.warn = ((List.finRange 7).any (fun k => decide (h.warnAt ≤ tempAt t k))
        || (h.dev.power.warn && !(List.finRange 7).all fun k => decide (tempAt t k < h.warnAt - quarters 5)))
    ∧ u.dev.boot = h.dev.boot ∧ u.dev.fuses = h.dev.fuses ∧ u.dev.root = h.dev.root ∧ u.dev.sys = h.dev.sys
    ∧ ∀ c, (u.chan c).quiet = (h.chan c).quiet

theorem Hw.sampled_shows (h : Hw) (t : Temps) (mv : BitVec 16) : (h.sampled t mv).Shows h t mv := by
  have power {γ : Type} (p : Power → γ) (same : ∀ (q : Power) (a b : Vector Bool 7), p { q with warned := a, crit := b } = p q) :=
    Hw.sampled_keeps (fun u => p u.dev.power) (by simp) (by simp) (fun u a b => same u.dev.power a b) h t mv
  have dev {γ : Type} (p : Hw → γ) (event : ∀ (u : Hw) (k : Fin 7) (d : Nat) (fl : Word), p (u.devEvent (0x1060 + 4 * k.val) d fl) = p u)
      (raise : ∀ (u : Hw) (c k a : Nat), p (u.raiseSpine 11 c k a) = p u) (same : ∀ (u : Hw) (f : Power → Power), p (u.onPower f) = p u) :=
    (Hw.sampled_keeps p event raise (fun u a b => same u _) h t mv).trans (same h _)
  exact ⟨power (·.temp) fun _ _ _ => rfl, power (·.vinMv) fun _ _ _ => rfl, power (·.railOk) fun _ _ _ => rfl, power (·.warn) fun _ _ _ => rfl,
    dev (·.dev.boot) (by simp) (by simp) (by simp), dev (·.dev.fuses) (by simp) (by simp) (by simp), dev (·.dev.root) (by simp) (by simp) (by simp),
    dev (·.dev.sys) (by simp) (by simp) (by simp), fun c => dev (fun u => (u.chan c).quiet) (by simp) (by simp) (by simp)⟩

theorem Hw.sampled_stateEvents (h : Hw) (t : Temps) (mv : BitVec 16) (g : Nat) :
    (h.sampled t mv).devReg (0x10C0 + 4 * g) = h.devReg (0x10C0 + 4 * g) := by
  refine Hw.sampled_keeps (·.devReg (0x10C0 + 4 * g)) (fun u k d fl => ?_) (by simp) (by simp) h t mv
  have other : 0x10C0 + 4 * g ≠ 0x1060 + 4 * k.val := by omega
  simp [other]

theorem Hw.Shows.settle {u h : Hw} {t : Temps} {mv : BitVec 16} (shows_ : u.Shows h t mv)
    (regs : ∀ g < 6, u.devReg (0x10C0 + 4 * g) = h.devReg (0x10C0 + 4 * g)) (cs : List ChanId) : (u.settle h cs).Shows h t mv := by
  obtain ⟨temp, vin, rail, warn, boot, fuses, root, sys, chans⟩ := shows_
  refine ⟨by simpa using temp, by simpa using vin, by simpa using rail, by simpa using warn, by simpa using boot, by simpa using fuses,
    by simpa using root, by simpa using sys, fun c => ?_⟩
  rw [← Hw.quiet_chan, Hw.quiet_settle u h cs regs, Hw.quiet_chan, chans c]

theorem tempSample_shows {s : State} {t : Temps} {mv : BitVec 16} (powered : s.hw.dev.boot.st ≠ .powerOff) (cool : ∀ k : Fin 7, t[k].toInt < 560) :
    Completes (.tempSample t mv) s fun u => u.Shows s.hw t mv := by
  have run : exec (.tempSample t mv) s = .next { s with hw := if s.hw.works then (s.hw.sampled t mv).settle s.hw allChans else s.hw.sampled t mv } :=
    (next_neg (by simpa [Hw.powered] using powered)).trans (next_neg (by simp [not_trips cool]))
  refine .of run ?_
  have now := s.hw.sampled_shows t mv
  split
  · exact now.settle (fun g _ => s.hw.sampled_stateEvents t mv g) _
  · exact now

/-- Settles O6: a rail's command changes the supply and its event register, and a sample's episode is `hot` or the old one not yet `cool`. -/
theorem supplyMonitored : Obligations.SupplyMonitored := by
  unfold Obligations.SupplyMonitored
  refine ⟨⟨fun s r works armed ok => ?_, fun s r works st armed out => ?_, fun s works => ?_, fun s works low => ?_⟩,
    fun s t mv powered below => ?_⟩
  · refine .bySuppliedIs (·.railOut (railNum r)) rfl works (fun g _ => ?_) ?_ ?_ <;> rw [Hw.railOut_on works armed ok]
    · have other : 0x10C0 + 4 * g ≠ 0x1080 + 4 * (railNum r).val := by omega
      simp [other]
    · simp [Hw.is]
    · simp [Hw.tookMsg, Hw.raiseSpine_slots (h := s.hw.onPower _) (Hw.inMw_of_works works)]
  · obtain ⟨u, run, event⟩ := Hw.railIn_on works st armed out
    refine .bySuppliedIs (·.railIn (railNum r)) rfl works (fun g _ => ?_) ?_ ?_ <;> rw [run, event]
    · have other : 0x10C0 + 4 * g ≠ 0x1080 + 4 * (railNum r).val := by omega
      simp [other]
    · simp only [Hw.is, Hw.quiet_onPower, Hw.quiet_devEvent, Hw.quiet_setDevReg, Hw.onPower_devReg]
      rfl
    · simp [Hw.noMsg]
  · exact .of (next_pos works) (by simp [Hw.is, Hw.noMsg])
  · exact .of ((next_pos works).trans (next_pos low)) (by simp [Hw.is, Hw.noMsg])
  · refine (tempSample_shows powered below).mono fun u ⟨temp, vin, rail, warn, boot, fuses, root, sys, chans⟩ =>
      ⟨temp, vin, rail, fun ⟨k, hot⟩ => ?_, fun cool => ?_, fun ⟨k, warm⟩ mild => ?_, boot, fuses, root, sys, chans⟩
    · rw [warn, List.any_eq_true.2 ⟨k, List.mem_finRange k, decide_eq_true hot⟩, Bool.true_or]
    · have notHot : ((List.finRange 7).any fun k => decide (s.hw.warnAt ≤ tempAt t k)) = false :=
        List.any_eq_false.2 fun k _ hot => by have := cool k; have := of_decide_eq_true hot; simp only [tempAt] at this; omega
      have cooled : ((List.finRange 7).all fun k => decide (tempAt t k < s.hw.warnAt - quarters 5)) = true :=
        List.all_eq_true.2 fun k _ => decide_eq_true (cool k)
      rw [warn, notHot, cooled]
      simp
    · have notHot : ((List.finRange 7).any fun k => decide (s.hw.warnAt ≤ tempAt t k)) = false :=
        List.any_eq_false.2 fun k _ hot => absurd (of_decide_eq_true hot) (not_le.2 (mild k))
      have notCool : ((List.finRange 7).all fun k => decide (tempAt t k < s.hw.warnAt - quarters 5)) = false :=
        List.all_eq_false.2 ⟨k, List.mem_finRange k, fun cool => absurd (of_decide_eq_true cool) (not_lt.2 warm)⟩
      rw [warn, notHot, notCool]
      simp

/-! ## The triggers of Midwinter (O7) -/

theorem Hw.trigger_by {h : Hw} (powered : h.dev.boot.st ≠ .powerOff) (up : h.dev.boot.st ≠ .supplyUp) (w : h.inMw = false) (ch unit kind addr : Nat) :
    (h.trigger ch unit kind addr).MidwinterBy h (mkMsg ch unit clsM kind addr) := Hw.midwinter_by h _ _ _ powered up w

theorem Hw.trigger_works {h : Hw} (works : h.works = true) (up : h.dev.boot.st ≠ .supplyUp) (ch unit kind addr : Nat) :
    (h.trigger ch unit kind addr).MidwinterBy h (mkMsg ch unit clsM kind addr) :=
  Hw.trigger_by (by simpa [Hw.powered] using Hw.powered_of_works works) up (Hw.inMw_of_works works) ch unit kind addr

/-- Which trigger came first is the collector's to say. -/
theorem Hw.MidwinterBy.congr {t h u : Hw} {m : BitVec 64} (b : t.MidwinterBy u m) (fcl : u.dev.fcl = h.dev.fcl) : t.MidwinterBy h m :=
  ⟨b.entered, b.noKeys, b.idle, b.linkDown, fun first => b.trigger (by rw [fcl]; exact first)⟩

theorem exec_vGlitch {s : State} (r : Rail) (works : s.hw.works = true) (armed : s.hw.dev.power.armed = true) :
    exec (.vGlitch r) s = .next { s with hw := s.hw.trigger 63 11 0x7E (railNum r).val } := (next_pos works).trans (next_pos armed)

theorem exec_tamper {s : State} (live : s.hw.dev.boot.tamperLive = true) (outside : s.hw.inMw = false) :
    exec .tamper s = .next { s with hw := (s.hw.onBoot fun b => { b with st := .fuseSense }).trigger 63 20 0xE0 0 } :=
  next_pos (by rw [live, outside]; rfl)

theorem exec_clkGlitch {s : State} (works : s.hw.works = true) : exec .clkGlitch s = .next { s with hw := s.hw.trigger 63 16 0x4F 0 } := next_pos works

theorem exec_fuseSenseDone {s : State} (a b : List (BitVec 33)) (works : s.hw.works = true) :
    exec (.fuseSenseDone a b) s = .next { s with hw := s.hw.senseDone a b } := next_pos works

theorem Hw.senseDone_bad {h : Hw} {a b : List (BitVec 33)} (sense : h.dev.boot.st = .fuseSense) (idle : h.dev.fuses.op = none)
    (bad : senseBad a b none none = true) : h.senseDone a b = h.trigger 63 21 0x7F 0 := by
  rw [Hw.senseDone, if_neg (by simp [sense, idle]), if_pos bad, Hw.fuseInteg]

theorem exec_fuseResense {s : State} (a b : List (BitVec 33)) (works : s.hw.works = true) (latched : s.hw.fusesLatched = true)
    (bad : senseBad a b (some s.hw.dev.fuses.words) (s.hw.dev.fuses.op.map (·.1)) = true) :
    exec (.fuseResense a b) s = .next { s with hw := s.hw.trigger 63 21 0x7F 0 } := (next_pos works).trans (next_pos (by rw [latched, bad]; rfl))

theorem exec_fuseOpDone {s : State} (readBack : Bool) (powered : s.hw.powered = true) (outside : s.hw.inMw = false) :
    exec (.fuseOpDone readBack) s = .next { s with hw := s.hw.fusDone readBack } := next_pos (by rw [powered, outside]; rfl)

/-- A word that does not read back (R395). -/
theorem Hw.fusDone_failed {h : Hw} {i : Nat} {v : Word} (operation : h.dev.fuses.op = some (i, v)) : h.fusDone false
    = (h.onFuses fun f => { f with op := none, data := 0, result := 4, resetWaits := false }).trigger 63 21 0x7F 0 := by
  simp only [Hw.fusDone, operation, Hw.fuseInteg, Bool.not_false, if_true]

/-- Settles O7: each command comes to `Hw.trigger`, in a state that allows it. -/
theorem midwinterTriggers : Obligations.MidwinterTriggers := by
  unfold Obligations.MidwinterTriggers
  refine ⟨fun s r works up armed => ?_, fun s live outside => ?_, fun s works up => ?_, fun s a b works sense idle bad => ?_,
    fun s a b works up sense bad => ?_, fun s powered up outside op => ?_⟩
  · exact .of (exec_vGlitch r works armed) (Hw.trigger_works works up _ _ _ _)
  · refine .of (exec_tamper live outside) ?_
    exact (Hw.trigger_by (h := s.hw.onBoot _) (by simp) (by simp) (by simp [Hw.inMw]) _ _ _ _).congr rfl
  · exact .of (exec_clkGlitch works) (Hw.trigger_works works up _ _ _ _)
  · refine .of (exec_fuseSenseDone a b works) ?_
    rw [Hw.senseDone_bad sense idle bad]
    exact Hw.trigger_works works (by simp [sense]) _ _ _ _
  · exact .of (exec_fuseResense a b works (by simp [Hw.fusesLatched, up, sense]) bad) (Hw.trigger_works works up _ _ _ _)
  · obtain ⟨⟨i, v⟩, operation⟩ := Option.isSome_iff_exists.1 op
    refine .of (exec_fuseOpDone false (by simp [Hw.powered, powered]) outside) ?_
    rw [Hw.fusDone_failed operation]
    refine ⟨(Hw.trigger_by (h := s.hw.onFuses _) powered up outside _ _ _ _).congr rfl, ?_⟩
    simp [Hw.trigger, Hw.onFuses]

end Sys2Proof.Machine
end

section
/-!
PROOF. The islands, the senses and the read of a slot (O8, O9), on what the completion of a command leaves alone.
-/
namespace Sys2Proof.Machine

/-! ## What completions leave -/

section
variable {γ : Type} (p : Hw → γ) {port : Port}

/-- What is no bank's of a queue, nothing of the device queue, no level's, no device blob's and no latch's. -/
structure BesideBank (port : Port) : Prop where
  own : ∀ h m f, p (h.onQueue port fun q => q.onBank m f) = p h
  device : ∀ h f, p (h.onQueue .device f) = p h
  levels : ∀ h : Hw, p (h.qLevels port) = p h
  kbuf : ∀ h : Hw, p h.kbufDone = p h
  notify : ∀ h f src, p (Hw.notifyOne h f src) = p h

/-- What is no queue's, no level's, no device blob's and no latch's. -/
structure BesideQueue (port : Port) : Prop where
  own : ∀ h f, p (h.onQueue port f) = p h
  device : ∀ h f, p (h.onQueue .device f) = p h
  levels : ∀ h : Hw, p (h.qLevels port) = p h
  kbuf : ∀ h : Hw, p h.kbufDone = p h
  notify : ∀ h f src, p (Hw.notifyOne h f src) = p h

variable {p}

theorem ite_keeps {q : Prop} [Decidable q] {t u h : Hw} (a : p t = p h) (b : p u = p h) : p (if q then t else u) = p h := by
  split <;> assumption

theorem deliver_keeps {q : Port} (own : ∀ h m f, p (Hw.onQueue h q fun q => q.onBank m f) = p h) (levels : ∀ h : Hw, p (h.qLevels q) = p h)
    (notify : ∀ h f src, p (Hw.notifyOne h f src) = p h) (h : Hw) (m : Master) (w : BitVec 64) : p (h.deliver q m w) = p h := by
  have queued := (levels (h.onQueue q fun q => q.onBank m fun b => { b with cpl := b.cpl ++ [w] })).trans (own h m _)
  refine ite_keeps ?_ queued
  cases m with
  | pf0 => exact (notify _ _ _).trans queued
  | pf1 => exact (notify _ _ _).trans queued
  | _ => exact queued

theorem BesideBank.complete (k : BesideBank p port) (h : Hw) (x : Cmd) (status reason result : Nat) :
    p (h.complete port x status reason result) = p h := by
  unfold Hw.complete
  split
  · have first : p (if port = .device ∧ x.op = 0x10 then h.kbufDone else h) = p h := ite_keeps (k.kbuf h) rfl
    exact (ite_keeps (k.own _ _ _) (deliver_keeps k.own k.levels k.notify _ _ _)).trans first
  · have credit : p (h.credited port .isund) = p h := k.own h _ _
    dsimp only
    split
    · exact credit
    · refine (ite_keeps (k.device _ _) (deliver_keeps (fun h _ _ => k.device h _) (fun h => ?_) k.notify _ _ _)).trans ?_
      · rw [Hw.qLevels_device]
      · exact (ite_keeps (k.kbuf _) rfl).trans ((k.device _ _).trans credit)

theorem BesideQueue.bank (k : BesideQueue p port) : BesideBank p port := ⟨fun h _ _ => k.own h _, k.device, k.levels, k.kbuf, k.notify⟩

theorem BesideQueue.complete (k : BesideQueue p port) (h : Hw) (x : Cmd) (status reason result : Nat) :
    p (h.complete port x status reason result) = p h := k.bank.complete h x status reason result

theorem BesideQueue.finish (k : BesideQueue p port) (h : Hw) (sel : Cmd → Bool) (status reason result : Nat) :
    p (h.finish port sel status reason result) = p h :=
  (k.levels _).trans ((foldl_keeps _ p (fun h x => k.complete h x _ _ _) _ _).trans (k.own h _))

theorem BesideQueue.discardIf (k : BesideQueue p port) (h : Hw) (sel : Cmd → Bool) : p (h.discardIf port sel) = p h :=
  (foldl_keeps _ p (fun h x => k.complete h x _ _ _) _ _).trans (k.own h _)

theorem BesideQueue.discardAll (k : BesideQueue p port) (h : Hw) : p (h.discardAll port) = p h := (k.own _ _).trans (k.discardIf h _)

theorem BesideQueue.hold (k : BesideQueue p port) (h : Hw) (x : Cmd) : p (h.hold port x) = p h := (k.levels _).trans (k.own h _)

end

@[simp] theorem Hw.onQueue_boot (h : Hw) (q : Port) (f : CmdQ → CmdQ) : (h.onQueue q f).dev.boot = h.dev.boot := by cases q <;> rfl
@[simp] theorem Hw.onQueue_power (h : Hw) (q : Port) (f : CmdQ → CmdQ) : (h.onQueue q f).dev.power = h.dev.power := by cases q <;> rfl
@[simp] theorem Hw.onQueue_fuses (h : Hw) (q : Port) (f : CmdQ → CmdQ) : (h.onQueue q f).dev.fuses = h.dev.fuses := by cases q <;> rfl
@[simp] theorem Hw.onQueue_root (h : Hw) (q : Port) (f : CmdQ → CmdQ) : (h.onQueue q f).dev.root = h.dev.root := by cases q <;> rfl
@[simp] theorem Hw.onQueue_stn (h : Hw) (q : Port) (f : CmdQ → CmdQ) : (h.onQueue q f).dev.stn = h.dev.stn := by cases q <;> rfl
@[simp] theorem Hw.onQueue_sys (h : Hw) (q : Port) (f : CmdQ → CmdQ) : (h.onQueue q f).dev.sys = h.dev.sys := by cases q <;> rfl
@[simp] theorem Hw.onQueue_fcl (h : Hw) (q : Port) (f : CmdQ → CmdQ) : (h.onQueue q f).dev.fcl = h.dev.fcl := by cases q <;> rfl
@[simp] theorem Hw.onQueue_regs (h : Hw) (q : Port) (f : CmdQ → CmdQ) : (h.onQueue q f).dev.regs = h.dev.regs := by cases q <;> rfl
@[simp] theorem Hw.onQueue_link (h : Hw) (q : Port) (f : CmdQ → CmdQ) : (h.onQueue q f).dev.link = h.dev.link := by cases q <;> rfl
@[simp] theorem Hw.onQueue_flw (h : Hw) (q : Port) (f : CmdQ → CmdQ) : (h.onQueue q f).dev.flw = h.dev.flw := by cases q <;> rfl
@[simp] theorem Hw.onQueue_now (h : Hw) (q : Port) (f : CmdQ → CmdQ) : (h.onQueue q f).now = h.now := by cases q <;> rfl
@[simp] theorem Hw.onQueue_device_chan (h : Hw) (f : CmdQ → CmdQ) (c : ChanId) : (h.onQueue .device f).chan c = h.chan c := rfl
@[simp] theorem Hw.onQueue_devReg (h : Hw) (q : Port) (f : CmdQ → CmdQ) (o : Nat) : (h.onQueue q f).devReg o = h.devReg o := by simp [Hw.devReg, Dev.reg]

/-- A part of the spines beside the queues, the latches and the device blob. -/
theorem besideQueue_dev {γ : Type} (p : Dev → γ) (port : Port) (queue : ∀ (d : Dev) (q : CmdQ), p { d with q := q } = p d)
    (kbuf : ∀ (d : Dev) r, p { d with kbuf := [], routing := r } = p d) (levels : ∀ h : Hw, p (h.qLevels port).dev = p h.dev)
    (notify : ∀ h f src, p (Hw.notifyOne h f src).dev = p h.dev) : BesideQueue (fun h => p h.dev) port :=
  ⟨fun _ _ => match port with
    | .device => queue _ _
    | .chan _ => rfl, fun _ _ => queue _ _, levels, fun _ => kbuf _ _, notify⟩

/-- A channel beside the device queue. -/
theorem besideQueue_chan (c : ChanId) : BesideQueue (fun h => h.chan c) .device :=
  ⟨fun _ _ => rfl, fun _ _ => rfl, fun _ => rfl, fun _ => rfl, by simp⟩

/-- A channel beside the queue of another. -/
theorem besideQueue_other {c d : ChanId} (n : d ≠ c) : BesideQueue (fun h => h.chan d) (.chan c) :=
  ⟨fun h _ => by simp [Hw.onQueue, n], fun _ _ => rfl, fun h => h.qLevels_chan_ne c n, fun _ => rfl, by simp⟩

/-! ## The record registers -/

/-- The record registers move no channel beside their SEQ. -/
theorem Hw.settle_chan_quiet (h h0 : Hw) (cs : List ChanId) (c : ChanId) : ((h.settle h0 cs).chan c).quiet = (h.chan c).quiet := by
  refine Hw.settle_keeps (fun h => (h.chan c).quiet) (by simp) (by simp) (fun h d f => ?_) (fun h d f => ?_) (by simp) (by simp) h h0 cs
  all_goals
    simp only [Hw.onChan_chan]
    split
    · subst_vars; rfl
    · rfl

theorem tdrop_tins {α : Type} (k : Nat) (v : α) (t : Table α) : tdrop (tins k v t) k = tdrop t k := by
  induction t with
  | nil => simp [tins, tdrop]
  | cons e t ih =>
    simp only [tdrop, ne_eq, decide_not] at ih
    unfold tins
    split
    · simp [tdrop]
    · simp [tdrop, List.filter_cons, ih]

/-- The last of two writes to a key stands. -/
theorem tput_tput {α : Type} [DecidableEq α] (d : α) (t : Table α) (k : Nat) (v w : α) : tput d (tput d t k v) k w = tput d t k w := by
  have dropped : tdrop (tput d t k v) k = tdrop t k := by
    unfold tput
    split
    · simp [tdrop]
    · simp only [tdrop_tins]
      simp [tdrop]
  simp only [tput] at dropped ⊢
  rw [dropped]

theorem Hw.setDevReg_setDevReg (h : Hw) (o : Nat) (v w : Word) : (h.setDevReg o v).setDevReg o w = h.setDevReg o w := by
  simp only [Hw.setDevReg, Hw.onDev, Dev.setReg, tput_tput]

/-! ## Fields bit by bit -/

theorem getLsbD_fieldMask {hi lo i : Nat} (inside : i < 32) : (fieldMask hi lo).getLsbD i = decide (lo ≤ i ∧ i ≤ hi) := by
  rw [fieldMask, BitVec.getLsbD_ofNat, Nat.testBit_mul_two_pow, Nat.testBit_two_pow_sub_one, decide_eq_true inside, Bool.true_and,
    Bool.eq_iff_iff]
  simp only [Bool.and_eq_true, decide_eq_true_eq]
  omega

theorem bitOf_withField (w : Word) (hi lo v : Nat) {i : Nat} (inside : i < 32) :
    bitOf (withField w hi lo v) i = if lo ≤ i ∧ i ≤ hi then v.testBit (i - lo) else bitOf w i := by
  simp only [bitOf, withField, BitVec.getLsbD_or, BitVec.getLsbD_and, BitVec.getLsbD_not, getLsbD_fieldMask inside, BitVec.getLsbD_ofNat,
    Nat.testBit_mul_two_pow, decide_eq_true inside]
  by_cases field : lo ≤ i ∧ i ≤ hi
  · simp [field]
  · simp [field]

theorem testBit_fieldOf (w : Word) (hi lo i : Nat) : (fieldOf w hi lo).testBit i = (decide (i < hi + 1 - lo) && bitOf w (lo + i)) := by
  rw [fieldOf, Nat.testBit_mod_two_pow, Nat.testBit_div_two_pow, bitOf, BitVec.getLsbD, Nat.add_comm i lo]

/-- A field is the number whose bits it holds. -/
theorem fieldOf_eq {w : Word} {hi lo v : Nat} (small : v < 2 ^ (hi + 1 - lo)) (bits : ∀ i < hi + 1 - lo, bitOf w (lo + i) = v.testBit i) :
    fieldOf w hi lo = v := by
  refine Nat.eq_of_testBit_eq fun i => ?_
  rw [testBit_fieldOf]
  by_cases inside : i < hi + 1 - lo
  · simp [inside, bits i inside]
  · simp [inside, Nat.testBit_lt_two_pow (lt_of_lt_of_le small (Nat.pow_le_pow_right two_pos (not_lt.1 inside)))]

/-- A field below SEQ that no flag of the event overlaps shows what was put there. -/
theorem fieldOf_evWord_withField {w fl : Word} {hi lo v : Nat} (low : hi < 24) (small : v < 2 ^ (hi + 1 - lo))
    (apart : ∀ i, lo ≤ i → i ≤ hi → bitOf fl i = false) : fieldOf (evWord (withField w hi lo v) fl) hi lo = v := by
  refine fieldOf_eq small fun i inside => ?_
  rw [bitOf_evWord _ _ (by omega), bitOf_withField _ _ _ _ (by omega), apart _ (by omega) (by omega), if_pos (by omega), Bool.or_false]
  simp

/-! ## Islands (O8) -/

theorem Hw.islandEvent_quiet (h : Hw) (c : ChanId) (fl : Word) :
    (h.islandEvent c fl).quiet = h.quiet.setDevReg 0x101C (evWord (withField (h.devReg 0x101C) 5 0 c.val) fl) := by
  simp only [Hw.islandEvent, Hw.quiet_devEvent, Hw.quiet_setDevReg, Hw.setDevReg_devReg, if_true]
  exact Hw.setDevReg_setDevReg _ _ _ _

@[simp] theorem Hw.islandEvent_devReg (h : Hw) (c : ChanId) (fl : Word) (o : Nat) :
    (h.islandEvent c fl).devReg o = if o = 0x101C then evWord (withField (h.devReg 0x101C) 5 0 c.val) fl else h.devReg o := by
  simp only [Hw.islandEvent, Hw.devEvent_devReg, Hw.setDevReg_devReg]
  split <;> simp_all

@[simp] theorem Hw.islandEvent_power (h : Hw) (c : ChanId) (fl : Word) : (h.islandEvent c fl).dev.power = h.dev.power := by simp [Hw.islandEvent]
@[simp] theorem Hw.islandEvent_boot (h : Hw) (c : ChanId) (fl : Word) : (h.islandEvent c fl).dev.boot = h.dev.boot := by simp [Hw.islandEvent]
@[simp] theorem Hw.islandEvent_chan (h : Hw) (c : ChanId) (fl : Word) (d : ChanId) : (h.islandEvent c fl).chan d = h.chan d := by simp [Hw.islandEvent]
@[simp] theorem Hw.islandEvent_fcl (h : Hw) (c : ChanId) (fl : Word) : (h.islandEvent c fl).dev.fcl = h.dev.fcl := by simp [Hw.islandEvent]
@[simp] theorem Hw.islandEvent_sys (h : Hw) (c : ChanId) (fl : Word) : (h.islandEvent c fl).dev.sys = h.dev.sys := by simp [Hw.islandEvent]
@[simp] theorem Hw.islandEvent_now (h : Hw) (c : ChanId) (fl : Word) : (h.islandEvent c fl).now = h.now := by simp [Hw.islandEvent]

theorem chanOr0_val {n : Nat} {c : ChanId} (e : n = c.val) : chanOr0 n = c := by
  subst e
  simp [chanOr0, chanOf]

/-- The spines' power beside every queue. -/
theorem besideQueue_power (port : Port) : BesideQueue (fun h => h.dev.power) port :=
  besideQueue_dev (·.power) port (fun _ _ => rfl) (fun _ _ => rfl) (by simp) (by simp)

theorem Chan.quiet_blank (x : Chan) : x.quiet.blank = x.blank := rfl

theorem Chan.quiet_st (x : Chan) : x.quiet.st = x.st := rfl

theorem Chan.offState_blank (x : Chan) : x.offState.blank = true := rfl

theorem Hw.parkDone_power (h : Hw) (c : ChanId) : (h.parkDone c).dev.power = h.dev.power := by
  refine ((besideQueue_power .device).finish _ _ _ _ _).trans ?_
  simp [Hw.chgEvent]

theorem Hw.parkDone_chan (h : Hw) (c d : ChanId) : (h.parkDone c).chan d = if d = c then (h.chan c).offState else h.chan d := by
  refine ((besideQueue_chan d).finish _ _ _ _ _).trans ?_
  simp [Hw.chgEvent]

/-- The head of the queue has switched. -/
def Hw.headSwitched (h : Hw) (r : IslReq) (rest : List IslReq) (c : ChanId) : Hw :=
  ((h.onPower fun p => { p with islands := rest }).onChan c fun x => { x with island := r.on }).islandEvent c 0x00800000

theorem Hw.headSwitched_chan (h : Hw) (r : IslReq) (rest : List IslReq) (c d : ChanId) :
    (h.headSwitched r rest c).chan d = if d = c then { h.chan c with island := r.on } else h.chan d := by simp [Hw.headSwitched]

@[simp] theorem Hw.headSwitched_power (h : Hw) (r : IslReq) (rest : List IslReq) (c : ChanId) :
    (h.headSwitched r rest c).dev.power = { h.dev.power with islands := rest } := by simp [Hw.headSwitched]

@[simp] theorem Hw.headSwitched_boot (h : Hw) (r : IslReq) (rest : List IslReq) (c : ChanId) :
    (h.headSwitched r rest c).dev.boot = h.dev.boot := by simp [Hw.headSwitched]

@[simp] theorem Hw.headSwitched_devReg (h : Hw) (r : IslReq) (rest : List IslReq) (c : ChanId) (o : Nat) :
    (h.headSwitched r rest c).devReg o = if o = 0x101C then evWord (withField (h.devReg 0x101C) 5 0 c.val) 0x00800000 else h.devReg o := by
  simp [Hw.headSwitched]

/-- A switching of start-up that is not on its way to BARE is served, and does what it was for. -/
theorem Hw.islandDone_serves {h : Hw} {r : IslReq} {rest : List IslReq} {c : ChanId} (queue : h.dev.power.islands = r :: rest)
    (names : r.chan = c.val) (up : ((h.headSwitched r rest c).switchedFor c r).dev.boot.bareWhy = 0) :
    h.islandDone = (h.headSwitched r rest c).switchedFor c r := by
  simp only [Hw.islandDone, queue, chanOr0_val names]
  exact if_neg (by
    rw [Bool.and_eq_true, decide_eq_true_eq]
    exact fun bare => bare.2.1 up)

theorem exec_islandSwitchDone {s : State} {h : Hw} (works : s.hw.works = true) (serves : s.hw.islandDone = h) :
    exec .islandSwitchDone s = .next { s with hw := h.settle s.hw allChans } := by
  subst serves
  exact next_pos works

theorem besideQueue_boot (port : Port) : BesideQueue (fun h => h.dev.boot) port :=
  besideQueue_dev (·.boot) port (fun _ _ => rfl) (fun _ _ => rfl) (by simp) (by simp)

theorem Hw.parkDone_boot (h : Hw) (c : ChanId) : (h.parkDone c).dev.boot = h.dev.boot := by
  refine ((besideQueue_boot .device).finish _ _ _ _ _).trans ?_
  simp [Hw.chgEvent]

/-- An overcurrent opens the switch. -/
def Hw.opened (h : Hw) (c : ChanId) : Hw := (h.onChan c fun x => { x with island := false }).islandEvent c 0x00400000

theorem Hw.overcurrent_is (h : Hw) (c : ChanId) (cs : List ChanId) : (((h.opened c).raiseChan c 11 clsH 0x72 0).settle h cs).is
    ((h.onChan c fun x => { x with island := false }).setDevReg 0x101C (evWord (withField (h.devReg 0x101C) 5 0 c.val) 0x00400000)) := by
  rw [Hw.is, Hw.quiet_settle _ _ _ fun g _ => ?_]
  · rw [Hw.quiet_raiseChan, Hw.opened, Hw.islandEvent_quiet, Hw.quiet_setDevReg]
    rfl
  · have other : 0x10C0 + 4 * g ≠ 0x101C := by omega
    rw [Hw.raiseChan_devReg, Hw.opened, Hw.islandEvent_devReg, if_neg other]
    rfl

theorem Hw.overcurrent_tells {h : Hw} (works : h.works = true) (c : ChanId) (raises : (h.chan c).raises = true) (cs : List ChanId) :
    (((h.opened c).raiseChan c 11 clsH 0x72 0).settle h cs).tookMsg h (mkMsg c.val 11 clsH 0x72 0) := by
  have outside : (h.opened c).inMw = false := (congrArg (fun b : Boot => decide (b.st = .midwinter)) (by simp [Hw.opened])).trans (Hw.inMw_of_works works)
  have fcl : (h.opened c).dev.fcl = h.dev.fcl := by simp [Hw.opened]
  have sys : (h.opened c).dev.sys = h.dev.sys := by simp [Hw.opened]
  have now : (h.opened c).now = h.now := by simp [Hw.opened]
  have mine : ((h.opened c).chan c).raises = true := by
    rw [Hw.opened, Hw.islandEvent_chan, Hw.onChan_chan, if_pos rfl]
    exact raises
  rw [Hw.tookMsg, Hw.settle_fcl_slots, Hw.raiseChan_slots outside mine, fcl, sys, now]

/-- DEV.PWR_IEVT names the channel whose island has switched. -/
theorem Hw.headSwitched_reports (h : Hw) (r : IslReq) (rest : List IslReq) (c : ChanId) (cs : List ChanId) :
    bitOf (((h.headSwitched r rest c).settle h cs).devReg 0x101C) 23 = true
      ∧ fieldOf (((h.headSwitched r rest c).settle h cs).devReg 0x101C) 5 0 = c.val := by
  have flag : bitOf (0x00800000 : Word) 23 = true := by decide
  have apart : ∀ i ≤ 5, bitOf (0x00800000 : Word) i = false := by decide
  rw [Hw.settle_devReg _ _ _ _ (fun g _ => by omega), Hw.headSwitched_devReg, if_pos rfl]
  constructor
  · rw [bitOf_evWord _ _ (by omega), flag, Bool.or_true]
  · exact fieldOf_evWord_withField (by omega) (lt_of_lt_of_le c.isLt (by decide)) fun i _ => apart i

theorem Hw.islandDone_start {h : Hw} {r : IslReq} {rest : List IslReq} {c : ChanId} (queue : h.dev.power.islands = r :: rest)
    (names : r.chan = c.val) (why : r.why = .start) (up : h.dev.boot.bareWhy = 0) : h.islandDone = h.headSwitched r rest c := by
  have here : (h.headSwitched r rest c).switchedFor c r = h.headSwitched r rest c := by simp only [Hw.switchedFor, why]
  exact (Hw.islandDone_serves queue names (by rw [here, Hw.headSwitched_boot, up])).trans here

theorem Hw.islandDone_park {h : Hw} {r : IslReq} {rest : List IslReq} {c : ChanId} (queue : h.dev.power.islands = r :: rest)
    (names : r.chan = c.val) (why : r.why = .park) (up : h.dev.boot.bareWhy = 0) : h.islandDone = (h.headSwitched r rest c).parkDone c := by
  have here : (h.headSwitched r rest c).switchedFor c r = (h.headSwitched r rest c).parkDone c := by simp only [Hw.switchedFor, why]
  exact (Hw.islandDone_serves queue names (by rw [here, Hw.parkDone_boot, Hw.headSwitched_boot, up])).trans here

theorem Hw.parked_chan (h : Hw) (r : IslReq) (rest : List IslReq) (c d : ChanId) (cs : List ChanId) :
    ((((h.headSwitched r rest c).parkDone c).settle h cs).chan d).quiet = if d = c then (h.chan c).offState.quiet else (h.chan d).quiet := by
  rw [Hw.settle_chan_quiet, Hw.parkDone_chan, Hw.headSwitched_chan, Hw.headSwitched_chan, if_pos rfl]
  split <;> rfl

theorem exec_islandOc {s : State} {c : ChanId} (works : s.hw.works = true) (closed : (s.hw.chan c).island = true) :
    exec (.islandOc c) s = .next { s with hw := ((s.hw.opened c).raiseChan c 11 clsH 0x72 0).settle s.hw [c] } :=
  (next_pos works).trans (congrArg (fun h => Host.Outcome.next { s with hw := Hw.settle h s.hw [c] }) (if_pos closed))

/-- Settles O8: the request at the head is served by `Hw.islandDone`, and an overcurrent by its own command. -/
theorem islandsSwitch : Obligations.IslandsSwitch := by
  unfold Obligations.IslandsSwitch
  refine ⟨fun s r rest c works queue names why up => ?_, fun s r rest c works queue names why up => ?_, fun s c works raises closed => ?_⟩
  · obtain ⟨reported, named⟩ := s.hw.headSwitched_reports r rest c allChans
    refine .of (exec_islandSwitchDone works (Hw.islandDone_start queue names why up)) ⟨by simp, ?_, fun d other => ?_, reported, named⟩
    · rw [Hw.settle_chan_quiet, Hw.headSwitched_chan, if_pos rfl]
      rfl
    · rw [Hw.settle_chan_quiet, Hw.headSwitched_chan, if_neg other]
  · have left := (s.hw.parked_chan r rest c c allChans).trans (if_pos rfl)
    refine .of (exec_islandSwitchDone works (Hw.islandDone_park queue names why up))
      ⟨by simp [Hw.parkDone_power], left, ?_, ?_, fun d other => (s.hw.parked_chan r rest c d allChans).trans (if_neg other)⟩
    · rw [← Chan.quiet_st, left, Chan.quiet_st, Chan.offState]
    · rw [← Chan.quiet_blank, left, Chan.quiet_blank, Chan.offState_blank]
  · exact .of (exec_islandOc works closed) ⟨s.hw.overcurrent_is c _, s.hw.overcurrent_tells works c raises _⟩

/-! ## FUSE_SENSE and SPRING_LOAD (O9) -/

/-- A fold of writes holds what it wrote. -/
theorem tget_foldl_tput {α : Type} [DecidableEq α] (d : α) (f : Nat → α) (j : Nat) : ∀ (l : List Nat) (t : Table α),
    tget d (l.foldl (fun t i => tput d t i (f i)) t) j = if j ∈ l then f j else tget d t j
  | [], t => by simp
  | i :: l, t => by
    rw [List.foldl_cons, tget_foldl_tput d f j l, tget_tput]
    by_cases last : j ∈ l
    · simp [last]
    · by_cases here : j = i <;> simp [last, here]

/-- The words of a sense that passes are latched. -/
def Hw.latched (h : Hw) (a : List (BitVec 33)) : Hw :=
  (h.onFuses fun f => { f with words := (List.range 64).foldl (fun t i => tput 0 t i (senseWord a i)) [] }).onBoot fun x => { x with st := .rootLock }

theorem Hw.latched_fuseWord (h : Hw) (a : List (BitVec 33)) {i : Nat} (word : i < 64) : (h.latched a).fuseWord i = (a.getD i 0).truncate 32 :=
  (tget_foldl_tput 0 (senseWord a) i (List.range 64) []).trans (if_pos (List.mem_range.2 word))

theorem Hw.senseDone_passes {h : Hw} {a b : List (BitVec 33)} (sense : h.dev.boot.st = .fuseSense) (idle : h.dev.fuses.op = none)
    (passes : senseBad a b none none = false) : h.senseDone a b = h.latched a := by
  rw [Hw.senseDone, if_neg (by simp [sense, idle]), if_neg (by simp [passes])]
  rfl

/-- Settles O9: a passing sense writes its words one by one, and a finished read of a slot whose islands are on opens VERIFY. -/
theorem senseAndLoad : Obligations.SenseAndLoad := by
  unfold Obligations.SenseAndLoad
  refine ⟨fun s a b works sense idle passes => ?_, fun s a b works passes => ?_, fun s bytes works load up on => ?_⟩
  · refine .of ((exec_fuseSenseDone a b works).trans (by rw [Hw.senseDone_passes sense idle passes])) ?_
    exact ⟨fun i word => s.hw.latched_fuseWord a word, rfl, rfl, rfl, rfl, rfl, rfl, rfl, rfl⟩
  · exact (next_pos works).trans (next_neg (by simp [passes]))
  · exact (next_pos works).trans (next_pos (by simp [Hw.startsUp, load, up, on]))

end Sys2Proof.Machine
end

section
/-!
PROOF. Start-up from ROOT_LOCK to RUN (O10 to O13). The way to BARE is short while no island is on.
-/
namespace Sys2Proof.Machine

/-! ## What BARE and the read of a slot leave -/

/-- What a change of a channel's state and an island request leave. -/
structure BesideBare {γ : Type} (p : Hw → γ) : Prop where
  power : ∀ h f, p (Hw.onPower h f) = p h
  chan : ∀ h c st, p (Hw.onChan h c fun x => { x with st := st }) = p h
  event : ∀ h o d fl, p (Hw.devEvent h o d fl) = p h

section
variable {γ : Type} {p : Hw → γ}

theorem BesideBare.chState (k : BesideBare p) (h : Hw) (c : ChanId) (st : ChSt) : p (h.chState c st) = p h :=
  ite_keeps rfl ((k.event _ _ _ _).trans (k.chan _ _ _))

theorem BesideBare.shutIslands (k : BesideBare p) (h : Hw) : p h.shutIslands = p h :=
  (foldl_keeps _ p (fun h _ => ite_keeps (k.power h _) rfl) _ _).trans (k.power _ _)

theorem BesideBare.enterBare (k : BesideBare p) (h : Hw) : p h.enterBare = p (h.onBoot fun b => { b with st := .bare, runAt := h.now }) :=
  (k.event _ _ _ _).trans (foldl_keeps _ p (fun h c => k.chState h c _) _ _)

theorem BesideBare.readSlot (k : BesideBare p) (h : Hw) (b : Bool) :
    p (h.readSlot b) = p (h.onBoot fun x => { x with st := .springLoad, slotB := b, image := [] }) :=
  foldl_keeps _ p (fun h _ => ite_keeps (k.power h _) rfl) _ _

end

theorem besideBare_boot : BesideBare (·.dev.boot) := ⟨fun _ _ => rfl, fun _ _ _ => rfl, by simp⟩

theorem besideBare_root : BesideBare (·.dev.root) := ⟨fun _ _ => rfl, fun _ _ _ => rfl, by simp⟩

theorem besideBare_sys : BesideBare (·.dev.sys) := ⟨fun _ _ => rfl, fun _ _ _ => rfl, by simp⟩

theorem besideBare_fuses : BesideBare (·.dev.fuses) := ⟨fun _ _ => rfl, fun _ _ _ => rfl, by simp⟩

@[simp] theorem Hw.enterBare_boot (h : Hw) : h.enterBare.dev.boot = { h.dev.boot with st := .bare, runAt := h.now } := besideBare_boot.enterBare h

@[simp] theorem Hw.shutIslands_boot (h : Hw) : h.shutIslands.dev.boot = h.dev.boot := besideBare_boot.shutIslands h

@[simp] theorem Hw.readSlot_boot (h : Hw) (b : Bool) :
    (h.readSlot b).dev.boot = { h.dev.boot with st := .springLoad, slotB := b, image := [] } := besideBare_boot.readSlot h b

@[simp] theorem Hw.shutIslands_now (h : Hw) : h.shutIslands.now = h.now :=
  BesideBare.shutIslands ⟨fun _ _ => rfl, fun _ _ _ => rfl, by simp⟩ h

/-- The root, SYSCNT and the fuses on the way to BARE or to a slot. -/
structure Hw.SameRoot (t h : Hw) : Prop where
  root : t.dev.root = h.dev.root
  sys : t.dev.sys = h.dev.sys
  fuses : t.dev.fuses = h.dev.fuses

theorem Hw.SameRoot.trans {t u h : Hw} (a : t.SameRoot u) (b : u.SameRoot h) : t.SameRoot h :=
  ⟨a.root.trans b.root, a.sys.trans b.sys, a.fuses.trans b.fuses⟩

theorem Hw.onBoot_sameRoot (h : Hw) (f : Boot → Boot) : (h.onBoot f).SameRoot h := ⟨rfl, rfl, rfl⟩

theorem Hw.enterBare_sameRoot (h : Hw) : h.enterBare.SameRoot h :=
  ⟨besideBare_root.enterBare h, besideBare_sys.enterBare h, besideBare_fuses.enterBare h⟩

theorem Hw.shutIslands_sameRoot (h : Hw) : h.shutIslands.SameRoot h :=
  ⟨besideBare_root.shutIslands h, besideBare_sys.shutIslands h, besideBare_fuses.shutIslands h⟩

theorem Hw.readSlot_sameRoot (h : Hw) (b : Bool) : (h.readSlot b).SameRoot h :=
  ⟨besideBare_root.readSlot h b, besideBare_sys.readSlot h b, besideBare_fuses.readSlot h b⟩

theorem Hw.toBare_sameRoot (h : Hw) (why : Nat) : (h.toBare why).SameRoot h := by
  have asked := (Hw.shutIslands_sameRoot (h.onBoot fun b => { b.loaded h.now with bareWhy := why })).trans (h.onBoot_sameRoot _)
  unfold Hw.toBare
  dsimp only
  split
  · exact (Hw.enterBare_sameRoot _).trans asked
  · exact asked

theorem Hw.raiseSpine_sameRoot (h : Hw) (u k n a : Nat) : (h.raiseSpine u k n a).SameRoot h := ⟨by simp, by simp, by simp⟩

/-- Start-up on its way to BARE keeps what it knew of the slots, and is there unless an island must first be switched off. -/
theorem Hw.toBare_boot (h : Hw) (why : Nat) : (h.toBare why).dev.boot = { h.dev.boot.loaded h.now with bareWhy := why }
    ∨ (h.toBare why).dev.boot = { h.dev.boot.loaded h.now with bareWhy := why, st := .bare, runAt := h.now } := by
  unfold Hw.toBare
  dsimp only
  split
  · exact .inr (by simp)
  · exact .inl (by simp)

/-- Nothing is to be switched off. -/
def Hw.allOff (h : Hw) : Prop := h.dev.power.islands = [] ∧ ∀ c, (h.chan c).island = false

theorem Hw.shutIslands_allOff {h : Hw} (off : h.allOff) : h.shutIslands.dev.power.islands = [] := by
  obtain ⟨none, open_⟩ := off
  have step (l : List ChanId) : ∀ u : Hw, u.dev.power.islands = [] → (∀ c, (u.chan c).island = false) → (l.foldl (fun h c =>
      if (h.chan c).island || h.dev.power.islands.any (fun r => r.on && decide (r.chan = c.val)) then h.askIsland c false .shut else h) u) = u := by
    induction l with
    | nil => exact fun u _ _ => rfl
    | cons c l ih =>
      intro u none open_
      rw [List.foldl_cons, if_neg (by simp [none, open_]), ih u none open_]
  rw [Hw.shutIslands]
  rw [step _ _ (by simp [none]) (by simpa using open_)]
  simp [none]

theorem Hw.toBare_allOff {h : Hw} (off : h.allOff) (why : Nat) :
    (h.toBare why).dev.boot = { h.dev.boot.loaded h.now with bareWhy := why, st := .bare, runAt := h.now } := by
  have empty := Hw.shutIslands_allOff (h := h.onBoot fun b => { b.loaded h.now with bareWhy := why }) off
  unfold Hw.toBare
  dsimp only
  rw [if_pos (by rw [empty]; rfl)]
  simp

/-! ## ROOT_LOCK (O10) -/

/-- The root PLL has locked, and SPRING_LOAD begins. -/
def Hw.rootLocked (h : Hw) (flash : FlashView) : Hw :=
  (h.onDev fun d =>
    { d with
      sys := if d.root.everLocked then d.sys else 0
      root := { d.root with everLocked := true, rootOk := true, pllLock := true, hold := false, slew := false, epStop := false, epGlitch := false, epUnlock := false } }).onBoot
    fun b => { b with st := .springLoad, loadAt := h.now, flash := flash }

/-- What the lock has brought, whatever slot is read or none. -/
structure Hw.LockShown (t h : Hw) : Prop where
  locked : t.dev.root.pllLock = true
  ever : t.dev.root.everLocked = true
  ok : t.dev.root.rootOk = true
  free : t.dev.root.hold = false
  slewed : t.dev.root.slew = false
  sys : t.dev.sys = if h.dev.root.everLocked then h.dev.sys else 0
  fuses : t.dev.fuses = h.dev.fuses

theorem Hw.SameRoot.lockShown {t h : Hw} {f : FlashView} (same : t.SameRoot (h.rootLocked f)) : t.LockShown h := by
  obtain ⟨root, sys, fuses⟩ := same
  exact ⟨by rw [root]; rfl, by rw [root]; rfl, by rw [root]; rfl, by rw [root]; rfl, by rw [root]; rfl, sys, fuses⟩

/-- The reasons and the order of the slots are noted. -/
def Hw.slotsNoted (h : Hw) (a b : Byte) (o : List Bool) : Hw :=
  h.onBoot fun x => { x with whyA := a, whyB := b, toTry := o, firstTried := o.head? }

/-- The slot that R400 puts first. -/
theorem slotOrder_head {a b : Byte} (valid : a = 0 ∨ b = 0) (arbA arbB : Nat) :
    (slotOrder a b arbA arbB).head? = some (decide (b = 0 ∧ (a = 0 → arbA < arbB))) := by
  unfold slotOrder
  split
  · next both =>
    obtain ⟨rfl, rfl⟩ := both
    split <;> simp [*]
  · next notBoth =>
    split
    · next x =>
      have y : b ≠ 0 := fun y => notBoth ⟨x, y⟩
      rw [decide_eq_false fun z => y z.1]
      rfl
    · next x =>
      obtain y : b = 0 := valid.resolve_left x
      rw [if_pos y, decide_eq_true ⟨y, fun z => absurd z x⟩]
      rfl

theorem slotOrder_none {a b : Byte} (x : a ≠ 0) (y : b ≠ 0) (arbA arbB : Nat) : slotOrder a b arbA arbB = [] := by
  rw [slotOrder, if_neg fun both => x both.1, if_neg x, if_neg y]

section
variable {h : Hw}

theorem Hw.chooseSlot_reads {a b : Byte} (atA : hdrCheck (h.thermo 38) (h.thermo 40) (h.slotHdr false) = a)
    (atB : hdrCheck (h.thermo 38) (h.thermo 40) (h.slotHdr true) = b) (valid : a = 0 ∨ b = 0) : ∃ o,
    h.chooseSlot = (h.slotsNoted a b o).readSlot
      (decide (b = 0 ∧ (a = 0 → imgCfgArb (h.slotHdr false) < imgCfgArb (h.slotHdr true)))) := by
  have head := slotOrder_head valid (imgCfgArb (h.slotHdr false)) (imgCfgArb (h.slotHdr true))
  simp only [Hw.chooseSlot, atA, atB]
  cases order : slotOrder a b (imgCfgArb (h.slotHdr false)) (imgCfgArb (h.slotHdr true)) with
  | nil => simp [order] at head
  | cons s rest =>
    rw [order, List.head?_cons, Option.some.injEq] at head
    rw [← head]
    exact ⟨s :: rest, rfl⟩

theorem Hw.chooseSlot_bare {a b : Byte} (atA : hdrCheck (h.thermo 38) (h.thermo 40) (h.slotHdr false) = a)
    (atB : hdrCheck (h.thermo 38) (h.thermo 40) (h.slotHdr true) = b) (x : a ≠ 0) (y : b ≠ 0) :
    h.chooseSlot = (h.slotsNoted a b []).toBare 1 := by
  simp only [Hw.chooseSlot, atA, atB, slotOrder_none x y]
  rfl

end

theorem exec_rootLock {s : State} {h : Hw} {sha : Bool} {f : FlashView} (works : s.hw.works = true) (locks : s.hw.rootLocks sha f = h) :
    exec (.rootLock sha f) s = .next { s with hw := h.settle s.hw allChans } := by
  subst locks
  exact next_pos works

theorem Hw.rootLocks_eq {h : Hw} (st : h.dev.boot.st = .rootLock) (sha : Bool) (f : FlashView) : h.rootLocks sha f =
    if !sha then (h.rootLocked f).spineKat.toBare 2
    else if !f.sfdpOk then (((h.rootLocked f).setWhy false 0x0C).setWhy true 0x0C).toBare 1
    else (h.rootLocked f).chooseSlot := by
  rw [Hw.rootLocks, if_neg (not_not.2 st)]
  rfl

section
variable {h : Hw} {f : FlashView}

theorem Hw.rootLocks_noSha (st : h.dev.boot.st = .rootLock) : h.rootLocks false f = (h.rootLocked f).spineKat.toBare 2 :=
  (Hw.rootLocks_eq st false f).trans (if_pos rfl)

theorem Hw.rootLocks_noSfdp (st : h.dev.boot.st = .rootLock) (sfdp : f.sfdpOk = false) :
    h.rootLocks true f = (((h.rootLocked f).setWhy false 0x0C).setWhy true 0x0C).toBare 1 :=
  (Hw.rootLocks_eq st true f).trans ((if_neg (by decide)).trans (if_pos (by simp [sfdp])))

theorem Hw.rootLocks_chooses (st : h.dev.boot.st = .rootLock) (sfdp : f.sfdpOk = true) : h.rootLocks true f = (h.rootLocked f).chooseSlot :=
  (Hw.rootLocks_eq st true f).trans ((if_neg (by decide)).trans (if_neg (by simp [sfdp])))

end

theorem Hw.setWhy_sameRoot (h : Hw) (b : Bool) (why : Byte) : (h.setWhy b why).SameRoot h := h.onBoot_sameRoot _

/-- A lock's outcome, the record registers settled. -/
theorem Hw.SameRoot.settled {t h : Hw} {f : FlashView} (same : t.SameRoot (h.rootLocked f)) (cs : List ChanId) :
    (t.settle h cs).LockShown h := Hw.SameRoot.lockShown (f := f) (.trans (u := t) ⟨by simp, by simp, by simp⟩ same)

theorem Hw.rootLocked_allOff {h : Hw} (off : h.allOff) (f : FlashView) : (h.rootLocked f).allOff := off

theorem Hw.spineKat_allOff {h : Hw} (off : h.allOff) : h.spineKat.allOff := by
  obtain ⟨none, open_⟩ := off
  exact ⟨by simpa [Hw.spineKat] using none, by simpa [Hw.spineKat] using open_⟩

@[simp] theorem Hw.spineKat_boot (h : Hw) : h.spineKat.dev.boot = h.dev.boot := by simp [Hw.spineKat]

theorem Hw.setWhy_allOff {h : Hw} (off : h.allOff) (b : Bool) (why : Byte) : (h.setWhy b why).allOff := off

/-- What ROOT_LOCK ends in: the slot that R400 chooses, or BARE with its reason; `a` and `b` are what the headers check to. -/
def Boot.Chosen (x : Boot) (sha : Bool) (f : FlashView) (a b : Byte) : Prop :=
  (sha = true → f.sfdpOk = true → a = 0 ∨ b = 0 →
      x.st = .springLoad ∧ x.whyA = a ∧ x.whyB = b ∧ x.slotB = decide (b = 0 ∧ (a = 0 → imgCfgArb f.hdrA < imgCfgArb f.hdrB)))
  ∧ (sha = true → f.sfdpOk = true → a ≠ 0 → b ≠ 0 → x.st = .bare ∧ x.bareWhy = 1 ∧ x.whyA = a ∧ x.whyB = b)
  ∧ (sha = true → f.sfdpOk = false → x.st = .bare ∧ x.bareWhy = 1 ∧ x.whyA = 0x0C ∧ x.whyB = 0x0C)
  ∧ (sha = false → x.st = .bare ∧ x.bareWhy = 2)

/-- ROOT_LOCK's change of the hardware. -/
theorem Hw.rootLocks_spec {h : Hw} (st : h.dev.boot.st = .rootLock) (off : h.allOff) (sha : Bool) (f : FlashView) :
    (h.rootLocks sha f).SameRoot (h.rootLocked f) ∧ (h.rootLocks sha f).dev.boot.loadAt = h.now
      ∧ (h.rootLocks sha f).dev.boot.Chosen sha f (hdrCheck (h.thermo 38) (h.thermo 40) f.hdrA) (hdrCheck (h.thermo 38) (h.thermo 40) f.hdrB) := by
  have off : (h.rootLocked f).allOff := Hw.rootLocked_allOff off f
  have atA : hdrCheck ((h.rootLocked f).thermo 38) ((h.rootLocked f).thermo 40) ((h.rootLocked f).slotHdr false)
    = hdrCheck (h.thermo 38) (h.thermo 40) f.hdrA := rfl
  have atB : hdrCheck ((h.rootLocked f).thermo 38) ((h.rootLocked f).thermo 40) ((h.rootLocked f).slotHdr true)
    = hdrCheck (h.thermo 38) (h.thermo 40) f.hdrB := rfl
  generalize hdrCheck (h.thermo 38) (h.thermo 40) f.hdrA = a at atA ⊢
  generalize hdrCheck (h.thermo 38) (h.thermo 40) f.hdrB = b at atB ⊢
  cases sha with
  | false =>
    rw [Hw.rootLocks_noSha st, Hw.toBare_allOff (Hw.spineKat_allOff off), Hw.spineKat_boot]
    exact ⟨(Hw.toBare_sameRoot _ _).trans (Hw.raiseSpine_sameRoot _ _ _ _ _), rfl, nofun, nofun, nofun, fun _ => ⟨rfl, rfl⟩⟩
  | true =>
    cases sfdp : f.sfdpOk with
    | false =>
      rw [Hw.rootLocks_noSfdp st sfdp, Hw.toBare_allOff (Hw.setWhy_allOff (Hw.setWhy_allOff off _ _) _ _)]
      exact ⟨(Hw.toBare_sameRoot _ _).trans ((Hw.setWhy_sameRoot _ _ _).trans (Hw.setWhy_sameRoot _ _ _)), rfl,
        fun _ ok => Bool.noConfusion (sfdp.symm.trans ok), fun _ ok => Bool.noConfusion (sfdp.symm.trans ok), fun _ _ => ⟨rfl, rfl, rfl, rfl⟩, nofun⟩
    | true =>
      rw [Hw.rootLocks_chooses st sfdp]
      by_cases valid : a = 0 ∨ b = 0
      · obtain ⟨o, reads⟩ := Hw.chooseSlot_reads atA atB valid
        rw [reads, Hw.readSlot_boot]
        exact ⟨(Hw.readSlot_sameRoot _ _).trans (Hw.onBoot_sameRoot _ _), rfl, fun _ _ _ => ⟨rfl, rfl, rfl, rfl⟩,
          fun _ _ x y => absurd valid (not_or.2 ⟨x, y⟩), fun _ bad => Bool.noConfusion (sfdp.symm.trans bad), nofun⟩
      · obtain ⟨x, y⟩ := not_or.1 valid
        rw [Hw.chooseSlot_bare atA atB x y, Hw.toBare_allOff (h := (h.rootLocked f).slotsNoted a b []) off]
        exact ⟨(Hw.toBare_sameRoot _ _).trans (Hw.onBoot_sameRoot _ _), rfl, fun _ _ v => absurd v valid,
          fun _ _ _ _ => ⟨rfl, rfl, rfl, rfl⟩, fun _ bad => Bool.noConfusion (sfdp.symm.trans bad), nofun⟩

/-- Settles O10, by the ways out of ROOT_LOCK: no island is on, so a way to BARE ends there. -/
theorem rootLockChoosesSlot : Obligations.RootLockChoosesSlot := by
  unfold Obligations.RootLockChoosesSlot
  intro s sha f works st none open_ a b
  obtain ⟨same, load, chosen⟩ := Hw.rootLocks_spec st ⟨none, open_⟩ sha f
  obtain ⟨locked, ever, ok, free, slewed, sys, fuses⟩ := same.settled allChans
  refine .of (exec_rootLock works rfl) ⟨locked, ever, ok, free, slewed, sys, by simpa using load, fuses, ?_⟩
  rw [Hw.settle_boot]
  exact chosen

/-! ## VERIFY (O11) -/

/-- The reason noted for a slot. -/
def Boot.why (x : Boot) (slot : Bool) : Byte := if slot then x.whyB else x.whyA

/-- VERIFY passes a slot. -/
structure Boot.Passed (x : Boot) (h : Hw) (slot : Bool) (rest : List Bool) : Prop where
  st : x.st = .selfTest
  imageOk : x.imageOk = true
  ownerOk : x.ownerOk = !h.ownBlank
  image : x.image = h.dev.boot.image
  fallback : x.fallback = decide (h.dev.boot.firstTried ≠ some slot)
  loadFor : x.loadFor = h.now - h.dev.boot.loadAt
  why : x.why slot = 0
  other : rest = [!slot] → x.why (!slot) = 0x0E

/-- A slot passes, and the valid one that was not tried is noted. -/
def Hw.slotsVerified (h : Hw) (slot : Bool) (rest : List Bool) : Hw := rest.foldl (fun h o => h.setWhy o 0x0E) (h.setWhy slot 0)

/-- The slot that passes, before a fallback is told. -/
def Hw.slotPassed (h : Hw) (slot : Bool) (rest : List Bool) : Hw :=
  (h.slotsVerified slot rest).onBoot fun b =>
    { b.loaded (h.slotsVerified slot rest).now with
      st := .selfTest, imageOk := true, ownerOk := !(h.slotsVerified slot rest).ownBlank, fallback := decide (h.dev.boot.firstTried ≠ some slot)
      toTry := [], sram := fwBody b.image 0x01 }

theorem Boot.loaded_verify {b : Boot} (st : b.st = .verify) (now : Nat) : b.loaded now = { b with loadFor := now - b.loadAt } :=
  if_pos (.inr st)

theorem Hw.slotPassed_passed {h : Hw} {slot : Bool} {rest : List Bool} (st : h.dev.boot.st = .verify) (left : rest = [] ∨ rest = [!slot]) :
    (h.slotPassed slot rest).dev.boot.Passed h slot rest := by
  rcases left with rfl | rfl <;> cases slot <;> simp only [Hw.slotPassed, Hw.slotsVerified, Hw.onBoot_dev, List.foldl, Hw.setWhy]
  all_goals
    rw [Boot.loaded_verify (by simp [st])]
    exact ⟨rfl, rfl, rfl, rfl, rfl, rfl, rfl, by simp [Boot.why]⟩

theorem Hw.slotPassed_sameRoot (h : Hw) (slot : Bool) (rest : List Bool) : (h.slotPassed slot rest).SameRoot h := by
  have noted : ∀ (l : List Bool) (u : Hw), (l.foldl (fun h o => Hw.setWhy h o 0x0E) u).SameRoot u := by
    intro l
    induction l with
    | nil => exact fun u => ⟨rfl, rfl, rfl⟩
    | cons o l ih => exact fun u => (ih _).trans (u.setWhy_sameRoot o _)
  exact (Hw.onBoot_sameRoot _ _).trans ((noted rest _).trans (h.setWhy_sameRoot _ _))

theorem Hw.slotPassed_devReg (h : Hw) (slot : Bool) (rest : List Bool) (o : Nat) : (h.slotPassed slot rest).devReg o = h.devReg o :=
  foldl_keeps (fun h o => Hw.setWhy h o 0x0E) (fun u => u.devReg o) (fun _ _ => rfl) rest (h.setWhy slot 0)

theorem Hw.verifyPass_eq (h : Hw) (slot : Bool) (rest : List Bool) : h.verifyPass slot rest =
    if decide (h.dev.boot.firstTried ≠ some slot) then (h.slotPassed slot rest).devEvent 0x1004 0 0x00200000 else h.slotPassed slot rest := rfl

theorem Hw.verifyPass_spec {h : Hw} {slot : Bool} {rest : List Bool} (st : h.dev.boot.st = .verify) (left : rest = [] ∨ rest = [!slot]) :
    (h.verifyPass slot rest).dev.boot.Passed h slot rest ∧ (h.verifyPass slot rest).SameRoot h
      ∧ bitOf ((h.verifyPass slot rest).devReg 0x1004) 21 = (bitOf (h.devReg 0x1004) 21 || decide (h.dev.boot.firstTried ≠ some slot)) := by
  have flag : bitOf (0x00200000 : Word) 21 = true := by decide
  have passed := Hw.slotPassed_passed st left
  have same := h.slotPassed_sameRoot slot rest
  have reg := h.slotPassed_devReg slot rest 0x1004
  rw [Hw.verifyPass_eq]
  generalize h.slotPassed slot rest = u at passed same reg ⊢
  split
  · next fb =>
    refine ⟨by simpa using passed, .trans ⟨by simp, by simp, by simp⟩ same, ?_⟩
    rw [Hw.devEvent_devReg, if_pos rfl, bitOf_evWord _ _ (by omega), flag, reg, fb]
  · next first =>
    exact ⟨passed, same, by rw [reg, Bool.eq_false_iff.2 first, Bool.or_false]⟩

/-- VERIFY fails a slot. -/
structure Boot.Failed (x : Boot) (h : Hw) (slot : Bool) (rest : List Bool) (why : Byte) : Prop where
  why : x.why slot = why
  image : x.image = []
  imageOk : x.imageOk = h.dev.boot.imageOk
  next : rest = [!slot] → x.st = .springLoad ∧ x.slotB = !slot ∧ x.bareWhy = 0
  bare : rest = [] → x.bareWhy = 1

/-- A slot fails, and the image store is discarded. -/
def Hw.slotFailed (h : Hw) (slot : Bool) (why : Byte) (rest : List Bool) : Hw :=
  (h.setWhy slot why).onBoot fun b => { b with image := [], toTry := rest }

theorem Hw.slotFailed_sameRoot (h : Hw) (slot : Bool) (why : Byte) (rest : List Bool) : (h.slotFailed slot why rest).SameRoot h :=
  (Hw.onBoot_sameRoot _ _).trans (Hw.setWhy_sameRoot _ _ _)

theorem Hw.slotFailed_why (h : Hw) (slot : Bool) (why : Byte) (rest : List Bool) : (h.slotFailed slot why rest).dev.boot.why slot = why := by
  cases slot <;> rfl

theorem Hw.slotFailed_keeps (h : Hw) (slot : Bool) (why : Byte) (rest : List Bool) :
    (h.slotFailed slot why rest).dev.boot.st = h.dev.boot.st ∧ (h.slotFailed slot why rest).dev.boot.bareWhy = h.dev.boot.bareWhy
      ∧ (h.slotFailed slot why rest).dev.boot.imageOk = h.dev.boot.imageOk ∧ (h.slotFailed slot why rest).dev.boot.image = [] := by
  cases slot <;> exact ⟨rfl, rfl, rfl, rfl⟩

theorem Hw.verifyFail_spec {h : Hw} {slot : Bool} {rest : List Bool} (verify : h.dev.boot.st = .verify) (up : h.dev.boot.bareWhy = 0)
    (left : rest = [] ∨ rest = [!slot]) (why : Byte) :
    (h.verifyFail slot why rest).dev.boot.Failed h slot rest why ∧ (h.verifyFail slot why rest).SameRoot h := by
  have noted := h.slotFailed_why slot why rest
  obtain ⟨st, bare, imageOk, image⟩ := h.slotFailed_keeps slot why rest
  have same := h.slotFailed_sameRoot slot why rest
  rcases left with rfl | rfl
  · have fails : h.verifyFail slot why [] = (h.slotFailed slot why []).toBare 1 := rfl
    rw [fails]
    generalize h.slotFailed slot why [] = u at noted st bare imageOk image same
    refine ⟨?_, (u.toBare_sameRoot 1).trans same⟩
    obtain boot | boot := u.toBare_boot 1
    all_goals
      rw [boot, Boot.loaded_verify (st.trans verify)]
      exact ⟨noted, image, imageOk, by simp, fun _ => rfl⟩
  · have fails : h.verifyFail slot why [!slot] = (h.slotFailed slot why [!slot]).shutIslands.readSlot !slot := rfl
    rw [fails]
    generalize h.slotFailed slot why [!slot] = u at noted st bare imageOk image same
    refine ⟨?_, (Hw.readSlot_sameRoot _ _).trans (u.shutIslands_sameRoot.trans same)⟩
    rw [Hw.readSlot_boot, Hw.shutIslands_boot]
    exact ⟨noted, rfl, imageOk, fun _ => ⟨rfl, rfl, bare.trans up⟩, nofun⟩

theorem Hw.verifyEnds_eq {h : Hw} {slot : Bool} {rest : List Bool} (verify : h.dev.boot.st = .verify) (up : h.dev.boot.bareWhy = 0)
    (next : h.dev.boot.toTry = slot :: rest) : h.verifyEnds true =
      if verifyImage h.dev.boot.image (h.hashWords 0) (h.hashWords 12) = 0 then h.verifyPass slot rest
      else h.verifyFail slot (verifyImage h.dev.boot.image (h.hashWords 0) (h.hashWords 12)) rest := by
  rw [Hw.verifyEnds]
  simp only [next, Hw.startsUp, verify, up]
  rfl

theorem exec_verify {s : State} {h : Hw} {ok : Bool} (works : s.hw.works = true) (ends : s.hw.verifyEnds ok = h) :
    exec (.verify ok) s = .next { s with hw := h.settle s.hw allChans } := by
  subst ends
  exact next_pos works

/-- Settles O11, by what a pass and a failure of the slot leave. -/
theorem verifyPassesOrFallsBack : Obligations.VerifyPassesOrFallsBack := by
  unfold Obligations.VerifyPassesOrFallsBack
  intro s slot rest works verify up next left why
  have ends := Hw.verifyEnds_eq verify up next
  by_cases passes : why = 0
  · obtain ⟨passed, same, told⟩ := Hw.verifyPass_spec verify left
    obtain ⟨st, imageOk, ownerOk, image, fallback, loadFor, slotWhy, otherWhy⟩ := passed
    refine .of (exec_verify works (ends.trans (if_pos passes))) ?_
    simp only [Hw.settle_boot, Hw.settle_fuses, Hw.settle_root, Hw.settle_sys]
    refine ⟨fun _ => ⟨st, imageOk, ownerOk, image, fallback, loadFor, slotWhy, fun o => ?_, ?_⟩, fun fails => absurd passes fails, same.fuses,
      same.root, same.sys⟩
    · have shown := otherWhy o
      cases slot <;> exact shown
    · rw [Hw.settle_devReg _ _ _ _ (fun g _ => by omega)]
      exact told
  · obtain ⟨failed, same⟩ := Hw.verifyFail_spec verify up left why
    obtain ⟨slotWhy, image, imageOk, onward, bare⟩ := failed
    refine .of (exec_verify works (ends.trans (if_neg passes))) ?_
    simp only [Hw.settle_boot, Hw.settle_fuses, Hw.settle_root, Hw.settle_sys]
    exact ⟨fun pass => absurd pass passes, fun _ => ⟨slotWhy, image, imageOk, onward, bare⟩, same.fuses, same.root, same.sys⟩

/-! ## SELF_TEST (O12) -/

theorem besideBare_slots : BesideBare (·.dev.fcl.slots) := ⟨fun _ _ => rfl, fun _ _ _ => rfl, by simp⟩

theorem besideBare_cph (c : ChanId) : BesideBare fun h => (h.chan c).cph :=
  ⟨fun _ _ => rfl, fun h d st => by rw [Hw.onChan_chan]; split <;> [(subst_vars; rfl); rfl], by simp⟩

/-- A property that no boot state, channel state or request shows passes to BARE as it is. -/
theorem BesideBare.toBare {γ : Type} {p : Hw → γ} (k : BesideBare p) (boot : ∀ h f, p (Hw.onBoot h f) = p h) (h : Hw) (why : Nat) :
    p (h.toBare why) = p h := by
  have asked := (k.shutIslands (h.onBoot fun b => { b.loaded h.now with bareWhy := why })).trans (boot h _)
  unfold Hw.toBare
  dsimp only
  split
  · exact (k.enterBare _).trans ((boot _ _).trans asked)
  · exact asked

theorem Hw.toBare_bareWhy (h : Hw) (why : Nat) : (h.toBare why).dev.boot.bareWhy = why := by
  obtain boot | boot := h.toBare_boot why <;> rw [boot]

theorem Hw.toBare_slots (h : Hw) (why : Nat) : (h.toBare why).dev.fcl.slots = h.dev.fcl.slots := besideBare_slots.toBare (fun _ _ => rfl) h why

theorem Hw.toBare_cph (h : Hw) (why : Nat) (c : ChanId) : ((h.toBare why).chan c).cph = (h.chan c).cph :=
  (besideBare_cph c).toBare (fun _ _ => rfl) h why

section
variable {h : Hw}

theorem Hw.startsUp_iff {st : BootSt} : h.startsUp st = true ↔ h.dev.boot.st = st ∧ h.dev.boot.bareWhy = 0 := by simp [Hw.startsUp]

theorem allChans_filter_eq (c : ChanId) : (allChans.filter fun d => d == c) = [c] := by
  rw [List.filter_beq, allChans, List.count_eq_one_of_mem (List.nodup_finRange 48) (List.mem_finRange c)]
  rfl

theorem Hw.selfTested_passes (up : h.startsUp .selfTest = true) : h.selfTested [] =
    if h.dev.boot.ownerOk then h.onBoot fun b => { b with st := .bringUp } else h.toBare 3 := by
  have none : (allChans.filter fun c => decide (c ∈ ([] : List ChanId) ∧ (h.chan c).st = .starting)) = [] := by simp
  rw [Hw.selfTested, if_neg (by simp [up])]
  simp only [none]
  rfl

/-- A channel's self-test fails. -/
def Hw.katFailed (h : Hw) (c : ChanId) : Hw := (h.onChan c fun x => { x with cph := { x.cph with katFail := true } }).evCph c 0x00010000

theorem Hw.selfTested_fails (up : h.startsUp .selfTest = true) {c : ChanId} (starting : (h.chan c).st = .starting) :
    h.selfTested [c] = ((h.katFailed c).raiseChan c 5 clsD 0x28 0).toBare 2 := by
  have one : (allChans.filter fun d => decide (d ∈ [c] ∧ (h.chan d).st = .starting)) = [c] := by
    refine .trans (List.filter_congr fun d _ => ?_) (allChans_filter_eq c)
    rw [Bool.eq_iff_iff, decide_eq_true_eq, beq_iff_eq, List.mem_singleton]
    exact ⟨And.left, fun here => ⟨here, here ▸ starting⟩⟩
  rw [Hw.selfTested, if_neg (by simp [up])]
  simp only [one]
  rfl

end

theorem exec_selfTest {s : State} {h : Hw} {l : List ChanId} (works : s.hw.works = true) (tested : s.hw.selfTested l = h) :
    exec (.selfTest l) s = .next { s with hw := h.settle s.hw allChans } := by
  subst tested
  exact next_pos works

theorem raises_of_starting {x : Chan} (a : x.st = .starting) : x.raises = true := by simp [Chan.raises, a]

theorem Hw.evCph_dev (h : Hw) (c : ChanId) (fl : Word) : (h.evCph c fl).dev.fcl = h.dev.fcl ∧ (h.evCph c fl).dev.boot = h.dev.boot
    ∧ (h.evCph c fl).dev.sys = h.dev.sys ∧ (h.evCph c fl).now = h.now := by simp [Hw.evCph]

theorem Hw.katFailed_chan {h : Hw} {c : ChanId} (starting : (h.chan c).st = .starting) :
    ((h.katFailed c).chan c).st = .starting ∧ ((h.katFailed c).chan c).cph.katFail = true := by
  simp [Hw.katFailed, Hw.evCph, starting]

/-- A self-test that fails is told in class D by its channel. -/
theorem Hw.katFailed_tells {h : Hw} (works : h.works = true) {c : ChanId} (starting : (h.chan c).st = .starting) :
    ((h.katFailed c).raiseChan c 5 clsD 0x28 0).tookMsg h (mkMsg c.val 5 clsD 0x28 0) := by
  obtain ⟨fcl, boot, sys, now⟩ := Hw.evCph_dev (h.onChan c fun x => { x with cph := { x.cph with katFail := true } }) c 0x00010000
  have outside : (h.katFailed c).inMw = false := (congrArg (fun b : Boot => decide (b.st = .midwinter)) boot).trans (Hw.inMw_of_works works)
  rw [Hw.tookMsg, Hw.raiseChan_slots outside (raises_of_starting (Hw.katFailed_chan starting).1), Hw.katFailed, fcl, sys, now]
  rfl

/-- Settles O12: no failing channel leads on, and a failing one raises KAT before BARE. -/
theorem selfTestDecides : Obligations.SelfTestDecides := by
  unfold Obligations.SelfTestDecides
  refine ⟨fun s works st up owner => ?_, fun s works st up owner => ?_, fun s c works st up starting => ?_⟩
  · have passes := (Hw.selfTested_passes (Hw.startsUp_iff.2 ⟨st, up⟩)).trans (if_pos owner)
    refine .of (exec_selfTest works passes) ⟨Hw.quiet_settle _ _ _ fun _ _ => rfl, ?_⟩
    rw [Hw.noMsg, Hw.settle_fcl_slots]
    rfl
  · have bare := (Hw.selfTested_passes (Hw.startsUp_iff.2 ⟨st, up⟩)).trans (if_neg (by simp [owner]))
    refine .of (exec_selfTest works bare) ⟨?_, ?_⟩
    · rw [Hw.settle_boot, Hw.toBare_bareWhy]
    · rw [Hw.noMsg, Hw.settle_fcl_slots, Hw.toBare_slots]
  · refine .of (exec_selfTest works (Hw.selfTested_fails (Hw.startsUp_iff.2 ⟨st, up⟩) starting)) ⟨?_, ?_, ?_⟩
    · rw [Hw.settle_boot, Hw.toBare_bareWhy]
    · rw [Hw.settle_chan_cph, Hw.toBare_cph, Hw.raiseChan_chan, (Hw.katFailed_chan starting).2]
    · rw [Hw.tookMsg, Hw.settle_fcl_slots, Hw.toBare_slots]
      exact Hw.katFailed_tells works starting

/-! ## BRING_UP (O13) -/

theorem exec_bringUp {s : State} {h : Hw} {fail : Bool} (works : s.hw.works = true) (up : s.hw.broughtUp fail = h) :
    exec (.bringUp fail) s = .next { s with hw := h.settle s.hw allChans } := by
  subst up
  exact next_pos works

/-- RUN is entered. -/
def Hw.enterRun (h : Hw) : Hw := (h.onBoot fun b => { b with st := .run, runAt := h.now, dSinceRun := false, arbDone := false }).stnOutputs

theorem Hw.stnOutputs_boot (h : Hw) : h.stnOutputs.dev.boot = h.dev.boot := by
  refine foldl_keeps _ (fun u : Hw => u.dev.boot) (fun u j => ?_) _ _
  dsimp only
  split
  · rfl
  · split
    · rfl
    · simp

theorem Hw.broughtUp_eq {h : Hw} (up : h.startsUp .bringUp = true) (fail : Bool) :
    h.broughtUp fail = if fail then h.applyDevCfg.toBare 4 else (allChans.foldl Hw.bringChan h.applyDevCfg).enterRun.devEvent 0x1004 0 0x00800000 := by
  have off : ¬ (!h.startsUp .bringUp) = true := by rw [up]; decide
  rw [Hw.broughtUp, if_neg off]
  generalize h.applyDevCfg = u
  rfl

theorem Hw.enterRun_boot (h : Hw) : h.enterRun.dev.boot = { h.dev.boot with st := .run, runAt := h.now, dSinceRun := false, arbDone := false } :=
  Hw.stnOutputs_boot _

/-- Settles O13: BRING_UP's last step enters RUN, and a core that fails leads to BARE. -/
theorem bringUpEntersRun : Obligations.BringUpEntersRun := by
  unfold Obligations.BringUpEntersRun
  have flag : bitOf (0x00800000 : Word) 23 = true := by decide
  refine ⟨fun s works st up => ?_, fun s works st up => ?_⟩
  · refine .of (exec_bringUp works (Hw.broughtUp_eq (Hw.startsUp_iff.2 ⟨st, up⟩) false)) ?_
    rw [if_neg Bool.false_ne_true]
    refine ⟨?_, ?_, ?_, ?_, ?_⟩
    · rw [Hw.settle_boot, Hw.devEvent_boot, Hw.enterRun_boot]
    · rw [Hw.settle_boot, Hw.devEvent_boot, Hw.enterRun_boot]
    · rw [Hw.settle_boot, Hw.devEvent_boot, Hw.enterRun_boot]
    · rw [Hw.settle_devReg _ _ _ _ (fun g _ => by omega), Hw.devEvent_devReg, if_pos rfl, bitOf_evWord _ _ (by omega), flag, Bool.or_true]
    · generalize s.hw.applyDevCfg = u
      rfl
  · refine .of (exec_bringUp works (Hw.broughtUp_eq (Hw.startsUp_iff.2 ⟨st, up⟩) true)) ?_
    rw [if_pos rfl, Hw.settle_boot, Hw.toBare_bareWhy]

end Sys2Proof.Machine
end

section
/-!
PROOF. The fuses' operations and arbiters (O14, O15), and the channel power commands (O16).
-/
namespace Sys2Proof.Machine

/-! ## Fuse operations (O14) -/

section
variable {h : Hw} {d : Word}

theorem Hw.reachesDev_works {m : Master} (reach : h.reachesDev m = true) : h.works = true :=
  Hw.works_of_reaches (Hw.reaches_of_reachesDev reach)

/-- PF0 reads and writes registers in RUN and BARE. -/
theorem Hw.reachesDev_pf0_st (reach : h.reachesDev .pf0 = true) : h.dev.boot.st = .run ∨ h.dev.boot.st = .bare := by
  have up := Hw.reaches_of_reachesDev reach
  simp only [Hw.reaches, Bool.and_eq_true, Bool.or_eq_true, decide_eq_true_eq] at up
  exact up.2.1.1

/-- PF0's write of DEV.FUS_PGM_CTL is taken: OP is kept. -/
def Hw.fusOp (h : Hw) (d : Word) : Hw := (h.bmx 1 0).setDevReg 0x2018 (d &&& 4)

theorem Hw.fusOp_devReg (h : Hw) (d : Word) : (h.fusOp d).devReg 0x2010 = h.devReg 0x2010 := by
  rw [Hw.fusOp, Hw.setDevReg_devReg, if_neg (by omega), Hw.bmx_devReg _ _ _ _ (by omega)]

theorem Hw.fusOp_dev (h : Hw) (d : Word) : (h.fusOp d).dev.fuses = h.dev.fuses ∧ (h.fusOp d).dev.power = h.dev.power
    ∧ (h.fusOp d).dev.boot = h.dev.boot ∧ (h.fusOp d).dev.fcl = h.dev.fcl ∧ (h.fusOp d).dev.sys = h.dev.sys
    ∧ (h.fusOp d).dev.pf0 = h.dev.pf0 ∧ (h.fusOp d).now = h.now ∧ (h.fusOp d).chans = h.chans := by
  refine ⟨by simp [Hw.fusOp], by simp [Hw.fusOp], by simp [Hw.fusOp], by simp [Hw.fusOp], by simp [Hw.fusOp], by simp [Hw.fusOp],
    by simp [Hw.fusOp], ?_⟩
  exact Hw.chans_ext fun c => by simp [Hw.fusOp]

/-- PF0's GO with the key, between operations, starts what OP names. -/
theorem fusCtl_go (reach : h.reachesDev .pf0 = true) (idle : h.dev.fuses.op = none) (key : fieldOf d 31 16 = 0xF05E) (go : bitOf d 0 = true) :
    fusCtl h .pf0 d = if bitOf d 2 then (h.fusOp d).fusSeal .pf0 else (h.fusOp d).fusProgram .pf0 := by
  have beat (f : Hw → Hw) : fusBeat h .pf0 0x2018 f = f (h.bmx 1 0) := by
    rw [fusBeat, if_neg (by simp [reach]), if_neg (by decide)]
    exact if_neg (by simp [idle])
  rw [fusCtl, beat]
  exact if_pos (by rw [go, decide_eq_true key]; rfl)

/-- The word that the operation of the register addresses. -/
theorem Hw.fusOp_index (h : Hw) (d : Word) : (h.fusOp d).devField 0x2010 5 0 = h.devField 0x2010 5 0 := by rw [Hw.devField, h.fusOp_devReg, Hw.devField]

theorem Hw.fusOp_sealed (h : Hw) (d : Word) : (h.fusOp d).sealed = h.sealed := by rw [Hw.sealed, (h.fusOp_dev d).1, Hw.sealed]

theorem Hw.fusOp_fuseWord (h : Hw) (d : Word) (i : Nat) : (h.fusOp d).fuseWord i = h.fuseWord i := by rw [Hw.fuseWord, (h.fusOp_dev d).1, Hw.fuseWord]

theorem Hw.fusProgram_starts (owner : ownerWord (h.devField 0x2010 5 0) = true) (open_ : h.sealed = false)
    (blank : h.fuseWord (h.devField 0x2010 5 0) = 0) (vin : 3000 ≤ h.dev.power.vinMv.toNat) (bits : h.dev.fuses.data ≠ 0) (m : Master) :
    h.fusProgram m = h.onFuses fun f => { f with op := some (h.devField 0x2010 5 0, f.data) } := by
  rw [Hw.fusProgram, if_neg (by simp [owner, open_, blank]), if_neg (by simp [Hw.vinTooLow, vin]), if_neg bits]
  rfl

theorem Hw.fusProgram_locked (locked : h.sealed = true ∨ h.fuseWord (h.devField 0x2010 5 0) ≠ 0) (m : Master) :
    h.fusProgram m = h.fusLocked m (h.devField 0x2010 5 0) := by
  refine if_pos ?_
  rw [Bool.or_eq_true, Bool.or_eq_true, decide_eq_true_eq]
  exact locked.elim (fun sealed => .inl (.inr sealed)) .inr

theorem Hw.fusSeal_starts (open_ : h.sealed = false) (own : h.fusesSet 12 12 = true) (kwk : h.fusesSet 24 8 = true)
    (vin : 3000 ≤ h.dev.power.vinMv.toNat) (st : h.dev.boot.st = .run ∨ h.dev.boot.st = .bare) (m : Master) :
    h.fusSeal m = h.onFuses fun f => { f with op := some (42, 7) } := by
  rw [Hw.fusSeal, if_neg (by simp [open_]), if_pos]
  simp [own, kwk, Hw.vinTooLow, vin, st]

/-- A locked word is told: RESULT 1, LOCKED_WR, DEV.FUS_EVT.LOCKED and the writer's flag (R395). -/
theorem Hw.fusLocked_shows (outside : h.inMw = false) (i : Nat) :
    (h.fusLocked .pf0 i).dev.fuses = { h.dev.fuses with result := 1 } ∧ (h.fusLocked .pf0 i).tookMsg h (mkMsg 63 21 clsN 0x62 i)
      ∧ bitOf ((h.fusLocked .pf0 i).devReg 0x2004) 22 = true ∧ (h.fusLocked .pf0 i).dev.pf0.wflags = h.dev.pf0.wflags ||| 1
      ∧ (h.fusLocked .pf0 i).chans = h.chans := by
  have flag : bitOf (0x00400000 : Word) 22 = true := by decide
  refine ⟨?_, ?_, ?_, ?_, ?_⟩
  · simp [Hw.fusLocked, Hw.fusResult, Hw.onFuses]
  · rw [Hw.tookMsg, Hw.fusLocked, Hw.ignored_fcl, Hw.devEvent_fcl, Hw.raiseSpine_slots (h := h.fusResult 1) outside]
    rfl
  · rw [Hw.fusLocked, Hw.ignored_devReg, Hw.devEvent_devReg, if_pos rfl, bitOf_evWord _ _ (by omega), flag, Bool.or_true]
  · have bank := Hw.flagged_bank (((h.fusResult 1).raiseSpine 21 clsN 0x62 i).devEvent 0x2004 20 0x00400000) .pf0 (wbit .locked) (devAddr 0x2018)
      (by decide)
    have same : (((h.fusResult 1).raiseSpine 21 clsN 0x62 i).devEvent 0x2004 20 0x00400000).dev.pf0 = h.dev.pf0 := by
      simp [Hw.fusResult, Hw.onFuses]
    have shown : (h.fusLocked .pf0 i).dev.pf0 = h.dev.pf0.ignore (wbit .locked) (devAddr 0x2018) := by
      rw [← same]
      exact bank
    rw [shown]
    rfl
  · exact Hw.chans_ext fun c => by simp [Hw.fusLocked, Hw.fusResult, Hw.onFuses]

/-- An operation that reads back. -/
theorem Hw.fusDone_ok {i : Nat} {v : Word} (op : h.dev.fuses.op = some (i, v)) (free : h.dev.fuses.resetWaits = false) : h.fusDone true =
    (h.onFuses fun f => { f with words := tput 0 f.words i (tget 0 f.words i ||| v), op := none, data := 0, result := 0 }).devEvent
      0x2004 20 0x00800000 := by
  have same : h.onFuses (fun f => { words := tput 0 f.words i (tget 0 f.words i ||| v), op := none, data := 0, result := 0 })
      = h.onFuses fun f => { f with words := tput 0 f.words i (tget 0 f.words i ||| v), op := none, data := 0, result := 0 } := by
    simp only [Hw.onFuses, Hw.onDev, free]
  simp only [Hw.fusDone, op, free]
  rw [← same]
  rfl

end

/-- PF0's GO: the operation acts on the state with OP kept. -/
theorem exec_fuseProgram {s : State} {d : Word} {t : Hw} (reach : s.hw.reachesDev .pf0 = true) (idle : s.hw.dev.fuses.op = none)
    (key : fieldOf d 31 16 = 0xF05E) (go : bitOf d 0 = true) (op : bitOf d 2 = false) (acts : (s.hw.fusOp d).fusProgram .pf0 = t) :
    exec (.fuseProgram .pf0 d) s = .next { s with hw := t } := by
  subst acts
  have ctl := (fusCtl_go reach idle key go).trans (if_neg (by simp [op]))
  rw [← ctl]
  exact next_pos (Hw.reachesDev_works reach)

theorem exec_fuseSeal {s : State} {d : Word} {t : Hw} (reach : s.hw.reachesDev .pf0 = true) (idle : s.hw.dev.fuses.op = none)
    (key : fieldOf d 31 16 = 0xF05E) (go : bitOf d 0 = true) (op : bitOf d 2 = true) (acts : (s.hw.fusOp d).fusSeal .pf0 = t) :
    exec (.fuseSeal .pf0 d) s = .next { s with hw := t } := by
  subst acts
  have ctl := (fusCtl_go reach idle key go).trans (if_pos op)
  rw [← ctl]
  exact next_pos (Hw.reachesDev_works reach)

theorem Hw.fusOp_fusesSet (h : Hw) (d : Word) (first n : Nat) : (h.fusOp d).fusesSet first n = h.fusesSet first n := by
  simp only [Hw.fusesSet, Hw.fusOp_fuseWord]

/-- Settles O14: each write of GO comes to `Hw.fusProgram` or `Hw.fusSeal` with OP kept, and an operation that reads back to `Hw.fusDone`. -/
theorem fusesProgrammed : Obligations.FusesProgrammed := by
  unfold Obligations.FusesProgrammed
  refine ⟨fun s d reach idle key go op owner open_ blank vin bits => ?_, fun s d reach idle key go op locked => ?_,
    fun s d reach idle key go op open_ own kwk vin => ?_, fun s i v powered outside op free => ?_⟩
  · obtain ⟨fuses, power, -⟩ := s.hw.fusOp_dev d
    have starts := Hw.fusProgram_starts (h := s.hw.fusOp d) (by rw [Hw.fusOp_index, owner]) (by rw [Hw.fusOp_sealed, open_])
      (by rw [Hw.fusOp_index, Hw.fusOp_fuseWord, blank]) (by rw [power]; exact vin) (by rw [fuses]; exact bits) .pf0
    rw [Hw.fusOp_index] at starts
    exact exec_fuseProgram reach idle key go op starts
  · obtain ⟨fuses, power, boot, fcl, sys, pf0, now, chans⟩ := s.hw.fusOp_dev d
    have outside : (s.hw.fusOp d).inMw = false :=
      (congrArg (fun b : Boot => decide (b.st = .midwinter)) boot).trans (Hw.inMw_of_works (Hw.reachesDev_works reach))
    obtain ⟨result, told, flagged, noted, same⟩ := Hw.fusLocked_shows outside (s.hw.devField 0x2010 5 0)
    rw [Hw.tookMsg, fcl, sys, now] at told
    refine .of (exec_fuseProgram reach idle key go op ((Hw.fusProgram_locked (h := s.hw.fusOp d) ?_ .pf0).trans (by rw [Hw.fusOp_index])))
      ⟨by rw [result, fuses], told, flagged, by rw [noted, pf0], by rw [same, chans]⟩
    rw [Hw.fusOp_sealed, Hw.fusOp_index, Hw.fusOp_fuseWord]
    exact locked
  · obtain ⟨fuses, power, boot, -⟩ := s.hw.fusOp_dev d
    exact exec_fuseSeal reach idle key go op (Hw.fusSeal_starts (by rw [Hw.fusOp_sealed, open_]) (by rw [Hw.fusOp_fusesSet, own])
      (by rw [Hw.fusOp_fusesSet, kwk]) (by rw [power]; exact vin) (by rw [boot]; exact Hw.reachesDev_pf0_st reach) .pf0)
  · refine .of (exec_fuseOpDone true (by simp [Hw.powered, powered]) outside) ?_
    rw [Hw.fusDone_ok op free]
    refine ⟨?_, ?_⟩
    · rw [Hw.is, Hw.quiet_devEvent, Hw.quiet_setDevReg]
      rfl
    · rw [Hw.noMsg, Hw.devEvent_fcl]
      rfl

/-! ## The thermometers (O15) -/

theorem sum_below (v : Nat) : ∀ n, ((List.range n).map fun i => b2n (decide (i < v))).sum = min v n
  | 0 => by simp
  | n + 1 => by
    rw [List.range_succ, List.map_append, List.sum_append, sum_below v n]
    by_cases below : n < v
    · simp [below, b2n]
      omega
    · simp [below, b2n]
      omega

/-- The bits of a word that count up to `v` from step `k` on. -/
theorem popcount_thermo (v k : Nat) : popcount 32 (BitVec.ofNat 32 ((2 ^ v - 1) / 2 ^ k)).toNat = min (v - k) 32 := by
  rw [← sum_below, popcount]
  refine congrArg List.sum (List.map_congr_left fun i mem => congrArg b2n ?_)
  rw [BitVec.toNat_ofNat, Nat.testBit_mod_two_pow, Nat.testBit_div_two_pow, Nat.testBit_two_pow_sub_one, decide_eq_true (List.mem_range.1 mem),
    Bool.true_and]
  exact decide_eq_decide.2 (by omega)

section
variable (h : Hw)

theorem Hw.setThermo_fuseWord (i v j : Nat) : (h.setThermo i v).fuseWord j =
    if j = i + 1 then BitVec.ofNat 32 ((2 ^ v - 1) / 2 ^ 32) else if j = i then BitVec.ofNat 32 (2 ^ v - 1) else h.fuseWord j := by
  simp only [Hw.setThermo, Hw.fuseWord, Hw.onFuses, Hw.onDev_dev, tget_tput]

theorem Hw.setThermo_thermo (i : Nat) {v : Nat} (steps : v ≤ 64) : (h.setThermo i v).thermo i = v := by
  have low := popcount_thermo v 0
  rw [Nat.pow_zero, Nat.div_one] at low
  rw [Hw.thermo, Hw.setThermo_fuseWord, Hw.setThermo_fuseWord, if_neg (by omega), if_pos rfl, if_pos rfl, low, popcount_thermo]
  omega

theorem Hw.setThermo_thermo_ne {i j : Nat} (v : Nat) (apart : j + 1 < i ∨ i + 1 < j) : (h.setThermo i v).thermo j = h.thermo j := by
  simp only [Hw.thermo, Hw.setThermo_fuseWord]
  rw [if_neg (by omega), if_neg (by omega), if_neg (by omega), if_neg (by omega)]

theorem Hw.devEvent_fuseWord (o d : Nat) (fl : Word) (i : Nat) : (h.devEvent o d fl).fuseWord i = h.fuseWord i := by
  rw [Hw.fuseWord, Hw.devEvent_fuses, Hw.fuseWord]

theorem Hw.devEvent_thermo (o d : Nat) (fl : Word) (i : Nat) : (h.devEvent o d fl).thermo i = h.thermo i := by
  simp only [Hw.thermo, Hw.devEvent_fuseWord]

/-- The second the arbiters have had their turn. -/
def Hw.arbTurn : Hw := h.onBoot fun x => { x with arbDone := true }

/-- The firmware's thermometer is advanced. -/
def Hw.arbFirm : Hw := (h.arbTurn.setThermo 38 (h.imageByte 132)).devEvent 0x2008 21 0x00800000

/-- The configuration's thermometer is advanced. -/
def Hw.arbCfg : Hw := (h.setThermo 40 (h.imageByte 13)).devEvent 0x2008 21 0x00400000

theorem Hw.arbFirm_imageByte (i : Nat) : h.arbFirm.imageByte i = h.imageByte i := by
  rw [Hw.imageByte, Hw.arbFirm, Hw.devEvent_boot]
  rfl

variable {h}

theorem Hw.arbAdvances_eq (run : h.dev.boot.st = .run) (clean : h.dev.boot.dSinceRun = false) (due : h.dev.boot.arbDone = false) :
    h.arbAdvances =
      if !h.behind 38 ((h.imageByte 133).testBit 0) (h.imageByte 132) && !h.behind 40 ((h.imageByte 7).testBit 0) (h.imageByte 13) then h.arbTurn
      else if h.vinTooLow then h.arbTurn.devEvent 0x2008 21 0x00200000
      else if h.behind 40 ((h.imageByte 7).testBit 0) (h.imageByte 13) then
        (if h.behind 38 ((h.imageByte 133).testBit 0) (h.imageByte 132) then h.arbFirm else h.arbTurn).arbCfg
      else if h.behind 38 ((h.imageByte 133).testBit 0) (h.imageByte 132) then h.arbFirm else h.arbTurn :=
  if_neg (by simp [run, clean, due])

theorem Hw.behind_of_less {i v : Nat} {commit : Bool} (asks : commit = true) (less : h.thermo i < v) : h.behind i commit v = true := by
  rw [Hw.behind, asks, decide_eq_true less]
  rfl

theorem Hw.arbAdvances_both (run : h.dev.boot.st = .run) (clean : h.dev.boot.dSinceRun = false) (due : h.dev.boot.arbDone = false)
    (vin : 3000 ≤ h.dev.power.vinMv.toNat) (fw : h.behind 38 ((h.imageByte 133).testBit 0) (h.imageByte 132) = true)
    (cfg : h.behind 40 ((h.imageByte 7).testBit 0) (h.imageByte 13) = true) : h.arbAdvances = h.arbFirm.arbCfg := by
  have up : h.vinTooLow = false := decide_eq_false (not_lt.2 vin)
  rw [Hw.arbAdvances_eq run clean due, fw, cfg, up]
  rfl

theorem Hw.arbAdvances_low (run : h.dev.boot.st = .run) (clean : h.dev.boot.dSinceRun = false) (due : h.dev.boot.arbDone = false)
    (vin : h.dev.power.vinMv.toNat < 3000) (fw : h.behind 38 ((h.imageByte 133).testBit 0) (h.imageByte 132) = true) :
    h.arbAdvances = h.arbTurn.devEvent 0x2008 21 0x00200000 := by
  have low : h.vinTooLow = true := decide_eq_true vin
  rw [Hw.arbAdvances_eq run clean due, fw, low]
  rfl

end

/-- Both thermometers after their advance, and what else it shows. -/
theorem Hw.arbBoth_shows {h : Hw} (firm : h.imageByte 132 ≤ 64) (cfg : h.imageByte 13 ≤ 64) :
    h.arbFirm.arbCfg.thermo 38 = h.imageByte 132 ∧ h.arbFirm.arbCfg.thermo 40 = h.imageByte 13
      ∧ h.arbFirm.arbCfg.dev.boot = { h.dev.boot with arbDone := true }
      ∧ bitOf (h.arbFirm.arbCfg.devReg 0x2008) 23 = true ∧ bitOf (h.arbFirm.arbCfg.devReg 0x2008) 22 = true
      ∧ (∀ i, i < 38 ∨ 41 < i → h.arbFirm.arbCfg.fuseWord i = h.fuseWord i) ∧ h.arbFirm.arbCfg.chans = h.chans := by
  have flags : bitOf (0x00800000 : Word) 23 = true ∧ bitOf (0x00400000 : Word) 22 = true := by decide
  obtain ⟨flag23, flag22⟩ := flags
  refine ⟨?_, ?_, ?_, ?_, ?_, fun i outside => ?_, ?_⟩
  · rw [Hw.arbCfg, Hw.devEvent_thermo, Hw.setThermo_thermo_ne _ _ (by omega), Hw.arbFirm, Hw.devEvent_thermo, Hw.setThermo_thermo _ _ firm]
  · rw [Hw.arbCfg, Hw.devEvent_thermo, Hw.arbFirm_imageByte, Hw.setThermo_thermo _ _ cfg]
  · simp [Hw.arbCfg, Hw.arbFirm, Hw.arbTurn, Hw.setThermo, Hw.onFuses]
  · rw [Hw.arbCfg, Hw.devEvent_devReg, if_pos rfl, bitOf_evWord _ _ (by omega)]
    have first : bitOf ((h.arbFirm.setThermo 40 (h.arbFirm.imageByte 13)).devReg 0x2008) 23 = true := by
      have same : (h.arbFirm.setThermo 40 (h.arbFirm.imageByte 13)).devReg 0x2008 = h.arbFirm.devReg 0x2008 := rfl
      rw [same, Hw.arbFirm, Hw.devEvent_devReg, if_pos rfl, bitOf_evWord _ _ (by omega), flag23, Bool.or_true]
    rw [first, Bool.true_or]
  · rw [Hw.arbCfg, Hw.devEvent_devReg, if_pos rfl, bitOf_evWord _ _ (by omega), flag22, Bool.or_true]
  · rw [Hw.arbCfg, Hw.devEvent_fuseWord, Hw.setThermo_fuseWord, if_neg (by omega), if_neg (by omega), Hw.arbFirm, Hw.devEvent_fuseWord,
      Hw.setThermo_fuseWord, if_neg (by omega), if_neg (by omega)]
    rfl
  · exact Hw.chans_ext fun c => by simp [Hw.arbCfg, Hw.arbFirm, Hw.arbTurn, Hw.setThermo, Hw.onFuses]

/-- Settles O15: both thermometers are behind, or VIN is low. -/
theorem arbitersAdvance : Obligations.ArbitersAdvance := by
  unfold Obligations.ArbitersAdvance
  refine ⟨fun s works run clean due vin firmAsks cfgAsks firmLess cfgLess firm cfg => ?_, fun s works run clean due vin asks less => ?_⟩
  · have advances := Hw.arbAdvances_both run clean due vin (Hw.behind_of_less firmAsks firmLess) (Hw.behind_of_less cfgAsks cfgLess)
    refine .of (next_pos works) ?_
    rw [advances]
    exact Hw.arbBoth_shows firm cfg
  · have skips := Hw.arbAdvances_low run clean due vin (Hw.behind_of_less asks less)
    have flag : bitOf (0x00200000 : Word) 21 = true := by decide
    refine .of (next_pos works) ?_
    rw [skips]
    refine ⟨by simp [Hw.arbTurn], ?_, by simp [Hw.arbTurn]⟩
    rw [Hw.devEvent_devReg, if_pos rfl, bitOf_evWord _ _ (by omega), flag, Bool.or_true]

/-! ## Channel power commands (O16) -/

/-- Of DEV.CH_EVT_g the record registers follow SEQ alone. -/
theorem Hw.settle_flag (h h0 : Hw) (cs : List ChanId) (o : Nat) {i : Nat} (flag : i < 24) :
    bitOf ((h.settle h0 cs).devReg o) i = bitOf (h.devReg o) i := by
  have change : bitOf ((h.oneChange h0).devReg o) i = bitOf (h.devReg o) i := by
    refine foldl_keeps _ (fun u : Hw => bitOf (u.devReg o) i) (fun u g => ?_) _ _
    dsimp only
    split
    · rfl
    · rw [Hw.setDevReg_devReg]
      split
      · subst_vars
        rw [bitOf_withField _ _ _ _ (by omega), if_neg (by omega)]
      · rfl
  have chan (u : Hw) (c : ChanId) : (u.settleChan h0 c).devReg o = u.devReg o := by
    unfold Hw.settleChan Hw.recStep
    dsimp only
    repeat' split
    all_goals simp
  have sum (u : Hw) (g : Fin 6) : (u.settleSum h0 g).devReg o = u.devReg o := by
    unfold Hw.settleSum
    split <;> simp
  unfold Hw.settle
  dsimp only
  rw [foldl_keeps _ (fun u : Hw => u.devReg o) sum]
  have chans : (cs.foldl (fun h c => h.settleChan h0 c) (h.oneChange h0)).devReg o = (h.oneChange h0).devReg o :=
    foldl_keeps _ (fun u : Hw => u.devReg o) chan _ _
  split
  · rw [chans, change]
  · have step (u : Hw) : u.drecStep.devReg o = u.devReg o := by simp [Hw.drecStep]
    rw [step, chans, change]

/-- A channel's change of state shows its bit in DEV.CH_EVT_g. -/
theorem Hw.chgEvent_flag (h : Hw) (c : ChanId) : bitOf ((h.chgEvent c).devReg (0x10C0 + 4 * (c.val / 8))) (c.val % 8) = true := by
  have small : c.val % 8 < 32 := by omega
  rw [Hw.chgEvent, Hw.devEvent_devReg, if_pos rfl, bitOf_evWord _ _ (by omega), bitOf, bitOf, BitVec.getLsbD_ofNat, Nat.testBit_two_pow_self,
    decide_eq_true small]
  simp

/-- A command of the device is taken to be carried out. -/
theorem Hw.carry_device {h : Hw} {sel : Cmd → Bool} {x : Cmd} (next : h.dev.q.run.find? sel = some x) (f : Cmd → Hw → Hw) :
    h.carry .device sel f = f x (h.onQueue .device fun q => { q with run := q.run.eraseP sel }) := by
  have taken : h.takeRun .device sel = some (x, h.onQueue .device fun q => { q with run := q.run.eraseP sel }) := by
    rw [Hw.takeRun, Hw.queue, next]
    rfl
  rw [Hw.carry, taken]

/-- A device command is taken and held until its island has switched. -/
def Hw.cmdHeld (h : Hw) (sel : Cmd → Bool) (x : Cmd) : Hw := (h.onQueue .device fun q => { q with run := q.run.eraseP sel }).hold .device x

theorem Hw.cmdHeld_q (h : Hw) (sel : Cmd → Bool) (x : Cmd) :
    (h.cmdHeld sel x).dev.q = { h.dev.q with run := h.dev.q.run.eraseP sel ++ [{ x with held := true }] } := rfl

theorem Hw.cmdHeld_chan (h : Hw) (sel : Cmd → Bool) (x : Cmd) (c : ChanId) : (h.cmdHeld sel x).chan c = h.chan c := rfl

theorem Hw.cmdHeld_power (h : Hw) (sel : Cmd → Bool) (x : Cmd) : (h.cmdHeld sel x).dev.power = h.dev.power := rfl


/-- CH_START of a PARKED channel begins. -/
def Hw.starts (h : Hw) (x : Cmd) (c : ChanId) : Hw := ((h.cmdHeld (fresh 0x60) x).chState c .starting).askIsland c true .start

/-- CH_DIAG of a channel that is off begins. -/
def Hw.diagnoses (h : Hw) (x : Cmd) (c : ChanId) : Hw :=
  ((h.cmdHeld (fresh 0x62) x).onChan c fun y => { y with wasAbsent := decide ((h.chan c).st = .absent) }).askIsland c true .diag

section
variable {h : Hw} {x : Cmd} {c : ChanId}

theorem Hw.chStart_begins (run : h.dev.boot.st = .run) (next : h.dev.q.run.find? (fresh 0x60) = some x) (names : x.chan.toNat = c.val)
    (parked : (h.chan c).st = .parked) : h.carry .device (fresh 0x60) (fun x h => h.startBegin x) = h.starts x c := by
  rw [Hw.carry_device next]
  generalize eq : (h.onQueue .device fun q => { q with run := q.run.eraseP (fresh 0x60) }) = u
  have st : u.dev.boot.st = .run := by rw [← eq]; exact run
  have here : (u.chan c).st = .parked := by rw [← eq]; exact parked
  rw [Hw.startBegin, if_neg (by simp [st]), chanOr0_val names]
  simp only [here]
  rw [Hw.starts, Hw.cmdHeld, eq]

theorem Hw.chPark_begins (next : h.dev.q.run.find? (fresh 0x61) = some x) (names : x.chan.toNat = c.val) (active : (h.chan c).st = .active) :
    h.carry .device (fresh 0x61) (fun x h => h.park x) = (h.cmdHeld (fresh 0x61) x).parkBegin c := by
  rw [Hw.carry_device next]
  generalize eq : (h.onQueue .device fun q => { q with run := q.run.eraseP (fresh 0x61) }) = u
  have here : (u.chan c).st = .active := by rw [← eq]; exact active
  rw [Hw.park, chanOr0_val names]
  simp only [here]
  rw [Hw.cmdHeld, eq]

theorem Hw.chDiag_begins (bare : h.dev.boot.st = .bare) (next : h.dev.q.run.find? (fresh 0x62) = some x) (names : x.chan.toNat = c.val)
    (enabled : h.chEn c = true) (off : (h.chan c).st = .parked ∨ (h.chan c).st = .absent) (free : ∀ r ∈ h.dev.power.islands, r.chan ≠ c.val) :
    h.carry .device (fresh 0x62) (fun x h => h.diag x) = h.diagnoses x c := by
  have none : (h.dev.power.islands.any fun r => decide (r.chan = c.val)) = false :=
    List.any_eq_false.2 fun r mem same => free r mem (of_decide_eq_true same)
  rw [Hw.carry_device next, Hw.diagnoses, Hw.cmdHeld]
  generalize eq : (h.onQueue .device fun q => { q with run := q.run.eraseP (fresh 0x62) }) = u
  have st : u.dev.boot.st = .bare := by rw [← eq]; exact bare
  have en : u.chEn c = true := by rw [← eq]; exact enabled
  have chan : u.chan c = h.chan c := by rw [← eq]; rfl
  have power : u.dev.power = h.dev.power := by rw [← eq]; rfl
  rw [Hw.diag, if_neg (by simp [st]), chanOr0_val names, if_neg (by simp [en]), if_neg (by rw [chan, power, none]; simp [off]), chan]

end

/-! ### Parking -/

/-- The work and the clear modes of a channel end. -/
def Hw.workEnded (h : Hw) (c : ChanId) : Hw :=
  (h.chan c).circ.foldl (fun h e => h.setClear c (BitVec.ofNat 13 e.1) false) (h.discardAll (.chan c))

/-- What the end of a channel's work leaves: what no completion and no end of clear mode touches. -/
theorem Hw.workEnded_keeps {γ : Type} {p : Hw → γ} (h : Hw) (c : ChanId) (k : BesideQueue p (.chan c))
    (clear : ∀ (h : Hw) (k : CircId), p (h.setClear c k false) = p h) : p (h.workEnded c) = p h :=
  (foldl_keeps _ p (fun u _ => clear u _) _ _).trans (k.discardAll h)

/-- A change of clear mode changes the circuit, its event register and the collector. -/
theorem Hw.setClear_keeps {γ : Type} {p : Hw → γ} (h : Hw) (c : ChanId) (k : CircId) (on : Bool) (circ : ∀ h f, p (Hw.onCirc h c k f) = p h)
    (raise : ∀ (h : Hw) (u k n a : Nat), p (h.raiseChan c u k n a) = p h) (event : ∀ (h : Hw) (o j : Nat) (fl : Word), p (h.chEvent c o j fl) = p h) :
    p (h.setClear c k on) = p h := by
  unfold Hw.setClear
  exact ite_keeps (circ _ _) ((event _ _ _ _).trans ((raise _ _ _ _ _).trans (circ _ _)))

/-- The cipher of a channel beside its queue and its completions. -/
theorem besideQueue_cph (c d : ChanId) : BesideQueue (fun h => (h.chan d).cph) (.chan c) :=
  ⟨fun h _ => by simp only [Hw.onQueue, Hw.onChan_chan]; split <;> [(subst_vars; rfl); rfl], fun _ _ => rfl, by simp, fun _ => rfl, by simp⟩

theorem Hw.workEnded_other {c d : ChanId} (other : d ≠ c) (h : Hw) : (h.workEnded c).chan d = h.chan d :=
  h.workEnded_keeps c (besideQueue_other other) fun h k =>
    h.setClear_keeps (p := fun u => u.chan d) c k false (by simp [other]) (by simp) fun h _ _ _ => h.chEvent_chan_ne c _ _ _ other

theorem Hw.workEnded_cph (h : Hw) (c : ChanId) : ((h.workEnded c).chan c).cph = (h.chan c).cph :=
  h.workEnded_keeps c (besideQueue_cph c c) fun h k => h.setClear_keeps (p := fun u => (u.chan c).cph) c k false (by simp) (by simp) (by simp)

theorem Hw.workEnded_power (h : Hw) (c : ChanId) : (h.workEnded c).dev.power = h.dev.power :=
  h.workEnded_keeps c (besideQueue_power _) fun h k => h.setClear_keeps (p := fun u => u.dev.power) c k false (by simp) (by simp) (by simp)

theorem CmdQ.onBank_wait (q : CmdQ) (m : Master) (f : CmdBank → CmdBank) : (q.onBank m f).wait = q.wait := by cases m <;> rfl

/-- A channel's commands beside its banks. -/
theorem besideBank_work (c : ChanId) : BesideBank (fun h => ((h.chan c).q.wait, (h.chan c).q.run)) (.chan c) :=
  ⟨fun h m f => by rw [Hw.onQueue_chan_q, CmdQ.onBank_wait, CmdQ.onBank_run], fun _ _ => rfl, by simp, fun _ => rfl, by simp⟩

theorem Hw.workEnded_work (h : Hw) (c : ChanId) : (((h.workEnded c).chan c).q.wait, ((h.workEnded c).chan c).q.run) = ([], []) := by
  have clears := foldl_keeps (fun h (e : Nat × Circ) => Hw.setClear h c (BitVec.ofNat 13 e.1) false) (fun u => ((u.chan c).q.wait, (u.chan c).q.run))
    (fun u _ => u.setClear_keeps (p := fun u => ((u.chan c).q.wait, (u.chan c).q.run)) c _ false (by simp) (by simp) (by simp)) (h.chan c).circ
    (h.discardAll (.chan c))
  refine clears.trans ?_
  have free : ∀ u : Hw, (((u.onQueue (.chan c) fun q => { q with busyTill := 0 }).chan c).q.wait,
      ((u.onQueue (.chan c) fun q => { q with busyTill := 0 }).chan c).q.run) = ((u.chan c).q.wait, (u.chan c).q.run) := by
    intro u
    rw [Hw.onQueue_chan_q]
  rw [Hw.discardAll, free, Hw.discardIf]
  refine (foldl_keeps _ (fun u : Hw => ((u.chan c).q.wait, (u.chan c).q.run)) (fun u x => (besideBank_work c).complete u x _ _ _) _ _).trans ?_
  rw [Hw.onQueue_chan_q]
  simp

/-- A channel that is parked. -/
def Chan.parking (x : Chan) : Chan :=
  { x with
    st := .parking, squelch := true, store := []
    circ := x.circ.map fun e => (e.1, { e.2.dead with quar := false })
    map := { x.map with pending := false }
    cph := { katFail := x.cph.katFail }
    mlt := {}
    flt := x.flt.close }

theorem Hw.parkBegin_asks {h : Hw} {c : ChanId} (free : h.waitsOn c = false) :
    h.parkBegin c = (((h.workEnded c).onChan c Chan.parking).chgEvent c).askIsland c false .park := by
  have free' : ¬ (((h.workEnded c).onChan c Chan.parking).chgEvent c).waitsOn c = true := by
    rw [Hw.waitsOn, Hw.chgEvent, Hw.devEvent_power, Hw.onChan_dev, Hw.workEnded_power, Bool.not_eq_true]
    exact free
  exact if_neg free'

/-- What the end of a channel's work and its parking leave of the module. -/
theorem Hw.parkBegin_shows {h : Hw} {c : ChanId} (free : h.waitsOn c = false) :
    (h.parkBegin c).dev.power = { h.dev.power with islands := h.dev.power.islands ++ [{ chan := c.val, on := false, why := .park }] }
      ∧ (∀ d, d ≠ c → (h.parkBegin c).chan d = h.chan d)
      ∧ bitOf ((h.parkBegin c).devReg (0x10C0 + 4 * (c.val / 8))) (c.val % 8) = true
      ∧ (h.parkBegin c).chan c = ((h.workEnded c).chan c).parking := by
  rw [Hw.parkBegin_asks free]
  refine ⟨?_, fun d other => ?_, ?_, ?_⟩
  · simp [Hw.askIsland, Hw.chgEvent, Hw.workEnded_power]
  · simp [Hw.askIsland, Hw.chgEvent, other, Hw.workEnded_other other]
  · rw [Hw.askIsland, Hw.onPower_devReg]
    exact Hw.chgEvent_flag _ c
  · simp [Hw.askIsland, Hw.chgEvent]

theorem any_of_find {α : Type} {p : α → Bool} {l : List α} {x : α} (next : l.find? p = some x) : l.any p = true :=
  List.any_eq_true.2 ⟨x, List.mem_of_find?_eq_some next, List.find?_some next⟩

section
variable {s : State} {t : Hw} {x : Cmd}

theorem exec_chStart {ok : Bool} (works : s.hw.works = true) (executes : s.hw.executes .device = true)
    (next : s.hw.dev.q.run.find? (fresh 0x60) = some x) (begins : s.hw.carry .device (fresh 0x60) (fun x h => h.startBegin x) = t) :
    exec (.chStart ok) s = .next { s with hw := t.settle s.hw allChans } := by
  subst begins
  refine (next_pos works).trans (congrArg (fun u : Hw => Host.Outcome.next { s with hw := u.settle s.hw allChans }) ?_)
  exact (if_neg (by simp [executes])).trans (if_pos (any_of_find next))

theorem exec_chPark (works : s.hw.works = true) (executes : s.hw.executes .device = true)
    (begins : s.hw.carry .device (fresh 0x61) (fun x h => h.park x) = t) : exec .chPark s = .next { s with hw := t.settle s.hw allChans } := by
  subst begins
  exact (next_pos works).trans (congrArg (fun u : Hw => Host.Outcome.next { s with hw := u.settle s.hw allChans }) (if_pos executes))

theorem exec_chDiag (works : s.hw.works = true) (executes : s.hw.executes .device = true)
    (begins : s.hw.carry .device (fresh 0x62) (fun x h => h.diag x) = t) : exec .chDiag s = .next { s with hw := t.settle s.hw allChans } := by
  subst begins
  exact (next_pos works).trans (congrArg (fun u : Hw => Host.Outcome.next { s with hw := u.settle s.hw allChans }) (if_pos executes))

end

/-- What a start leaves of the module. -/
theorem Hw.starts_shows {h : Hw} {x : Cmd} {c : ChanId} (parked : (h.chan c).st = .parked) :
    (∀ d, (h.starts x c).chan d = if d = c then { h.chan c with st := .starting } else h.chan d)
      ∧ (h.starts x c).dev.power = { h.dev.power with islands := h.dev.power.islands ++ [{ chan := c.val, on := true, why := .start }] }
      ∧ (h.starts x c).dev.q = { h.dev.q with run := h.dev.q.run.eraseP (fresh 0x60) ++ [{ x with held := true }] }
      ∧ bitOf ((h.starts x c).devReg (0x10C0 + 4 * (c.val / 8))) (c.val % 8) = true := by
  have becomes : (h.cmdHeld (fresh 0x60) x).chState c .starting
      = ((h.cmdHeld (fresh 0x60) x).onChan c fun y => { y with st := .starting }).chgEvent c := if_neg (by
    rw [Hw.cmdHeld_chan, parked]
    decide)
  rw [Hw.starts, becomes]
  refine ⟨fun d => ?_, ?_, ?_, ?_⟩
  · simp [Hw.askIsland, Hw.chgEvent, Hw.cmdHeld_chan]
  · simp [Hw.askIsland, Hw.chgEvent, Hw.cmdHeld_power]
  · simp [Hw.askIsland, Hw.chgEvent, Hw.cmdHeld_q]
  · rw [Hw.askIsland, Hw.onPower_devReg]
    exact Hw.chgEvent_flag _ c

/-- Settles O16: each command is taken, begins and waits; a park first ends the channel's work. -/
theorem channelPowerBegins : Obligations.ChannelPowerBegins := by
  unfold Obligations.ChannelPowerBegins
  refine ⟨fun s x c works executes next names run parked => ?_, fun s x c works executes next names active free => ?_,
    fun s x c works executes next names bare enabled off free => ?_⟩
  · obtain ⟨chan, power, queue, shown⟩ := Hw.starts_shows (x := x) parked
    refine .of (exec_chStart works executes next (Hw.chStart_begins run next names parked))
      ⟨?_, fun d other => ?_, by rw [Hw.settle_power, power], by rw [Hw.settle_q, queue], by rw [Hw.settle_q, queue], ?_⟩
    · rw [Hw.settle_chan_quiet, chan, if_pos rfl]
      rfl
    · rw [Hw.settle_chan_quiet, chan, if_neg other]
    · rw [Hw.settle_flag _ _ _ _ (by omega), shown]
  · have free' : (s.hw.cmdHeld (fresh 0x61) x).waitsOn c = false := free
    have work := Prod.mk.inj ((s.hw.cmdHeld (fresh 0x61) x).workEnded_work c)
    obtain ⟨power, others, shown, chan⟩ := Hw.parkBegin_shows free'
    refine .of (exec_chPark works executes (Hw.chPark_begins next names active)) ?_
    simp only [Hw.settle_chan_st, Hw.settle_chan_squelch, Hw.settle_chan_store, Hw.settle_chan_cph, Hw.settle_chan_q, Hw.settle_chan_flt_c,
      Hw.settle_chan_flt_h, Hw.settle_chan_flt_hQuar, Hw.settle_chan_quiet, Hw.settle_power, chan]
    refine ⟨rfl, rfl, rfl, ?_, work.1, work.2, rfl, rfl, rfl, fun d other => ?_, power, ?_⟩
    · rw [Chan.parking, Hw.workEnded_cph, Hw.cmdHeld_chan]
    · rw [others d other, Hw.cmdHeld_chan]
    · rw [Hw.settle_flag _ _ _ _ (by omega), shown]
  · refine .of (exec_chDiag works executes (Hw.chDiag_begins bare next names enabled off free)) ⟨?_, fun d other => ?_, ?_, ?_⟩
    · rw [Hw.settle_chan_quiet, Hw.diagnoses, Hw.askIsland, Hw.onPower_chan, Hw.onChan_chan, if_pos rfl, Hw.cmdHeld_chan]
      rfl
    · rw [Hw.settle_chan_quiet, Hw.diagnoses, Hw.askIsland, Hw.onPower_chan, Hw.onChan_chan, if_neg other, Hw.cmdHeld_chan]
    · rw [Hw.settle_power]
      rfl
    · rw [Hw.settle_q]
      rfl

end Sys2Proof.Machine
end

section
/-!
PROOF. The root clock and SYSCNT's alarms (O17, O18).
-/
namespace Sys2Proof.Machine

/-! ## The root (O17) -/

/-- An engine in root hold. -/
def Eng.held (e : Eng) : Eng := { e with rootHold := true }

/-- The root PLL freezes, and every engine with it. -/
def Hw.frozenRoot (h : Hw) : Hw :=
  ((h.onRoot fun r => { r with hold := true, slew := false, pllLock := false }).onEngines Eng.held).devEvent 0x3004 22 0x00800000

theorem Hw.freezeRoot_moving {h : Hw} (moving : (h.dev.root.hold && !h.dev.root.slew) = false) : h.freezeRoot = h.frozenRoot :=
  if_neg (by simp [moving])

/-- What a freeze leaves, the record registers settled; `u` is the hardware with its episode told, and `r` its root. -/
structure Hw.Froze (t u h : Hw) (r : Root) : Prop where
  root : t.dev.root = { r with hold := true, slew := false, pllLock := false }
  chan : ∀ c, (t.chan c).quiet = { (h.chan c).quiet with tim := { (h.chan c).tim with b := (h.chan c).tim.b.held, r := (h.chan c).tim.r.held } }
  stn : t.dev.stn = { h.dev.stn with eng := h.dev.stn.eng.held }
  reported : t.devReg 0x3004 = evWord (h.devReg 0x3004) 0x00800000
  slots : t.dev.fcl.slots = u.dev.fcl.slots

theorem Hw.freezeRoot_froze {u h : Hw} {r : Root} (root : u.dev.root = r) (moving : (r.hold && !r.slew) = false) (chan : ∀ c, u.chan c = h.chan c)
    (stn : u.dev.stn = h.dev.stn) (reg : u.devReg 0x3004 = h.devReg 0x3004) : (u.freezeRoot.settle h allChans).Froze u h r := by
  subst root
  rw [Hw.freezeRoot_moving moving]
  refine ⟨?_, fun c => ?_, ?_, ?_, ?_⟩
  · simp [Hw.frozenRoot, Hw.onEngines, Hw.onRoot]
  · rw [Hw.settle_chan_quiet, ← chan c]
    simp [Hw.frozenRoot, Hw.onEngines, Hw.onRoot, Chan.quiet]
  · simp [Hw.frozenRoot, Hw.onEngines, Hw.onRoot, stn]
  · rw [Hw.settle_devReg _ _ _ _ (fun g _ => by omega), Hw.frozenRoot, Hw.devEvent_devReg, if_pos rfl, ← reg]
    rfl
  · simp [Hw.frozenRoot, Hw.onEngines, Hw.onRoot]

section
variable {t u h : Hw} {r : Root}

theorem Hw.Froze.engines (z : t.Froze u h r) (c : ChanId) : (t.chan c).tim.b.rootHold = true ∧ (t.chan c).tim.r.rootHold = true := by
  have tim : (t.chan c).tim = { (h.chan c).tim with b := (h.chan c).tim.b.held, r := (h.chan c).tim.r.held } := congrArg Chan.tim (z.chan c)
  rw [tim]
  exact ⟨rfl, rfl⟩

theorem Hw.Froze.station (z : t.Froze u h r) : t.dev.stn.eng.rootHold = true := by
  rw [z.stn]
  rfl

end

/-- The episode of a failure begins, or goes on. -/
def Hw.rootTold (h : Hw) (told : Bool) (kind : Nat) (f : Root → Root) : Hw := (if told then h else h.raiseSpine 16 clsD kind 0).onRoot f

theorem Hw.rootTold_beside (h : Hw) (told : Bool) (kind : Nat) (f : Root → Root) :
    (∀ c, (h.rootTold told kind f).chan c = h.chan c) ∧ (h.rootTold told kind f).dev.stn = h.dev.stn
      ∧ (h.rootTold told kind f).devReg 0x3004 = h.devReg 0x3004 ∧ (h.rootTold told kind f).dev.root = f h.dev.root := by
  cases told
  · exact ⟨by simp [Hw.rootTold, Hw.onRoot], by simp [Hw.rootTold, Hw.onRoot], (h.raiseSpine_devReg _ _ _ _ _), by simp [Hw.rootTold, Hw.onRoot]⟩
  · exact ⟨fun _ => rfl, rfl, rfl, rfl⟩

theorem Hw.rootTold_quiet (h : Hw) (told : Bool) (kind : Nat) (f : Root → Root) : (h.rootTold told kind f).quiet = (h.onRoot f).quiet := by
  have root (u : Hw) : (u.onRoot f).quiet = u.quiet.onRoot f := rfl
  rw [Hw.rootTold, root, root]
  cases told
  · exact congrArg (Hw.onRoot · f) (Hw.quiet_raiseSpine _ _ _ _ _)
  · rfl

theorem Hw.rootTold_froze {h : Hw} {told : Bool} {kind : Nat} {f : Root → Root} (moving : ((f h.dev.root).hold && !(f h.dev.root).slew) = false) :
    ((h.rootTold told kind f).freezeRoot.settle h allChans).Froze (h.rootTold told kind f) h (f h.dev.root) := by
  obtain ⟨chan, stn, reg, root⟩ := h.rootTold_beside told kind f
  exact Hw.freezeRoot_froze root moving chan stn reg

/-- The first of an episode is told in class D. -/
theorem Hw.rootTold_tells {h : Hw} (works : h.works = true) (kind : Nat) (f : Root → Root) :
    (h.rootTold false kind f).tookMsg h (mkMsg 63 16 clsD kind 0) := Hw.raiseSpine_slots (Hw.inMw_of_works works) _ _ _ _

theorem Hw.rootStops_eq {h : Hw} (lock : h.dev.root.pllLock = true) :
    h.rootStops = (h.rootTold h.dev.root.epStop 0x48 fun r => { r with epStop := true, rootOk := false }).freezeRoot :=
  if_neg (by simp [Hw.rootRuns, lock])

theorem Hw.rootGlitches_eq {h : Hw} (lock : h.dev.root.pllLock = true) :
    h.rootGlitches = (h.rootTold h.dev.root.epGlitch 0x49 fun r => { r with epGlitch := true, rootOk := false }).freezeRoot :=
  if_neg (by simp [Hw.rootRuns, lock])

theorem Hw.rootUnlocks_eq {h : Hw} (lock : h.dev.root.pllLock = true) :
    h.rootUnlocks = (h.rootTold h.dev.root.epUnlock 0x4A fun r => { r with epUnlock := true }).freezeRoot := if_neg (by simp [lock])

theorem Hw.backupBad_eq {h : Hw} (lock : h.dev.root.pllLock = true) (ok : h.dev.root.bkpOk = true) :
    h.backupBad = (h.rootTold h.dev.root.epBkp 0x4B fun r => { r with epBkp := true, bkpOk := false }).devEvent 0x3004 22 0x00200000 :=
  if_neg (by simp [lock, ok])

/-- An engine whose windows begin anew. -/
def Eng.freed (e : Eng) : Eng := { e with rootHold := false, round := [] }

/-- The slewing PLL has locked. -/
def Hw.relocked (h : Hw) : Hw :=
  ((((h.onRoot fun r => { r with hold := false, slew := false, pllLock := true, epUnlock := false }).onEngines Eng.freed).onAll fun _ x =>
    { x with tim := { x.tim with cand := x.tim.cand.map Cand.newWindows } }).onDev fun d =>
    { d with stn := { d.stn with inp := d.stn.inp.map Cand.newWindows } }).devEvent 0x3004 22 0x00400000

theorem Hw.rootRelocks_eq {h : Hw} (slews : h.dev.root.slew = true) : h.rootRelocks = h.relocked := if_neg (by simp [slews])

theorem Hw.relocked_shows (h : Hw) (cs : List ChanId) :
    (h.relocked.settle h cs).dev.root = { h.dev.root with hold := false, slew := false, pllLock := true, epUnlock := false }
      ∧ (∀ c, ((h.relocked.settle h cs).chan c).quiet = { (h.chan c).quiet with tim :=
          { b := (h.chan c).tim.b.freed, r := (h.chan c).tim.r.freed, cand := (h.chan c).tim.cand.map Cand.newWindows } })
      ∧ (h.relocked.settle h cs).dev.stn.eng = h.dev.stn.eng.freed
      ∧ (h.relocked.settle h cs).dev.stn.inp = h.dev.stn.inp.map Cand.newWindows
      ∧ (h.relocked.settle h cs).devReg 0x3004 = evWord (h.devReg 0x3004) 0x00400000 ∧ (h.relocked.settle h cs).noMsg h := by
  refine ⟨?_, fun c => ?_, ?_, ?_, ?_, ?_⟩
  · simp [Hw.relocked, Hw.onEngines, Hw.onRoot]
  · rw [Hw.settle_chan_quiet]
    simp [Hw.relocked, Hw.onEngines, Hw.onRoot, Chan.quiet]
  · simp [Hw.relocked, Hw.onEngines, Hw.onRoot]
  · simp [Hw.relocked, Hw.onEngines, Hw.onRoot]
  · rw [Hw.settle_devReg _ _ _ _ (fun g _ => by omega), Hw.relocked, Hw.devEvent_devReg, if_pos rfl]
    rfl
  · simp [Hw.noMsg, Hw.relocked, Hw.onEngines, Hw.onRoot]

/-- Settles O17: every failure of the root comes to `Hw.freezeRoot`, and a relock frees every engine. -/
theorem rootOscillator : Obligations.RootOscillator := by
  unfold Obligations.RootOscillator
  refine ⟨⟨fun s works lock free first => ?_, fun s works lock free first => ?_, fun s works lock free first => ?_, fun s works lock free goes => ?_,
    fun s works lock ok first => ?_⟩, fun s works hold => ?_, fun s works slews => ?_, fun s works => ?_⟩
  · have froze := Hw.rootTold_froze (h := s.hw) (told := false) (kind := 0x48) (f := fun r => { r with epStop := true, rootOk := false }) (by simp [free])
    have told := Hw.rootTold_tells works 0x48 fun r => { r with epStop := true, rootOk := false }
    refine .byWatchedAll Hw.rootStops rfl works ?_
    rw [Hw.rootStops_eq lock, first]
    exact ⟨froze.root, froze.chan, froze.stn, froze.reported, froze.slots.trans told⟩
  · have froze := Hw.rootTold_froze (h := s.hw) (told := false) (kind := 0x49) (f := fun r => { r with epGlitch := true, rootOk := false }) (by simp [free])
    have told := Hw.rootTold_tells works 0x49 fun r => { r with epGlitch := true, rootOk := false }
    refine .byWatchedAll Hw.rootGlitches rfl works ?_
    rw [Hw.rootGlitches_eq lock, first]
    exact ⟨froze.root, froze.engines, froze.station, froze.reported, froze.slots.trans told⟩
  · have froze := Hw.rootTold_froze (h := s.hw) (told := false) (kind := 0x4A) (f := fun r => { r with epUnlock := true }) (by simp [free])
    have told := Hw.rootTold_tells works 0x4A fun r => { r with epUnlock := true }
    refine .byWatchedAll Hw.rootUnlocks rfl works ?_
    rw [Hw.rootUnlocks_eq lock, first]
    exact ⟨froze.root, froze.engines, froze.station, froze.reported, froze.slots.trans told⟩
  · have froze := Hw.rootTold_froze (h := s.hw) (told := true) (kind := 0x48) (f := fun r => { r with epStop := true, rootOk := false }) (by simp [free])
    refine .byWatchedAll Hw.rootStops rfl works ?_
    rw [Hw.rootStops_eq lock, goes]
    exact ⟨by rw [froze.root], froze.slots⟩
  · refine .byWatchedAll Hw.backupBad rfl works ?_
    rw [Hw.backupBad_eq lock ok, first]
    obtain ⟨chan, stn, reg, root⟩ := s.hw.rootTold_beside false 0x4B fun r => { r with epBkp := true, bkpOk := false }
    refine ⟨?_, ?_⟩
    · rw [Hw.is, Hw.quiet_settle _ _ _ fun g _ => ?_, Hw.quiet_devEvent, reg, Hw.quiet_setDevReg]
      · rw [Hw.rootTold_quiet]
      · have other : 0x10C0 + 4 * g ≠ 0x3004 := by omega
        rw [Hw.devEvent_devReg, if_neg other]
        exact Hw.raiseSpine_devReg _ _ _ _ _ _
    · rw [Hw.tookMsg, Hw.settle_fcl_slots, Hw.devEvent_fcl]
      exact Hw.rootTold_tells works 0x4B _
  · refine .byWatchedAll Hw.rootRecovers rfl works ?_
    rw [show s.hw.rootRecovers = _ from if_neg (by simp [hold])]
    refine ⟨Hw.quiet_settle _ _ _ fun _ _ => rfl, ?_⟩
    rw [Hw.noMsg, Hw.settle_fcl_slots]
    rfl
  · obtain ⟨root, chan, eng, inp, reported, slots⟩ := s.hw.relocked_shows allChans
    refine .byWatchedAll Hw.rootRelocks rfl works ?_
    rw [Hw.rootRelocks_eq slews]
    exact ⟨root, chan, eng, inp, reported, slots⟩
  · refine .byWatchedAll Hw.backupGood rfl works ⟨Hw.quiet_settle _ _ _ fun _ _ => rfl, ?_⟩
    rw [Hw.noMsg, Hw.settle_fcl_slots]
    rfl

/-! ## SYSCNT (O18) -/

/-- A plain device register's beat reaches it. -/
theorem devBeat_on {h : Hw} {m : Master} {g : Guard} (reach : h.reachesDev m = true) (right : h.lacks m g = false) (off : Nat) (f : Hw → Hw) :
    devBeat h m off g f = f (h.bmx m.id 0) := by
  rw [devBeat, if_neg (by simp [reach]), if_neg (by simp [right])]

/-- Settles O18: each command is a change of SYSCNT's registers. -/
theorem syscntAlarms : Obligations.SyscntAlarms := by
  unfold Obligations.SyscntAlarms
  refine ⟨fun s works locked => ?_, fun s m a d reach => ?_, fun s a works armed => ?_, fun s a off => ?_⟩
  · refine .of ((next_pos works).trans (next_pos locked)) ⟨?_, ?_⟩
    · rw [Hw.is, Hw.quiet_devEvent, Hw.quiet_setDevReg]
    · rw [Hw.noMsg, Hw.devEvent_fcl]
  · have beat := devBeat_on reach (s.hw.lacks_plain m) (0x5040 + 4 * a.val) fun h =>
      (h.setDevReg (0x5040 + 4 * a.val) d).onDev fun x => { x with armed := x.armed.set a.val true }
    refine (next_pos (Hw.reachesDev_works reach)).trans ?_
    rw [← beat]
    rfl
  · refine .of ((next_pos works).trans (next_pos armed)) ⟨?_, ?_⟩
    · rw [Hw.is, Hw.quiet_devEvent, Hw.quiet_setDevReg]
      rfl
    · rw [Hw.noMsg, Hw.devEvent_fcl]
      rfl
  · cases works : s.hw.works
    · exact next_neg (by simp [works])
    · exact (next_pos works).trans (next_neg (by simp [off]))

end Sys2Proof.Machine
end

section
/-!
PROOF. Engines: locks, losses, samples and holdover (O19, O20), and phase steps (O20).
-/
namespace Sys2Proof.Machine

/-! ## The events of a running engine -/

/-- The record registers follow a synthesizer's change, and no change of the station engine. -/
def Hw.settledAt (t h : Hw) : Engine → Hw
  | .synB c => t.settle h [c]
  | .synR c => t.settle h [c]
  | .stn => t

theorem onEngine_runs {s : State} {e : Engine} (works : s.hw.works = true) (runs : s.hw.engRuns e = true) (f : Hw → Hw) :
    onEngine s e f = .next { s with hw := (f s.hw).settledAt s.hw e } := by
  cases e with
  | synB c => exact (next_pos works).trans (congrArg (fun t : Hw => Host.Outcome.next { s with hw := t.settle s.hw [c] }) (if_pos runs))
  | synR c => exact (next_pos works).trans (congrArg (fun t : Hw => Host.Outcome.next { s with hw := t.settle s.hw [c] }) (if_pos runs))
  | stn => exact next_pos works

@[simp] theorem Hw.settledAt_eng (t h : Hw) (a e : Engine) : (t.settledAt h a).eng e = t.eng e := by
  cases a <;> cases e <;> simp [Hw.settledAt, Hw.eng]

@[simp] theorem Hw.settledAt_slots (t h : Hw) (e : Engine) : (t.settledAt h e).dev.fcl.slots = t.dev.fcl.slots := by
  cases e <;> simp [Hw.settledAt]

@[simp] theorem Hw.settledAt_chReg (t h : Hw) (e : Engine) (c : ChanId) (o : Nat) : (t.settledAt h e).chReg c o = t.chReg c o := by
  cases e <;> simp [Hw.settledAt, Hw.chReg]

theorem Hw.settledAt_devReg (t h : Hw) (e : Engine) {o : Nat} (other : ∀ g < 6, o ≠ 0x10C0 + 4 * g) : (t.settledAt h e).devReg o = t.devReg o := by
  cases e with
  | synB c => exact Hw.settle_devReg _ _ _ _ other
  | synR c => exact Hw.settle_devReg _ _ _ _ other
  | stn => rfl

@[simp] theorem Hw.onEng_eng (h : Hw) (e : Engine) (f : Eng → Eng) : (h.onEng e f).eng e = f (h.eng e) := by
  cases e <;> simp [Hw.onEng, Hw.eng, Hw.onSyn]

/-- What a change of an engine leaves of the module. -/
theorem Hw.onEng_dev (h : Hw) (e : Engine) (f : Eng → Eng) : (h.onEng e f).dev.fcl = h.dev.fcl ∧ (h.onEng e f).dev.boot = h.dev.boot
    ∧ (h.onEng e f).dev.sys = h.dev.sys ∧ (h.onEng e f).now = h.now ∧ (h.onEng e f).dev.regs = h.dev.regs
    ∧ ∀ c, ((h.onEng e f).chan c).st = (h.chan c).st := by
  cases e with
  | stn => exact ⟨rfl, rfl, rfl, rfl, rfl, fun _ => rfl⟩
  | synB d =>
    refine ⟨rfl, rfl, rfl, rfl, rfl, fun c => ?_⟩
    simp only [Hw.onEng, Hw.onSyn, Hw.onChan_chan]
    split <;> simp [*]
  | synR d =>
    refine ⟨rfl, rfl, rfl, rfl, rfl, fun c => ?_⟩
    simp only [Hw.onEng, Hw.onSyn, Hw.onChan_chan]
    split <;> simp [*]

/-- What the station outputs leave. -/
theorem Hw.stnOutputs_keeps {γ : Type} {p : Hw → γ} (low : ∀ (h : Hw) (f : Vector Bool 4 → Vector Bool 4),
    p (h.onDev fun d => { d with stn := { d.stn with low := f d.stn.low } }) = p h)
    (event : ∀ (h : Hw) (j : Fin 4) (d : Nat) (fl : Word), p (h.devEvent (0x3060 + 4 * j.val) d fl) = p h) (h : Hw) : p h.stnOutputs = p h := by
  refine foldl_keeps _ p (fun u j => ?_) _ _
  dsimp only
  split
  · rfl
  · have lowered := low u fun l => l.set j (u.stnLow j.val)
    split
    · exact lowered
    · exact (event _ _ _ _).trans lowered

@[simp] theorem Hw.stnOutputs_fcl (h : Hw) : h.stnOutputs.dev.fcl = h.dev.fcl := Hw.stnOutputs_keeps (p := (·.dev.fcl)) (fun _ _ => rfl) (by simp) h
@[simp] theorem Hw.stnOutputs_sys (h : Hw) : h.stnOutputs.dev.sys = h.dev.sys := Hw.stnOutputs_keeps (p := (·.dev.sys)) (fun _ _ => rfl) (by simp) h
@[simp] theorem Hw.stnOutputs_now (h : Hw) : h.stnOutputs.now = h.now := Hw.stnOutputs_keeps (p := (·.now)) (fun _ _ => rfl) (by simp) h
@[simp] theorem Hw.stnOutputs_eng (h : Hw) : h.stnOutputs.dev.stn.eng = h.dev.stn.eng :=
  Hw.stnOutputs_keeps (p := (·.dev.stn.eng)) (fun _ _ => rfl) (by simp) h
theorem Hw.stnOutputs_devReg (h : Hw) {o : Nat} (other : ∀ j : Fin 4, o ≠ 0x3060 + 4 * j.val) : h.stnOutputs.devReg o = h.devReg o :=
  Hw.stnOutputs_keeps (p := (·.devReg o)) (fun _ _ => rfl) (by simp [other]) h

/-- The event of an engine's change of state touches no engine and no message. -/
theorem Hw.engEvent_beside (h : Hw) (e : Engine) : (∀ a, (h.engEvent e).eng a = h.eng a) ∧ (h.engEvent e).dev.fcl = h.dev.fcl
    ∧ (h.engEvent e).dev.boot = h.dev.boot ∧ (h.engEvent e).dev.sys = h.dev.sys ∧ (h.engEvent e).now = h.now
    ∧ ∀ c, ((h.engEvent e).chan c).st = (h.chan c).st := by
  cases e with
  | synB c => exact ⟨fun a => by cases a <;> simp [Hw.engEvent, Hw.evTim, Hw.eng], by simp [Hw.engEvent, Hw.evTim], by simp [Hw.engEvent, Hw.evTim],
      by simp [Hw.engEvent, Hw.evTim], by simp [Hw.engEvent, Hw.evTim], by simp [Hw.engEvent, Hw.evTim]⟩
  | synR c => exact ⟨fun a => by cases a <;> simp [Hw.engEvent, Hw.evTim, Hw.eng], by simp [Hw.engEvent, Hw.evTim], by simp [Hw.engEvent, Hw.evTim],
      by simp [Hw.engEvent, Hw.evTim], by simp [Hw.engEvent, Hw.evTim], by simp [Hw.engEvent, Hw.evTim]⟩
  | stn =>
    have chan (c : ChanId) : (h.engEvent .stn).chan c = h.chan c :=
      (Hw.stnOutputs_keeps (p := (·.chan c)) (fun _ _ => rfl) (by simp) _).trans (by simp)
    exact ⟨fun a => by cases a <;> simp [Hw.eng, chan]; simp [Hw.engEvent], by simp [Hw.engEvent], by simp [Hw.engEvent, Hw.stnOutputs_boot],
      by simp [Hw.engEvent], by simp [Hw.engEvent], fun c => by rw [chan]⟩

/-! ## Locks and losses (O19) -/

theorem Hw.evTim_flag {h : Hw} {c : ChanId} (active : (h.chan c).st = .active) {fl : Word} {i : Nat} (low : i < 24) (flag : bitOf fl i = true) :
    bitOf ((h.evTim c fl).chReg c 0x802C) i = true := by
  have reported : (h.evTim c fl).chReg c 0x802C = evWord (h.chReg c 0x802C) fl := by
    rw [Hw.chReg, Hw.evTim, Hw.chEvent_chan_on _ _ _ _ _ (raises_of_active active), if_pos rfl, Chan.reg_setReg, if_pos rfl]
    rfl
  rw [reported, bitOf_evWord _ _ low, flag, Bool.or_true]

theorem Hw.active_of_runs {h : Hw} {e : Engine} {c : ChanId} (runs : h.engRuns e = true) (syn : e = .synB c ∨ e = .synR c) :
    (h.chan c).st = .active := by
  rcases syn with rfl | rfl <;> exact of_decide_eq_true runs

/-- A change of an engine's state, with its event. -/
def Hw.engTurn (h : Hw) (e : Engine) (f : Eng → Eng) : Hw := (h.onEng e f).engEvent e

section
variable {h : Hw} {e : Engine} (f : Eng → Eng)

@[simp] theorem Hw.engTurn_eng : (h.engTurn e f).eng e = f (h.eng e) := by rw [Hw.engTurn, (Hw.engEvent_beside _ e).1, Hw.onEng_eng]

theorem Hw.engTurn_beside : (h.engTurn e f).dev.fcl = h.dev.fcl ∧ (h.engTurn e f).dev.boot = h.dev.boot ∧ (h.engTurn e f).dev.sys = h.dev.sys
    ∧ (h.engTurn e f).now = h.now ∧ ∀ c, ((h.engTurn e f).chan c).st = (h.chan c).st := by
  obtain ⟨-, fcl, boot, sys, now, st⟩ := Hw.engEvent_beside (h.onEng e f) e
  obtain ⟨fcl', boot', sys', now', -, st'⟩ := h.onEng_dev e f
  exact ⟨fcl.trans fcl', boot.trans boot', sys.trans sys', now.trans now', fun c => (st c).trans (st' c)⟩

/-- A synthesizer's change of state shows in CHn.TIM_EVT, the station engine's in DEV.STN_EVT. -/
theorem Hw.engTurn_reports (runs : h.engRuns e = true) : (∀ c, e = .synB c → bitOf ((h.engTurn e f).chReg c 0x802C) 23 = true)
    ∧ (∀ c, e = .synR c → bitOf ((h.engTurn e f).chReg c 0x802C) 22 = true) ∧ (e = .stn → bitOf ((h.engTurn e f).devReg 0x300C) 23 = true) := by
  have st := (h.onEng_dev e f).2.2.2.2.2
  refine ⟨fun c syn => ?_, fun c syn => ?_, fun syn => ?_⟩
  · subst syn
    exact Hw.evTim_flag ((st c).trans (Hw.active_of_runs runs (.inl rfl))) (by omega) (by decide)
  · subst syn
    exact Hw.evTim_flag ((st c).trans (Hw.active_of_runs runs (.inr rfl))) (by omega) (by decide)
  · subst syn
    have flag : bitOf (0x00800000 : Word) 23 = true := by decide
    rw [Hw.engTurn, Hw.engEvent, Hw.stnOutputs_devReg _ fun j => by omega, Hw.devEvent_devReg, if_pos rfl, bitOf_evWord _ _ (by omega), flag,
      Bool.or_true]

end

/-- The message of an engine: a synthesizer's carries its channel and its bit. -/
def engMsg (k n : Nat) : Engine → BitVec 64
  | .synB c => mkMsg c.val 8 k n 0
  | .synR c => mkMsg c.val 8 k n 0x800000
  | .stn => mkMsg 63 16 k n 0

/-- An engine's message is raised. -/
def Hw.engRaise (h : Hw) (k n : Nat) : Engine → Hw
  | .synB c => h.raiseChan c 8 k n (synBit (.synB c))
  | .synR c => h.raiseChan c 8 k n (synBit (.synR c))
  | .stn => h.raiseSpine 16 k n 0

@[simp] theorem Hw.engRaise_eng (h : Hw) (k n : Nat) (e a : Engine) : (h.engRaise k n e).eng a = h.eng a := by
  cases e <;> cases a <;> simp [Hw.engRaise, Hw.eng]

theorem Hw.engRaise_slots {h : Hw} {e : Engine} (outside : h.inMw = false) (runs : h.engRuns e = true) (k n : Nat) :
    (h.engRaise k n e).dev.fcl.slots = (h.dev.fcl.enter (engMsg k n e) (h.dev.sys.truncate 40) h.now).slots := by
  cases e with
  | synB c => exact Hw.raiseChan_slots outside (raises_of_active (Hw.active_of_runs runs (.inl rfl))) 8 k n 0
  | synR c => exact Hw.raiseChan_slots outside (raises_of_active (Hw.active_of_runs runs (.inr rfl))) 8 k n 0x800000
  | stn => exact Hw.raiseSpine_slots outside 16 k n 0

/-- A change beside the collector, start-up and the channels' states: what is raised after it is raised as of before. -/
theorem Hw.engRaise_tells {u h : Hw} {e : Engine} (works : h.works = true) (runs : h.engRuns e = true) (fcl : u.dev.fcl = h.dev.fcl)
    (boot : u.dev.boot = h.dev.boot) (sys : u.dev.sys = h.dev.sys) (now : u.now = h.now) (st : ∀ c, (u.chan c).st = (h.chan c).st) (k n : Nat) :
    (u.engRaise k n e).tookMsg h (engMsg k n e) := by
  have outside : u.inMw = false := (congrArg (fun b : Boot => decide (b.st = .midwinter)) boot).trans (Hw.inMw_of_works works)
  have runs' : u.engRuns e = true := by
    cases e with
    | synB c => rw [← runs]; exact congrArg (fun x => decide (x = ChSt.active)) (st c)
    | synR c => rw [← runs]; exact congrArg (fun x => decide (x = ChSt.active)) (st c)
    | stn => rfl
  rw [Hw.tookMsg, Hw.engRaise_slots outside runs', fcl, sys, now]

theorem Hw.engLost_eq {h : Hw} {e : Engine} (holdover : (h.eng e).st = .holdover) :
    h.engLost e = (h.engTurn e fun g => { g with st := .lost, frozen := g.ageing }).engRaise clsN 0x42 e := by
  rw [Hw.engLost, if_pos holdover]
  cases e <;> rfl

theorem Hw.engUnlock_eq {h : Hw} {e : Engine} (acquiring : (h.eng e).st = .acquiring) (first : (h.eng e).unl = false) : h.engUnlock e =
    if e = .stn then h.onEng e fun g => { g with unl := true } else (h.onEng e fun g => { g with unl := true }).engRaise clsH 0x41 e := by
  rw [Hw.engUnlock]
  dsimp only
  rw [if_pos (by simp [acquiring, first])]
  cases e <;> rfl

/-- Settles O19: a running engine's change of state, its event and its message. -/
theorem enginesLockAndLose : Obligations.EnginesLockAndLose := by
  unfold Obligations.EnginesLockAndLose
  refine ⟨fun s e works runs acquiring free => ?_, fun s e works runs acquiring first => ?_, fun s e works runs holdover => ?_⟩
  · have locks : s.hw.engLock e = s.hw.engTurn e fun g => { g with st := .locked, everLocked := true, unl := false } :=
      if_pos (by simp [acquiring, Hw.rootHeld, free])
    have run : exec (.synLocked e) s = .next { s with hw := (s.hw.engLock e).settledAt s.hw e } := onEngine_runs works runs _
    obtain ⟨b, r, stn⟩ := Hw.engTurn_reports (fun g => { g with st := .locked, everLocked := true, unl := false }) runs
    refine .of (run.trans (by rw [locks])) ⟨by simp, ?_, fun c syn => ?_, fun c syn => ?_, fun syn => ?_⟩
    · rw [Hw.noMsg, Hw.settledAt_slots, (Hw.engTurn_beside _).1]
    · rw [Hw.settledAt_chReg, b c syn]
    · rw [Hw.settledAt_chReg, r c syn]
    · rw [Hw.settledAt_devReg _ _ _ fun g _ => by omega, stn syn]
  · have run : exec (.synUnlock e) s = .next { s with hw := (s.hw.engUnlock e).settledAt s.hw e } := onEngine_runs works runs _
    obtain ⟨fcl, boot, sys, now, -, st⟩ := s.hw.onEng_dev e fun g => { g with unl := true }
    have told := Hw.engRaise_tells works runs fcl boot sys now st clsH 0x41
    rw [Hw.engUnlock_eq acquiring first] at run
    refine .of run ⟨?_, fun c syn => ?_, fun c syn => ?_, fun syn => ?_⟩
    · rw [Hw.settledAt_eng]
      split
      · rw [Hw.onEng_eng]
      · rw [Hw.engRaise_eng, Hw.onEng_eng]
    · subst syn
      rw [Hw.tookMsg, Hw.settledAt_slots, if_neg nofun]
      exact told
    · subst syn
      rw [Hw.tookMsg, Hw.settledAt_slots, if_neg nofun]
      exact told
    · rw [Hw.noMsg, Hw.settledAt_slots, if_pos syn, fcl]
  · have run : exec (.timLost e) s = .next { s with hw := (s.hw.engLost e).settledAt s.hw e } := onEngine_runs works runs _
    obtain ⟨fcl, boot, sys, now, st⟩ := s.hw.engTurn_beside (e := e) fun g => { g with st := .lost, frozen := g.ageing }
    have told := Hw.engRaise_tells works runs fcl boot sys now st clsN 0x42
    rw [Hw.engLost_eq holdover] at run
    refine .of run ⟨?_, fun c syn => ?_, fun c syn => ?_, fun syn => ?_⟩
    · rw [Hw.settledAt_eng, Hw.engRaise_eng, Hw.engTurn_eng]
      rfl
    all_goals
      rw [Hw.tookMsg, Hw.settledAt_slots]
      subst syn
      exact told

/-! ## Samples, holdover and phase steps (O20) -/

/-- A command that changes an engine alone. -/
theorem Completes.byEngine {i : Instr} {s : State} {e : Engine} {f : Hw → Hw} {g : Eng → Eng} (run : exec i s = onEngine s e f)
    (works : s.hw.works = true) (runs : s.hw.engRuns e = true) (changes : f s.hw = s.hw.onEng e g) :
    Completes i s fun t => t.eng e = g (s.hw.eng e) :=
  .of (run.trans (onEngine_runs works runs f)) (by rw [Hw.settledAt_eng, changes, Hw.onEng_eng])

/-- A change of an engine is what it makes of it. -/
theorem Hw.onEng_congr {h : Hw} {e : Engine} {f g : Eng → Eng} (same : f (h.eng e) = g (h.eng e)) : h.onEng e f = h.onEng e g := by
  cases e <;> simp only [Hw.eng] at same <;> simp [Hw.onEng, Hw.onSyn, Hw.onChan, Hw.onDev, same]

theorem next_congr {s : State} {a b : Hw} (same : a = b) :
    (.next { s with hw := a } : Host.Outcome State Fault Refusal) = .next { s with hw := b } := by rw [same]

/-- The holdover model of an engine in HOLDOVER (R311). -/
theorem Eng.holdOut_holdover {g : Eng} (holdover : g.st = .holdover) (c : Int × Int) (t : Int) :
    g.holdOut c t = g.fh + g.slope * (g.hoSecs : Int) / 86400 - (c.1 * 40 * (t - g.t0) + c.2 * (t - g.t0) * (t - g.t0)) / 16 := by
  rw [Eng.holdOut, if_neg (by simp [holdover])]
  rfl

theorem Hw.bmx_syn (h : Hw) (mid which : Nat) (c : ChanId) (r : Bool) : ((h.bmx mid which).chan c).syn r = (h.chan c).syn r := by rw [Hw.bmx_chan]

section
variable {h : Hw} {m : Master} {c : ChanId} {d : Word}

theorem pstepWrite_starts (reach : h.reaches m = true) (right : h.lacks m .guarded = false) (active : (h.chan c).st = .active)
    (idle : ((h.chan c).syn (bitOf d 31)).step = none) (small : (stepOf d).natAbs ≤ 1000000)
    (near : (((h.chan c).syn (bitOf d 31)).ofs + stepOf d).natAbs ≤ 10000000) : pstepWrite h m c d =
      ((h.bmx m.id 0).setChReg c 0x8020 (d &&& 0x801FFFFF)).onSyn c (bitOf d 31) fun g => { g with step := some (stepOf d) } := by
  rw [pstepWrite, chBeat_active reach right active]
  dsimp only
  rw [Hw.bmx_syn, if_neg]
  simp only [idle, Hw.bmx_chan, Chan.isActive, active, Bool.or_eq_true, decide_eq_true_eq]
  simp only [Option.isSome_none, Bool.false_eq_true, decide_true, Bool.not_true, or_false, false_or, not_or, not_lt]
  exact ⟨small, near⟩

theorem stnPstepWrite_adds (reach : h.reachesDev m = true) (right : h.lacks m .guarded = false) (small : (stepOf d).natAbs ≤ 1000000)
    (near : (h.dev.stn.pull + stepOf d).natAbs ≤ 100000000) : stnPstepWrite h m d =
      ((h.bmx m.id 0).setDevReg 0x3030 (d &&& 0x001FFFFF)).onDev fun x =>
        { x with stn := { x.stn with pull := x.stn.pull + stepOf d, slew := x.stn.slew || decide (stepOf d ≠ 0) } } := by
  rw [stnPstepWrite, devBeat_on reach right]
  dsimp only
  rw [if_neg]
  rw [Hw.bmx_stn, not_or, not_lt, not_lt]
  exact ⟨small, near⟩

end

theorem Hw.onSyn_chReg (h : Hw) (c : ChanId) (r : Bool) (f : Eng → Eng) (o : Nat) : (h.onSyn c r f).chReg c o = h.chReg c o := by
  rw [Hw.chReg, Hw.onSyn, Hw.onChan_chan, if_pos rfl]
  rfl

theorem Hw.stepDone_adds {h : Hw} {c : ChanId} {r : Bool} {v : Int} (step : ((h.chan c).syn r).step = some v) :
    h.stepDone c r = (h.onSyn c r fun g => { g with ofs := g.ofs + v, step := none }).evTim c 0x00020000 := by
  rw [Hw.stepDone, step]

theorem exec_phaseStepDone {s : State} {c : ChanId} (r : Bool) (works : s.hw.works = true) (active : (s.hw.chan c).st = .active) :
    exec (.phaseStepDone (if r then .synR c else .synB c)) s = .next { s with hw := s.hw.stepDone c r } := by
  cases r <;> exact (next_pos works).trans (next_pos (decide_eq_true active))

/-- Settles O20: a sample and a second of holdover change their engine alone, and a phase step its target. -/
theorem holdoverAndPhaseSteps : Obligations.HoldoverAndPhaseSteps := by
  unfold Obligations.HoldoverAndPhaseSteps
  refine ⟨⟨fun s e ppb works runs locked free => ?_, fun s e works runs holdover free => ?_, fun s e works runs lost held => ?_⟩,
    fun s m c d reach right active idle small near => ?_, fun s c r v works active step => ?_, fun s m d reach right small near => ?_,
    fun s works slews => ?_⟩
  · exact .byEngine (f := (·.engSample e ppb)) (g := fun g => { g with samples := ((ppb, s.hw.rootTemp) :: g.samples).take 86400, out := ppb * 1000 })
      rfl works runs (if_pos (by simp [locked, Hw.rootHeld, free]))
  · refine .byEngine (f := (·.engHold e)) (g := fun g => { g with
        hoSecs := g.hoSecs + 1
        out := g.fh + g.slope * ((g.hoSecs + 1 : Nat) : Int) / 86400
          - (s.hw.tcomp.1 * 40 * (s.hw.rootTemp - g.t0) + s.hw.tcomp.2 * (s.hw.rootTemp - g.t0) * (s.hw.rootTemp - g.t0)) / 16 }) rfl works runs ?_
    refine (if_pos (.inl holdover)).trans (Hw.onEng_congr ?_)
    have model := Eng.holdOut_holdover (g := { s.hw.eng e with hoSecs := (s.hw.eng e).hoSecs + 1 }) holdover s.hw.tcomp s.hw.rootTemp
    simp only [Hw.rootHeld, free, Bool.false_eq_true, if_false, model]
  · exact .byEngine (f := (·.engHold e)) (g := fun g => { g with hoSecs := g.hoSecs + 1 }) rfl works runs (by
      simp [Hw.engHold, lost, Hw.rootHeld, held])
  · exact (next_pos (Hw.works_of_reaches reach)).trans (next_congr (pstepWrite_starts reach right active idle small near))
  · refine .of (exec_phaseStepDone r works active) ?_
    rw [Hw.stepDone_adds step]
    refine ⟨?_, ?_⟩
    · have raises : ((s.hw.onSyn c r fun g => { g with ofs := g.ofs + v, step := none }).chan c).raises = true := by
        rw [Hw.onSyn, Hw.onChan_chan, if_pos rfl]
        exact raises_of_active active
      rw [Hw.is, Hw.evTim, Hw.quiet_chEvent _ _ _ _ _ raises, Hw.quiet_setChReg, Hw.onSyn_chReg]
    · rw [Hw.noMsg, Hw.evTim, Hw.chEvent_fcl]
      rfl
  · exact (next_pos (Hw.reachesDev_works reach)).trans (next_congr (stnPstepWrite_adds reach right small near))
  · refine .of ((next_pos works).trans (next_pos slews)) ⟨?_, ?_⟩
    · rw [Hw.is, Hw.quiet_devEvent, Hw.quiet_setDevReg]
      rfl
    · rw [Hw.noMsg, Hw.devEvent_fcl]
      rfl

end Sys2Proof.Machine
end

section
/-!
PROOF. Qualification (O21): what selection leaves, and the windows of candidates.
-/
namespace Sys2Proof.Machine

/-- What selection leaves: no synthesizer's, none of the station engine's beside its inputs, and no event's of theirs. -/
structure BesideSelect {γ : Type} (p : Hw → γ) : Prop where
  syn : ∀ h c r f, p (Hw.onSyn h c r f) = p h
  tim : ∀ h c fl, bitOf fl 18 = false → p (Hw.evTim h c fl) = p h
  stn : ∀ (h : Hw) (f : Station → Station), (∀ x, (f x).inp = x.inp) → p (h.onDev fun d => { d with stn := f d.stn }) = p h
  event : ∀ h fl, p (Hw.devEvent h 0x300C 23 fl) = p h
  out : ∀ (h : Hw) (j : Fin 4) (d : Nat) (fl : Word), p (h.devEvent (0x3060 + 4 * j.val) d fl) = p h
  draw : ∀ h : Hw, p h.draw.2 = p h

section
variable {γ : Type} {p : Hw → γ}

theorem BesideSelect.reselectSyn (k : BesideSelect p) (h : Hw) (c : ChanId) (r : Bool) : p (h.reselectSyn c r) = p h := by
  unfold Hw.reselectSyn
  extract_lets x e m act q e' e'' h1 h2
  have first : p h1 = p h := k.syn _ _ _ _
  have second : p h2 = p h1 := ite_keeps (k.tim _ _ _ (by cases r <;> decide)) rfl
  exact (ite_keeps (k.tim _ _ _ (by cases r <;> decide)) rfl).trans (second.trans first)

theorem BesideSelect.reselect (k : BesideSelect p) (h : Hw) (c : ChanId) : p (h.reselect c) = p h :=
  ite_keeps ((k.reselectSyn _ _ _).trans (k.reselectSyn _ _ _)) rfl

theorem BesideSelect.reselectStn (k : BesideSelect p) (h : Hw) : p h.reselectStn = p h := by
  unfold Hw.reselectStn
  extract_lets d e w fc e' h1 h2 h3 h4
  have first : p h1 = p h := k.stn h (fun x => { x with eng := e' }) fun _ => rfl
  have second : p h2 = p h1 := ite_keeps (k.event _ _) rfl
  have third : p h3 = p h2 := ite_keeps (k.event _ _) rfl
  have fourth : p h4 = p h3 := ite_keeps ((k.stn h3.draw.2 (fun x => { x with pull := x.pull + signed 20 (h3.draw.1.toNat % 2 ^ 20), slew := true })
    fun _ => rfl).trans (k.draw _)) rfl
  have last : p h4.stnOutputs = p h4 := Hw.stnOutputs_keeps (fun u f => k.stn u (fun x => { x with low := f x.low }) fun _ => rfl) k.out h4
  exact last.trans (fourth.trans (third.trans (second.trans first)))

theorem BesideSelect.reselectAll (k : BesideSelect p) (h : Hw) : p h.reselectAll = p h :=
  (foldl_keeps _ p (fun u c => k.reselect u c) _ _).trans (k.reselectStn h)

end

theorem besideSelect_cand (c : ChanId) : BesideSelect fun h => (h.chan c).tim.cand where
  syn h d r f := by
    rw [Hw.onSyn, Hw.onChan_chan]
    split
    · subst_vars; cases r <;> rfl
    · rfl
  tim h d fl _ := by simp [Hw.evTim]
  stn _ _ _ := rfl
  event h fl := by simp
  out h j d fl := by simp
  draw _ := rfl

/-! ## A channel's candidates -/

section
variable {k : Cand} {off t hy : Int} {direct wtr0 : Bool}

/-- A candidate never measured qualifies on its first window within THR (R304). -/
theorem Cand.window_first (init : k.qst = .init) (fresh : k.fresh = true) (within_ : (off.natAbs : Int) ≤ t) :
    k.window false off t hy direct wtr0 = { k with qst := .qual, drift := false, fresh := false, overRun := 0, fast := off } := by
  have below : |off| ≤ t := by simpa using within_
  simp [Cand.window, init, fresh, below]

/-- A qualified candidate's window beyond THR is its third in a row, or counts (R304). -/
theorem Cand.window_over (qual : k.qst = .qual) (beyond : t < (off.natAbs : Int)) : k.window true off t hy direct wtr0 =
    if 2 ≤ k.overRun then { k with ppb := off, qst := .disq, drift := true, fresh := false, overRun := 0, lastFail := false }
    else { k with ppb := off, overRun := k.overRun + 1 } := by
  simp only [Cand.window, qual, beyond, Bool.not_true, if_true]
  rfl

end

@[simp] theorem Hw.onCand_cand (h : Hw) (c : ChanId) (i : Fin 7) (f : Cand → Cand) : ((h.onCand c i f).chan c).cand i = f ((h.chan c).cand i) := by
  simp [Hw.onCand, Chan.cand]

theorem Hw.onCand_st (h : Hw) (c : ChanId) (i : Fin 7) (f : Cand → Cand) : ((h.onCand c i f).chan c).st = (h.chan c).st := by simp [Hw.onCand]

/-- What a judged candidate leaves is where it stood, beside the rounds of the synthesizers. -/
theorem Chan.cand_congr {x y : Chan} (same : x.tim.cand = y.tim.cand) (i : Fin 7) : x.cand i = y.cand i := by rw [Chan.cand, same, Chan.cand]

theorem Hw.disagreeCheck_cand (h : Hw) (c d : ChanId) (r : Bool) : ((h.disagreeCheck c r).chan d).tim.cand = (h.chan d).tim.cand := by
  have k := besideSelect_cand d
  unfold Hw.disagreeCheck
  extract_lets x w q t lim e
  split
  · split
    · rfl
    · rw [Hw.raiseChan_chan]
      exact (k.tim _ _ _ (by decide)).trans (k.syn _ _ _ _)
  · split
    · exact k.syn _ _ _ _
    · rfl

theorem Hw.windowDone_cand (h : Hw) (c d : ChanId) (r : Bool) (i : Fin 7) : ((h.windowDone c r i).chan d).tim.cand = (h.chan d).tim.cand := by
  have k := besideSelect_cand d
  unfold Hw.windowDone
  extract_lets n l l'
  split
  · exact (Hw.disagreeCheck_cand _ _ _ _).trans (k.syn _ _ _ _)
  · exact k.syn _ _ _ _

theorem Hw.cdrOfs_tim (h : Hw) (c d : ChanId) (p : Lane) (v : Int) : ((h.cdrOfs c p v).chan d).tim = (h.chan d).tim := by
  unfold Hw.cdrOfs
  split
  · simp only [Hw.setChReg_chan]
    split
    · subst_vars; rfl
    · rfl
  · rfl

theorem Hw.cdrOfs_st (h : Hw) (c d : ChanId) (p : Lane) (v : Int) : ((h.cdrOfs c p v).chan d).st = (h.chan d).st := by
  unfold Hw.cdrOfs
  split
  · simp only [Hw.setChReg_chan]
    split
    · subst_vars; rfl
    · rfl
  · rfl

/-- A line candidate's window counts while the root runs, some synthesizer ranks it, and its signal stands. -/
structure Hw.Measures (h : Hw) (c : ChanId) (i : Fin 7) : Prop where
  free : h.dev.root.hold = false
  line : i.val < 3
  ranked : (h.chan c).rank false i.val ≠ 0
  signal : ((h.chan c).cand i).fail = false

/-- The window of a line candidate, judged. -/
def Hw.judged (h : Hw) (c : ChanId) (i : Fin 7) (long : Bool) (ppb : Int) : Cand :=
  ((h.chan c).cand i).window long ppb (thr (fieldOf ((h.chan c).reg 0x800C) 9 0))
    (hyst (fieldOf ((h.chan c).reg 0x800C) 21 16) (fieldOf ((h.chan c).reg 0x800C) 9 0))
    (((h.chan c).cand i).lastFail && !bitOf ((h.chan c).reg 0x800C) 31) (decide (wtrOf (fieldOf ((h.chan c).reg 0x8000) 31 20) = 0))

/-- The judged candidate stands, and the clock-and-data recovery shows a short window's offset. -/
def Hw.windowNoted (h : Hw) (c : ChanId) (i : Fin 7) (long : Bool) (ppb : Int) : Hw :=
  if i.val < 3 ∧ long = false then (h.onCand c i fun _ => h.judged c i long ppb).cdrOfs c (candLane i.val) ppb
  else h.onCand c i fun _ => h.judged c i long ppb

/-- A change of its qualification is told, and the synthesizers select anew. -/
def Hw.windowTold (h : Hw) (c : ChanId) (i : Fin 7) (long : Bool) (ppb : Int) : Hw :=
  if (h.judged c i long ppb).qst = ((h.chan c).cand i).qst then h.windowNoted c i long ppb
  else ((h.windowNoted c i long ppb).evTim c 0x00040000).reselect c

section
variable {h : Hw} {c : ChanId} {i : Fin 7}

theorem Hw.chanWindow_eq (m : h.Measures c i) (long : Bool) (ppb : Int) : h.chanWindow c i long ppb =
    if long then ((h.windowTold c i long ppb).windowDone c false i).windowDone c true i else h.windowTold c i long ppb := by
  obtain ⟨free, line, ranked, signal⟩ := m
  rw [Hw.chanWindow]
  dsimp only
  rw [if_neg (by simp [Hw.rootHeld, free, ranked, signal]), if_pos line]
  rfl

theorem Hw.windowNoted_cand (h : Hw) (c : ChanId) (i : Fin 7) (long : Bool) (ppb : Int) :
    ((h.windowNoted c i long ppb).chan c).cand i = h.judged c i long ppb := by
  unfold Hw.windowNoted
  split
  · rw [Chan.cand, Hw.cdrOfs_tim]
    exact Hw.onCand_cand _ _ _ _
  · exact Hw.onCand_cand _ _ _ _

theorem Hw.windowTold_cand (h : Hw) (c : ChanId) (i : Fin 7) (long : Bool) (ppb : Int) :
    ((h.windowTold c i long ppb).chan c).cand i = h.judged c i long ppb := by
  rw [← h.windowNoted_cand c i long ppb]
  have k := besideSelect_cand c
  refine Chan.cand_congr ?_ i
  unfold Hw.windowTold
  split
  · rfl
  · refine (k.reselect _ _).trans ?_
    simp [Hw.evTim]

theorem Hw.chanWindow_cand (m : h.Measures c i) (long : Bool) (ppb : Int) : ((h.chanWindow c i long ppb).chan c).cand i = h.judged c i long ppb := by
  rw [Hw.chanWindow_eq m, ← h.windowTold_cand c i long ppb]
  refine Chan.cand_congr ?_ i
  split
  · exact (Hw.windowDone_cand _ _ _ _ _).trans (Hw.windowDone_cand _ _ _ _ _)
  · rfl

end

/-! ### The event of a change -/

/-- CAND of CHn.TIM_EVT, which the events of selection leave. -/
theorem besideSelect_flag (c : ChanId) : BesideSelect fun h => bitOf (h.chReg c 0x802C) 18 where
  syn h d r f := by
    simp only [Hw.chReg, Hw.onSyn, Hw.onChan_chan]
    split
    · subst_vars; rfl
    · rfl
  tim h d fl clear := by
    unfold Hw.evTim Hw.chEvent
    split
    · simp only [Hw.chReg, Hw.notify_chan, Hw.setChReg_chan]
      split
      · subst_vars
        rw [Chan.reg_setReg, if_pos rfl, bitOf_evWord _ _ (by omega), clear, Bool.or_false]
      · rfl
    · rfl
  stn _ _ _ := rfl
  event h fl := by simp [Hw.chReg]
  out h j d fl := by simp [Hw.chReg]
  draw _ := rfl

theorem Hw.windowNoted_st (h : Hw) (c : ChanId) (i : Fin 7) (long : Bool) (ppb : Int) :
    ((h.windowNoted c i long ppb).chan c).st = (h.chan c).st := by
  unfold Hw.windowNoted
  split
  · rw [Hw.cdrOfs_st, Hw.onCand_st]
  · rw [Hw.onCand_st]

theorem Hw.windowTold_flag {h : Hw} {c : ChanId} {i : Fin 7} {long : Bool} {ppb : Int} (active : (h.chan c).st = .active)
    (changed : (h.judged c i long ppb).qst ≠ ((h.chan c).cand i).qst) : bitOf ((h.windowTold c i long ppb).chReg c 0x802C) 18 = true := by
  rw [Hw.windowTold, if_neg changed, (besideSelect_flag c).reselect]
  exact Hw.evTim_flag ((h.windowNoted_st c i long ppb).trans active) (by omega) (by decide)

theorem Hw.settle_chan_cand (h h0 : Hw) (cs : List ChanId) (c : ChanId) (i : Fin 7) : ((h.settle h0 cs).chan c).cand i = (h.chan c).cand i :=
  Chan.cand_congr (by rw [Hw.settle_chan_tim]) i

theorem exec_qualWindow {s : State} {c : ChanId} {i : Fin 7} {long : Bool} {ppb : Int} (works : s.hw.works = true)
    (active : (s.hw.chan c).st = .active) :
    exec (.qualWindow (.chan c) i long ppb) s = .next { s with hw := (s.hw.chanWindow c i long ppb).settle s.hw [c] } :=
  (next_pos works).trans (next_congr (congrArg (fun u : Hw => u.settle s.hw [c]) (if_pos (decide_eq_true active))))

/-- A PENDING candidate qualifies. -/
def Cand.qualified (k : Cand) : Cand := { k with qst := .qual, overRun := 0 }

theorem Cand.waited_pending {k : Cand} (pending : k.qst = .pending) : k.waited = k.qualified := if_pos pending

theorem exec_qualWtrExpire {s : State} {c : ChanId} {i : Fin 7} (works : s.hw.works = true) (active : (s.hw.chan c).st = .active)
    (line : i.val < 3) (pending : ((s.hw.chan c).cand i).qst = .pending) : exec (.qualWtrExpire (.chan c) i) s =
      .next { s with hw := (((s.hw.onCand c i Cand.waited).evTim c 0x00040000).reselect c).settle s.hw [c] } :=
  (next_pos works).trans (next_congr (congrArg (fun u : Hw => u.settle s.hw [c])
    ((if_pos (decide_eq_true active)).trans (if_pos ⟨line, pending⟩))))

/-! ## Station inputs -/

theorem besideSelect_inp : BesideSelect fun h => h.dev.stn.inp where
  syn _ _ _ _ := rfl
  tim h d fl _ := by simp [Hw.evTim]
  stn _ _ keeps := keeps _
  event h fl := by simp
  out h j d fl := by simp
  draw _ := rfl

theorem besideSelect_fcl : BesideSelect fun h => h.dev.fcl where
  syn _ _ _ _ := rfl
  tim h d fl _ := by simp [Hw.evTim]
  stn _ _ _ := rfl
  event h fl := by simp
  out h j d fl := by simp
  draw _ := rfl

/-- A station input is changed, and nothing told yet. -/
def Hw.stnInSet (h : Hw) (i : Fin 4) (f : Cand → Cand) : Hw :=
  h.onDev fun d => { d with stn := { d.stn with inp := d.stn.inp.set i (f h.dev.stn.inp[i]) } }

/-- The flags of DEV.STN_IEVT_i after a change. -/
def stnInFlags (old new : Cand) : Word :=
  (if new.fail && !old.fail then 0x00800000 else 0) ||| (if new.drift && !old.drift then 0x00400000 else 0)
    ||| (if new.qst = .qual ∧ old.qst ≠ .qual then 0x00200000 else 0)

/-- Every running channel is told of a station input. -/
def Hw.stnInTold (h : Hw) : Hw := (List.finRange 48).foldl (fun h c => if (h.chan c).isActive then h.evTim c 0x00040000 else h) h

/-- A changed station input is reported, and every engine selects anew. -/
theorem Hw.onStnIn_changed {h : Hw} {i : Fin 4} {f : Cand → Cand}
    (changed : ¬ ((f h.dev.stn.inp[i]).qst = h.dev.stn.inp[i].qst ∧ (f h.dev.stn.inp[i]).fail = h.dev.stn.inp[i].fail)) : ∃ u : Hw,
    u = (if stnInFlags h.dev.stn.inp[i] (f h.dev.stn.inp[i]) = 0 then h.stnInSet i f
      else (h.stnInSet i f).devEvent (0x3050 + 4 * i.val) (24 + i.val) (stnInFlags h.dev.stn.inp[i] (f h.dev.stn.inp[i])))
    ∧ h.onStnIn i f = (if (f h.dev.stn.inp[i]).qst = h.dev.stn.inp[i].qst then u else u.stnInTold).reselectAll :=
  ⟨_, rfl, if_neg changed⟩

section
variable {γ : Type} {p : Hw → γ}

theorem Hw.stnInTold_keeps (tim : ∀ h c, p (Hw.evTim h c 0x00040000) = p h) (h : Hw) : p h.stnInTold = p h :=
  foldl_keeps _ p (fun u c => ite_keeps (tim u c) rfl) _ _

/-- What the report of a changed station input leaves. -/
theorem Hw.onStnIn_keeps (k : BesideSelect p) (tim : ∀ h c, p (Hw.evTim h c 0x00040000) = p h)
    (event : ∀ (h : Hw) (i : Fin 4) (d : Nat) (fl : Word), p (h.devEvent (0x3050 + 4 * i.val) d fl) = p h) (h : Hw) (i : Fin 4) (f : Cand → Cand) :
    p (h.onStnIn i f) = p (h.stnInSet i f) := by
  by_cases same : (f h.dev.stn.inp[i]).qst = h.dev.stn.inp[i].qst ∧ (f h.dev.stn.inp[i]).fail = h.dev.stn.inp[i].fail
  · exact congrArg p (if_pos same)
  · obtain ⟨u, told, becomes⟩ := Hw.onStnIn_changed same
    have reported : p u = p (h.stnInSet i f) := by
      rw [told]
      exact ite_keeps rfl (event _ _ _ _)
    rw [becomes]
    exact (k.reselectAll _).trans ((ite_keeps rfl (Hw.stnInTold_keeps tim u)).trans reported)

end

theorem Hw.onStnIn_inp (h : Hw) (i : Fin 4) (f : Cand → Cand) : (h.onStnIn i f).dev.stn.inp[i] = f h.dev.stn.inp[i] := by
  rw [Hw.onStnIn_keeps besideSelect_inp (by simp [Hw.evTim]) (by simp)]
  simp [Hw.stnInSet]

theorem Hw.onStnIn_fcl (h : Hw) (i : Fin 4) (f : Cand → Cand) : (h.onStnIn i f).dev.fcl = h.dev.fcl := by
  rw [Hw.onStnIn_keeps besideSelect_fcl (by simp [Hw.evTim]) (by simp)]
  rfl

/-- Start-up, SYSCNT and time, which a station input does not move. -/
theorem besideSelect_clock : BesideSelect fun h => (h.dev.boot, h.dev.sys, h.now) where
  syn _ _ _ _ := rfl
  tim h d fl _ := by simp [Hw.evTim]
  stn _ _ _ := rfl
  event h fl := by simp
  out h j d fl := by simp
  draw _ := rfl

theorem Hw.onStnIn_clock (h : Hw) (i : Fin 4) (f : Cand → Cand) :
    ((h.onStnIn i f).dev.boot, (h.onStnIn i f).dev.sys, (h.onStnIn i f).now) = (h.dev.boot, h.dev.sys, h.now) :=
  Hw.onStnIn_keeps besideSelect_clock (by simp [Hw.evTim]) (by simp) h i f

/-- FAIL of DEV.STN_IEVT_i, which selection leaves. -/
theorem besideSelect_stnFlag (i : Fin 4) : BesideSelect fun h => h.devReg (0x3050 + 4 * i.val) where
  syn _ _ _ _ := rfl
  tim h d fl _ := by simp [Hw.evTim]
  stn _ _ _ := rfl
  event h fl := by
    have other : 0x3050 + 4 * i.val ≠ 0x300C := by omega
    simp [other]
  out h j d fl := by
    have other : 0x3050 + 4 * i.val ≠ 0x3060 + 4 * j.val := by omega
    simp [other]
  draw _ := rfl

/-- A station input that fails is reported in its event register. -/
theorem Hw.onStnIn_failFlag {h : Hw} {i : Fin 4} {f : Cand → Cand} (up : h.dev.stn.inp[i].fail = false) (fails : (f h.dev.stn.inp[i]).fail = true) :
    bitOf ((h.onStnIn i f).devReg (0x3050 + 4 * i.val)) 23 = true := by
  have flag : bitOf (stnInFlags h.dev.stn.inp[i] (f h.dev.stn.inp[i])) 23 = true := by
    have first : bitOf (0x00800000 : Word) 23 = true := by decide
    rw [stnInFlags, up, fails, if_pos (by decide : (true && !false) = true)]
    simp only [bitOf, BitVec.getLsbD_or] at first ⊢
    rw [first, Bool.true_or, Bool.true_or]
  have some_ : stnInFlags h.dev.stn.inp[i] (f h.dev.stn.inp[i]) ≠ 0 := fun zero => by
    rw [zero] at flag
    exact Bool.false_ne_true flag
  obtain ⟨u, told, becomes⟩ := Hw.onStnIn_changed (h := h) (i := i) (f := f) (by
    rw [up, fails]
    exact fun same => Bool.false_ne_true same.2.symm)
  rw [if_neg some_] at told
  have left : (if (f h.dev.stn.inp[i]).qst = h.dev.stn.inp[i].qst then u else u.stnInTold).devReg (0x3050 + 4 * i.val) = u.devReg (0x3050 + 4 * i.val) :=
    ite_keeps (p := fun v : Hw => v.devReg (0x3050 + 4 * i.val)) rfl (Hw.stnInTold_keeps (p := fun v : Hw => v.devReg (0x3050 + 4 * i.val)) (by simp [Hw.evTim]) u)
  rw [becomes, (besideSelect_stnFlag i).reselectAll, left, told, Hw.devEvent_devReg, if_pos rfl, bitOf_evWord _ _ (by omega), flag, Bool.or_true]

/-- A station input's failure. -/
def Cand.failed (k : Cand) : Cand := { k with qst := .disq, fail := true, drift := false, overRun := 0, fresh := false, lastFail := true }

theorem Hw.stnFail_eq {h : Hw} {i : Fin 4} (up : h.dev.stn.inp[i].fail = false) :
    h.stnFail i = (h.onStnIn i Cand.failed).raiseSpine 16 clsN 0x43 i.val := if_neg (by rw [up]; decide)

/-- Settles O21: a window is judged by `Cand.window`, and a change of a candidate leaves it for selection to read. -/
theorem candidatesQualify : Obligations.CandidatesQualify := by
  unfold Obligations.CandidatesQualify
  refine ⟨fun s c i ppb works active free line ranked init signal fresh within_ => ?_,
    fun s c i ppb works active free line ranked qual signal beyond => ?_, fun s c i works active line pending => ?_,
    fun s i works station pending => ?_, fun s i works up => ?_, fun s i works down set => ?_⟩
  · have m : s.hw.Measures c i := ⟨free, line, ranked, signal⟩
    have judged : s.hw.judged c i false ppb = { (s.hw.chan c).cand i with qst := .qual, drift := false, fresh := false, overRun := 0, fast := ppb } :=
      Cand.window_first init fresh within_
    refine .of (exec_qualWindow works active) ⟨?_, ?_⟩
    · rw [Hw.settle_chan_cand, Hw.chanWindow_cand m, judged]
    · rw [Hw.chReg, Hw.settle_chan_reg, ← Hw.chReg, Hw.chanWindow_eq m]
      exact Hw.windowTold_flag active (by rw [judged, init]; exact nofun)
  · have m : s.hw.Measures c i := ⟨free, line, ranked, signal⟩
    have judged : s.hw.judged c i true ppb = _ := Cand.window_over qual beyond
    refine .of (exec_qualWindow works active) ?_
    rw [Hw.settle_chan_cand, Hw.chanWindow_cand m, judged]
    refine ⟨?_, fun third => ?_, fun earlier => ?_⟩
    · split <;> rfl
    · rw [if_pos (by omega)]
      exact ⟨rfl, rfl⟩
    · rw [if_neg (by omega)]
      exact ⟨qual, rfl⟩
  · refine .of (exec_qualWtrExpire works active line pending) ?_
    have told : (((s.hw.onCand c i Cand.waited).evTim c 0x00040000).chan c).tim.cand = ((s.hw.onCand c i Cand.waited).chan c).tim.cand := by
      simp [Hw.evTim]
    rw [Hw.settle_chan_cand, Chan.cand_congr (((besideSelect_cand c).reselect _ c).trans told), Hw.onCand_cand, Cand.waited_pending pending]
    rfl
  · refine .byWatchedAll (fun h => if i.val < 3 then h else h.onStnIn (stnIn i) Cand.waited) rfl works ?_
    rw [if_neg (by omega), Hw.settle_stn, Hw.onStnIn_inp, Cand.waited_pending pending]
    rfl
  · refine .byWatchedAll (·.stnFail i) rfl works ?_
    rw [Hw.stnFail_eq up]
    refine ⟨?_, ?_, ?_⟩
    · rw [Hw.settle_stn, Hw.raiseSpine_stn, Hw.onStnIn_inp]
      rfl
    · rw [Hw.settle_devReg _ _ _ _ (fun g _ => by omega), Hw.raiseSpine_devReg]
      exact Hw.onStnIn_failFlag up rfl
    · have clock := s.hw.onStnIn_clock i Cand.failed
      obtain ⟨boot, sys, now⟩ : (s.hw.onStnIn i Cand.failed).dev.boot = s.hw.dev.boot ∧ (s.hw.onStnIn i Cand.failed).dev.sys = s.hw.dev.sys
          ∧ (s.hw.onStnIn i Cand.failed).now = s.hw.now := by simpa only [Prod.mk.injEq] using clock
      have outside : (s.hw.onStnIn i Cand.failed).inMw = false :=
        (congrArg (fun b : Boot => decide (b.st = .midwinter)) boot).trans (Hw.inMw_of_works works)
      rw [Hw.tookMsg, Hw.settle_fcl_slots, Hw.raiseSpine_slots outside, Hw.onStnIn_fcl, sys, now]
  · refine .byWatchedAll (fun h => if h.dev.stn.inp[i].fail && decide (h.dev.stnFreq i.val ≠ 0) then
      h.onStnIn i fun k => { k with qst := .init, fail := false } else h) rfl works ?_
    rw [if_pos (by rw [down, decide_eq_true set]; rfl)]
    refine ⟨?_, ?_⟩
    · rw [Hw.settle_stn, Hw.onStnIn_inp]
    · rw [Hw.noMsg, Hw.settle_fcl_slots, Hw.onStnIn_fcl]

end Sys2Proof.Machine
end

section
/-!
PROOF. Lanes (O22): what follows a change of a lane's signal, and the defects LOS, LOF and LOM.
-/
namespace Sys2Proof.Machine

theorem Hw.settleChan_local (h h0 : Hw) (c : ChanId) : (h.settleChan h0 c).Local h c := by
  constructor
  case others => intro d other; simp [Hw.settleChan, Hw.recStep, Hw.chNotify, apply_ite (fun u : Hw => u.chan d), other]
  all_goals
    unfold Hw.settleChan Hw.recStep Hw.chNotify
    dsimp only
    repeat' split
    all_goals simp

theorem Hw.settle_local (h h0 : Hw) (c : ChanId) : (h.settle h0 [c]).Local h c := by
  refine ⟨fun d other => ?_, by simp, by simp, by simp, by simp, by simp, by simp, by simp, by simp, by simp⟩
  unfold Hw.settle
  extract_lets h1 h2 h3
  have sums : ((List.filter (fun g : Fin 6 => [c].any fun c => decide (c.val / 8 = g.val)) (List.finRange 6)).foldl (fun h g => h.settleSum h0 g) h3).chan d
      = h3.chan d := foldl_keeps _ (fun u : Hw => u.chan d) (fun u g => ite_keeps (p := fun u : Hw => u.chan d) rfl (by simp)) _ _
  have steps : h3.chan d = h2.chan d := ite_keeps (p := fun u : Hw => u.chan d) rfl (by simp [Hw.drecStep])
  have own : h2.chan d = h1.chan d := (h1.settleChan_local h0 c).others d other
  exact sums.trans (steps.trans (own.trans (Hw.oneChange_keeps (fun u : Hw => u.chan d) (by simp) h h0)))

/-- What follows a lane's signal on channel `c` leaves: everything but the channel's engines and candidates, its path conditions, the
circuits that hunt, and the event registers of framers, mapper and timing, whose flags stay. -/
structure Hw.Follows (t h : Hw) (c : ChanId) : Prop where
  here : t.Local h c
  fcl : t.dev.fcl = h.dev.fcl
  chan : ∃ tim psw circ regs, t.chan c = { h.chan c with tim := tim, psw := psw, circ := circ, regs := regs }
  reg : ∀ off, off ≠ 0x2300 → off ≠ 0x3008 → off ≠ 0x802C → t.chReg c off = h.chReg c off
  flag : ∀ b < 24, bitOf (h.chReg c 0x2300) b = true → bitOf (t.chReg c 0x2300) b = true

section
variable {t u h : Hw} {c : ChanId} {p : Lane}

theorem Hw.Follows.refl (h : Hw) (c : ChanId) : h.Follows h c := ⟨.refl h c, rfl, ⟨_, _, _, _, rfl⟩, fun _ _ _ _ => rfl, fun _ _ on => on⟩

theorem Hw.Follows.trans (a : t.Follows u c) (b : u.Follows h c) : t.Follows h c where
  here := a.here.trans b.here
  fcl := a.fcl.trans b.fcl
  chan := by
    obtain ⟨_, _, _, _, first⟩ := b.chan
    obtain ⟨tim, psw, circ, regs, second⟩ := a.chan
    exact ⟨tim, psw, circ, regs, by rw [second, first]⟩
  reg off n n' n'' := (a.reg off n n' n'').trans (b.reg off n n' n'')
  flag i low on := a.flag i low (b.flag i low on)

theorem Hw.Follows.ite {q : Prop} [Decidable q] (a : t.Follows h c) (b : u.Follows h c) : (if q then t else u).Follows h c := by split <;> assumption

theorem Hw.Follows.lane (f : t.Follows h c) (q : Lane) : (t.chan c).lane q = (h.chan c).lane q := by
  obtain ⟨_, _, _, _, same⟩ := f.chan
  rw [same]
  cases q <;> rfl

theorem Hw.Follows.ctr (f : t.Follows h c) : (t.chan c).ctr = (h.chan c).ctr := by
  obtain ⟨_, _, _, _, same⟩ := f.chan
  rw [same]

theorem Hw.Follows.map (f : t.Follows h c) : (t.chan c).map = (h.chan c).map := by
  obtain ⟨_, _, _, _, same⟩ := f.chan
  rw [same]

theorem Hw.Follows.st (f : t.Follows h c) : (t.chan c).st = (h.chan c).st := by
  obtain ⟨_, _, _, _, same⟩ := f.chan
  rw [same]

theorem Hw.Follows.raises (f : t.Follows h c) : (t.chan c).raises = (h.chan c).raises := by rw [Chan.raises, f.st, Chan.raises]

end

theorem Hw.onChan_follows (h : Hw) (c : ChanId) (f : Chan → Chan)
    (same : ∃ tim psw circ, f (h.chan c) = { h.chan c with tim := tim, psw := psw, circ := circ }) : (h.onChan c f).Follows h c := by
  obtain ⟨tim, psw, circ, same⟩ := same
  have chan : (h.onChan c f).chan c = { h.chan c with tim := tim, psw := psw, circ := circ } := by rw [Hw.onChan_chan, if_pos rfl, same]
  have reg (off : Nat) : (h.onChan c f).chReg c off = h.chReg c off := by rw [Hw.chReg, chan]; rfl
  exact ⟨h.onChan_local c f, rfl, ⟨tim, psw, circ, _, chan⟩, fun off _ _ _ => reg off, fun b _ on => by rw [reg]; exact on⟩

theorem Hw.chEvent_chReg {h : Hw} {c : ChanId} (raises : (h.chan c).raises = true) (off j : Nat) (fl : Word) (o : Nat) :
    (h.chEvent c off j fl).chReg c o = if o = off then evWord (h.chReg c off) fl else h.chReg c o := by
  rw [Hw.chReg, Hw.chEvent_chan_on _ _ _ _ _ raises, if_pos rfl, Chan.reg_setReg]
  rfl

theorem Hw.chEvent_follows (h : Hw) (c : ChanId) (off j : Nat) (fl : Word) (event : off = 0x2300 ∨ off = 0x3008 ∨ off = 0x802C) :
    (h.chEvent c off j fl).Follows h c := by
  by_cases raises : (h.chan c).raises = true
  · refine ⟨h.chEvent_local c off j fl, by simp, ⟨(h.chan c).tim, (h.chan c).psw, (h.chan c).circ,
      ((h.chan c).setReg off (evWord (h.chReg c off) fl)).regs, ?_⟩, fun o n n' n'' => ?_, fun b low on => ?_⟩
    · rw [Hw.chEvent_chan_on _ _ _ _ _ raises, if_pos rfl]
      rfl
    · rw [Hw.chEvent_chReg raises, if_neg (by omega)]
    · rw [Hw.chEvent_chReg raises]
      split
      · next own => rw [bitOf_evWord _ _ low, ← own, on, Bool.true_or]
      · exact on
  · rw [Hw.chEvent, if_neg raises]
    exact .refl h c

theorem Hw.evFrm_follows (h : Hw) (c : ChanId) (fl : Word) : (h.evFrm c fl).Follows h c := h.chEvent_follows c _ _ fl (.inl rfl)

/-- A flag of CHn.FRM_EVT that is told stands. -/
theorem Hw.evFrm_flag {h : Hw} {c : ChanId} (raises : (h.chan c).raises = true) {fl : Word} {i : Nat} (low : i < 24) (flag : bitOf fl i = true) :
    bitOf ((h.evFrm c fl).chReg c 0x2300) i = true := by
  rw [Hw.evFrm, Hw.chEvent_chReg raises, if_pos rfl, bitOf_evWord _ _ low, flag, Bool.or_true]

/-! ## What follows -/

theorem Hw.onSyn_follows (h : Hw) (c : ChanId) (r : Bool) (f : Eng → Eng) : (h.onSyn c r f).Follows h c :=
  h.onChan_follows c _ ⟨_, _, _, rfl⟩

theorem Hw.evTim_follows (h : Hw) (c : ChanId) (fl : Word) : (h.evTim c fl).Follows h c := h.chEvent_follows c _ _ fl (.inr (.inr rfl))

theorem Hw.reselectSyn_follows (h : Hw) (c : ChanId) (r : Bool) : (h.reselectSyn c r).Follows h c := by
  unfold Hw.reselectSyn
  extract_lets x e m act q e' e'' h1 h2
  have first : h1.Follows h c := h.onSyn_follows c r _
  have second : h2.Follows h1 c := .ite (h1.evTim_follows c _) (.refl h1 c)
  exact .trans (.ite (h2.evTim_follows c _) (.refl h2 c)) (second.trans first)

theorem Hw.reselect_follows (h : Hw) (c : ChanId) : (h.reselect c).Follows h c :=
  .ite ((Hw.reselectSyn_follows _ c true).trans (h.reselectSyn_follows c false)) (.refl h c)

theorem Hw.candCheck_follows (h : Hw) (c : ChanId) (p : Lane) : (h.candCheck c p).Follows h c := by
  unfold Hw.candCheck
  extract_lets x k bad h1
  have first : h1.Follows h c := h.onChan_follows c _ ⟨_, _, _, rfl⟩
  exact .ite (.refl h c) ((Hw.reselect_follows _ c).trans (.trans (.ite (.refl h1 c) (h1.evTim_follows c _)) first))

theorem Hw.pswInputs_follows (h : Hw) (c : ChanId) : (h.pswInputs c).Follows h c := .ite (h.onChan_follows c _ ⟨_, _, _, rfl⟩) (.refl h c)

theorem Hw.defSync_follows (h h0 : Hw) (c : ChanId) : (h.defSync h0 c).Follows h c :=
  .ite (h.chEvent_follows c _ _ _ (.inr (.inl rfl))) (.refl h c)

theorem Hw.lneSync_follows (h h0 : Hw) (c : ChanId) (p : Lane) : (h.lneSync h0 c p).Follows h c := .ite (.refl h c) (h.evFrm_follows c _)

/-- FRM_EVT tells a lane whose defects changed. -/
def Hw.defTold (h h0 : Hw) (c : ChanId) (p : Lane) : Hw :=
  if ((h.chan c).lane p).defects = ((h0.chan c).lane p).defects then h else h.evFrm c (BitVec.ofNat 32 (2 ^ (23 - p.num)))

theorem Hw.defTold_follows (h h0 : Hw) (c : ChanId) (p : Lane) : (h.defTold h0 c p).Follows h c := .ite (.refl h c) (h.evFrm_follows c _)

/-- What else follows a lane's signal comes after what FRM_EVT tells. -/
theorem Hw.laneSync_follows_told (h h0 : Hw) (c : ChanId) (p : Lane) : (h.laneSync h0 c p).Follows (h.defTold h0 c p) c := by
  unfold Hw.laneSync
  extract_lets h1 h2
  have circuits : h2.Follows h1 c := by
    show Hw.Follows (match p.path? with | some q => _ | none => _) h1 c
    split <;> exact h1.onChan_follows c _ ⟨_, _, _, rfl⟩
  exact (Hw.defSync_follows _ h0 c).trans ((Hw.pswInputs_follows _ c).trans ((h2.candCheck_follows c p).trans circuits))

theorem Hw.laneSync_follows (h h0 : Hw) (c : ChanId) (p : Lane) : (h.laneSync h0 c p).Follows h c :=
  (h.laneSync_follows_told h0 c p).trans (h.defTold_follows h0 c p)

/-- A change of a lane's defects shows in CHn.FRM_EVT. -/
theorem Hw.laneSync_flag {h h0 : Hw} {c : ChanId} {p : Lane} (raises : (h.chan c).raises = true)
    (changed : ((h.chan c).lane p).defects ≠ ((h0.chan c).lane p).defects) : bitOf ((h.laneSync h0 c p).chReg c 0x2300) (23 - p.num) = true := by
  have flag : bitOf (BitVec.ofNat 32 (2 ^ (23 - p.num))) (23 - p.num) = true := by cases p <;> decide
  refine (h.laneSync_follows_told h0 c p).flag _ (by omega) ?_
  rw [Hw.defTold, if_neg changed]
  exact Hw.evFrm_flag raises (by omega) flag

/-! ## Defect bits -/

/-- The bit of a defect. -/
theorem getLsbD_defBit {j : Nat} (real : j < 16) (i : Nat) : (BitVec.ofNat 16 (2 ^ j)).getLsbD i = decide (i = j) := by
  rw [BitVec.getLsbD_ofNat, Nat.testBit_two_pow]
  by_cases same : i = j
  · subst same; simp [real]
  · simp [same, Ne.symm same]

theorem LaneSt.def_setDef (l : LaneSt) {j : Nat} (real : j < 16) (on : Bool) (i : Nat) : (l.setDef j on).def_ i = if i = j then on else l.def_ i := by
  have bit := getLsbD_defBit real i
  cases on
  case true =>
    rw [LaneSt.def_, LaneSt.setDef, if_pos rfl, BitVec.getLsbD_or, bit]
    by_cases same : i = j
    · rw [if_pos same, decide_eq_true same, Bool.or_true]
    · rw [if_neg same, decide_eq_false same, Bool.or_false]
      rfl
  case false =>
    rw [LaneSt.def_, LaneSt.setDef, if_neg Bool.false_ne_true, BitVec.getLsbD_and, BitVec.getLsbD_not, bit]
    by_cases same : i = j
    · rw [if_pos same, decide_eq_true same, Bool.not_true, Bool.and_false, Bool.and_false]
    · rw [if_neg same, decide_eq_false same, Bool.not_false, Bool.and_true, LaneSt.def_]
      by_cases small : i < 16
      · rw [decide_eq_true small, Bool.and_true]
      · rw [decide_eq_false small, Bool.and_false, BitVec.getLsbD_of_ge _ _ (by omega)]

/-- A defect bit that was other than it is set now changes the defects. -/
theorem LaneSt.setDef_changes {l : LaneSt} {j : Nat} (real : j < 16) {on : Bool} (was : l.def_ j ≠ on) : (l.setDef j on).defects ≠ l.defects := by
  intro same
  have now_ := l.def_setDef real on j
  rw [if_pos rfl, LaneSt.def_, same] at now_
  exact was now_

theorem LaneSt.enters_changes {l : LaneSt} (j : Nat) (real : j < 16) (clear : l.def_ j = false) : (l.setDef j true).defects ≠ l.defects :=
  LaneSt.setDef_changes real (by rw [clear]; exact Bool.false_ne_true)

theorem LaneSt.leaves_changes {l : LaneSt} (j : Nat) (real : j < 16) (set : l.def_ j = true) : (l.setDef j false).defects ≠ l.defects :=
  LaneSt.setDef_changes real (by rw [set]; decide)

/-! ## The carriage checks' beginning -/

/-- A lane in frame, with neither LOS, LOF nor LOM, on which the carriage checks have begun again (R91). -/
def LaneSt.checked (l : LaneSt) : LaneSt :=
  if l.fr = .inframe ∧ l.def_ 15 = false ∧ l.def_ 13 = false ∧ l.def_ 12 = false then { l with lost := false } else l

theorem Hw.onLane_self {h : Hw} {c : ChanId} {p : Lane} {f : LaneSt → LaneSt} (same : f ((h.chan c).lane p) = (h.chan c).lane p) : h.onLane c p f = h := by
  have chan : (h.chan c).setLane p ((h.chan c).lane p) = h.chan c := by cases p <;> rfl
  rw [Hw.onLane, Hw.onChan, same, chan, Hw.setChan, Hw.chan, Vector.set_getElem_self]

theorem Hw.carriageBegin_follows (h : Hw) (c : ChanId) (p : Lane) : (h.carriageBegin c p).Follows (h.onLane c p LaneSt.checked) c := by
  unfold Hw.carriageBegin
  extract_lets l h1
  split
  · next rests =>
    have same : l.checked = l := by
      unfold LaneSt.checked
      split
      · next stands =>
        obtain ⟨fr, los, lof, lom⟩ := stands
        have notLost : l.lost = false := by simpa [fr, los, lof, lom] using rests
        rw [← notLost]
      · rfl
    rw [Hw.onLane_self same]
    exact .refl h c
  · next begins =>
    have begun : l.checked = { l with lost := false } := if_pos (by simpa [and_assoc] using begins : l.lost = true ∧ _).2
    have first : h1 = h.onLane c p LaneSt.checked := by
      show h.onLane c p _ = _
      rw [Hw.onLane, Hw.onChan, Hw.onLane, Hw.onChan]
      exact congrArg (fun l => h.setChan c ((h.chan c).setLane p l)) begun.symm
    rw [← first]
    split
    · exact .refl h1 c
    · exact h1.onChan_follows c _ ⟨_, _, _, rfl⟩

theorem satAdd_eq_min (n a b : Nat) : satAdd n a b = min n (a + b) := by
  unfold satAdd
  split <;> omega

/-- A channel's counters after a count: the one counted, saturated, and every other as before. -/
theorem Chan.count_ctr (x : Chan) (g i n k : Nat) :
    tget 0 (x.count g i n).ctr k = if k = ctrKey g i then min (2 ^ 48 - 1) (tget 0 x.ctr (ctrKey g i) + n) else tget 0 x.ctr k := by
  rw [Chan.count, tget_tput, satAdd_eq_min]

/-! ## A change of a lane's defects -/

theorem raises_of_runs {x : Chan} (runs : x.st = .active ∨ x.st = .diag) : x.raises = true := by
  rcases runs with st | st <;> simp [Chan.raises, st]

/-- Lane `p` of channel `c` is now `l`; FRM_EVT tells it, and nothing beyond the channel has changed. -/
def Hw.LaneNow (t h : Hw) (c : ChanId) (p : Lane) (l : LaneSt) : Prop :=
  (t.chan c).lane p = l ∧ bitOf (t.chReg c 0x2300) (23 - p.num) = true ∧ t.Local h c

section
variable {h u v : Hw} {c : ChanId} {p : Lane} {l : LaneSt}

/-- A lane changed in its defects, with what follows its signal, is as changed and told. -/
theorem Hw.laneNow_of_synced (runs : (h.chan c).st = .active ∨ (h.chan c).st = .diag) (here : u.Local h c) (st : (u.chan c).st = (h.chan c).st)
    (lane : (u.chan c).lane p = l) (changed : l.defects ≠ ((h.chan c).lane p).defects) (later : v.Follows (u.laneSync h c p) c) :
    (v.settle h [c]).LaneNow h c p l := by
  have follows := later.trans (u.laneSync_follows h c p)
  refine ⟨?_, ?_, (v.settle_local h c).trans (follows.here.trans here)⟩
  · rw [Hw.settle_chan_lane, follows.lane, lane]
  · rw [Hw.chReg, Hw.settle_chan_reg]
    refine later.flag _ (by omega) (Hw.laneSync_flag (raises_of_runs (by rwa [st])) ?_)
    rwa [lane]

theorem Hw.onLane_lane (h : Hw) (c : ChanId) (p : Lane) (f : LaneSt → LaneSt) : ((h.onLane c p f).chan c).lane p = f ((h.chan c).lane p) := by simp

theorem Hw.onLane_st (h : Hw) (c : ChanId) (p : Lane) (f : LaneSt → LaneSt) : ((h.onLane c p f).chan c).st = (h.chan c).st := by simp

/-- A defect entered or left on a lane by itself. -/
theorem Hw.laneNow_of_onLane (runs : (h.chan c).st = .active ∨ (h.chan c).st = .diag) (f : LaneSt → LaneSt)
    (changed : (f ((h.chan c).lane p)).defects ≠ ((h.chan c).lane p).defects) (later : v.Follows ((h.onLane c p f).laneSync h c p) c) :
    (v.settle h [c]).LaneNow h c p (f ((h.chan c).lane p)) :=
  Hw.laneNow_of_synced runs (h.onChan_local c _) (h.onLane_st c p f) (h.onLane_lane c p f) changed later

/-- A defect left on a lane with which its carriage checks begin again. -/
theorem Hw.laneNow_of_checked (runs : (h.chan c).st = .active ∨ (h.chan c).st = .diag) (f : LaneSt → LaneSt)
    (changed : (f ((h.chan c).lane p)).checked.defects ≠ ((h.chan c).lane p).defects)
    (later : v.Follows (((h.onLane c p f).carriageBegin c p).laneSync h c p) c) :
    (v.settle h [c]).LaneNow h c p (f ((h.chan c).lane p)).checked := by
  have begun := (h.onLane c p f).carriageBegin_follows c p
  refine Hw.laneNow_of_synced runs (begun.here.trans ((Hw.onChan_local _ c _).trans (h.onChan_local c _))) ?_ ?_ changed later
  · rw [begun.st, Hw.onLane_st, Hw.onLane_st]
  · rw [begun.lane, Hw.onLane_lane, Hw.onLane_lane]

end

/-! ## LOS, LOF and LOM -/

/-- A lane that has entered LOS. -/
def LaneSt.inLos (l : LaneSt) (unlock : Bool) : LaneSt := { l.setDef 15 true with lost := true, cdrLock := l.cdrLock && !unlock }

/-- Channel and lane at LOS's entry: the framer hunts, and a CDR that lost lock has measured nothing. -/
def Hw.losSet (h : Hw) (c : ChanId) (p : Lane) (unlock : Bool) : Hw :=
  let h' := (h.onChan c (·.toHunt p)).onLane c p (·.inLos unlock)
  if unlock then h'.onChan c fun x => x.setReg (laneReg p + 0x10) (withField (x.reg (laneReg p + 0x10)) 31 31 0) else h'

theorem Hw.losIn_eq {h : Hw} {c : ChanId} {p : Lane} {unlock : Bool} {n : Nat} (clear : ((h.chan c).lane p).def_ 15 = false)
    (delivers : ((h.chan c).lane p).fr ≠ .runahead) :
    h.losIn c p unlock n = (((h.losSet c p unlock).count c 0x20 (16 * p.num + 13) 1).laneSync h c p).lneSync h c p := by
  have notLos : ¬ ((h.chan c).lane p).def_ 15 = true := by rw [clear]; exact Bool.false_ne_true
  rw [Hw.losIn]
  exact (if_neg notLos).trans (by rw [if_neg delivers]; rfl)

section
variable (h : Hw) (c : ChanId) (p : Lane) (unlock : Bool)

/-- The framer of a lane in HUNT, with every slot free, under its present settings (R113). -/
def LaneSt.hunting (l : LaneSt) (ra : Word) : LaneSt := { l with fr := .hunt, slots := [], confirm := 0, since := 0, won := none, ra := ra }

theorem Hw.losSet_chan : ∃ regs, (h.losSet c p unlock).chan c =
    { (h.chan c).setLane p ((((h.chan c).lane p).hunting ((h.chan c).reg (frmReg p 0))).inLos unlock) with regs := regs } := by
  cases unlock <;> cases p <;> exact ⟨_, by simp [Hw.losSet, Chan.toHunt, Chan.setLane, Chan.lane, LaneSt.hunting, Chan.setReg]; rfl⟩

theorem Hw.losSet_local : (h.losSet c p unlock).Local h c := by
  have before := ((h.onChan c (·.toHunt p)).onChan_local c fun x => x.setLane p ((x.lane p).inLos unlock)).trans (h.onChan_local c _)
  cases unlock
  · exact before
  · exact (Hw.onChan_local _ c fun x => x.setReg (laneReg p + 0x10) (withField (x.reg (laneReg p + 0x10)) 31 31 0)).trans before

end

/-- A lane in frame that leaves its last of LOS, LOF and LOM is no longer lost. -/
theorem LaneSt.checked_of_left {l : LaneSt} (fr : l.fr = .inframe) (j : Nat) (real : j < 16) (los : j = 15 ∨ l.def_ 15 = false)
    (lof : j = 13 ∨ l.def_ 13 = false) (lom : j = 12 ∨ l.def_ 12 = false) :
    (l.setDef j false).checked = { l.setDef j false with lost := false } := by
  have off (i : Nat) (was : j = i ∨ l.def_ i = false) : (l.setDef j false).def_ i = false := by
    rw [l.def_setDef real]
    split
    · rfl
    · next other => exact was.resolve_left (Ne.symm other)
  exact if_pos ⟨fr, off 15 los, off 13 lof, off 12 lom⟩

section
variable {s : State} {c : ChanId} {p : Lane} (works : s.hw.works = true) (runs : (s.hw.chan c).st = .active ∨ (s.hw.chan c).st = .diag)
include works runs

theorem completes_losEntry (why : LosWhy) (n : Nat) (clear : ((s.hw.chan c).lane p).def_ 15 = false) (delivers : ((s.hw.chan c).lane p).fr ≠ .runahead) :
    Completes (.losEntry c p why n) s fun t =>
      t.LaneNow s.hw c p ((((s.hw.chan c).lane p).hunting ((s.hw.chan c).reg (frmReg p 0))).inLos (why == .cdrUnlock))
      ∧ tget 0 (t.chan c).ctr (ctrKey 0x20 (16 * p.num + 13)) = min (2 ^ 48 - 1) (tget 0 (s.hw.chan c).ctr (ctrKey 0x20 (16 * p.num + 13)) + 1)
      ∧ (t.sohOut c p).k2 = 6 ∧ ∀ q, q ≠ p → (t.sohOut c q).k2 = (s.hw.sohOut c q).k2 ∧ (t.sohOut c q).m1 = (s.hw.sohOut c q).m1 := by
  refine .byOnLanesW c (·.losIn c p (why == .cdrUnlock) n) rfl works runs ?_
  rw [Hw.losIn_eq clear delivers]
  obtain ⟨regs, chan⟩ := s.hw.losSet_chan c p (why == .cdrUnlock)
  generalize becomes : (((s.hw.chan c).lane p).hunting ((s.hw.chan c).reg (frmReg p 0))).inLos (why == .cdrUnlock) = l at chan
  have here := s.hw.losSet_local c p (why == .cdrUnlock)
  generalize s.hw.losSet c p (why == .cdrUnlock) = v at chan here
  generalize counted : v.count c 0x20 (16 * p.num + 13) 1 = u
  have uChan : u.chan c = (v.chan c).count 0x20 (16 * p.num + 13) 1 := by rw [← counted, Hw.count_chan, if_pos rfl]
  have uLocal : u.Local s.hw c := by rw [← counted]; exact (v.onChan_local c _).trans here
  have uSt : (u.chan c).st = (s.hw.chan c).st := by rw [uChan, chan, Chan.count_st]; exact Chan.setLane_st _ _ _
  have uLane (q : Lane) : (u.chan c).lane q = if q = p then l else (s.hw.chan c).lane q := by
    rw [uChan, chan, Chan.count_lane, ← Chan.setLane_lane]
    cases q <;> rfl
  have changed : l.defects ≠ ((s.hw.chan c).lane p).defects := by
    rw [← becomes]
    exact LaneSt.enters_changes (l := ((s.hw.chan c).lane p).hunting _) 15 (by omega) clear
  have los : l.sendsRdi = true := by
    have set : l.def_ 15 = true := by
      rw [← becomes]
      exact LaneSt.def_setDef (((s.hw.chan c).lane p).hunting _) (j := 15) (by omega) true 15
    rw [LaneSt.sendsRdi, set, Bool.true_or, Bool.true_or]
  have later := (u.laneSync s.hw c p).lneSync_follows s.hw c p
  have follows := later.trans (u.laneSync_follows s.hw c p)
  have lane (q : Lane) : ((((u.laneSync s.hw c p).lneSync s.hw c p).settle s.hw [c]).chan c).lane q = if q = p then l else (s.hw.chan c).lane q := by
    rw [Hw.settle_chan_lane, follows.lane, uLane]
  refine ⟨Hw.laneNow_of_synced runs uLocal uSt ((uLane p).trans (if_pos rfl)) changed later, ?_, ?_, fun q other => ?_⟩
  · rw [Hw.settle_chan_ctr, follows.ctr, uChan, Chan.count_ctr, if_pos rfl, chan]
    cases p <;> rfl
  · rw [Hw.sohOut, lane, if_pos rfl]
    exact if_pos los
  · simp only [Hw.sohOut, lane, if_neg other, and_self]

theorem completes_losExit (los : ((s.hw.chan c).lane p).def_ 15 = true) : Completes (.losExit c p) s fun t =>
    t.LaneNow s.hw c p { ((s.hw.chan c).lane p).setDef 15 false with cdrLock := true } := by
  refine .byOnLanesW c (·.losOut c p) rfl works runs ?_
  have out : s.hw.losOut c p = ((s.hw.onLane c p fun l => { l.setDef 15 false with cdrLock := true }).laneSync s.hw c p).lneSync s.hw c p :=
    if_neg (by rw [los]; decide)
  dsimp only
  rw [out]
  refine Hw.laneNow_of_onLane runs (fun l => { l.setDef 15 false with cdrLock := true }) ?_ (Hw.lneSync_follows _ _ c p)
  exact LaneSt.leaves_changes 15 (by omega) los

theorem completes_lofEntry (clear : ((s.hw.chan c).lane p).def_ 13 = false) (oof : ((s.hw.chan c).lane p).def_ 14 = true) :
    Completes (.lofEntry c p) s fun t => t.LaneNow s.hw c p { ((s.hw.chan c).lane p).setDef 13 true with lost := true } := by
  refine .byOnLanesW c (·.lofIn c p) rfl works runs ?_
  have out : s.hw.lofIn c p = (s.hw.onLane c p fun l => { l.setDef 13 true with lost := true }).laneSync s.hw c p :=
    if_neg (by rw [clear, oof]; exact Bool.false_ne_true)
  dsimp only
  rw [out]
  refine Hw.laneNow_of_onLane runs (fun l => { l.setDef 13 true with lost := true }) ?_ (.refl _ c)
  exact LaneSt.enters_changes 13 (by omega) clear

theorem completes_lomEntry (clear : ((s.hw.chan c).lane p).def_ 12 = false) (oom : ((s.hw.chan c).lane p).integ.oom = true)
    (otn : isOtn ((s.hw.chan c).rate p) = true) :
    Completes (.lomEntry c p) s fun t => t.LaneNow s.hw c p { ((s.hw.chan c).lane p).setDef 12 true with lost := true } := by
  refine .byOnLanesW c (·.lomIn c p) rfl works runs ?_
  have out : s.hw.lomIn c p = (s.hw.onLane c p fun l => { l.setDef 12 true with lost := true }).laneSync s.hw c p :=
    if_neg (by rw [clear, oom, otn]; decide)
  dsimp only
  rw [out]
  refine Hw.laneNow_of_onLane runs (fun l => { l.setDef 12 true with lost := true }) ?_ (.refl _ c)
  exact LaneSt.enters_changes 12 (by omega) clear

theorem completes_lofExit (lof : ((s.hw.chan c).lane p).def_ 13 = true) (fr : ((s.hw.chan c).lane p).fr = .inframe)
    (lom : ((s.hw.chan c).lane p).def_ 12 = false) (los : ((s.hw.chan c).lane p).def_ 15 = false) :
    Completes (.lofExit c p) s fun t => t.LaneNow s.hw c p { ((s.hw.chan c).lane p).setDef 13 false with lost := false } := by
  refine .byOnLanesW c (·.lofOut c p) rfl works runs ?_
  have out : s.hw.lofOut c p = ((s.hw.onLane c p fun l => l.setDef 13 false).carriageBegin c p).laneSync s.hw c p :=
    if_neg (by rw [lof, fr]; decide)
  have checked := LaneSt.checked_of_left fr 13 (by omega) (.inr los) (.inl rfl) (.inr lom)
  dsimp only
  rw [out, ← checked]
  refine Hw.laneNow_of_checked runs (fun l => l.setDef 13 false) ?_ (.refl _ c)
  rw [checked]
  exact LaneSt.leaves_changes 13 (by omega) lof

theorem completes_lomExit (lom : ((s.hw.chan c).lane p).def_ 12 = true) (oom : ((s.hw.chan c).lane p).integ.oom = false)
    (fr : ((s.hw.chan c).lane p).fr = .inframe) (lof : ((s.hw.chan c).lane p).def_ 13 = false) (los : ((s.hw.chan c).lane p).def_ 15 = false) :
    Completes (.lomExit c p) s fun t => t.LaneNow s.hw c p { ((s.hw.chan c).lane p).setDef 12 false with lost := false } := by
  refine .byOnLanesW c (·.lomOut c p) rfl works runs ?_
  have out : s.hw.lomOut c p = ((s.hw.onLane c p fun l => l.setDef 12 false).carriageBegin c p).laneSync s.hw c p :=
    if_neg (by rw [lom, oom]; decide)
  have checked := LaneSt.checked_of_left fr 12 (by omega) (.inr los) (.inr lof) (.inl rfl)
  dsimp only
  rw [out, ← checked]
  refine Hw.laneNow_of_checked runs (fun l => l.setDef 12 false) ?_ (.refl _ c)
  rw [checked]
  exact LaneSt.leaves_changes 12 (by omega) lom

end

/-- Settles O22, command by command: each sets or clears its bit on the lane, and what follows leaves the lane and tells FRM_EVT. -/
theorem laneDefectsComeAndGo : Obligations.LaneDefectsComeAndGo := by
  unfold Obligations.LaneDefectsComeAndGo
  intro s c p works runs l
  refine ⟨fun why n clear delivers => ?_, fun los => ?_, fun clear oof => ?_, fun lof fr lom los => ?_, fun clear oom otn => ?_, fun lom oom fr lof los => ?_⟩
  · refine (completes_losEntry works runs why n clear delivers).mono fun t h => ?_
    obtain ⟨⟨lane, flag, here⟩, ctr, k2, others⟩ := h
    refine ⟨lane.trans ?_, ctr, k2, others, flag, here⟩
    cases why <;> rfl
  · exact completes_losExit works runs los
  · exact completes_lofEntry works runs clear oof
  · exact completes_lofExit works runs lof fr lom los
  · exact completes_lomEntry works runs clear oom otn
  · exact completes_lomExit works runs lom oom fr lof los

end Sys2Proof.Machine
end

section
/-!
PROOF. Lanes (O24, O25, O26): received overhead, pointers, failures and transmit PLLs.
-/
namespace Sys2Proof.Machine

/-! ## Fields -/

/-- A field that is put is what the field then holds. -/
theorem fieldOf_withField_self (w : Word) {hi lo v : Nat} (inside : hi < 32) (small : v < 2 ^ (hi + 1 - lo)) : fieldOf (withField w hi lo v) hi lo = v := by
  refine fieldOf_eq small fun i i_in => ?_
  rw [bitOf_withField _ _ _ _ (by omega), if_pos (by omega), Nat.add_sub_cancel_left]

/-- A field that is put leaves the fields apart from it. -/
theorem fieldOf_withField_apart (w : Word) {hi lo hi' lo' : Nat} (v : Nat) (inside : hi' < 32) (apart : hi' < lo ∨ hi < lo') :
    fieldOf (withField w hi lo v) hi' lo' = fieldOf w hi' lo' := by
  refine Nat.eq_of_testBit_eq fun i => ?_
  rw [testBit_fieldOf, testBit_fieldOf]
  by_cases i_in : i < hi' + 1 - lo'
  · rw [bitOf_withField _ _ _ _ (by omega), if_neg (by omega)]
  · rw [decide_eq_false i_in, Bool.false_and, Bool.false_and]

/-! ## Pointers (O25) -/

theorem PtrSt.lop8_concN (q : PtrSt) : q.lop8.concN = q.concN := by
  unfold PtrSt.lop8
  split <;> rfl

theorem ite_concN {P : Prop} [Decidable P] {q q' z : PtrSt} (a : q.concN = z.concN) (b : q'.concN = z.concN) : (if P then q else q').concN = z.concN := by
  split <;> assumption

/-- Interpretation leaves the count of missing concatenation indications. -/
theorem PtrSt.interval_concN (q : PtrSt) (range : Nat) (i : PtrInd) : (q.interval range i).concN = q.concN := by
  have valid (v : BitVec 10) : (q.valid v).concN = q.concN := ite_concN rfl rfl
  cases i with
  | same => exact ite_concN rfl (valid _)
  | incr => exact ite_concN rfl rfl
  | decr => exact ite_concN rfl rfl
  | ndf v => exact ite_concN (PtrSt.lop8_concN _) (ite_concN rfl rfl)
  | valid v => exact valid v
  | invalid => exact PtrSt.lop8_concN _
  | ndfInvalid => exact PtrSt.lop8_concN _
  | ais => exact ite_concN rfl rfl

/-- A pointer after an interval, with the concatenation indication where one must stand. -/
def Chan.ptrAfter (x : Chan) (p : Lane) (pos : Pos) (ind : PtrInd) (conc : Bool) : PtrSt :=
  let q' := (x.ptr p .au pos).interval 783 ind
  if x.isConc pos then q'.concat conc else { q' with concN := 0 }

theorem Chan.pointer_ptr (x : Chan) (p : Lane) (pos : Pos) (ind : PtrInd) (conc : Bool) :
    (x.pointer p .au pos ind conc).ptr p .au pos = x.ptrAfter p pos ind conc := by
  unfold Chan.pointer Chan.genFollow
  dsimp only
  rw [apply_ite (fun u : Chan => u.ptr p .au pos), apply_ite (fun u : Chan => u.ptr p .au pos)]
  simp [Chan.ptr, Chan.onGen, Chan.ptrAfter, ptrRange]

theorem Chan.pointer_gen (x : Chan) (pos : Pos) (ind : PtrInd) (conc : Bool) :
    (x.pointer .red .au pos ind conc).gen false .au pos
      = (x.gen false .au pos).follow (x.thruTimed false) (x.ptr .red .au pos) (x.ptrAfter .red pos ind conc) ind := by
  unfold Chan.pointer Chan.genFollow
  dsimp only
  rw [if_pos rfl, Chan.onGen_gen]
  simp [Chan.gen, Chan.ptrAfter, ptrRange]
  rfl

/-- Where the further AUs show what they must, the pointer itself is what its interval made of it. -/
theorem Chan.ptrAfter_whole {x : Chan} {p : Lane} {pos : Pos} {ind : PtrInd} {conc : Bool} (whole : conc = true ∨ x.isConc pos = false) :
    x.ptrAfter p pos ind conc = { (x.ptr p .au pos).interval 783 ind with concN := 0 } := by
  unfold Chan.ptrAfter
  rcases whole with shown | free
  · subst shown
    simp [PtrSt.concat]
  · simp [free]

section
variable {s : State} {c : ChanId} {p : Lane} {pos : Pos}

/-- What a pointer's interval leads to on a lane in frame. -/
theorem completes_pointerInterval (works : s.hw.works = true) (active : (s.hw.chan c).st = .active)
    (fr : ((s.hw.chan c).lane p).fr = .inframe) (sdh : isSdh ((s.hw.chan c).rate p) = true) (ind : PtrInd) (conc : Bool) :
    Completes (.pointerInterval c p .au pos ⟨ind, conc⟩) s fun t =>
      (t.chan c).map = ((s.hw.chan c).pointer p .au pos ind conc).map ∧ t.Local s.hw c := by
  refine .byOnActiveW c (·.pointerIn c p .au pos ind conc) rfl works active ?_
  have delivers : ((s.hw.chan c).lane p).delivers = true := by simp [LaneSt.delivers, fr]
  have out : s.hw.pointerIn c p .au pos ind conc = (s.hw.onChan c fun x => x.pointer p .au pos ind conc).laneSync s.hw c p :=
    if_neg (by rw [delivers, sdh]; decide)
  rw [out]
  have follows := (s.hw.onChan c fun x => x.pointer p .au pos ind conc).laneSync_follows s.hw c p
  refine ⟨?_, (Hw.settle_local _ _ c).trans (follows.here.trans (s.hw.onChan_local c _))⟩
  rw [Hw.settle_chan_map, follows.map, Hw.onChan_chan, if_pos rfl]

theorem Chan.ptr_congr {x y : Chan} (same : x.map = y.map) (p : Lane) (lvl : PtrLevel) (pos : Pos) : x.ptr p lvl pos = y.ptr p lvl pos := by
  rw [Chan.ptr, same, Chan.ptr]

theorem Chan.gen_congr {x y : Chan} (same : x.map = y.map) (r : Bool) (lvl : PtrLevel) (pos : Pos) : x.gen r lvl pos = y.gen r lvl pos := by
  rw [Chan.gen, same, Chan.gen]

end

/-- A run of equal values that was two long is three long with one more. -/
theorem runOf_third {α : Type} [DecidableEq α] {old new : α} {n : Nat} (same : old = new) (two : 2 ≤ n) : 3 ≤ runOf old n new := by
  rw [runOf, if_pos ⟨by omega, same⟩]
  omega

/-- Settles O25, indication by indication of R143. -/
theorem pointersFollowIntervals : Obligations.PointersFollowIntervals := by
  unfold Obligations.PointersFollowIntervals
  intro s c p pos conc works active fr sdh q whole
  have step := fun ind => completes_pointerInterval (pos := pos) works active fr sdh ind conc
  refine ⟨fun w norm apart below => (step .incr).mono fun t h => ?_, fun v w same two => (step (.valid v)).mono fun t h => ?_,
    fun w two => (step .ais).mono fun t h => ?_, fun seven => (step .invalid).mono fun t h => ?_, fun ind missing needed two => (step ind).mono fun t h => ?_⟩
  all_goals
    obtain ⟨map, here⟩ := h
    rw [Chan.ptr_congr map, Chan.pointer_ptr]
  · have moved : q.interval 783 .incr = { q.fresh with ofs := BitVec.ofNat 10 ((q.ofs.toNat + 1) % 783), lastAdj := 0 } := if_pos ⟨norm, apart⟩
    have next_ : (BitVec.ofNat 10 ((q.ofs.toNat + 1) % 783)).toNat = if q.ofs.toNat = 782 then 0 else q.ofs.toNat + 1 := by
      rw [BitVec.toNat_ofNat]
      split <;> omega
    have after : (s.hw.chan c).ptrAfter p pos .incr conc = { q.interval 783 .incr with concN := 0 } := Chan.ptrAfter_whole w
    refine ⟨?_, ?_, fun red thru => ?_, here⟩
    · rw [after, moved, ← next_]
    · rw [after, moved]; exact norm
    · subst red
      have other : (BitVec.ofNat 10 ((q.ofs.toNat + 1) % 783) == q.ofs) = false := by
        refine beq_false_of_ne fun same => ?_
        rw [same] at next_
        split at next_ <;> omega
      rw [Chan.gen_congr map, Chan.pointer_gen, after, moved, thru]
      have follows (g : PtrGen) (q' : PtrSt) (moves : (q'.ofs == q.ofs) = false) : g.follow true q q' .incr = { g with ndf := false, shift := g.shift + 1, gap := 0 } :=
        if_neg (by rw [moves]; simp [norm])
      rw [follows _ _ other]
      exact ⟨rfl, rfl⟩
  · have set : q.interval 783 (.valid v) = q.norm v := if_pos (runOf_third same two)
    rw [Chan.ptrAfter_whole w]
    show (q.interval 783 _).ofs = v ∧ (q.interval 783 _).st = 0 ∧ _
    rw [set]
    exact ⟨rfl, rfl, here⟩
  · have down : q.interval 783 .ais = { q.fresh with st := 2 } := if_pos two
    rw [Chan.ptrAfter_whole w]
    show (q.interval 783 _).st = 2 ∧ _
    rw [down]
    exact ⟨rfl, here⟩
  · have lost : (q.interval 783 .invalid).st = 1 := by
      show ({ q.fresh with badN := q.badN + 1 } : PtrSt).lop8.st = 1
      rw [PtrSt.lop8, if_pos (.inl (by dsimp only; omega))]
    refine ⟨?_, here⟩
    show (if (s.hw.chan c).isConc pos then (q.interval 783 .invalid).concat conc else { q.interval 783 .invalid with concN := 0 }).st = 1
    split
    · unfold PtrSt.concat
      split <;> [exact lost; (split <;> [rfl; exact lost])]
    · exact lost
  · subst missing
    refine ⟨?_, here⟩
    have third : 2 ≤ (q.interval 783 ind).concN := by rwa [PtrSt.interval_concN]
    show (if (s.hw.chan c).isConc pos then (q.interval 783 ind).concat false else { q.interval 783 ind with concN := 0 }).st = 1
    rw [if_pos needed, PtrSt.concat, if_neg Bool.false_ne_true, if_pos third]

/-! ## Failures and transmit PLLs (O26) -/

/-- A change of a lane's field in CHn.PRT_STAT shows in CHn.FRM_EVT. -/
theorem Hw.lneSync_flag {h h0 : Hw} {c : ChanId} {p : Lane} (raises : (h.chan c).raises = true)
    (changed : (h.chan c).prtBits p ≠ (h0.chan c).prtBits p) : bitOf ((h.lneSync h0 c p).chReg c 0x2300) (20 - p.num) = true := by
  have flag : bitOf (BitVec.ofNat 32 (2 ^ (20 - p.num))) (20 - p.num) = true := by cases p <;> decide
  rw [Hw.lneSync, if_neg changed]
  exact Hw.evFrm_flag raises (by omega) flag

/-- PRT_STAT tells whether a lane's transmit PLL holds lock. -/
theorem Chan.prtBits_changes {x y : Chan} {p : Lane} (other : (x.lane p).txLock = !(y.lane p).txLock) : x.prtBits p ≠ y.prtBits p := by
  unfold Chan.prtBits
  dsimp only
  rw [other]
  have bit (b : Bool) : b2n b ≤ 1 := by cases b <;> decide
  have := bit (x.lane p).cdrLock
  have := bit (y.lane p).cdrLock
  have := bit (x.lane p).chkSync
  have := bit (y.lane p).chkSync
  have := bit x.squelch
  have := bit y.squelch
  have one : b2n true = 1 := rfl
  have zero : b2n false = 0 := rfl
  cases (y.lane p).txLock <;> simp only [Bool.not_true, Bool.not_false, one, zero] <;> omega

/-- A lane whose transmit PLL has lost lock: it idles, and LOL counts. -/
def Hw.txLost (h : Hw) (c : ChanId) (p : Lane) : Hw :=
  (h.onLane c p fun l => { l with txLock := false, txIdle := true }).onChan c fun x =>
    x.setReg (laneReg p + 0x14) (withField (x.reg (laneReg p + 0x14)) 15 0 (fieldOf (x.reg (laneReg p + 0x14)) 15 0 + 1))

theorem Hw.txLost_local (h : Hw) (c : ChanId) (p : Lane) : (h.txLost c p).Local h c := (Hw.onChan_local _ c _).trans (h.onChan_local c _)

theorem Hw.txLost_lane (h : Hw) (c : ChanId) (p : Lane) : ((h.txLost c p).chan c).lane p = { (h.chan c).lane p with txLock := false, txIdle := true } := by
  simp [Hw.txLost]

theorem Hw.txLost_raises (h : Hw) (c : ChanId) (p : Lane) : ((h.txLost c p).chan c).raises = (h.chan c).raises := by
  simp [Hw.txLost]

theorem Hw.txLost_count (h : Hw) (c : ChanId) (p : Lane) : (h.txLost c p).chReg c (laneReg p + 0x14)
    = withField (h.chReg c (laneReg p + 0x14)) 15 0 (fieldOf (h.chReg c (laneReg p + 0x14)) 15 0 + 1) := by
  simp [Hw.txLost, Hw.chReg]

/-- Settles O26: the failures are the integrated defects, and a PLL's lock is the lane's, told by FRM_EVT.LNE. -/
theorem failuresAndTransmitPlls : Obligations.FailuresAndTransmitPlls := by
  unfold Obligations.FailuresAndTransmitPlls
  intro s c p works active l
  have raises := raises_of_active active
  refine ⟨fun d run stands => ?_, fun d run gone => ?_, fun lock => ?_, fun lost => ?_⟩
  · exact (onActive_on (f := (·.failure c p d true)) works active).trans (next_congr (if_neg (by rw [run, stands]; decide)))
  · exact (onActive_on (f := (·.failure c p d false)) works active).trans (next_congr (if_neg (by rw [run, gone]; decide)))
  · refine .byOnLanesW c (·.txLoss c p) rfl works (.inl active) ?_
    have out : s.hw.txLoss c p = ((s.hw.txLost c p).raiseChan c 1 clsH 0x02 p.num).lneSync s.hw c p := if_neg (by rw [lock]; decide)
    rw [out]
    have follows := ((s.hw.txLost c p).raiseChan c 1 clsH 0x02 p.num).lneSync_follows s.hw c p
    have apart : laneReg p + 0x14 ≠ 0x2300 ∧ laneReg p + 0x14 ≠ 0x3008 ∧ laneReg p + 0x14 ≠ 0x802C := by cases p <;> decide
    refine ⟨?_, ?_, ?_, ?_, (Hw.settle_local _ _ c).trans (follows.here.trans ((Hw.raiseChan_local _ c c _ _ _ _).trans (s.hw.txLost_local c p)))⟩
    · rw [Hw.settle_chan_lane, follows.lane, Hw.raiseChan_chan, Hw.txLost_lane]
    · rw [Hw.chReg, Hw.settle_chan_reg]
      exact (follows.reg _ apart.1 apart.2.1 apart.2.2).trans (by rw [Hw.chReg, Hw.raiseChan_chan]; exact s.hw.txLost_count c p)
    · rw [Hw.tookMsg, Hw.settle_fcl_slots, follows.fcl, Hw.raiseChan_slots (by exact Hw.inMw_of_works works) (by rw [Hw.txLost_raises, raises])]
      rfl
    · rw [Hw.chReg, Hw.settle_chan_reg]
      refine Hw.lneSync_flag (by rw [Hw.raiseChan_chan, Hw.txLost_raises, raises]) (Chan.prtBits_changes ?_)
      rw [Hw.raiseChan_chan, Hw.txLost_lane, lock]
      rfl
  · refine .byOnLanesW c (·.txBack c p) rfl works (.inl active) ?_
    have out : s.hw.txBack c p = (s.hw.onLane c p fun l => { l with txLock := true, txIdle := false }).lneSync s.hw c p :=
      if_neg (by rw [lost]; decide)
    rw [out]
    have follows := (s.hw.onLane c p fun l => { l with txLock := true, txIdle := false }).lneSync_follows s.hw c p
    refine ⟨?_, ?_, ?_, (Hw.settle_local _ _ c).trans (follows.here.trans (s.hw.onChan_local c _))⟩
    · rw [Hw.settle_chan_lane, follows.lane, Hw.onLane_lane]
    · rw [Hw.noMsg, Hw.settle_fcl_slots, follows.fcl]
      rfl
    · rw [Hw.chReg, Hw.settle_chan_reg]
      refine Hw.lneSync_flag (raises_of_active ((Hw.onLane_st _ _ _ _).trans active)) (Chan.prtBits_changes ?_)
      rw [Hw.onLane_lane, lost]
      rfl

/-! ## Received overhead (O24) -/

theorem Chan.setTrc_regs (x : Chan) (off : Nat) (l : List Byte) : ∃ regs, x.setTrc off l = { x with regs := regs } := by
  unfold Chan.setTrc
  have step : ∀ (ks : List Nat) (x : Chan), ∃ regs, ks.foldl (fun x k => x.setReg (off + 4 * k) (BitVec.ofNat 32 (beNat (slice (fit 64 l) (4 * k) 4)))) x
      = { x with regs := regs } := by
    intro ks
    induction ks with
    | nil => exact fun x => ⟨_, rfl⟩
    | cons k ks ih =>
      intro x
      obtain ⟨regs, rest⟩ := ih (x.setReg (off + 4 * k) (BitVec.ofNat 32 (beNat (slice (fit 64 l) (4 * k) 4))))
      exact ⟨regs, rest⟩
  exact step _ x

theorem Chan.setTrc_reg_below (x : Chan) {off o : Nat} (l : List Byte) (below : o < off) : (x.setTrc off l).reg o = x.reg o := by
  unfold Chan.setTrc
  exact foldl_keeps _ (fun u : Chan => u.reg o) (fun u k => by rw [Chan.reg_setReg, if_neg (by omega)]) _ _

/-- What a frame's paths and tributaries leave of the channel: its lanes, its counters, the registers of
its ports, and CHn.FRM_OHRX_p. -/
structure Hw.BesideOh (t h : Hw) (c : ChanId) : Prop where
  here : t.Local h c
  st : (t.chan c).st = (h.chan c).st
  lane : ∀ q, (t.chan c).lane q = (h.chan c).lane q
  ctr : (t.chan c).ctr = (h.chan c).ctr
  low : ∀ off < 0x2000, t.chReg c off = h.chReg c off
  ohrx : ∀ q, t.chReg c (frmReg q 0x14) = h.chReg c (frmReg q 0x14)

section
variable {t u h : Hw} {c : ChanId}

theorem Hw.BesideOh.refl (h : Hw) (c : ChanId) : h.BesideOh h c := ⟨.refl h c, rfl, fun _ => rfl, rfl, fun _ _ => rfl, fun _ => rfl⟩

theorem Hw.BesideOh.trans (a : t.BesideOh u c) (b : u.BesideOh h c) : t.BesideOh h c where
  here := a.here.trans b.here
  st := a.st.trans b.st
  lane q := (a.lane q).trans (b.lane q)
  ctr := a.ctr.trans b.ctr
  low off below := (a.low off below).trans (b.low off below)
  ohrx q := (a.ohrx q).trans (b.ohrx q)

theorem Hw.BesideOh.ite {q : Prop} [Decidable q] (a : t.BesideOh h c) (b : u.BesideOh h c) : (if q then t else u).BesideOh h c := by split <;> assumption

theorem Hw.Follows.besideOh (f : t.Follows h c) : t.BesideOh h c :=
  ⟨f.here, f.st, f.lane, f.ctr, fun off below => f.reg off (by omega) (by omega) (by omega), fun q => f.reg _ (by cases q <;> decide) (by cases q <;> decide) (by cases q <;> decide)⟩

end

/-- A change of the mapper and the circuits. -/
theorem Hw.onChan_besideOh (h : Hw) (c : ChanId) (f : Chan → Chan) (same : ∃ map circ, f (h.chan c) = { h.chan c with map := map, circ := circ }) :
    (h.onChan c f).BesideOh h c := by
  obtain ⟨map, circ, same⟩ := same
  have chan : (h.onChan c f).chan c = { h.chan c with map := map, circ := circ } := by rw [Hw.onChan_chan, if_pos rfl, same]
  have reg (off : Nat) : (h.onChan c f).chReg c off = h.chReg c off := by rw [Hw.chReg, chan]; rfl
  refine ⟨h.onChan_local c f, by rw [chan], fun q => ?_, by rw [chan], fun off _ => reg off, fun q => reg _⟩
  rw [chan]
  cases q <;> rfl

theorem Hw.setTrc_besideOh (h : Hw) (c : ChanId) (l : List Byte) : (h.onChan c fun x => x.setTrc 0x2380 l).BesideOh h c := by
  obtain ⟨regs, same⟩ := (h.chan c).setTrc_regs 0x2380 l
  have chan : (h.onChan c fun x => x.setTrc 0x2380 l).chan c = (h.chan c).setTrc 0x2380 l := by rw [Hw.onChan_chan, if_pos rfl]
  have reg (off : Nat) (below : off < 0x2380) : (h.onChan c fun x => x.setTrc 0x2380 l).chReg c off = h.chReg c off := by
    rw [Hw.chReg, chan]
    exact Chan.setTrc_reg_below _ _ below
  refine ⟨h.onChan_local c _, by rw [chan, same], fun q => ?_, by rw [chan, same], fun off below => reg off (by omega), fun q => reg _ (by cases q <;> decide)⟩
  rw [chan, same]
  cases q <;> rfl

theorem Chan.addEct_eq (x : Chan) (sel : Circ → Bool) (n : Nat) : ∃ circ, x.addEct sel n = { x with circ := circ } := by
  unfold Chan.addEct
  split <;> exact ⟨_, rfl⟩

theorem Hw.addEct_besideOh (h : Hw) (c : ChanId) (sel : Chan → Circ → Bool) (n : Nat) : (h.onChan c fun x => x.addEct (sel x) n).BesideOh h c := by
  obtain ⟨circ, same⟩ := (h.chan c).addEct_eq (sel (h.chan c)) n
  exact h.onChan_besideOh c _ ⟨_, circ, same⟩

theorem Hw.pathIn_besideOh (h : Hw) (c : ChanId) (p : Lane) (o : PathOh) : (h.pathIn c p o).BesideOh h c := by
  unfold Hw.pathIn
  extract_lets x q fmt tim q' h1 h2
  have pointer : h1.BesideOh h c := h.onChan_besideOh c _ ⟨_, _, rfl⟩
  have errors : h2.BesideOh h1 c := .ite (h1.addEct_besideOh c (fun x => ownVc o.lvl o.pos x.sonet) o.errs) (.refl h1 c)
  exact .trans (.ite ((Hw.evFrm_follows _ c _).besideOh.trans (h2.setTrc_besideOh c _)) (.refl h2 c)) (errors.trans pointer)

theorem Hw.tribIn_besideOh (h : Hw) (c : ChanId) (p : Lane) (o : TribOh) : (h.tribIn c p o).BesideOh h c := by
  unfold Hw.tribIn
  extract_lets x tfmt t
  refine h.onChan_besideOh c _ ?_
  split
  · unfold Chan.addEctSub1
    split <;> exact ⟨_, _, rfl⟩
  · exact ⟨_, _, rfl⟩

theorem Hw.foldl_besideOh {α : Type} (c : ChanId) (f : Hw → α → Hw) (step : ∀ h a, (f h a).BesideOh h c) :
    ∀ (l : List α) (h : Hw), (l.foldl f h).BesideOh h c
  | [], h => .refl h c
  | a :: l, h => (Hw.foldl_besideOh c f step l (f h a)).trans (step h a)

/-- A trace changes of its lane only what has been accepted, and of the registers none up to CHn.FRM_OHRX_p. -/
theorem Hw.traceIn_keeps (h : Hw) (c : ChanId) (p : Lane) (o : RxOh) : ∃ (u : Hw) (acc : Option (List Byte)), (h.traceIn c p o).BesideOh u c ∧ u.Local h c
    ∧ (u.chan c).st = (h.chan c).st ∧ (u.chan c).ctr = (h.chan c).ctr ∧ (∀ off ≤ frmReg p 0x14, u.chReg c off = h.chReg c off)
    ∧ ∀ q, (u.chan c).lane q = if q = p then { (h.chan c).lane p with integ := { ((h.chan c).lane p).integ with acc := acc } } else (h.chan c).lane q := by
  unfold Hw.traceIn
  extract_lets x g h1 off h2
  split
  · refine ⟨h, ((h.chan c).lane p).integ.acc, .refl h c, .refl h c, rfl, rfl, fun _ _ => rfl, fun q => ?_⟩
    split
    · next own => rw [own]
    · rfl
  · obtain ⟨regs, same⟩ := (h1.chan c).setTrc_regs (frmReg p 0xC0) g.trc
    have chan : h2.chan c = ((h1.chan c).setTrc (frmReg p 0xC0) g.trc).setReg off (withField ((h1.chan c).reg off) 7 0 (fieldOf ((h1.chan c).reg off) 7 0 + 1)) :=
      (Hw.onChan_chan _ _ _ _).trans (if_pos rfl)
    have first : h1.chan c = (h.chan c).setLane p { (h.chan c).lane p with integ := { ((h.chan c).lane p).integ with acc := some g.trc } } := by
      show (h.onLane c p _).chan c = _
      rw [Hw.onLane_chan, if_pos rfl]
    refine ⟨h2, some g.trc, (Hw.evFrm_follows _ c _).besideOh, (Hw.onChan_local _ c _).trans (h.onChan_local c _), ?_, ?_, fun o below => ?_, fun q => ?_⟩
    · rw [chan, same, Chan.setReg_st, first]
      exact Chan.setLane_st _ _ _
    · rw [chan, same, Chan.setReg_ctr, first]
      exact Chan.setLane_ctr _ _ _
    · rw [Hw.chReg, chan, Chan.reg_setReg, if_neg (by simp only [off, frmReg] at *; omega),
        Chan.setTrc_reg_below _ _ (by simp only [frmReg] at *; omega), first, Chan.setLane_reg]
      rfl
    · rw [chan, same, Chan.setReg_lane, ← Chan.setLane_lane, ← first]
      cases q <;> rfl

section
variable {x : Chan} {p : Lane}

theorem not_otn_of_sdh {rate : Nat} (sdh : isSdh rate = true) : isOtn rate = false := by
  simp only [isSdh, isOtn, decide_eq_true_eq, decide_eq_false_iff_not] at *
  omega

theorem ne_nine_of_sdh {rate : Nat} (sdh : isSdh rate = true) : rate ≠ 9 := by
  simp only [isSdh, decide_eq_true_eq] at sdh
  omega

/-- MS-AIS as the integrator of its frames has it (R123). -/
def LaneSt.msAis (l : LaneSt) : Bool := if l.integ.aisIn = 3 then true else if l.integ.aisOut = 3 then false else l.def_ 11

/-- The defects of a frame on an SDH or SONET lane: MS-AIS, MS-RDI, TIM, SD and SF. -/
theorem Chan.ohDefects_sdh (sdh : isSdh (x.rate p) = true) (o : RxOh) : ∃ rdi tim sd sf,
    x.ohDefects p o = (((((x.lane p).setDef 11 (x.lane p).msAis).setDef 10 rdi).setDef 8 tim).setDef 6 sd).setDef 5 sf := by
  have otn := not_otn_of_sdh sdh
  have nine := ne_nine_of_sdh sdh
  unfold Chan.ohDefects
  simp only [sdh, otn, nine, Bool.true_or, Bool.or_false, if_true, if_false, Bool.false_eq_true]
  exact ⟨_, _, _, _, rfl⟩

theorem LaneSt.setDef_only {l m : LaneSt} (i : Nat) (on : Bool) (only : ∃ d, l = { m with defects := d }) :
    ∃ d, l.setDef i on = { m with defects := d } := by
  obtain ⟨d, rfl⟩ := only
  exact ⟨_, rfl⟩

/-- A frame's defects are the lane's alone, and MS-AIS is among them. -/
theorem Chan.ohDefects_shape (sdh : isSdh (x.rate p) = true) (o : RxOh) :
    (∃ d, x.ohDefects p o = { x.lane p with defects := d }) ∧ (x.ohDefects p o).def_ 11 = (x.lane p).msAis := by
  obtain ⟨rdi, tim, sd, sf, shape⟩ := Chan.ohDefects_sdh sdh o
  rw [shape]
  refine ⟨LaneSt.setDef_only _ _ (LaneSt.setDef_only _ _ (LaneSt.setDef_only _ _ (LaneSt.setDef_only _ _ (LaneSt.setDef_only _ _ ⟨_, rfl⟩)))), ?_⟩
  rw [LaneSt.def_setDef _ (by omega), if_neg (by omega), LaneSt.def_setDef _ (by omega), if_neg (by omega), LaneSt.def_setDef _ (by omega),
    if_neg (by omega), LaneSt.def_setDef _ (by omega), if_neg (by omega), LaneSt.def_setDef _ (by omega), if_pos rfl]

end

/-- A frame's counts, integrators and received bytes have been taken. -/
def Hw.ohTaken (h : Hw) (c : ChanId) (p : Lane) (o : RxOh) : Hw :=
  (((((h.count c 0x20 (16 * p.num) o.cv1).count c 0x20 (16 * p.num + 1) o.cv2).count c 0x20 (16 * p.num + 2) o.m1.toNat).onLane c p fun l =>
    { l with integ := l.integ.frame ((h.chan c).rate p) (l.def_ 11) o, rei := o.cv2 }).onChan c fun x =>
      x.setReg (frmReg p 0x14) (ohrx (x.reg (frmReg p 0x14)) ((h.chan c).rate p) (x.lane p).integ o))

/-- The lane with its frame's defects. -/
def Hw.ohJudged (h : Hw) (c : ChanId) (p : Lane) (o : RxOh) : Hw := (h.traceIn c p o).onChan c fun x => x.setLane p (x.ohDefects p o)

theorem Hw.applyOh_sdh {h : Hw} {c : ChanId} {p : Lane} (sdh : isSdh ((h.chan c).rate p) = true) (o : RxOh) :
    (h.applyOh c p o).BesideOh ((h.ohTaken c p o).ohJudged c p o) c := by
  have otn := not_otn_of_sdh sdh
  unfold Hw.applyOh
  simp only [sdh, otn, Bool.true_or, if_true, if_false, Bool.false_and, Bool.false_eq_true]
  exact (Hw.foldl_besideOh c _ (fun u v => u.tribIn_besideOh c p v) _ _).trans (Hw.foldl_besideOh c _ (fun u v => u.pathIn_besideOh c p v) _ _)

/-- A lane whose frame's overhead has been taken, but for its defects and the trace it accepts. -/
def LaneSt.taken (l : LaneSt) (rate : Nat) (o : RxOh) : LaneSt := { l with integ := l.integ.frame rate (l.def_ 11) o, rei := o.cv2 }

theorem Hw.ohTaken_chan (h : Hw) (c : ChanId) (p : Lane) (o : RxOh) : (h.ohTaken c p o).chan c =
    ((((((h.chan c).count 0x20 (16 * p.num) o.cv1).count 0x20 (16 * p.num + 1) o.cv2).count 0x20 (16 * p.num + 2) o.m1.toNat).setLane p
      (((h.chan c).lane p).taken ((h.chan c).rate p) o)).setReg (frmReg p 0x14)
        (ohrx ((h.chan c).reg (frmReg p 0x14)) ((h.chan c).rate p) (((h.chan c).lane p).taken ((h.chan c).rate p) o).integ o)) := by
  simp [Hw.ohTaken, LaneSt.taken]

theorem Hw.ohTaken_local (h : Hw) (c : ChanId) (p : Lane) (o : RxOh) : (h.ohTaken c p o).Local h c :=
  (Hw.onChan_local _ c _).trans ((Hw.onChan_local _ c _).trans ((Hw.onChan_local _ c _).trans ((Hw.onChan_local _ c _).trans (h.onChan_local c _))))

theorem rate_congr {x y : Chan} {p : Lane} (same : x.reg (laneReg p) = y.reg (laneReg p)) : x.rate p = y.rate p := by rw [Chan.rate, same, Chan.rate]

/-- A frame on an SDH or SONET lane: the lane, its counters and CHn.FRM_OHRX_p after it. -/
theorem Hw.applyOh_shows {h : Hw} {c : ChanId} {p : Lane} (sdh : isSdh ((h.chan c).rate p) = true) (o : RxOh) :
    (∃ acc d, ((h.applyOh c p o).chan c).lane p =
        { ((h.chan c).lane p).taken ((h.chan c).rate p) o with integ := { (((h.chan c).lane p).taken ((h.chan c).rate p) o).integ with acc := acc }, defects := d })
    ∧ (((h.applyOh c p o).chan c).lane p).def_ 11 = (((h.chan c).lane p).taken ((h.chan c).rate p) o).msAis
    ∧ tget 0 ((h.applyOh c p o).chan c).ctr (ctrKey 0x20 (16 * p.num)) = min (2 ^ 48 - 1) (tget 0 (h.chan c).ctr (ctrKey 0x20 (16 * p.num)) + o.cv1)
    ∧ tget 0 ((h.applyOh c p o).chan c).ctr (ctrKey 0x20 (16 * p.num + 1)) = min (2 ^ 48 - 1) (tget 0 (h.chan c).ctr (ctrKey 0x20 (16 * p.num + 1)) + o.cv2)
    ∧ (h.applyOh c p o).chReg c (frmReg p 0x14)
      = ohrx (h.chReg c (frmReg p 0x14)) ((h.chan c).rate p) (((h.chan c).lane p).taken ((h.chan c).rate p) o).integ o
    ∧ (h.applyOh c p o).Local h c := by
  generalize becomes : ((h.chan c).lane p).taken ((h.chan c).rate p) o = l
  have rest := Hw.applyOh_sdh sdh o
  have taken := h.ohTaken_chan c p o
  rw [becomes] at taken
  obtain ⟨v, acc, told, here, _, ctr, reg, lane⟩ := (h.ohTaken c p o).traceIn_keeps c p o
  have takenLane : ((h.ohTaken c p o).chan c).lane p = l := by rw [taken, Chan.setReg_lane, Chan.setLane_lane, if_pos rfl]
  have traced : (((h.ohTaken c p o).traceIn c p o).chan c).lane p = { l with integ := { l.integ with acc := acc } } := by
    rw [told.lane, lane, if_pos rfl, takenLane]
  have port : laneReg p < 0x2000 ∧ laneReg p ≤ frmReg p 0x14 ∧ laneReg p ≠ frmReg p 0x14 := by cases p <;> decide
  have rate : (((h.ohTaken c p o).traceIn c p o).chan c).rate p = (h.chan c).rate p := by
    refine rate_congr ((told.low _ port.1).trans ((reg _ port.2.1).trans ?_))
    rw [Hw.chReg, taken, Chan.reg_setReg, if_neg port.2.2, Chan.setLane_reg]
    rfl
  obtain ⟨⟨d, only⟩, ais⟩ := Chan.ohDefects_shape (x := ((h.ohTaken c p o).traceIn c p o).chan c) (p := p) (by rw [rate]; exact sdh) o
  rw [traced] at only ais
  have judged : ((h.ohTaken c p o).ohJudged c p o).chan c
      = (((h.ohTaken c p o).traceIn c p o).chan c).setLane p ((((h.ohTaken c p o).traceIn c p o).chan c).ohDefects p o) := by
    rw [Hw.ohJudged, Hw.onChan_chan, if_pos rfl]
  have key : ctrKey 0x20 (16 * p.num) ≠ ctrKey 0x20 (16 * p.num + 1) ∧ ctrKey 0x20 (16 * p.num) ≠ ctrKey 0x20 (16 * p.num + 2)
      ∧ ctrKey 0x20 (16 * p.num + 1) ≠ ctrKey 0x20 (16 * p.num + 2) ∧ ctrKey 0x20 (16 * p.num + 1) ≠ ctrKey 0x20 (16 * p.num) := by
    cases p <;> decide
  have counts : ((h.applyOh c p o).chan c).ctr = ((h.ohTaken c p o).chan c).ctr := by
    rw [rest.ctr, judged, Chan.setLane_ctr, told.ctr, ctr]
  refine ⟨⟨acc, d, ?_⟩, ?_, ?_, ?_, ?_, ?_⟩
  · rw [rest.lane, judged, Chan.setLane_lane, if_pos rfl, only]
  · rw [rest.lane, judged, Chan.setLane_lane, if_pos rfl, ais]
    rfl
  · rw [counts, taken, Chan.setReg_ctr, Chan.setLane_ctr, Chan.count_ctr, if_neg key.2.1, Chan.count_ctr, if_neg key.1, Chan.count_ctr, if_pos rfl]
  · rw [counts, taken, Chan.setReg_ctr, Chan.setLane_ctr, Chan.count_ctr, if_neg key.2.2.1, Chan.count_ctr, if_pos rfl, Chan.count_ctr, if_neg key.2.2.2]
  · rw [rest.ohrx, Hw.chReg, judged, Chan.setLane_reg]
    refine (told.ohrx p).trans ((reg _ le_rfl).trans ?_)
    rw [Hw.chReg, taken, Chan.reg_setReg_self]
    rfl
  · exact rest.here.trans ((Hw.onChan_local _ c _).trans (told.here.trans (here.trans (h.ohTaken_local c p o))))

section
variable {l : LaneSt} {rate : Nat} {o : RxOh} (sdh : isSdh rate = true)
include sdh

/-- The third frame in a row that shows MS-AIS enters it (R123). -/
theorem LaneSt.msAis_enters (two : 2 ≤ l.integ.aisIn) (shown : o.k2 &&& 7#8 = 7#8) : (l.taken rate o).msAis = true := by
  have third : (l.taken rate o).integ.aisIn = 3 := by
    simp [LaneSt.taken, Integ.frame, sdh, shown, hyst2, two]
  exact if_pos third

/-- The third frame in a row without it leaves it. -/
theorem LaneSt.msAis_leaves (two : 2 ≤ l.integ.aisOut) (gone : o.k2 &&& 7#8 ≠ 7#8) : (l.taken rate o).msAis = false := by
  have none_ : (l.taken rate o).integ.aisIn = 0 := by simp [LaneSt.taken, Integ.frame, sdh, gone, hyst2, two]
  have third : (l.taken rate o).integ.aisOut = 3 := by simp [LaneSt.taken, Integ.frame, sdh, gone, hyst2, two]
  rw [LaneSt.msAis, if_neg (by omega), if_pos third]

/-- K1 is accepted at its third equal receipt (R116). -/
theorem ohrx_k1 (w : Word) (two : 2 ≤ l.integ.k1N) (same : l.integ.k1 = o.k1) :
    fieldOf (ohrx w rate (l.taken rate o).integ o) 31 24 = o.k1.toNat := by
  have run := runOf_third same two
  have third : (l.taken rate o).integ.k1N = 3 := by
    show min 3 (runOf l.integ.k1 l.integ.k1N o.k1) = 3
    omega
  have small : o.k1.toNat < 2 ^ (31 + 1 - 24) := o.k1.isLt
  have put : fieldOf (withField w 31 24 (l.taken rate o).integ.k1.toNat) 31 24 = o.k1.toNat := fieldOf_withField_self w (by omega) small
  unfold ohrx
  rw [if_pos sdh]
  dsimp only
  rw [if_pos third, fieldOf_withField_apart _ _ (by omega) (by omega)]
  split
  · rw [fieldOf_withField_apart _ _ (by omega) (by omega)]
    split
    · rw [fieldOf_withField_apart _ _ (by omega) (by omega), put]
    · exact put
  · split
    · rw [fieldOf_withField_apart _ _ (by omega) (by omega), put]
    · exact put

end

/-- Settles O24: a frame in an episode waits; on an SDH or SONET lane in frame its overhead is taken, and what follows the lane's signal leaves
what was taken. -/
theorem receivedOverhead : Obligations.ReceivedOverhead := by
  unfold Obligations.ReceivedOverhead
  intro s c p o works active l
  refine ⟨fun fr => ?_, fun fr sdh => ?_⟩
  · refine .byOnLanesW c (·.frameIn c p o) rfl works (.inl active) ?_
    have out : s.hw.frameIn c p o = s.hw.onLane c p fun l => { l with deferred := l.deferred ++ [o] } := by
      rw [Hw.frameIn, fr]
    rw [out]
    refine ⟨?_, (Hw.settle_local _ _ c).trans (s.hw.onChan_local c _)⟩
    rw [Hw.settle_chan_quiet, Hw.onLane_chan, if_pos rfl]
  · refine .byOnLanesW c (·.frameIn c p o) rfl works (.inl active) ?_
    have out : s.hw.frameIn c p o = (s.hw.applyOh c p o).laneSync s.hw c p := by
      rw [Hw.frameIn, fr]
    rw [out]
    have follows := (s.hw.applyOh c p o).laneSync_follows s.hw c p
    obtain ⟨⟨acc, d, lane⟩, ais, cv1, cv2, ohrx_, here⟩ := s.hw.applyOh_shows sdh o
    refine ⟨?_, ?_, ?_, ?_, fun two same => ?_, fun two shown => ?_, fun two _ gone => ?_, (Hw.settle_local _ _ c).trans (follows.here.trans here)⟩
    · rw [Hw.settle_chan_ctr, follows.ctr, cv1]
    · rw [Hw.settle_chan_ctr, follows.ctr, cv2]
    · rw [Hw.settle_chan_lane, follows.lane, lane]
      exact fr
    · rw [Hw.sohOut, Hw.settle_chan_lane, follows.lane, lane]
      rfl
    · rw [Hw.chReg, Hw.settle_chan_reg]
      refine Eq.trans (congrArg (fun w => fieldOf w 31 24) ((follows.reg _ ?_ ?_ ?_).trans ohrx_)) (ohrx_k1 sdh _ two same) <;> cases p <;> decide
    · rw [Hw.settle_chan_lane, follows.lane, ais]
      exact LaneSt.msAis_enters sdh two shown
    · rw [Hw.settle_chan_lane, follows.lane, ais]
      exact LaneSt.msAis_leaves sdh two gone

end Sys2Proof.Machine
end

section
/-!
PROOF. The receive framer (O23): what a pattern and a horizon make of a lane.
-/
namespace Sys2Proof.Machine

/-- Lane `p` of channel `c` has become `l`, and beside the other lanes, the circuits, the keystream and the check-value units nothing of the
channel has changed up to its framers' registers, and nothing elsewhere. -/
structure Hw.LaneStep (t h : Hw) (c : ChanId) (p : Lane) (l : LaneSt) : Prop where
  here : t.Local h c
  st : (t.chan c).st = (h.chan c).st
  map : (t.chan c).map = (h.chan c).map
  low : ∀ off < 0x2300, t.chReg c off = h.chReg c off
  lane : (t.chan c).lane p = l

section
variable {t u h : Hw} {c : ChanId} {p : Lane} {l l' : LaneSt}

theorem Hw.LaneStep.refl (h : Hw) (c : ChanId) (p : Lane) : h.LaneStep h c p ((h.chan c).lane p) := ⟨.refl h c, rfl, rfl, fun _ _ => rfl, rfl⟩

theorem Hw.LaneStep.trans (a : t.LaneStep u c p l) (b : u.LaneStep h c p l') : t.LaneStep h c p l where
  here := a.here.trans b.here
  st := a.st.trans b.st
  map := a.map.trans b.map
  low off below := (a.low off below).trans (b.low off below)
  lane := a.lane

/-- A step that leaves the lane as it is. -/
theorem Hw.LaneStep.after (a : t.LaneStep u c p ((u.chan c).lane p)) (b : u.LaneStep h c p l) : t.LaneStep h c p l := by
  rw [b.lane] at a
  exact a.trans b

theorem Hw.LaneStep.ite {q : Prop} [Decidable q] (a : t.LaneStep h c p l) (b : u.LaneStep h c p l) : (if q then t else u).LaneStep h c p l := by
  split <;> assumption

theorem Hw.Follows.laneStep (f : t.Follows h c) (p : Lane) : t.LaneStep h c p ((h.chan c).lane p) :=
  ⟨f.here, f.st, f.map, fun off below => f.reg off (by omega) (by omega) (by omega), f.lane p⟩

theorem Hw.onLane_step (h : Hw) (c : ChanId) (p : Lane) (f : LaneSt → LaneSt) : (h.onLane c p f).LaneStep h c p (f ((h.chan c).lane p)) := by
  have chan : (h.onLane c p f).chan c = (h.chan c).setLane p (f ((h.chan c).lane p)) := by rw [Hw.onLane_chan, if_pos rfl]
  refine ⟨h.onChan_local c _, by rw [chan, Chan.setLane_st], ?_, fun off _ => by rw [Hw.chReg, chan, Chan.setLane_reg]; rfl, h.onLane_lane c p f⟩
  rw [chan]
  cases p <;> rfl

/-- A change of a channel apart from its lanes, its mapper and its registers. -/
theorem Hw.onChan_step (h : Hw) (c : ChanId) (p : Lane) (f : Chan → Chan)
    (same : ∃ circ cph cvu, f (h.chan c) = { h.chan c with circ := circ, cph := cph, cvu := cvu }) : (h.onChan c f).LaneStep h c p ((h.chan c).lane p) := by
  obtain ⟨circ, cph, cvu, same⟩ := same
  have chan : (h.onChan c f).chan c = { h.chan c with circ := circ, cph := cph, cvu := cvu } := by rw [Hw.onChan_chan, if_pos rfl, same]
  refine ⟨h.onChan_local c f, by rw [chan], by rw [chan], fun off _ => by rw [Hw.chReg, chan]; rfl, ?_⟩
  rw [chan]
  cases p <;> rfl

theorem Hw.setChReg_step (h : Hw) (c : ChanId) (p : Lane) {off : Nat} (above : 0x2300 ≤ off) (w : Word) :
    (h.setChReg c off w).LaneStep h c p ((h.chan c).lane p) := by
  refine ⟨h.onChan_local c _, by simp, by simp, fun o below => ?_, by simp⟩
  rw [Hw.chReg_setChReg, if_neg (by omega)]

theorem Hw.chEvent_step (h : Hw) (c : ChanId) (p : Lane) {off : Nat} (above : 0x2300 ≤ off) (j : Nat) (fl : Word) :
    (h.chEvent c off j fl).LaneStep h c p ((h.chan c).lane p) := by
  by_cases raises : (h.chan c).raises = true
  · refine ⟨h.chEvent_local c off j fl, by simp, by simp, fun o below => ?_, ?_⟩
    · rw [Hw.chEvent_chReg raises, if_neg (by omega)]
    · rw [Hw.chEvent_chan_on _ _ _ _ _ raises, if_pos rfl, Chan.setReg_lane]
  · rw [Hw.chEvent, if_neg raises]
    exact .refl h c p

theorem Hw.level_step (h : Hw) (c : ChanId) (p : Lane) (q n : Nat) : (h.level c q n).LaneStep h c p ((h.chan c).lane p) := by
  unfold Hw.level
  extract_lets old n' h1 w h2 mark
  have first : h1.LaneStep h c p ((h.chan c).lane p) := h.setChReg_step c p (by omega) _
  have second : h2.LaneStep h c p ((h.chan c).lane p) := .ite ((h1.setChReg_step c p (by omega) _).after first) first
  exact .ite (((Hw.chEvent_step _ c p (by omega) _ _).after (h2.setChReg_step c p (by omega) _)).after second) second

theorem Hw.levels_step (h : Hw) (c : ChanId) (p : Lane) : (h.levels c).LaneStep h c p ((h.chan c).lane p) := by
  unfold Hw.levels
  extract_lets x pay enc w q ds h1
  have first : h1.LaneStep h c p ((h.chan c).lane p) :=
    (Hw.level_step _ c p _ _).after ((Hw.level_step _ c p _ _).after ((Hw.level_step _ c p _ _).after (h.level_step c p _ _)))
  exact (Hw.level_step _ c p _ _).after ((Hw.level_step _ c p _ _).after ((h1.level_step c p _ _).after first))

theorem Hw.cvuLine_step (h : Hw) (c : ChanId) (p : Lane) (l : List Byte) : (h.cvuLine c l).LaneStep h c p ((h.chan c).lane p) :=
  h.onChan_step c p _ ⟨_, _, _, rfl⟩

theorem Hw.carriageBegin_step (h : Hw) (c : ChanId) (p : Lane) : (h.carriageBegin c p).LaneStep h c p ((h.chan c).lane p).checked := by
  have begun := (h.carriageBegin_follows c p).laneStep p
  rw [Hw.onLane_lane] at begun
  exact begun.trans (h.onLane_step c p LaneSt.checked)

end

/-! ## A pattern at the alignment last held -/

/-- A pattern's part in OOF (R108). -/
def LaneSt.oofSeen (l : LaneSt) (rate : Nat) (p : Lane) (g : FrCfg) (i : Pattern) : LaneSt := if i.align = l.cur then l.oof rate p g i else l

theorem Hw.oofAt_eq (h : Hw) (c : ChanId) (p : Lane) (g : FrCfg) (i : Pattern) :
    h.oofAt c p g i = h.onLane c p fun l => l.oofSeen ((h.chan c).rate p) p g i := by
  unfold Hw.oofAt
  dsimp only
  split
  · next held =>
    rw [Hw.onLane, Hw.onChan, Hw.onLane, Hw.onChan]
    exact congrArg (fun l => h.setChan c ((h.chan c).setLane p l)) (if_pos held).symm
  · next other => exact (Hw.onLane_self (if_neg other)).symm

theorem LaneSt.oofIf_only (l : LaneSt) (bad : Bool) : ∃ d, (if bad then l.setDef 14 true else l) = { l with defects := d } := by
  cases bad <;> exact ⟨_, rfl⟩

/-- OOF counts a run of errored patterns and sets a defect; nothing else of the lane. -/
theorem LaneSt.oofSeen_shape (l : LaneSt) (rate : Nat) (p : Lane) (g : FrCfg) (i : Pattern) :
    ∃ b d, l.oofSeen rate p g i = { l with badRun := b, defects := d } := by
  unfold LaneSt.oofSeen
  by_cases held : i.align = l.cur
  · rw [if_pos held]
    obtain ⟨d, only⟩ := LaneSt.oofIf_only { l with badRun := if patOk g (geRed rate p) i then 0 else l.badRun + 1 } _
    exact ⟨_, d, only⟩
  · rw [if_neg held]
    exact ⟨_, _, rfl⟩

/-- A pattern that neither errs nor loses synchronization ends the run. -/
theorem LaneSt.oofSeen_good {l : LaneSt} {rate : Nat} {p : Lane} {g : FrCfg} {i : Pattern} (ok : patOk g (geRed rate p) i = true)
    (good : (if geRed rate p then i.sync == some false else if rate = 9 then decide (g.oofCnt ≤ i.errs) else decide (g.oofCnt ≤ 0)) = false) :
    l.oofSeen rate p g i = { l with badRun := if i.align = l.cur then 0 else l.badRun } := by
  unfold LaneSt.oofSeen
  by_cases held : i.align = l.cur
  · rw [if_pos held, if_pos held, LaneSt.oof, ok]
    exact if_neg (by rw [if_pos rfl, good]; exact Bool.false_ne_true)
  · rw [if_neg held, if_neg held]

/-! ## The first candidate -/

section
variable {g : FrCfg} {r36 : Bool} {i : Pattern}

theorem frCfg_slots (x : Chan) (p : Lane) : 1 ≤ (x.frCfg p).slots := Nat.le_add_left 1 _

/-- A first correct pattern takes slot 0 of free slots (R105). -/
theorem admitCand_first {n : Nat} (some_ : 1 ≤ n) (a : Nat) :
    admitCand [] 0 n a = some { align := a, good := 1 } :: List.replicate (n - 1) none := by
  obtain ⟨m, rfl⟩ := Nat.exists_eq_add_of_le' some_
  have found : ((List.range (m + 1)).filter fun i => decide (0 ≤ i)).find? (fun i => decide ((([] : List (Option FrCand)) ++ List.replicate (m + 1 - 0) none).getD i none = none)) = some 0 := by
    rw [List.range_succ_eq_map]
    simp
  unfold admitCand
  dsimp only [List.length_nil]
  rw [found]
  simp [List.replicate_succ]

theorem testCand_first (some_ : 1 ≤ g.slots) (ok : patOk g r36 i = true) : testCand [] 0 g r36 i =
    (some { align := i.align, good := 1 } :: List.replicate (g.slots - 1) none, if r36 then i.sync == some true else decide (g.ifCnt ≤ 1)) := by
  have noSlot : slotOf [] i.align = none := rfl
  have slot : slotOf (some { align := i.align, good := 1 } :: List.replicate (g.slots - 1) none) i.align = some 0 := by simp [slotOf, List.findIdx?_cons]
  unfold testCand
  dsimp only
  rw [noSlot, ok]
  dsimp only
  rw [if_pos rfl, admitCand_first some_, slot]
  simp

end

/-! ## INFRAME -/

/-- A lane that enters INFRAME at an alignment (R108). -/
def LaneSt.framed (l : LaneSt) (a : Nat) : LaneSt :=
  { l.setDef 14 false with fr := .inframe, cur := a, slots := [], confirm := 0, since := 0, badRun := 0, won := none, resume := false }

theorem LaneSt.checked_only (l : LaneSt) : ∃ b, l.checked = { l with lost := b } := by
  unfold LaneSt.checked
  split <;> exact ⟨_, rfl⟩

theorem LaneSt.framed_oof (l : LaneSt) (a : Nat) : (l.framed a).checked.def_ 14 = false := by
  obtain ⟨b, only⟩ := (l.framed a).checked_only
  rw [only]
  exact l.def_setDef (j := 14) (by omega) false 14

theorem Hw.toInframe_step (h : Hw) (c : ChanId) (p : Lane) (a : Nat) : (h.toInframe c p a).LaneStep h c p (((h.chan c).lane p).framed a).checked := by
  unfold Hw.toInframe
  extract_lets was h1 h2
  have first : h1.LaneStep h c p (((h.chan c).lane p).framed a) := h.onLane_step c p _
  have second : h2.LaneStep h c p (((h.chan c).lane p).framed a) := .ite ((h1.onChan_step c p _ ⟨_, _, _, rfl⟩).after first) first
  have third := h2.carriageBegin_step c p
  rw [second.lane] at third
  exact third.trans second

/-! ## A pattern -/

/-- The words of a red lane in frame have passed RED_RX (R338). -/
def Hw.patternFed (h : Hw) (c : ChanId) (p : Lane) (i : Pattern) : Hw :=
  if p = .red ∧ ((h.chan c).lane p).fr = .inframe then h.cvuLine c i.data else h

section
variable {t h : Hw} {c : ChanId} {p : Lane} {i : Pattern}

theorem Hw.patternFed_step (h : Hw) (c : ChanId) (p : Lane) (i : Pattern) : (h.patternFed c p i).LaneStep h c p ((h.chan c).lane p) :=
  .ite (h.cvuLine_step c p _) (.refl h c p)

theorem Hw.LaneStep.rate (k : t.LaneStep h c p ((h.chan c).lane p)) : (t.chan c).rate p = (h.chan c).rate p :=
  rate_congr (k.low _ (by cases p <;> decide))

theorem Hw.LaneStep.frCfg (k : t.LaneStep h c p ((h.chan c).lane p)) : (t.chan c).frCfg p = (h.chan c).frCfg p := by
  have thr : (t.chan c).reg (frmReg p 4) = (h.chan c).reg (frmReg p 4) := k.low _ (by cases p <;> decide)
  unfold Chan.frCfg Chan.thrField
  rw [k.rate, k.lane, thr]

theorem Hw.patternIn_eq (clear : ((h.chan c).lane p).def_ 15 = false) :
    h.patternIn c p i = ((h.patternFed c p i).pattern c p i).laneSync h c p :=
  if_neg (by rw [clear]; exact Bool.false_ne_true)

/-- A pattern's step, and what follows the lane's signal. -/
theorem completes_framingPattern {s : State} (works : s.hw.works = true) (runs : (s.hw.chan c).st = .active ∨ (s.hw.chan c).st = .diag)
    (clear : ((s.hw.chan c).lane p).def_ 15 = false) {l : LaneSt} (step : ((s.hw.patternFed c p i).pattern c p i).LaneStep s.hw c p l) :
    Completes (.framingPattern c p i) s fun t => (t.chan c).lane p = l ∧ t.Local s.hw c := by
  refine .byOnLanesW c (·.patternIn c p i) rfl works runs ?_
  rw [Hw.patternIn_eq clear]
  have follows := ((s.hw.patternFed c p i).pattern c p i).laneSync_follows s.hw c p
  exact ⟨by rw [Hw.settle_chan_lane, follows.lane, step.lane], (Hw.settle_local _ _ c).trans (follows.here.trans step.here)⟩

/-- OOF is the first thing that a pattern counts for. -/
theorem Hw.oofAt_step (h : Hw) (c : ChanId) (p : Lane) (i : Pattern) :
    (h.oofAt c p ((h.chan c).frCfg p) i).LaneStep h c p (((h.chan c).lane p).oofSeen ((h.chan c).rate p) p ((h.chan c).frCfg p) i) := by
  rw [Hw.oofAt_eq]
  exact h.onLane_step c p _

theorem Hw.pattern_hunt (fr : ((h.chan c).lane p).fr = .hunt) (free : ((h.chan c).lane p).slots = []) (ok : patOk ((h.chan c).frCfg p) (geRed ((h.chan c).rate p) p) i = true) :
    h.pattern c p i = if (if geRed ((h.chan c).rate p) p then i.sync == some true else decide (((h.chan c).frCfg p).ifCnt ≤ 1)) = true
      then (h.oofAt c p ((h.chan c).frCfg p) i).toInframe c p i.align
      else (h.oofAt c p ((h.chan c).frCfg p) i).onLane c p fun l =>
        { l with fr := .presync, slots := some { align := i.align, good := 1 } :: List.replicate (((h.chan c).frCfg p).slots - 1) none } := by
  rw [Hw.pattern]
  dsimp only
  rw [fr]
  dsimp only
  rw [free, testCand_first (frCfg_slots _ _) ok]
  have cand : noCand (some { align := i.align, good := 1 } :: List.replicate (((h.chan c).frCfg p).slots - 1) none) = false := rfl
  rw [cand]
  rfl

theorem Hw.pattern_inframe (fr : ((h.chan c).lane p).fr = .inframe) (predicted : i.align = ((h.chan c).lane p).cur) :
    h.pattern c p i = if i.errs < ((h.chan c).frCfg p).doubt then h.oofAt c p ((h.chan c).frCfg p) i
      else ((h.oofAt c p ((h.chan c).frCfg p) i).episode c p).onLane c p fun l =>
        { l with fr := .runahead, slots := [some { align := l.cur, good := 0 }], confirm := 0, since := 0, won := none } := by
  rw [Hw.pattern]
  dsimp only
  rw [fr]
  dsimp only
  have same : ¬ i.align ≠ ((h.chan c).lane p).cur := not_not_intro predicted
  split
  · next rests => rw [if_pos (rests.resolve_left same)]
  · next doubted => rw [if_neg fun sure => doubted (.inr sure)]

/-- A lane whose episode starts: its checkpoint is taken (R246). -/
def LaneSt.checkpointed (l : LaneSt) (ptrs : Table PtrSt) (ra : Word) : LaneSt :=
  { l with ckpt := some { integ := l.integ, ptrs := ptrs, rei := l.rei, rd := l.rd }, deferred := [], epWords := 0, epData := [], ra := ra }

theorem Hw.episode_step (h : Hw) (c : ChanId) (p : Lane) :
    (h.episode c p).LaneStep h c p (((h.chan c).lane p).checkpointed ((h.chan c).lanePtrs p) ((h.chan c).reg (frmReg p 0))) := by
  have first : (h.onChan c fun x => x.setLane p ((x.lane p).checkpointed (x.lanePtrs p) (x.reg (frmReg p 0)))).LaneStep h c p
      (((h.chan c).lane p).checkpointed ((h.chan c).lanePtrs p) ((h.chan c).reg (frmReg p 0))) :=
    h.onLane_step c p fun l => l.checkpointed ((h.chan c).lanePtrs p) ((h.chan c).reg (frmReg p 0))
  unfold Hw.episode
  extract_lets h1
  have start : h1.LaneStep h c p _ := first
  split
  · exact (h1.onChan_step c p _ ⟨_, _, _, rfl⟩).after start
  · exact (h1.onChan_step c p _ ⟨_, _, _, rfl⟩).after start

end

/-! ## The commit -/

/-- Nothing of a circuit waits for the end of an episode on a lane. -/
def Circ.settled (p : Lane) (y : Circ) : Prop :=
  (∀ q, p.path? = some q → (y.rx q).wait = []) ∧ (p = .red → ∀ b ∈ y.enc, b.held = [])

theorem Circ.loseEnc_settled {p : Lane} {y : Circ} (sel : EncBlk → Bool) (cause : BitVec 4) (k : y.settled p) : (y.loseEnc sel cause).settled p := by
  refine ⟨fun q path => ?_, fun red b within_ => ?_⟩
  · rw [← k.1 q path]
    cases q <;> rfl
  · have lost (b : EncBlk) : (b.lose cause).held = b.held := by unfold EncBlk.lose; split <;> rfl
    simp only [Circ.loseEnc, List.mem_map] at within_
    obtain ⟨e, pair, rfl⟩ := within_
    have first := (List.of_mem_zip pair).1
    simp only [List.mem_map] at first
    obtain ⟨b, own, becomes⟩ := first
    have none_ : e.1.held = [] := by
      rw [← becomes, ← k.2 red b own]
      split
      · exact lost b
      · rfl
    split
    · split <;> exact none_
    · exact none_

/-- Nothing of a channel waits for the end of an episode on a lane. -/
def Chan.settled (x : Chan) (p : Lane) : Prop := ∀ e ∈ x.circ, e.2.settled p

theorem settled_map {x : Chan} {p : Lane} (f : Nat × Circ → Circ) (k : x.settled p) (keeps : ∀ e, e.2.settled p → (f e).settled p) :
    ∀ e ∈ x.circ.map (fun e => (e.1, f e)), e.2.settled p := by
  intro e within_
  obtain ⟨a, own, rfl⟩ := List.mem_map.1 within_
  exact keeps a (k a own)

theorem Hw.carriageBegin_settled {h : Hw} {c : ChanId} {p : Lane} (k : (h.chan c).settled p) : ((h.carriageBegin c p).chan c).settled p := by
  unfold Hw.carriageBegin
  extract_lets l h1
  have first : (h1.chan c).settled p := by
    have circ : (h1.chan c).circ = (h.chan c).circ := by
      show ((h.onLane c p _).chan c).circ = _
      rw [Hw.onLane_chan, if_pos rfl, Chan.setLane_circ]
    intro e own
    exact k e (by rwa [← circ])
  split
  · exact k
  · split
    · exact first
    · next q path =>
      rw [Hw.onChan_chan, if_pos rfl]
      refine settled_map _ first fun e own => ⟨fun q' path' => ?_, fun red => absurd path (by rw [red]; exact fun none_ => nomatch none_)⟩
      have begun (y : Circ) (r : RxPath) : (if y.en && decide (r.blk ≠ .off) then { r with checking := true, run := 0 } else r).wait = r.wait := by
        split <;> rfl
      rw [← own.1 q' path']
      cases q <;> cases q'
      · exact begun e.2 e.2.w
      · rfl
      · rfl
      · exact begun e.2 e.2.p

theorem Hw.toInframe_settled {h : Hw} {c : ChanId} {p : Lane} (k : (h.chan c).settled p) (a : Nat) : ((h.toInframe c p a).chan c).settled p := by
  unfold Hw.toInframe
  extract_lets was h1 h2
  have first : (h1.chan c).settled p := by
    have circ : (h1.chan c).circ = (h.chan c).circ := by
      show ((h.onLane c p _).chan c).circ = _
      rw [Hw.onLane_chan, if_pos rfl, Chan.setLane_circ]
    intro e own
    exact k e (by rwa [← circ])
  refine Hw.carriageBegin_settled ?_
  show Chan.settled ((if was then _ else h1).chan c) p
  split
  · rw [Hw.onChan_chan, if_pos rfl]
    exact settled_map _ first fun e own => Circ.loseEnc_settled _ _ own
  · exact first

/-- No stage check saw a word of the episode. -/
theorem Hw.heldStages_none {h : Hw} {c : ChanId} (none_ : ∀ e ∈ (h.chan c).circ, ∀ b ∈ e.2.enc, b.held = []) : h.heldStages c = h := by
  have empty : ((h.chan c).circ.flatMap fun e => e.2.enc.filterMap fun b => if b.spec && !b.held.isEmpty then some (e.1, b) else none) = [] := by
    refine List.flatMap_eq_nil_iff.2 fun e own => List.filterMap_eq_nil_iff.2 fun b within_ => ?_
    rw [none_ e own b within_, List.isEmpty_nil, Bool.not_true, Bool.and_false]
    rfl
  unfold Hw.heldStages
  dsimp only
  rw [empty, List.foldl_nil]

/-- A lane whose episode has committed (R111). -/
def LaneSt.committed (l : LaneSt) : LaneSt := { l with ckpt := none, deferred := [], epWords := 0, epData := [] }

/-- The commit is counted, and the lane's checkpoint is dropped. -/
def Hw.commitNoted (h : Hw) (c : ChanId) (p : Lane) : Hw := h.onChan c fun x => (x.bump (frmReg p 0x24) 1).setLane p ((h.chan c).lane p).committed

section
variable {h : Hw} {c : ChanId} {p : Lane}

theorem Hw.commitNoted_chan (h : Hw) (c : ChanId) (p : Lane) :
    (h.commitNoted c p).chan c = ((h.chan c).bump (frmReg p 0x24) 1).setLane p ((h.chan c).lane p).committed := (Hw.onChan_chan _ _ _ _).trans (if_pos rfl)

theorem Hw.commitNoted_circ (h : Hw) (c : ChanId) (p : Lane) : ((h.commitNoted c p).chan c).circ = (h.chan c).circ := by
  rw [Hw.commitNoted_chan, Chan.setLane_circ]
  rfl

/-- With nothing deferred, held or waiting, a commit is its note, and what was in doubt is confirmed. -/
theorem Hw.commit_step (deferred : ((h.chan c).lane p).deferred = []) (settled : (h.chan c).settled p) :
    (h.commit c p).LaneStep (h.commitNoted c p) c p ((h.chan c).lane p).committed := by
  have lane : ((h.commitNoted c p).chan c).lane p = ((h.chan c).lane p).committed := by rw [Hw.commitNoted_chan, Chan.setLane_lane, if_pos rfl]
  unfold Hw.commit
  extract_lets l h1 h2
  have same : h2 = h.commitNoted c p := by
    show l.deferred.foldl _ h1 = _
    rw [show l.deferred = [] from deferred, List.foldl_nil]
    rfl
  rw [same, ← lane]
  split
  · next path =>
    have red : p = .red := by cases p <;> simp [Lane.path?] at path; rfl
    have line := (h.commitNoted c p).cvuLine_step c p l.epData
    have circ : (((h.commitNoted c p).cvuLine c l.epData).chan c).circ = (h.chan c).circ := by
      rw [← h.commitNoted_circ c p, Hw.cvuLine, Hw.onChan_chan, if_pos rfl]
    rw [Hw.heldStages_none fun e own => (settled e (by rwa [← circ])).2 red]
    exact (Hw.onChan_step _ c p _ ⟨_, _, _, rfl⟩).after line
  · next q path =>
    extract_lets waits h3
    have none_ : waits = [] := by
      refine List.flatMap_eq_nil_iff.2 fun e own => ?_
      rw [(settled e (by rwa [← h.commitNoted_circ c p])).1 q path, List.map_nil]
    rw [none_, List.foldl_nil]
    exact (h3.levels_step c p).after (Hw.onChan_step _ c p _ ⟨_, _, _, rfl⟩)

/-- A pattern of an episode at its predicted alignment has been counted. -/
def Hw.confirmed (h : Hw) (c : ChanId) (p : Lane) (i : Pattern) : Hw :=
  ((h.oofAt c p ((h.chan c).frCfg p) i).onLane c p fun l => { l with epWords := l.epWords + i.data.length / 4, epData := l.epData ++ i.data }).onLane c p
    fun l => { l with confirm := ((h.chan c).lane p).confirm + 1, since := l.since + 1 }

theorem Hw.pattern_commits {i : Pattern} (fr : ((h.chan c).lane p).fr = .runahead) (predicted : i.align = ((h.chan c).lane p).cur)
    (ok : patOk ((h.chan c).frCfg p) (geRed ((h.chan c).rate p) p) i = true) (enough : ((h.chan c).frCfg p).confirm ≤ ((h.chan c).lane p).confirm + 1)
    (within_ : ((h.chan c).lane p).since + 1 ≤ ((h.chan c).frCfg p).horizon) :
    h.pattern c p i = ((h.confirmed c p i).toInframe c p ((h.chan c).lane p).cur).commit c p := by
  rw [Hw.pattern]
  dsimp only
  rw [fr]
  dsimp only
  rw [if_pos predicted, if_pos ok, if_pos ⟨enough, within_⟩]
  rfl

theorem Hw.confirmed_step (h : Hw) (c : ChanId) (p : Lane) (i : Pattern) : ∃ l, (h.confirmed c p i).LaneStep h c p l ∧ l.deferred = ((h.chan c).lane p).deferred := by
  obtain ⟨b, d, shape⟩ := ((h.chan c).lane p).oofSeen_shape ((h.chan c).rate p) p ((h.chan c).frCfg p) i
  have seen := h.oofAt_step c p i
  rw [shape] at seen
  have fed := (h.oofAt c p ((h.chan c).frCfg p) i).onLane_step c p fun l => { l with epWords := l.epWords + i.data.length / 4, epData := l.epData ++ i.data }
  rw [seen.lane] at fed
  have counted := Hw.onLane_step ((h.oofAt c p ((h.chan c).frCfg p) i).onLane c p fun l => { l with epWords := l.epWords + i.data.length / 4, epData := l.epData ++ i.data })
    c p fun l => { l with confirm := ((h.chan c).lane p).confirm + 1, since := l.since + 1 }
  rw [fed.lane] at counted
  exact ⟨_, counted.trans (fed.trans seen), rfl⟩

theorem Hw.confirmed_circ (h : Hw) (c : ChanId) (p : Lane) (i : Pattern) : ((h.confirmed c p i).chan c).circ = (h.chan c).circ := by
  simp [Hw.confirmed, Hw.oofAt_eq]

end

/-! ## The rewind -/

/-- A lane whose episode has rewound to its checkpoint (R246, R247). -/
def LaneSt.rewound (l : LaneSt) (p : Lane) (on : Bool) : LaneSt :=
  { l with
    integ := (l.ckpt.map (·.integ)).getD l.integ, rei := (l.ckpt.map (·.rei)).getD l.rei, rd := (l.ckpt.map (·.rd)).getD l.rd
    ckpt := none, deferred := [], epWords := 0, epData := [], resume := decide (p = .red) && !on }

/-- The rewind and its words are counted, and the lane and its pointers are as they stood. -/
def Hw.rewindNoted (h : Hw) (c : ChanId) (p : Lane) (words : Nat) (on : Bool) : Hw :=
  h.onChan c fun x =>
    let x := (x.bump (frmReg p 0x20) 1).bump (frmReg p 0x28) words
    let x := match ((h.chan c).lane p).ckpt with
      | some k => x.putPtrs p k.ptrs
      | none => x
    x.setLane p (((h.chan c).lane p).rewound p on)

section
variable (h : Hw) (c : ChanId) (p : Lane) (words : Nat) (on : Bool)

theorem Hw.rewindNoted_reg (off : Nat) : (h.rewindNoted c p words on).chReg c off =
    (((h.chan c).bump (frmReg p 0x20) 1).bump (frmReg p 0x28) words).reg off := by
  rw [Hw.chReg, Hw.rewindNoted, Hw.onChan_chan, if_pos rfl]
  dsimp only
  rw [Chan.setLane_reg]
  split <;> rfl

theorem Hw.rewindNoted_lane : ((h.rewindNoted c p words on).chan c).lane p = ((h.chan c).lane p).rewound p on := by
  rw [Hw.rewindNoted, Hw.onChan_chan, if_pos rfl]
  exact (Chan.setLane_lane _ _ _ _).trans (if_pos rfl)

theorem Hw.rewind_step : (h.rewind c p words on).LaneStep (h.rewindNoted c p words on) c p (((h.chan c).lane p).rewound p on) := by
  rw [← h.rewindNoted_lane c p words on]
  unfold Hw.rewind
  extract_lets l h1
  have same : h1 = h.rewindNoted c p words on := rfl
  rw [same]
  have line (x : Chan) : ∃ cvu, x.cvuRewind = { x with cvu := cvu } := by
    unfold Chan.cvuRewind
    split <;> exact ⟨_, rfl⟩
  split
  · refine (Hw.levels_step _ c p).after (Hw.onChan_step _ c p _ ?_)
    obtain ⟨cvu, only⟩ := line ((h.rewindNoted c p words on).chan c)
    rw [only]
    exact ⟨_, _, cvu, rfl⟩
  · exact (Hw.levels_step _ c p).after (Hw.onChan_step _ c p _ ⟨_, _, _, rfl⟩)

/-- The framer of a rewound lane hunts, or tests the candidates that the episode left. -/
def LaneSt.rehunting (l : LaneSt) (ra : Word) : LaneSt :=
  if ((l.slots.drop 1).filter (·.isSome)).isEmpty then l.hunting ra
  else { l with fr := .presync, slots := none :: l.slots.drop 1, confirm := 0, since := 0 }

variable {h c p}

theorem Hw.horizonEnd_step (fr : ((h.chan c).lane p).fr = .runahead) (passed : ((h.chan c).frCfg p).horizon ≤ ((h.chan c).lane p).since) :
    ∃ (v : Hw) (ra : Word), h.horizonEnd c p words = v.laneSync h c p
      ∧ v.LaneStep (h.rewindNoted c p (((h.chan c).lane p).epWords + words) false) c p ((((h.chan c).lane p).rewound p false).rehunting ra) := by
  have acts : ¬ (((h.chan c).lane p).fr ≠ .runahead ∨ ((h.chan c).lane p).since < ((h.chan c).frCfg p).horizon) := by simp [fr, passed]
  have back := h.rewind_step c p (((h.chan c).lane p).epWords + words) false
  refine ⟨_, ((h.rewind c p (((h.chan c).lane p).epWords + words) false).chan c).reg (frmReg p 0), if_neg acts, ?_⟩
  rw [LaneSt.rehunting, show (((h.chan c).lane p).rewound p false).slots = ((h.chan c).lane p).slots from rfl]
  split
  · next none_ =>
    have hunts := (h.rewind c p (((h.chan c).lane p).epWords + words) false).onLane_step c p fun l =>
      l.hunting (((h.rewind c p (((h.chan c).lane p).epWords + words) false).chan c).reg (frmReg p 0))
    rw [back.lane] at hunts
    exact hunts.trans back
  · next left =>
    have tests := (h.rewind c p (((h.chan c).lane p).epWords + words) false).onLane_step c p fun l =>
      { l with fr := .presync, slots := none :: l.slots.drop 1, confirm := 0, since := 0 }
    rw [back.lane] at tests
    exact tests.trans back

end

theorem thrField_pos {x : Chan} {p : Lane} {hi lo dflt : Nat} (some_ : 0 < dflt) : 0 < x.thrField p hi lo dflt := by
  unfold Chan.thrField
  dsimp only
  split <;> omega

/-- The OOF count is never met by a run of none. -/
theorem frCfg_oofCnt (x : Chan) (p : Lane) : 0 < (x.frCfg p).oofCnt := thrField_pos (by split_ifs <;> omega)

/-! ## The obligation -/

section
variable {s : State} {c : ChanId} {p : Lane} {i : Pattern} (works : s.hw.works = true) (runs : (s.hw.chan c).st = .active ∨ (s.hw.chan c).st = .diag)
  (clear : ((s.hw.chan c).lane p).def_ 15 = false)

theorem Hw.patternFed_off {h : Hw} (fr : ((h.chan c).lane p).fr ≠ .inframe) : h.patternFed c p i = h := if_neg fun on => fr on.2

include works runs clear

/-- A first correct pattern of a lane that takes one to be in frame, in HUNT. -/
theorem completes_pattern_admitsAtOnce (ge : geRed ((s.hw.chan c).rate p) p = true) (fr : ((s.hw.chan c).lane p).fr = .hunt)
    (free : ((s.hw.chan c).lane p).slots = []) (sure : i.errs < ((s.hw.chan c).frCfg p).doubt) (sync : i.sync = some true) :
    Completes (.framingPattern c p i) s fun t => (∃ l : LaneSt, (t.chan c).lane p = (l.framed i.align).checked) ∧ t.Local s.hw c := by
  have ok : patOk ((s.hw.chan c).frCfg p) (geRed ((s.hw.chan c).rate p) p) i = true := by rw [patOk, ge, if_pos rfl, decide_eq_true sure]
  have entered := (s.hw.oofAt c p ((s.hw.chan c).frCfg p) i).toInframe_step c p i.align
  rw [(s.hw.oofAt_step c p i).lane] at entered
  have step := entered.trans (s.hw.oofAt_step c p i)
  have becomes : (s.hw.patternFed c p i).pattern c p i = (s.hw.oofAt c p ((s.hw.chan c).frCfg p) i).toInframe c p i.align := by
    rw [Hw.patternFed_off (by rw [fr]; decide), Hw.pattern_hunt fr free ok, ge, sync]
    rfl
  exact (completes_framingPattern works runs clear (by rw [becomes]; exact step)).mono fun t h => ⟨⟨_, h.1⟩, h.2⟩

/-- A first correct pattern of any other lane is admitted to slot 0 (R105). -/
theorem completes_pattern_admits (ge : geRed ((s.hw.chan c).rate p) p = false) (fr : ((s.hw.chan c).lane p).fr = .hunt)
    (free : ((s.hw.chan c).lane p).slots = []) (correct : i.errs = 0) (two : 2 ≤ ((s.hw.chan c).frCfg p).ifCnt) :
    Completes (.framingPattern c p i) s fun t => (t.chan c).lane p = { (s.hw.chan c).lane p with
        badRun := if i.align = ((s.hw.chan c).lane p).cur then 0 else ((s.hw.chan c).lane p).badRun, fr := .presync
        slots := some { align := i.align, good := 1 } :: List.replicate (((s.hw.chan c).frCfg p).slots - 1) none } ∧ t.Local s.hw c := by
  have ok : patOk ((s.hw.chan c).frCfg p) (geRed ((s.hw.chan c).rate p) p) i = true := by
    rw [patOk, ge, if_neg Bool.false_ne_true, decide_eq_true correct]
  have good := LaneSt.oofSeen_good (l := (s.hw.chan c).lane p) ok (by
    rw [ge, if_neg Bool.false_ne_true, correct, decide_eq_false (not_le_of_gt (frCfg_oofCnt _ _)), ite_self])
  have seen := s.hw.oofAt_step c p i
  rw [good] at seen
  have admits := (s.hw.oofAt c p ((s.hw.chan c).frCfg p) i).onLane_step c p fun l =>
    { l with fr := .presync, slots := some { align := i.align, good := 1 } :: List.replicate (((s.hw.chan c).frCfg p).slots - 1) none }
  rw [seen.lane] at admits
  refine completes_framingPattern works runs clear ?_
  rw [Hw.patternFed_off (by rw [fr]; decide), Hw.pattern_hunt fr free ok, ge, if_neg Bool.false_ne_true, if_neg (by rw [decide_eq_true_eq]; omega)]
  exact admits.trans seen

/-- A pattern at the alignment of a lane in frame, in doubt or not. -/
theorem completes_pattern_inframe (fr : ((s.hw.chan c).lane p).fr = .inframe) (predicted : i.align = ((s.hw.chan c).lane p).cur) :
    Completes (.framingPattern c p i) s fun t => (∃ b d, if i.errs < ((s.hw.chan c).frCfg p).doubt
      then (t.chan c).lane p = { (s.hw.chan c).lane p with badRun := b, defects := d }
      else ∃ ra, (t.chan c).lane p = { (({ (s.hw.chan c).lane p with badRun := b, defects := d } : LaneSt).checkpointed ((s.hw.chan c).lanePtrs p) ra) with
        fr := .runahead, slots := [some { align := ((s.hw.chan c).lane p).cur, good := 0 }], confirm := 0, since := 0, won := none })
      ∧ t.Local s.hw c := by
  have fed := s.hw.patternFed_step c p i
  generalize fedIs : s.hw.patternFed c p i = u at fed
  have becomes := Hw.pattern_inframe (h := u) (c := c) (p := p) (i := i) (by rw [fed.lane, fr]) (by rw [fed.lane, predicted])
  obtain ⟨b, d, shape⟩ := ((s.hw.chan c).lane p).oofSeen_shape ((u.chan c).rate p) p ((u.chan c).frCfg p) i
  have seen := u.oofAt_step c p i
  rw [fed.lane, shape] at seen
  rw [fed.frCfg] at becomes seen
  by_cases sure : i.errs < ((s.hw.chan c).frCfg p).doubt
  · rw [if_pos sure] at becomes
    refine (completes_framingPattern works runs clear (by rw [fedIs, becomes]; exact seen.trans fed)).mono fun t h => ⟨⟨b, d, ?_⟩, h.2⟩
    rw [if_pos sure]
    exact h.1
  · rw [if_neg sure] at becomes
    have starts := (u.oofAt c p ((s.hw.chan c).frCfg p) i).episode_step c p
    have ptrs : ((u.oofAt c p ((s.hw.chan c).frCfg p) i).chan c).lanePtrs p = (s.hw.chan c).lanePtrs p := by rw [Chan.lanePtrs, (seen.trans fed).map, Chan.lanePtrs]
    rw [seen.lane, ptrs] at starts
    have opens := ((u.oofAt c p ((s.hw.chan c).frCfg p) i).episode c p).onLane_step c p fun l =>
      { l with fr := .runahead, slots := [some { align := l.cur, good := 0 }], confirm := 0, since := 0, won := none }
    rw [starts.lane] at opens
    refine (completes_framingPattern works runs clear (by rw [fedIs, becomes]; exact opens.trans (starts.trans (seen.trans fed)))).mono fun t h => ⟨⟨b, d, ?_⟩, h.2⟩
    rw [if_neg sure]
    exact ⟨_, h.1⟩

/-- The pattern with which an episode commits. -/
theorem completes_pattern_commits (fr : ((s.hw.chan c).lane p).fr = .runahead) (deferred : ((s.hw.chan c).lane p).deferred = [])
    (predicted : i.align = ((s.hw.chan c).lane p).cur) (correct : i.errs = 0) (doubt : 1 ≤ ((s.hw.chan c).frCfg p).doubt)
    (enough : ((s.hw.chan c).frCfg p).confirm ≤ ((s.hw.chan c).lane p).confirm + 1)
    (within_ : ((s.hw.chan c).lane p).since + 1 ≤ ((s.hw.chan c).frCfg p).horizon) (settled : (s.hw.chan c).settled p) :
    Completes (.framingPattern c p i) s fun t =>
      (∃ l : LaneSt, (t.chan c).lane p = (l.framed ((s.hw.chan c).lane p).cur).checked.committed)
      ∧ t.chReg c (frmReg p 0x24) = s.hw.chReg c (frmReg p 0x24) + 1 := by
  have ok : patOk ((s.hw.chan c).frCfg p) (geRed ((s.hw.chan c).rate p) p) i = true := by
    rw [patOk, correct, decide_eq_true rfl, decide_eq_true (by omega), ite_self]
  refine .byOnLanesW c (·.patternIn c p i) rfl works runs ?_
  rw [Hw.patternIn_eq clear, Hw.patternFed_off (by rw [fr]; decide), Hw.pattern_commits fr predicted ok enough within_]
  obtain ⟨l, confirmed, waits⟩ := s.hw.confirmed_step c p i
  generalize ((s.hw.chan c).lane p).cur = a
  have entered := (s.hw.confirmed c p i).toInframe_step c p a
  rw [confirmed.lane] at entered
  have circ : ((s.hw.confirmed c p i).chan c).settled p := fun e own => settled e (by rwa [← s.hw.confirmed_circ c p i])
  have settled' := Hw.toInframe_settled circ a
  have reached := entered.trans confirmed
  generalize (s.hw.confirmed c p i).toInframe c p a = u at settled' reached
  have nothing : ((u.chan c).lane p).deferred = [] := by
    obtain ⟨b, only⟩ := (l.framed a).checked_only
    rw [reached.lane, only]
    exact waits.trans deferred
  have commits := Hw.commit_step nothing settled'
  have follows := (u.commit c p).laneSync_follows s.hw c p
  have off : frmReg p 0x24 ≠ 0x2300 ∧ frmReg p 0x24 ≠ 0x3008 ∧ frmReg p 0x24 ≠ 0x802C ∧ frmReg p 0x24 < 0x2300 := by cases p <;> decide
  refine ⟨⟨l, by rw [Hw.settle_chan_lane, follows.lane, commits.lane, reached.lane]⟩, ?_⟩
  rw [Hw.chReg, Hw.settle_chan_reg]
  refine (follows.reg _ off.1 off.2.1 off.2.2.1).trans ((commits.low _ off.2.2.2).trans ?_)
  rw [Hw.chReg, Hw.commitNoted_chan, Chan.setLane_reg, Chan.bump, Chan.reg_setReg_self, ← reached.low _ off.2.2.2]
  rfl

omit clear in
/-- The horizon with which an episode rewinds. -/
theorem completes_horizon (n : Nat) (fr : ((s.hw.chan c).lane p).fr = .runahead)
    (passed : ((s.hw.chan c).frCfg p).horizon ≤ ((s.hw.chan c).lane p).since) :
    Completes (.runaheadHorizon c p n) s fun t =>
      (∃ ra, (t.chan c).lane p = (((s.hw.chan c).lane p).rewound p false).rehunting ra)
      ∧ t.chReg c (frmReg p 0x20) = s.hw.chReg c (frmReg p 0x20) + 1
      ∧ t.chReg c (frmReg p 0x28) = s.hw.chReg c (frmReg p 0x28) + BitVec.ofNat 32 (((s.hw.chan c).lane p).epWords + n) := by
  refine .byOnLanesW c (·.horizonEnd c p n) rfl works runs ?_
  obtain ⟨v, ra, becomes, step⟩ := Hw.horizonEnd_step (words := n) fr passed
  rw [becomes]
  have follows := v.laneSync_follows s.hw c p
  have count (off : Nat) (own : off = frmReg p 0x20 ∨ off = frmReg p 0x28) : ((v.laneSync s.hw c p).settle s.hw [c]).chReg c off
      = (((s.hw.chan c).bump (frmReg p 0x20) 1).bump (frmReg p 0x28) (((s.hw.chan c).lane p).epWords + n)).reg off := by
    have apart : off ≠ 0x2300 ∧ off ≠ 0x3008 ∧ off ≠ 0x802C ∧ off < 0x2300 := by rcases own with rfl | rfl <;> cases p <;> decide
    rw [Hw.chReg, Hw.settle_chan_reg]
    exact (follows.reg _ apart.1 apart.2.1 apart.2.2.1).trans ((step.low _ apart.2.2.2).trans (s.hw.rewindNoted_reg c p _ false off))
  have apart : frmReg p 0x20 ≠ frmReg p 0x28 := by cases p <;> decide
  refine ⟨⟨ra, by rw [Hw.settle_chan_lane, follows.lane, step.lane]⟩, ?_, ?_⟩
  · rw [count _ (.inl rfl), Chan.bump, Chan.reg_setReg, if_neg apart, Chan.bump, Chan.reg_setReg_self]
    rfl
  · rw [count _ (.inr rfl), Chan.bump, Chan.reg_setReg_self, Chan.bump, Chan.reg_setReg, if_neg apart.symm]
    rfl

end

/-- Settles O23, state by state of the framer. -/
theorem framerStates : Obligations.FramerStates := by
  unfold Obligations.FramerStates
  intro s c p i works runs l g clear
  refine ⟨fun ge fr free sure sync => ?_, fun ge fr free correct two => ?_, fun fr predicted sure => ?_, fun fr predicted doubted => ?_,
    fun fr deferred predicted correct doubt enough within_ waits held => ?_, fun n fr passed => ?_⟩
  · refine (completes_pattern_admitsAtOnce works runs clear ge fr free sure sync).mono fun t h => ?_
    obtain ⟨⟨l, lane⟩, here⟩ := h
    obtain ⟨b, only⟩ := (l.framed i.align).checked_only
    rw [lane]
    refine ⟨?_, ?_, l.framed_oof _, here⟩ <;> rw [only] <;> rfl
  · exact completes_pattern_admits works runs clear ge fr free correct two
  · refine (completes_pattern_inframe works runs clear fr predicted).mono fun t h => ?_
    obtain ⟨⟨b, d, lane⟩, here⟩ := h
    rw [if_pos sure] at lane
    rw [lane]
    exact ⟨fr, rfl, here⟩
  · refine (completes_pattern_inframe works runs clear fr predicted).mono fun t h => ?_
    obtain ⟨⟨b, d, lane⟩, here⟩ := h
    rw [if_neg (not_lt.2 doubted)] at lane
    obtain ⟨ra, lane⟩ := lane
    rw [lane]
    exact ⟨rfl, rfl, rfl, rfl, rfl, here⟩
  · refine (completes_pattern_commits works runs clear fr deferred predicted correct doubt enough within_
      fun e own => ⟨fun q path => waits q path e own, fun red b own' => held red e own b own'⟩).mono fun t h => ?_
    obtain ⟨⟨l', lane⟩, count⟩ := h
    obtain ⟨b, only⟩ := (l'.framed l.cur).checked_only
    rw [lane]
    refine ⟨?_, rfl, ?_, l'.framed_oof _, count⟩ <;> rw [LaneSt.committed, only] <;> rfl
  · refine (completes_horizon works runs n fr passed).mono fun t h => ?_
    obtain ⟨⟨ra, lane⟩, count, words⟩ := h
    have integ : (((l.rewound p false).rehunting ra).integ) = (l.ckpt.map (·.integ)).getD l.integ := by
      unfold LaneSt.rehunting
      split <;> rfl
    rw [lane]
    refine ⟨?_, ?_, ?_, integ.trans ?_, count, words⟩
    · unfold LaneSt.rehunting
      rw [apply_ite LaneSt.fr]
      rfl
    · unfold LaneSt.rehunting
      split <;> rfl
    · unfold LaneSt.rehunting
      split <;> rfl
    · cases l.ckpt <;> rfl

end Sys2Proof.Machine
end

section
/-!
PROOF. PRBS, lane queues, auto-negotiation and the eye scan (O27).
-/
namespace Sys2Proof.Machine

/-! ## A write beat of the Isund -/

/-- The bits of a register that a write by a master with every right reaches, where none is an RD field. -/
def RegDef.openMask (r : RegDef) : Word := (maskOf r fun a => decide (a = .rw)) ||| maskOf r fun a => decide (a = .rg)

theorem RegDef.write_open {r : RegDef} (noRd : (maskOf r fun a => decide (a = .rd)) = 0) (old d : Word) (rd : Bool) :
    r.write old d 0 rd = { new := (old &&& ~~~ r.openMask) ||| (d &&& r.openMask), guard := false, rej := false } := by
  have keep (m : Word) : m &&& ~~~ (0 : Word) = m := by rw [BitVec.ofNat_eq_ofNat, BitVec.not_zero, BitVec.and_allOnes]
  have zeroOr (m : Word) : m ||| 0 = m := BitVec.or_zero
  have zeroAnd (m : Word) : m &&& 0 = 0 := BitVec.and_zero
  unfold RegDef.write RegDef.openMask
  simp only [noRd, keep, zeroOr, zeroAnd, ite_self, ne_eq, not_true_eq_false, decide_false, Bool.false_and]

theorem Hw.flagged_none (h : Hw) (m : Master) (a : BitVec 22) : h.flagged m 0 a = h := if_pos rfl

/-- A write of the Isund to a register of an ACTIVE channel with no RD field takes its bits, and is counted. -/
theorem chFields_isund {h : Hw} {c : ChanId} {off : Nat} {r : RegDef} (listed : findReg chRegs off = some r)
    (noRd : (maskOf r fun a => decide (a = .rd)) = 0) (reach : h.reaches .isund = true) (active : (h.chan c).st = .active) (d : Word) :
    chFields h .isund c off d = (h.setChReg c off ((h.chReg c off &&& ~~~ r.openMask) ||| (d &&& r.openMask))).bmx (Master.id .isund) 0 := by
  have noDeny : h.denied .isund off = 0 := rfl
  have right : h.lacks .isund r.guard = false := rfl
  unfold chFields
  simp only [reach, listed, right, noDeny, RegDef.write_open noRd, raises_of_active active, active, Bool.not_true, Bool.false_eq_true, if_false, reduceCtorEq, decide_false, Bool.false_and]
  have none_ : (⟨(h.chan c).reg off &&& ~~~ r.openMask ||| d &&& r.openMask, false, false⟩ : Written).flags = 0 := by
    rw [Written.flags, if_neg Bool.false_ne_true, if_neg Bool.false_ne_true]
    decide
  rw [none_, Hw.flagged_none]
  rfl

theorem bitOf_masked (old d mask : Word) {i : Nat} (inside : i < 32) :
    bitOf ((old &&& ~~~ mask) ||| (d &&& mask)) i = if bitOf mask i then bitOf d i else bitOf old i := by
  simp only [bitOf, BitVec.getLsbD_or, BitVec.getLsbD_and, BitVec.getLsbD_not, decide_eq_true inside]
  by_cases bit : mask.getLsbD i = true
  · simp [bit]
  · rw [Bool.not_eq_true] at bit
    simp [bit]

/-- A field that a write reaches holds what was written. -/
theorem fieldOf_masked {old d mask : Word} {hi lo : Nat} (inside : hi < 32) (open_ : ∀ i, lo ≤ i → i ≤ hi → bitOf mask i = true) :
    fieldOf ((old &&& ~~~ mask) ||| (d &&& mask)) hi lo = fieldOf d hi lo := by
  refine Nat.eq_of_testBit_eq fun i => ?_
  rw [testBit_fieldOf, testBit_fieldOf]
  by_cases within_ : i < hi + 1 - lo
  · rw [bitOf_masked _ _ _ (by omega), open_ _ (by omega) (by omega), if_pos rfl]
  · rw [decide_eq_false within_, Bool.false_and, Bool.false_and]

theorem Hw.setChReg_local (h : Hw) (c : ChanId) (off : Nat) (w : Word) : (h.setChReg c off w).Local h c := h.onChan_local c _

theorem Hw.bmx_local (h : Hw) (mid which : Nat) (c : ChanId) : (h.bmx mid which).Local h c := by
  constructor <;> simp

/-! ## PRBS -/

/-- The registers CHn.PRT_PRBS_p: seven bits, none of them RD. -/
theorem findReg_prbs (p : Lane) : ∃ r, findReg chRegs (prbsReg p) = some r ∧ (maskOf r fun a => decide (a = .rd)) = 0 ∧ r.openMask = 0x7F := by
  cases p <;> exact ⟨_, rfl, by decide, by decide⟩

/-- The checker's and the generator's settings are those of the low six bits. -/
theorem prbsSet_congr {w w' : Word} (low : fieldOf w 5 0 = fieldOf w' 5 0) : prbsSet w = prbsSet w' := by
  have bit {i : Nat} (small : i < 6) : bitOf w i = bitOf w' i := by
    have both := congrArg (fun n => n.testBit i) low
    simpa [testBit_fieldOf, small] using both
  have pattern : fieldOf w 2 0 = fieldOf w' 2 0 := by
    refine Nat.eq_of_testBit_eq fun i => ?_
    rw [testBit_fieldOf, testBit_fieldOf]
    by_cases small : i < 3
    · rw [bit (by omega)]
    · rw [decide_eq_false (by omega), Bool.false_and, Bool.false_and]
  rw [prbsSet, prbsSet, bit (by omega), bit (by omega), pattern]

/-- The word of CHn.PRT_PRBS_p that a write leaves, before ERR_INJ clears itself. -/
def Hw.prbsTaken (h : Hw) (c : ChanId) (p : Lane) (d : Word) : Word := (h.chReg c (prbsReg p) &&& ~~~ 0x7F) ||| (d &&& 0x7F)

section
variable {c : ChanId} {p : Lane}

/-- The generator inverts one bit. -/
def Hw.flipped (h : Hw) (c : ChanId) (p : Lane) (w : Word) : Hw :=
  if bitOf w 6 && genOn w then h.onLane c p fun l => { l with flips := l.flips + 1 } else h

/-- CHn.PRT_PRBS_p after a write of the Isund. -/
def Hw.prbsPut (h : Hw) (c : ChanId) (p : Lane) (d : Word) : Hw :=
  ((h.setChReg c (prbsReg p) (h.prbsTaken c p d)).bmx (Master.id .isund) 0).setChReg c (prbsReg p) (withField (h.prbsTaken c p d) 6 6 0)

theorem prbsWrite_eq {h : Hw} (reach : h.reaches .isund = true) (active : (h.chan c).st = .active) (d : Word) :
    prbsWrite h .isund c p d = if prbsSet (h.prbsTaken c p d) = prbsSet (h.chReg c (prbsReg p)) then (h.prbsPut c p d).flipped c p (h.prbsTaken c p d)
      else (((h.prbsPut c p d).flipped c p (h.prbsTaken c p d)).prbsStop c p).lneSync h c p := by
  obtain ⟨r, listed, noRd, mask⟩ := findReg_prbs p
  have fields := chFields_isund listed noRd reach active d
  rw [mask] at fields
  have word : (chFields h .isund c (prbsReg p) d).chReg c (prbsReg p) = h.prbsTaken c p d := by
    rw [fields, Hw.bmx_chReg, Hw.chReg, Hw.setChReg_chan, if_pos rfl, Chan.reg_setReg_self]
    rfl
  unfold prbsWrite
  dsimp only
  rw [word, fields]
  rfl

theorem Hw.prbsPut_chan (h : Hw) (c : ChanId) (p : Lane) (d : Word) :
    (h.prbsPut c p d).chan c = ((h.chan c).setReg (prbsReg p) (h.prbsTaken c p d)).setReg (prbsReg p) (withField (h.prbsTaken c p d) 6 6 0) := by
  simp [Hw.prbsPut]

theorem Hw.prbsPut_local (h : Hw) (c : ChanId) (p : Lane) (d : Word) : (h.prbsPut c p d).Local h c :=
  (Hw.setChReg_local _ c _ _).trans ((Hw.bmx_local _ _ _ c).trans (h.setChReg_local c _ _))

theorem Hw.prbsTaken_bit (h : Hw) (c : ChanId) (p : Lane) (d : Word) {i : Nat} (low : i < 7) : bitOf (h.prbsTaken c p d) i = bitOf d i := by
  have mask : ∀ i < 7, bitOf (0x7F : Word) i = true := by decide
  rw [Hw.prbsTaken, bitOf_masked _ _ _ (by omega), mask i low, if_pos rfl]

theorem Hw.prbsTaken_set (h : Hw) (c : ChanId) (p : Lane) (d : Word) : fieldOf (withField (h.prbsTaken c p d) 6 6 0) 5 0 = fieldOf d 5 0 := by
  rw [fieldOf_withField_apart _ _ (by omega) (by omega)]
  have mask : ∀ i, 0 ≤ i → i ≤ 5 → bitOf (0x7F : Word) i = true := by
    have all : ∀ i ≤ 5, bitOf (0x7F : Word) i = true := by decide
    exact fun i _ small => all i small
  exact fieldOf_masked (by omega) mask

/-- The channel's lane and registers after the generator's inversion. -/
theorem Hw.flipped_step (h : Hw) (c : ChanId) (p : Lane) (w : Word) : (h.flipped c p w).LaneStep h c p
    { (h.chan c).lane p with flips := ((h.chan c).lane p).flips + (if bitOf w 6 = true ∧ genOn w = true then 1 else 0) } := by
  unfold Hw.flipped
  by_cases inverts : bitOf w 6 = true ∧ genOn w = true
  · rw [if_pos inverts, if_pos (by rw [Bool.and_eq_true]; exact inverts)]
    exact h.onLane_step c p fun l => { l with flips := l.flips + 1 }
  · rw [if_neg inverts, if_neg (by rw [Bool.and_eq_true]; exact inverts)]
    exact .refl h c p

theorem Hw.draw_step (h : Hw) (c : ChanId) (p : Lane) : h.draw.2.LaneStep h c p ((h.chan c).lane p) :=
  ⟨⟨fun _ _ => rfl, rfl, rfl, rfl, rfl, rfl, rfl, rfl, rfl, rfl⟩, rfl, rfl, fun _ _ => rfl, rfl⟩

theorem Hw.count_step (h : Hw) (c : ChanId) (p : Lane) (g i n : Nat) : (h.count c g i n).LaneStep h c p ((h.chan c).lane p) :=
  ⟨h.onChan_local c _, by simp, by simp, fun off _ => by simp [Hw.chReg], by simp⟩

/-- A checker that stops is out of sync. -/
theorem Hw.prbsStop_step (h : Hw) (c : ChanId) (p : Lane) : (h.prbsStop c p).LaneStep h c p { (h.chan c).lane p with chkSync := false } := by
  unfold Hw.prbsStop
  dsimp only
  split
  · have drawn := (h.draw.2.draw_step c p).after (h.draw_step c p)
    have stops := h.draw.2.draw.2.onLane_step c p fun l => { l with chkSync := false }
    rw [drawn.lane] at stops
    exact (Hw.count_step _ c p _ _ _).after ((Hw.count_step _ c p _ _ _).after (stops.trans drawn))
  · next off =>
    rw [Bool.not_eq_true] at off
    rw [← off]
    exact .refl h c p

/-- A write of the Isund to CHn.PRT_PRBS_p: the lane after it, and the register. -/
theorem Hw.prbsWrite_shows {h : Hw} (reach : h.reaches .isund = true) (active : (h.chan c).st = .active) (d : Word) :
    ∃ sync, (prbsWrite h .isund c p d).LaneStep (h.prbsPut c p d) c p
      { (h.chan c).lane p with
        flips := ((h.chan c).lane p).flips + (if bitOf d 6 = true ∧ genOn (h.prbsTaken c p d) = true then 1 else 0), chkSync := sync }
      ∧ (prbsSet (h.prbsTaken c p d) ≠ prbsSet (h.chReg c (prbsReg p)) → sync = false) := by
  have lane : ((h.prbsPut c p d).chan c).lane p = (h.chan c).lane p := by rw [Hw.prbsPut_chan, Chan.setReg_lane, Chan.setReg_lane]
  have flips := (h.prbsPut c p d).flipped_step c p (h.prbsTaken c p d)
  rw [lane, Hw.prbsTaken_bit _ _ _ _ (by omega)] at flips
  rw [prbsWrite_eq reach active]
  split
  · next same => exact ⟨((h.chan c).lane p).chkSync, flips, fun other => absurd same other⟩
  · have stops := ((h.prbsPut c p d).flipped c p (h.prbsTaken c p d)).prbsStop_step c p
    rw [flips.lane] at stops
    have told := ((((h.prbsPut c p d).flipped c p (h.prbsTaken c p d)).prbsStop c p).lneSync_follows h c p).laneStep p
    exact ⟨false, told.after (stops.trans flips), fun _ => rfl⟩

theorem genOn_congr {w w' : Word} (low : fieldOf w 5 0 = fieldOf w' 5 0) : genOn w = genOn w' := by
  have bit : bitOf w 3 = bitOf w' 3 := by
    have both := congrArg (fun n => n.testBit 3) low
    simpa [testBit_fieldOf] using both
  rw [genOn, genOn, bit, prbsSet_congr low]

end

/-! ## A checker's sync, and the lane queues -/

/-- A watermark's flag is told, and CHn.LAT_EVT shows it. -/
theorem Hw.wmEvent_shows {h : Hw} {c : ChanId} (active : (h.chan c).st = .active) {q : Nat} {fl : Word} {i : Nat} (low : i < 24) (flag : bitOf fl i = true) :
    bitOf ((h.wmEvent c q fl).chReg c (0x6080 + 4 * q)) i = true ∧ bitOf ((h.wmEvent c q fl).chReg c 0x6014) 19 = true
    ∧ (h.wmEvent c q fl).Local h c ∧ ((h.wmEvent c q fl).chan c).raises = true ∧ (h.wmEvent c q fl).dev.fcl = h.dev.fcl
    ∧ (h.wmEvent c q fl).inMw = h.inMw := by
  have raises : ((h.setChReg c (0x6080 + 4 * q) (evWord (h.chReg c (0x6080 + 4 * q)) fl)).chan c).raises = true :=
    raises_of_active (by rw [Hw.setChReg_chan, if_pos rfl]; exact active)
  have wm : bitOf (0x00080000 : Word) 19 = true := by decide
  unfold Hw.wmEvent Hw.evLat
  refine ⟨?_, ?_, (Hw.chEvent_local _ c _ _ _).trans (h.onChan_local c _), ?_, by simp, ?_⟩
  · rw [Hw.chEvent_chReg raises, if_neg (by omega), Hw.chReg_setChReg, if_pos ⟨rfl, rfl⟩, bitOf_evWord _ _ low, flag, Bool.or_true]
  · rw [Hw.chEvent_chReg raises, if_pos rfl, bitOf_evWord _ _ (by omega), wm, Bool.or_true]
  · rw [Chan.raises, Hw.chEvent_chan_st]
    exact raises
  · simp [Hw.inMw]

/-- A watermark's flag and the message raised with it. -/
theorem Hw.wmRaised_shows {h : Hw} (works : h.works = true) {c : ChanId} (active : (h.chan c).st = .active) {q : Nat} {fl : Word} {i : Nat} (low : i < 24)
    (flag : bitOf fl i = true) {k a : Nat} :
    bitOf (((h.wmEvent c q fl).raiseChan c 6 clsH k a).chReg c (0x6080 + 4 * q)) i = true
    ∧ bitOf (((h.wmEvent c q fl).raiseChan c 6 clsH k a).chReg c 0x6014) 19 = true
    ∧ ((h.wmEvent c q fl).raiseChan c 6 clsH k a).tookMsg h (mkMsg c.val 6 clsH k a) ∧ ((h.wmEvent c q fl).raiseChan c 6 clsH k a).Local h c := by
  obtain ⟨wm, lat, here, raises, fcl, inMw⟩ := Hw.wmEvent_shows active (q := q) low flag
  refine ⟨?_, ?_, ?_, (Hw.raiseChan_local _ c c _ _ _ _).trans here⟩
  · rw [Hw.chReg, Hw.raiseChan_chan]
    exact wm
  · rw [Hw.chReg, Hw.raiseChan_chan]
    exact lat
  · rw [Hw.tookMsg, Hw.raiseChan_slots (by rw [inMw]; exact Hw.inMw_of_works works) raises, fcl, here.sys, here.now]

/-! ## Auto-negotiation and the eye scan -/

theorem Hw.setChReg_st (h : Hw) (c : ChanId) (off : Nat) (w : Word) : ((h.setChReg c off w).chan c).st = (h.chan c).st := by simp

/-- The registers CHn.PRT_EYE_CTL: its bits, none of them RD. -/
theorem findReg_eye : ∃ r, findReg chRegs 0x10C4 = some r ∧ (maskOf r fun a => decide (a = .rd)) = 0 ∧ r.openMask = 0xB0FFFFFF :=
  ⟨_, rfl, by decide, by decide⟩

/-- The registers of the results are all 0 after a clear, and the others as they were. -/
theorem Chan.eyeClear_reg (x : Chan) (off : Nat) :
    x.eyeClear.reg off = if ∃ k ∈ List.range 64, off = 0x1100 + 4 * k then 0 else x.reg off := by
  have step : ∀ (ks : List Nat) (x : Chan), (ks.foldl (fun (x : Chan) k => x.setReg (0x1100 + 4 * k) 0) x).reg off
      = if ∃ k ∈ ks, off = 0x1100 + 4 * k then 0 else x.reg off := by
    intro ks
    induction ks with
    | nil => intro x; simp
    | cons k ks ih =>
      intro x
      rw [List.foldl_cons, ih, Chan.reg_setReg]
      by_cases own : off = 0x1100 + 4 * k
      · simp [own]
      · simp [own]
  rw [Chan.eyeClear, step]

/-- The results of a scan: each of its registers, and the others as they were. -/
def Chan.eyeResults (x : Chan) (res : List (BitVec 16)) : Chan :=
  res.zipIdx.foldl (fun (x : Chan) (e : BitVec 16 × Nat) => if e.2 < 64 then x.setReg (0x1100 + 4 * e.2) (e.1.zeroExtend 32) else x) x

theorem Chan.eyeResults_reg_other (x : Chan) (res : List (BitVec 16)) {off : Nat} (other : ∀ k < 64, off ≠ 0x1100 + 4 * k) :
    (x.eyeResults res).reg off = x.reg off := by
  refine foldl_keeps _ (fun u : Chan => u.reg off) (fun u e => ?_) _ _
  split
  · next small => exact (Chan.reg_setReg _ _ _ _).trans (if_neg (other _ small))
  · rfl

theorem Chan.eyeResults_reg (res : List (BitVec 16)) {k : Nat} (small : k < 64) : ∀ (n : Nat) (x : Chan), n ≤ k → k < n + res.length →
    ((res.zipIdx n).foldl (fun (x : Chan) (e : BitVec 16 × Nat) => if e.2 < 64 then x.setReg (0x1100 + 4 * e.2) (e.1.zeroExtend 32) else x) x).reg (0x1100 + 4 * k)
      = (res.getD (k - n) 0).zeroExtend 32 := by
  induction res with
  | nil => intro n x lo hi; simp at hi; omega
  | cons v res ih =>
    intro n x lo hi
    rw [List.zipIdx_cons, List.foldl_cons]
    by_cases own : k = n
    · subst own
      have keeps : ∀ (l : List (BitVec 16 × Nat)) (x : Chan), (∀ e ∈ l, k < e.2) →
          (l.foldl (fun (x : Chan) (e : BitVec 16 × Nat) => if e.2 < 64 then x.setReg (0x1100 + 4 * e.2) (e.1.zeroExtend 32) else x) x).reg (0x1100 + 4 * k)
            = x.reg (0x1100 + 4 * k) := by
        intro l
        induction l with
        | nil => exact fun x _ => rfl
        | cons e l ih =>
          intro x later
          have after := later e List.mem_cons_self
          rw [List.foldl_cons, ih _ fun e' own' => later e' (List.mem_cons_of_mem _ own')]
          split
          · rw [Chan.reg_setReg, if_neg (by omega)]
          · rfl
      rw [keeps _ _ fun e own' => ?_]
      · simp [small]
      · have := (List.mem_zipIdx own').1
        omega
    · rw [ih (n + 1) _ (by omega) (by simp at hi; omega)]
      obtain ⟨m, rfl⟩ : ∃ m, k = n + (m + 1) := ⟨k - n - 1, by omega⟩
      have left : n + (m + 1) - (n + 1) = m := by omega
      have right : n + (m + 1) - n = m + 1 := by omega
      rw [left, right, List.getD_cons_succ]

section
variable {s : State} {c : ChanId} (works : s.hw.works = true) (active : (s.hw.chan c).st = .active)
include works active

/-- Clause 37's completion shows the partner's page and its remote fault. -/
theorem completes_geAnComplete (page : BitVec 16) (ge : (s.hw.chan c).rate .red = 8) : Completes (.geAnComplete c true page) s fun t =>
    fieldOf (t.chReg c 0x4004) 31 16 = page.toNat ∧ bitOf (t.chReg c 0x4004) 15 = true ∧ bitOf (t.chReg c 0x4008) 21 = true
    ∧ ((t.chan c).lane .red).def_ 2 = decide (page &&& 0x3000#16 ≠ 0) ∧ t.Local s.hw c := by
  refine .byOnActiveW c (·.autoNeg c true page) rfl works active ?_
  generalize wordIs : withField (withField (s.hw.chReg c 0x4004) 31 16 page.toNat) 15 15 1 = w
  generalize setIs : (s.hw.setChReg c 0x4004 w).onLane c .red (fun l => l.setDef 2 (decide (page &&& 0x3000#16 ≠ 0))) = u
  have out : s.hw.autoNeg c true page = (u.laneSync s.hw c .red).evRcl c 0x00200000 := by
    rw [← setIs, ← wordIs]
    exact if_neg (not_not_intro ge)
  rw [out]
  have follows := u.laneSync_follows s.hw c .red
  have raises : ((u.laneSync s.hw c .red).chan c).raises = true := by
    rw [follows.raises, ← setIs, Hw.onLane_chan, if_pos rfl, Chan.setLane_raises, Hw.setChReg_chan, if_pos rfl, Chan.setReg_raises]
    exact raises_of_active active
  have flag : bitOf (0x00200000 : Word) 21 = true := by decide
  have word : u.chReg c 0x4004 = w := by
    rw [← setIs, Hw.chReg, Hw.onLane_chan, if_pos rfl, Chan.setLane_reg, Hw.setChReg_chan, if_pos rfl, Chan.reg_setReg_self]
  have shown : (((u.laneSync s.hw c .red).evRcl c 0x00200000).settle s.hw [c]).chReg c 0x4004 = w := by
    rw [Hw.chReg, Hw.settle_chan_reg]
    refine (Hw.chEvent_chReg raises _ _ _ _).trans ((if_neg (by omega)).trans ?_)
    rw [follows.reg _ (by omega) (by omega) (by omega), word]
  refine ⟨?_, ?_, ?_, ?_, (Hw.settle_local _ _ c).trans ((Hw.chEvent_local _ c _ _ _).trans (follows.here.trans ?_))⟩
  · rw [shown, ← wordIs, fieldOf_withField_apart _ _ (by omega) (by omega), fieldOf_withField_self _ (by omega) page.isLt]
  · rw [shown, ← wordIs, bitOf_withField _ _ _ _ (by omega), if_pos (by omega)]
    rfl
  · rw [Hw.chReg, Hw.settle_chan_reg]
    refine (congrArg (fun w => bitOf w 21) (Hw.chEvent_chReg raises _ _ _ _)).trans ?_
    rw [if_pos rfl, bitOf_evWord _ _ (by omega), flag, Bool.or_true]
  · rw [Hw.settle_chan_lane, Hw.evRcl, Hw.chEvent_chan_on _ _ _ _ _ raises, if_pos rfl, Chan.setReg_lane, follows.lane, ← setIs, Hw.onLane_lane]
    exact LaneSt.def_setDef _ (by omega) _ 2
  · rw [← setIs]
    exact (Hw.onChan_local _ c _).trans (s.hw.setChReg_local c _ _)

/-- A scan that starts is BUSY, with its results cleared. -/
theorem completes_eyeScanStart {d : Word} (reach : s.hw.reaches .isund = true) (idle : bitOf (s.hw.chReg c 0x10C8) 31 = false) (go : bitOf d 31 = true) :
    Completes (.eyeScanStart .isund c d) s fun t =>
      bitOf (t.chReg c 0x10C8) 31 = true ∧ bitOf (t.chReg c 0x10C8) 30 = false ∧ (∀ k < 64, t.chReg c (0x1100 + 4 * k) = 0) ∧ t.Local s.hw c := by
  refine .byLive (fun h => eyeWrite h .isund c d) rfl works ?_
  obtain ⟨r, listed, noRd, mask⟩ := findReg_eye
  have fields := chFields_isund listed noRd reach active d
  rw [mask] at fields
  generalize wordIs : (s.hw.chReg c 0x10C4 &&& ~~~ 0xB0FFFFFF) ||| (d &&& 0xB0FFFFFF) = w at fields
  have set : bitOf w 31 = true := by
    have open_ : bitOf (0xB0FFFFFF : Word) 31 = true := by decide
    rw [← wordIs, bitOf_masked _ _ _ (by omega), open_, if_pos rfl, go]
  generalize putIs : (s.hw.setChReg c 0x10C4 w).bmx (Master.id .isund) 0 = u at fields
  have chan : u.chan c = (s.hw.chan c).setReg 0x10C4 w := by rw [← putIs, Hw.bmx_chan, Hw.setChReg_chan, if_pos rfl]
  have put : u.chReg c 0x10C4 = w := by rw [Hw.chReg, chan, Chan.reg_setReg_self]
  have here : u.Local s.hw c := by rw [← putIs]; exact (Hw.bmx_local _ _ _ c).trans (s.hw.setChReg_local c _ _)
  generalize laneIs : (if fieldOf w 29 28 = 3 then 0 else fieldOf w 29 28) = lane
  have small : lane ≤ 2 := by
    have : fieldOf w 29 28 < 4 := Nat.mod_lt _ (by omega)
    rw [← laneIs]
    split <;> omega
  have out : eyeWrite s.hw .isund c d
      = (u.onChan c Chan.eyeClear).setChReg c 0x10C8 (BitVec.ofNat 32 (2 ^ 31 + lane * 2 ^ 28 + fieldOf w 23 16 * 2 ^ 16)) := by
    unfold eyeWrite
    simp only [idle, fields, put, set, Bool.false_and, Bool.false_eq_true, if_false, if_true, laneIs]
  rw [out]
  have scan : fieldOf w 23 16 < 256 := Nat.mod_lt _ (by omega)
  have stat : ((u.onChan c Chan.eyeClear).setChReg c 0x10C8 (BitVec.ofNat 32 (2 ^ 31 + lane * 2 ^ 28 + fieldOf w 23 16 * 2 ^ 16))).chReg c 0x10C8
      = BitVec.ofNat 32 (2 ^ 31 + lane * 2 ^ 28 + fieldOf w 23 16 * 2 ^ 16) := by rw [Hw.chReg_setChReg, if_pos ⟨rfl, rfl⟩]
  refine ⟨?_, ?_, fun k k_in => ?_, (Hw.setChReg_local _ c _ _).trans ((u.onChan_local c _).trans here)⟩
  · rw [stat, bitOf, BitVec.getLsbD_ofNat, Nat.testBit_eq_decide_div_mod_eq, decide_eq_true (by omega : 31 < 32), Bool.true_and, decide_eq_true_eq]
    omega
  · rw [stat, bitOf, BitVec.getLsbD_ofNat, Nat.testBit_eq_decide_div_mod_eq, decide_eq_true (by omega : 30 < 32), Bool.true_and, decide_eq_false_iff_not]
    omega
  · rw [Hw.chReg_setChReg, if_neg (by omega), Hw.chReg, Hw.onChan_chan, if_pos rfl, Chan.eyeClear_reg, if_pos ⟨k, List.mem_range.2 k_in, rfl⟩]

/-- A scan that ends has its results, and is VALID unless the lane entered LOS. -/
theorem completes_eyeScanDone (res : List (BitVec 16)) (los : Bool) (busy : bitOf (s.hw.chReg c 0x10C8) 31 = true) :
    Completes (.eyeScanDone c res los) s fun t =>
      bitOf (t.chReg c 0x10C8) 31 = false ∧ bitOf (t.chReg c 0x10C8) 30 = !los ∧ bitOf (t.chReg c 0x10C4) 31 = false
      ∧ (∀ k < 64, k < res.length → t.chReg c (0x1100 + 4 * k) = (res.getD k 0).zeroExtend 32)
      ∧ (∀ d, d ≠ c → t.chan d = s.hw.chan d) ∧ t.dev = s.hw.dev := by
  refine .byOnLanes c (·.eyeEnd c res los) rfl works (.inl active) ?_
  have out : s.hw.eyeEnd c res los = s.hw.onChan c fun x => ((x.eyeResults res).setReg 0x10C4 (withField ((x.eyeResults res).reg 0x10C4) 31 31 0)).setReg 0x10C8
      (withField ((x.eyeResults res).reg 0x10C8) 31 30 (b2n !los)) := if_neg (by rw [busy]; decide)
  rw [out]
  have chan : ((s.hw.onChan c fun x => ((x.eyeResults res).setReg 0x10C4 (withField ((x.eyeResults res).reg 0x10C4) 31 31 0)).setReg 0x10C8
      (withField ((x.eyeResults res).reg 0x10C8) 31 30 (b2n !los))).chan c) = (((s.hw.chan c).eyeResults res).setReg 0x10C4
        (withField (((s.hw.chan c).eyeResults res).reg 0x10C4) 31 31 0)).setReg 0x10C8 (withField (((s.hw.chan c).eyeResults res).reg 0x10C8) 31 30 (b2n !los)) :=
    (Hw.onChan_chan _ _ _ _).trans (if_pos rfl)
  refine ⟨?_, ?_, ?_, fun k small held => ?_, fun d other => (Hw.onChan_chan _ _ _ _).trans (if_neg other), rfl⟩
  · rw [Hw.chReg, chan, Chan.reg_setReg_self, bitOf_withField _ _ _ _ (by omega), if_pos (by omega)]
    cases los <;> rfl
  · rw [Hw.chReg, chan, Chan.reg_setReg_self, bitOf_withField _ _ _ _ (by omega), if_pos (by omega)]
    cases los <;> rfl
  · rw [Hw.chReg, chan, Chan.reg_setReg, if_neg (by omega), Chan.reg_setReg_self, bitOf_withField _ _ _ _ (by omega), if_pos (by omega)]
    rfl
  · rw [Hw.chReg, chan, Chan.reg_setReg, if_neg (by omega), Chan.reg_setReg, if_neg (by omega)]
    exact Chan.eyeResults_reg res small 0 _ (by omega) (by omega)

end

/-- Settles O27: the settings that a write of CHn.PRT_PRBS_p leaves, the lane queues' flags and messages, auto-negotiation, and the eye scan. -/
theorem prbsQueuesAndEye : Obligations.PrbsQueuesAndEye := by
  unfold Obligations.PrbsQueuesAndEye
  refine ⟨fun s c p works active => ?_, fun s c works active => ⟨fun page ge => completes_geAnComplete works active page ge,
    fun d reach idle go => completes_eyeScanStart works active reach idle go, fun res los busy => completes_eyeScanDone works active res los busy⟩⟩
  intro l
  have port : prbsReg p < 0x2300 := by cases p <;> decide
  refine ⟨fun d reach => ?_, fun on => ?_, fun e n sync => ?_, fun q => ?_, ?_⟩
  · refine .byLive (fun h => prbsWrite h .isund c p d) rfl works ?_
    obtain ⟨sync, step, lost⟩ := Hw.prbsWrite_shows (p := p) reach active d
    have word : (prbsWrite s.hw .isund c p d).chReg c (prbsReg p) = withField (s.hw.prbsTaken c p d) 6 6 0 := by
      rw [step.low _ port, Hw.chReg, Hw.prbsPut_chan, Chan.reg_setReg_self]
    have low : fieldOf (withField (s.hw.prbsTaken c p d) 6 6 0) 5 0 = fieldOf (s.hw.prbsTaken c p d) 5 0 :=
      fieldOf_withField_apart _ _ (by omega) (by omega)
    refine ⟨?_, ?_, fun changed => ?_, ?_, step.here.trans (s.hw.prbsPut_local c p d)⟩
    · rw [word, Hw.prbsTaken_set]
    · rw [word, bitOf_withField _ _ _ _ (by omega), if_pos (by omega)]
      rfl
    · rw [step.lane]
      rw [word, prbsSet_congr low] at changed
      exact lost changed
    · rw [step.lane, word, genOn_congr low]
  · refine .byOnLanes c (·.prbsGain c p) rfl works (.inl active) ?_
    have out : s.hw.prbsGain c p = (s.hw.onLane c p fun l => { l with chkSync := true }).lneSync s.hw c p := if_pos on
    rw [out]
    have follows := (s.hw.onLane c p fun l => { l with chkSync := true }).lneSync_follows s.hw c p
    exact ⟨by rw [follows.lane, Hw.onLane_lane], follows.here.trans (s.hw.onChan_local c _)⟩
  · refine .byOnLanes c (·.prbsLoss c p e n) rfl works (.inl active) ?_
    have out : s.hw.prbsLoss c p e n = (((s.hw.onLane c p fun l => { l with chkSync := false }).count c 0x14 (2 * p.num) e).count c 0x14
        (2 * p.num + 1) n).lneSync s.hw c p := if_pos sync
    rw [out]
    generalize counted : ((s.hw.onLane c p fun l => { l with chkSync := false }).count c 0x14 (2 * p.num) e).count c 0x14 (2 * p.num + 1) n = u
    have chan : u.chan c = (((s.hw.chan c).setLane p { l with chkSync := false }).count 0x14 (2 * p.num) e).count 0x14 (2 * p.num + 1) n := by
      rw [← counted]
      simp [l]
    have here : u.Local s.hw c := by
      rw [← counted]
      exact (Hw.onChan_local _ c _).trans ((Hw.onChan_local _ c _).trans (s.hw.onChan_local c _))
    have follows := u.lneSync_follows s.hw c p
    have apart : ctrKey 0x14 (2 * p.num) ≠ ctrKey 0x14 (2 * p.num + 1) := by cases p <;> decide
    refine ⟨?_, ?_, ?_, follows.here.trans here⟩
    · rw [follows.lane, chan, Chan.count_lane, Chan.count_lane, Chan.setLane_lane, if_pos rfl]
    · rw [follows.ctr, chan, Chan.count_ctr, if_neg apart, Chan.count_ctr, if_pos rfl, Chan.setLane_ctr]
    · rw [follows.ctr, chan, Chan.count_ctr, if_pos rfl, Chan.count_ctr, if_neg apart.symm, Chan.setLane_ctr]
  · refine .byOnActive c (fun h => (h.wmEvent c q.val 0x00200000).raiseChan c 6 clsH 0x31 q.val) rfl works active ?_
    exact Hw.wmRaised_shows works active (by omega) (by decide)
  · refine .byOnActive c (fun h => (h.wmEvent c (3 + p.num) 0x00400000).raiseChan c 6 clsH 0x32 p.num) rfl works active ?_
    exact Hw.wmRaised_shows works active (by omega) (by decide)

end Sys2Proof.Machine
end

section
/-!
PROOF. The table port (O28): who may claim it, and what its operations put where.
-/
namespace Sys2Proof.Machine

/-! ## What follows an operation of the port -/

/-- Beside path conditions, CHn.MAP_EVT and what the matrix notes, the channel stands as it was, and nothing beyond it has changed. -/
structure Hw.PortKeeps (t h : Hw) (c : ChanId) : Prop where
  here : t.Local h c
  circ : (t.chan c).circ = (h.chan c).circ
  map : (t.chan c).map = (h.chan c).map
  reg : ∀ off, off ≠ 0x3008 → t.chReg c off = h.chReg c off

section
variable {t u h : Hw} {c : ChanId}

theorem Hw.PortKeeps.refl (h : Hw) (c : ChanId) : h.PortKeeps h c := ⟨.refl h c, rfl, rfl, fun _ _ => rfl⟩

theorem Hw.PortKeeps.trans (a : t.PortKeeps u c) (b : u.PortKeeps h c) : t.PortKeeps h c :=
  ⟨a.here.trans b.here, a.circ.trans b.circ, a.map.trans b.map, fun off n => (a.reg off n).trans (b.reg off n)⟩

theorem Hw.PortKeeps.ite {q : Prop} [Decidable q] (a : t.PortKeeps h c) (b : u.PortKeeps h c) : (if q then t else u).PortKeeps h c := by
  split <;> assumption

theorem Hw.PortKeeps.circ! (a : t.PortKeeps h c) (k : CircId) : (t.chan c).circ! k = (h.chan c).circ! k := by
  rw [Chan.circ!, a.circ, Chan.circ!]

theorem Hw.onCirc_local (h : Hw) (c : ChanId) (k : CircId) (f : Circ → Circ) : (h.onCirc c k f).Local h c := h.onChan_local c _

theorem Hw.pswInputs_port (h : Hw) (c : ChanId) : (h.pswInputs c).PortKeeps h c := by
  refine .ite ⟨h.onChan_local c _, ?_, ?_, fun off _ => ?_⟩ (.refl h c)
  · rw [Hw.onChan_chan, if_pos rfl]
  · rw [Hw.onChan_chan, if_pos rfl]
  · rw [Hw.chReg, Hw.onChan_chan, if_pos rfl]
    rfl

theorem Hw.defSync_port (h h0 : Hw) (c : ChanId) : (h.defSync h0 c).PortKeeps h c := by
  refine .ite ⟨h.chEvent_local c _ _ _, by simp [Hw.evMap], by simp [Hw.evMap], fun off n => ?_⟩ (.refl h c)
  by_cases raises : (h.chan c).raises = true
  · rw [Hw.evMap, Hw.chEvent_chReg raises, if_neg n]
  · rw [Hw.evMap, Hw.chEvent, if_neg raises]

theorem Hw.settle_port (h h0 : Hw) (c : ChanId) : (h.settle h0 [c]).PortKeeps h c :=
  ⟨h.settle_local h0 c, by simp, by simp, fun off _ => by simp [Hw.chReg]⟩

end

/-! ## Who may operate the port -/

theorem Hw.lacks_of_tpCode {h : Hw} {m : Master} (may : tpCode m ≠ 0) : h.lacks m .guarded = false := by
  cases m <;> simp_all [Hw.lacks, tpCode]

section
variable {h : Hw} {m : Master} {c : ChanId}

/-- The owner's write of a port register reaches it while no operation is under way. -/
theorem tpBeat_owner {off : Nat} {f : Hw → Hw} (reach : h.reaches m = true) (may : tpCode m ≠ 0) (active : (h.chan c).st = .active)
    (idle : (h.chan c).map.tpOp = none) (owner : (h.chan c).map.tpOwner = tpCode m) : tpBeat h m c off f = f (h.bmx m.id 0) := by
  have own : ¬ (tpCode m = 0 ∨ (h.chan c).map.tpOwner ≠ tpCode m) := fun bad => bad.elim may fun n => n owner
  rw [tpBeat, chBeat_active reach (Hw.lacks_of_tpCode may) active]
  dsimp only
  rw [Hw.bmx_chan, if_neg own, if_neg own, idle]
  rfl

/-- The hardware in which the owner's operation starts: CTL written, TP_BUSY's flag gone. -/
def Hw.tpReady (h : Hw) (m : Master) (c : ChanId) (ctl : Word) : Hw :=
  ((h.bmx m.id 0).setChReg c 0x3018 (ctl &&& 0x0000001B)).onChan c fun x => { x with map := { x.map with tpBusy := false } }

theorem tpCtl_go {ctl : Word} (reach : h.reaches m = true) (may : tpCode m ≠ 0) (active : (h.chan c).st = .active)
    (idle : (h.chan c).map.tpOp = none) (owner : (h.chan c).map.tpOwner = tpCode m) (go : bitOf ctl 0 = true) :
    tpCtl h m c ctl = (h.tpReady m c ctl).tpRun m c 0x3018 (bitOf ctl 1) :=
  (tpBeat_owner reach may active idle owner).trans (if_pos go)

theorem Hw.tpReady_chan (h : Hw) (m : Master) (c : ChanId) (ctl : Word) : (h.tpReady m c ctl).chan c =
    { (h.chan c).setReg 0x3018 (ctl &&& 0x0000001B) with map := { (h.chan c).map with tpBusy := false } } := by
  simp [Hw.tpReady, Chan.setReg]

theorem Hw.tpReady_local (h : Hw) (m : Master) (c : ChanId) (ctl : Word) : (h.tpReady m c ctl).Local h c :=
  (Hw.onChan_local _ c _).trans ((Hw.setChReg_local _ c _ _).trans (h.bmx_local _ _ c))

theorem Hw.tpReady_reg (h : Hw) (m : Master) (c : ChanId) (ctl : Word) {off : Nat} (n : off ≠ 0x3018) :
    (h.tpReady m c ctl).chReg c off = h.chReg c off := by
  rw [Hw.chReg, Hw.tpReady_chan]
  exact (Chan.reg_setReg _ _ _ _).trans (if_neg n)

end

/-! ## An operation -/

/-- What the port notes of an operation that has started. -/
def TpDone.noted (d : TpDone) (c : ChanId) : Hw :=
  d.hw.onChan c fun x => { x with map := { x.map with tpOp := some d.op, tpNext := BitVec.ofNat 8 d.result } }

section
variable {h : Hw} {m : Master} {c : ChanId} {off : Nat}

/-- The addressed table of the port. -/
def Hw.tpTable (h : Hw) (c : ChanId) : Nat := fieldOf (h.chReg c 0x3014) 31 30

/-- The addressed entry of the port. -/
def Hw.tpIndex (h : Hw) (c : ChanId) : Nat := fieldOf (h.chReg c 0x3014) 16 0

/-- Beside what the port notes and what follows, an operation does what it addresses. -/
theorem Hw.tpRun_does {write : Bool} {d : TpDone} (within : h.tpIndex c ≤ tpLast (h.tpTable c))
    (does : (if !write then { hw := h.onChan c fun x => x.tpFetch (h.tpTable c) (h.tpIndex c), result := 0, op := .read }
      else if h.tpTable c = 0 then h.circWrite m c off (BitVec.ofNat 13 (h.tpIndex c))
      else if h.tpTable c = 3 then { hw := h, result := rCfgRej, op := .write }
      else h.slotWrite m c off (decide (h.tpTable c = 2)) (h.tpIndex c)) = d) :
    (h.tpRun m c off write).PortKeeps (d.noted c) c := by
  unfold Hw.tpRun
  extract_lets a t i d' h'
  have done : d' = d := (if_neg (Nat.not_lt.mpr within)).trans does
  rw [← done]
  exact (Hw.defSync_port (h'.pswInputs c) h c).trans (h'.pswInputs_port c)

theorem TpDone.noted_local (d : TpDone) (c : ChanId) : (d.noted c).Local d.hw c := d.hw.onChan_local c _

theorem TpDone.noted_chan (d : TpDone) (c : ChanId) : (d.noted c).chan c =
    { d.hw.chan c with map := { (d.hw.chan c).map with tpOp := some d.op, tpNext := BitVec.ofNat 8 d.result } } := by
  simp [TpDone.noted]

theorem TpDone.noted_circ (d : TpDone) (c : ChanId) : ((d.noted c).chan c).circ = (d.hw.chan c).circ := by rw [TpDone.noted_chan]

theorem TpDone.noted_reg (d : TpDone) (c : ChanId) (off : Nat) : (d.noted c).chReg c off = d.hw.chReg c off := by
  rw [Hw.chReg, TpDone.noted_chan]
  rfl

theorem TpDone.noted_map (d : TpDone) (c : ChanId) :
    ((d.noted c).chan c).map = { (d.hw.chan c).map with tpOp := some d.op, tpNext := BitVec.ofNat 8 d.result } := by
  rw [TpDone.noted_chan]

end

/-! ## A read -/

theorem Chan.kindOf_setReg (x : Chan) {off : Nat} (n : off ≠ 0x4000) (w : Word) (y : Circ) : (x.setReg off w).kindOf y = x.kindOf y := by
  rw [Chan.kindOf, Chan.geMax, Chan.reg_setReg, if_neg n.symm, Chan.kindOf, Chan.geMax]

/-- The data registers take the four words of a circuit's entry. -/
theorem Chan.tpFetch_word (x : Chan) (i : Nat) {j : Nat} (four : j < 4) :
    (x.tpFetch 0 i).reg (0x3020 + 4 * j) = x.circWord (tget {} x.circ i) j := by
  rw [Chan.tpFetch, if_pos rfl]
  have cases : j = 0 ∨ j = 1 ∨ j = 2 ∨ j = 3 := by omega
  rcases cases with rfl | rfl | rfl | rfl <;> simp [List.range_succ, Chan.reg_setReg]

theorem Chan.tpFetch_circ (x : Chan) (i : Nat) : (x.tpFetch 0 i).circ = x.circ := by
  rw [Chan.tpFetch, if_pos rfl]
  rfl

/-- A read of a circuit's entry, done. -/
def Hw.readDone (h : Hw) (c : ChanId) (i : Nat) : TpDone := { hw := h.onChan c fun x => x.tpFetch 0 i, result := 0, op := .read }

theorem Hw.readDone_local (h : Hw) (c : ChanId) (i : Nat) : (h.readDone c i).hw.Local h c := h.onChan_local c (·.tpFetch 0 i)

theorem Hw.readDone_chan (h : Hw) (c : ChanId) (i : Nat) : (h.readDone c i).hw.chan c = (h.chan c).tpFetch 0 i :=
  (Hw.onChan_chan _ _ _ _).trans (if_pos rfl)

theorem Chan.circWord_congr {x z : Chan} {y : Circ} (same : x.kindOf y = z.kindOf y) (j : Nat) : x.circWord y j = z.circWord y j := by
  unfold Chan.circWord
  split
  · rfl
  · rfl
  · rfl
  · rw [same]

/-! ## A write -/

section
variable {h : Hw} {m : Master} {c : ChanId} {off : Nat}

/-- The entry that the port's data registers hold, in a circuit's place. -/
def Circ.entered (y : Circ) (x : Chan) : Circ :=
  { y with w0 := x.tpD 0 &&& circMask 0, w1 := x.tpD 1 &&& circMask 1, w2 := x.tpD 2 &&& circMask 2, w3 := x.tpD 3 &&& circMask 3 }

/-- A write of a circuit's entry, done. -/
def Hw.circDone (h : Hw) (c : ChanId) (k : CircId) : TpDone := { hw := h.onCirc c k (·.entered (h.chan c)), result := 0, op := .write }

theorem Hw.circDone_local (h : Hw) (c : ChanId) (k : CircId) : (h.circDone c k).hw.Local h c :=
  h.onCirc_local c k (·.entered (h.chan c))

theorem Hw.circDone_circ (h : Hw) (c : ChanId) (k j : CircId) :
    ((h.circDone c k).hw.chan c).circ! j = if j = k then ((h.chan c).circ! k).entered (h.chan c) else (h.chan c).circ! j := by
  rw [Hw.circDone, Hw.onCirc_chan, if_pos rfl, Chan.circ_setCirc]

/-- A circuit out of service takes the words of its entry (R158). -/
theorem Hw.circWrite_plain {k : CircId} (out : ((h.chan c).circ! k).en = false) (plain : bitOf ((h.chan c).tpD 0) 31 = false) :
    h.circWrite m c off k = h.circDone c k := by
  rw [Hw.circWrite, out, plain]
  rfl

/-- A write of an entry of bank B, done. -/
def Hw.slotDone (h : Hw) (c : ChanId) (i : Nat) : TpDone :=
  { hw := h.onChan c fun x => { x with map := { x.map with bankB := tput 0 x.map.bankB i (((h.chan c).tpD 0).truncate 16) } }
    result := 0, op := .write }

theorem Hw.slotDone_local (h : Hw) (c : ChanId) (i : Nat) : (h.slotDone c i).hw.Local h c :=
  h.onChan_local c fun x => { x with map := { x.map with bankB := tput 0 x.map.bankB i (((h.chan c).tpD 0).truncate 16) } }

theorem Hw.slotDone_map (h : Hw) (c : ChanId) (i : Nat) : ((h.slotDone c i).hw.chan c).map =
    { (h.chan c).map with bankB := tput 0 (h.chan c).map.bankB i (((h.chan c).tpD 0).truncate 16) } := by
  rw [Hw.slotDone, Hw.onChan_chan, if_pos rfl]

/-- The shadow bank B takes an entry (R170). -/
theorem Hw.slotWrite_shadow (i : Nat) (enc : (h.chan c).map.enc = false) (dec : (h.chan c).map.dec = false) (free : (h.chan c).map.pending = false) :
    h.slotWrite m c off true i = h.slotDone c i := by
  rw [Hw.slotWrite, enc, dec, free]
  rfl

end

/-! ## O28 -/

section
variable {s : State} {m : Master} {c : ChanId}

/-- A claim or a release of the idle port. -/
theorem exec_tpLock (reach : s.hw.reaches m = true) (may : tpCode m ≠ 0) (active : (s.hw.chan c).st = .active)
    (idle : (s.hw.chan c).map.tpOp = none) :
    ((s.hw.chan c).map.tpOwner = 0 →
      exec (.tpClaim m c) s = .next { s with hw := (s.hw.bmx m.id 0).onChan c fun x => { x with map := { x.map with tpOwner := tpCode m } } })
    ∧ ((s.hw.chan c).map.tpOwner = tpCode m →
      exec (.tpRelease m c) s = .next { s with hw := (s.hw.bmx m.id 0).onChan c fun x => { x with map := { x.map with tpOwner := 0 } } }) := by
  have works := Hw.works_of_reaches reach
  have other : m ≠ .pf1 := fun e => may (by rw [e]; rfl)
  have right := Hw.lacks_of_tpCode (h := s.hw) may
  refine ⟨fun free => (live_on (f := fun h => tpLock h m c true) works).trans (next_congr ?_),
    fun owner => (live_on (f := fun h => tpLock h m c false) works).trans (next_congr ?_)⟩
  · rw [tpLock, if_neg fun bad => other bad.1, chBeat_active reach right active]
    dsimp only
    rw [Hw.bmx_chan, idle, Option.isSome_none, if_neg Bool.false_ne_true, if_pos rfl, if_neg may, if_pos free]
  · dsimp only
    rw [tpLock, if_neg fun bad => other bad.1, chBeat_active reach right active]
    simp [idle, owner]

variable {ctl : Word} (reach : s.hw.reaches m = true) (may : tpCode m ≠ 0) (active : (s.hw.chan c).st = .active)
  (idle : (s.hw.chan c).map.tpOp = none) (owner : (s.hw.chan c).map.tpOwner = tpCode m) (go : bitOf ctl 0 = true)
include reach may active idle owner

/-- What a port operation leaves, where it is under CTL's GO. -/
theorem Completes.byPort {P : Hw → Prop} {i : Instr} {d : TpDone} (go : bitOf ctl 0 = true) (is : exec i s = watched s c fun h => tpCtl h m c ctl)
    (within : s.hw.tpIndex c ≤ tpLast (s.hw.tpTable c))
    (does : (if !bitOf ctl 1 then
        { hw := (s.hw.tpReady m c ctl).onChan c fun x => x.tpFetch (s.hw.tpTable c) (s.hw.tpIndex c), result := 0, op := .read }
      else if s.hw.tpTable c = 0 then (s.hw.tpReady m c ctl).circWrite m c 0x3018 (BitVec.ofNat 13 (s.hw.tpIndex c))
      else if s.hw.tpTable c = 3 then { hw := s.hw.tpReady m c ctl, result := rCfgRej, op := .write }
      else (s.hw.tpReady m c ctl).slotWrite m c 0x3018 (decide (s.hw.tpTable c = 2)) (s.hw.tpIndex c)) = d)
    (then_ : ∀ t : Hw, t.PortKeeps (d.noted c) c → P t) : Completes i s P := by
  have table : (s.hw.tpReady m c ctl).tpTable c = s.hw.tpTable c := by rw [Hw.tpTable, Hw.tpReady_reg _ _ _ _ (by omega), Hw.tpTable]
  have index : (s.hw.tpReady m c ctl).tpIndex c = s.hw.tpIndex c := by rw [Hw.tpIndex, Hw.tpReady_reg _ _ _ _ (by omega), Hw.tpIndex]
  rw [← table, ← index] at within does
  refine .byWatched c (fun h => tpCtl h m c ctl) is (Hw.works_of_reaches reach) (then_ _ ?_)
  rw [tpCtl_go reach may active idle owner go]
  exact (Hw.settle_port _ _ c).trans (Hw.tpRun_does within does)

theorem completes_tpRead (go : bitOf ctl 0 = true) (reads : bitOf ctl 1 = false) (table : s.hw.tpTable c = 0) (entry : s.hw.tpIndex c < 8192) :
    Completes (.tpRead m c ctl) s fun t =>
      (∀ j < 4, t.chReg c (0x3020 + 4 * j) = (s.hw.chan c).circWord ((s.hw.chan c).circ! (BitVec.ofNat 13 (s.hw.tpIndex c))) j)
      ∧ (t.chan c).map.tpOp = some .read ∧ (t.chan c).map.tpNext = 0 ∧ (t.chan c).circ = (s.hw.chan c).circ ∧ t.Local s.hw c := by
  have number : (BitVec.ofNat 13 (s.hw.tpIndex c)).toNat = s.hw.tpIndex c := Nat.mod_eq_of_lt entry
  have done := (s.hw.tpReady m c ctl).readDone_chan c (s.hw.tpIndex c)
  have here := ((s.hw.tpReady m c ctl).readDone_local c (s.hw.tpIndex c)).trans (s.hw.tpReady_local m c ctl)
  refine .byPort (d := (s.hw.tpReady m c ctl).readDone c (s.hw.tpIndex c)) reach may active idle owner go rfl
    (by rw [table]; exact Nat.le_of_lt_succ entry) ((if_pos (by rw [reads]; rfl)).trans (by rw [table]; rfl)) fun t keeps => ?_
  refine ⟨fun j four => ?_, by rw [keeps.map, TpDone.noted_map]; rfl, by rw [keeps.map, TpDone.noted_map]; rfl, ?_,
    keeps.here.trans ((TpDone.noted_local _ c).trans here)⟩
  · rw [keeps.reg _ (by omega), TpDone.noted_reg, Hw.chReg, done, Chan.tpFetch_word _ _ four, Chan.circ!, number, Hw.tpReady_chan]
    exact Chan.circWord_congr (Chan.kindOf_setReg _ (by omega) _ _) j
  · rw [keeps.circ, TpDone.noted_circ, done, Chan.tpFetch_circ, Hw.tpReady_chan]
    rfl

theorem completes_tpWrite_circ (go : bitOf ctl 0 = true) (writes : bitOf ctl 1 = true) (table : s.hw.tpTable c = 0) (entry : s.hw.tpIndex c < 8192)
    {k : CircId} (number : k = BitVec.ofNat 13 (s.hw.tpIndex c)) (out : ((s.hw.chan c).circ! k).en = false)
    (plain : bitOf ((s.hw.chan c).tpD 0) 31 = false) :
    Completes (.tpWrite m c (.go ctl)) s fun t =>
      (t.chan c).circ! k = ((s.hw.chan c).circ! k).entered (s.hw.chan c)
      ∧ (∀ j, j ≠ k → (t.chan c).circ! j = (s.hw.chan c).circ! j)
      ∧ (t.chan c).map.tpOp = some .write ∧ (t.chan c).map.tpNext = 0 ∧ t.Local s.hw c := by
  have data (j : Nat) (four : j < 4) : ((s.hw.tpReady m c ctl).chan c).tpD j = (s.hw.chan c).tpD j := s.hw.tpReady_reg m c ctl (by omega)
  have same (j : CircId) : ((s.hw.tpReady m c ctl).chan c).circ! j = (s.hw.chan c).circ! j := by
    rw [Hw.tpReady_chan]
    rfl
  have entered (y : Circ) : y.entered ((s.hw.tpReady m c ctl).chan c) = y.entered (s.hw.chan c) := by
    rw [Circ.entered, data 0 (by omega), data 1 (by omega), data 2 (by omega), data 3 (by omega), Circ.entered]
  have here := ((s.hw.tpReady m c ctl).circDone_local c k).trans (s.hw.tpReady_local m c ctl)
  refine .byPort (d := (s.hw.tpReady m c ctl).circDone c k) reach may active idle owner go rfl (by rw [table]; exact Nat.le_of_lt_succ entry)
    ((if_neg (by rw [writes]; decide)).trans ((if_pos table).trans (by
      rw [← number]
      exact Hw.circWrite_plain (by rw [same]; exact out) (by rw [data 0 (by omega)]; exact plain)))) fun t keeps => ?_
  have wrote (j : CircId) : (t.chan c).circ! j = if j = k then ((s.hw.chan c).circ! k).entered (s.hw.chan c) else (s.hw.chan c).circ! j := by
    rw [keeps.circ!, Chan.circ!, TpDone.noted_circ, ← Chan.circ!, Hw.circDone_circ, entered, same, same]
  exact ⟨(wrote k).trans (if_pos rfl), fun j ne => (wrote j).trans (if_neg ne), by rw [keeps.map, TpDone.noted_map]; rfl,
    by rw [keeps.map, TpDone.noted_map]; rfl, keeps.here.trans ((TpDone.noted_local _ c).trans here)⟩

theorem completes_tpWrite_slot {d0 : Word} (trig : bitOf (s.hw.chReg c 0x3018) 4 = true) (table : s.hw.tpTable c = 2)
    (entry : s.hw.tpIndex c < 129024) (enc : (s.hw.chan c).map.enc = false) (dec : (s.hw.chan c).map.dec = false)
    (free : (s.hw.chan c).map.pending = false) :
    Completes (.tpWrite m c (.trig d0)) s fun t =>
      (t.chan c).slot true (s.hw.tpIndex c) = d0.truncate 16
      ∧ (∀ i, i ≠ s.hw.tpIndex c → (t.chan c).slot true i = (s.hw.chan c).slot true i)
      ∧ (t.chan c).map.bankA = (s.hw.chan c).map.bankA ∧ (t.chan c).map.tpOp = some .write ∧ (t.chan c).map.tpNext = 0 ∧ t.Local s.hw c := by
  let h : Hw := (s.hw.bmx m.id 0).setChReg c 0x3020 d0
  have here : h.Local s.hw c := (Hw.setChReg_local _ c _ _).trans (s.hw.bmx_local _ _ c)
  have map : (h.chan c).map = (s.hw.chan c).map := by simp [h]
  have reg {off : Nat} (n : off ≠ 0x3020) : h.chReg c off = s.hw.chReg c off := by
    rw [Hw.chReg_setChReg, if_neg fun e => n e.2, Hw.bmx_chReg]
  have data : (h.chan c).tpD 0 = d0 := (Hw.chReg_setChReg _ c _ _ c _).trans (if_pos ⟨rfl, rfl⟩)
  have table' : h.tpTable c = 2 := by rw [Hw.tpTable, reg (by omega)]; exact table
  have index' : h.tpIndex c = s.hw.tpIndex c := by rw [Hw.tpIndex, reg (by omega), Hw.tpIndex]
  have runs : tpD0 s.hw m c d0 = h.tpRun m c 0x3020 true := by
    refine (tpBeat_owner reach may active idle owner).trans (if_pos ?_)
    rw [Bool.and_eq_true, decide_eq_true_iff]
    exact ⟨by rw [reg (by omega)]; exact trig, .inr table'⟩
  have does := Hw.tpRun_does (h := h) (d := h.slotDone c (s.hw.tpIndex c)) (m := m) (off := 0x3020) (write := true) (by rw [table', index']; exact Nat.le_of_lt_succ entry)
    ((if_neg (by decide)).trans ((if_neg (by rw [table']; decide)).trans ((if_neg (by rw [table']; decide)).trans (by
      rw [table', index']
      exact Hw.slotWrite_shadow _ (by rw [map]; exact enc) (by rw [map]; exact dec) (by rw [map]; exact free)))))
  refine .byWatched c (fun h => tpD0 h m c d0) rfl (Hw.works_of_reaches reach) ?_
  rw [runs]
  have keeps := (Hw.settle_port (h.tpRun m c 0x3020 true) s.hw c).trans does
  generalize (h.tpRun m c 0x3020 true).settle s.hw [c] = t at keeps
  have bank : (t.chan c).map = { (s.hw.chan c).map with
      bankB := tput 0 (s.hw.chan c).map.bankB (s.hw.tpIndex c) (d0.truncate 16), tpOp := some .write, tpNext := 0 } := by
    rw [keeps.map, TpDone.noted_map, Hw.slotDone_map, data, map]
    rfl
  have slot (i : Nat) : (t.chan c).slot true i = if i = s.hw.tpIndex c then d0.truncate 16 else (s.hw.chan c).slot true i := by
    rw [Chan.slot, Chan.bank, bank]
    exact tget_tput _ _ _ _ _
  exact ⟨(slot _).trans (if_pos rfl), fun i ne => (slot i).trans (if_neg ne), by rw [bank], by rw [bank], by rw [bank],
    keeps.here.trans ((TpDone.noted_local _ c).trans ((h.slotDone_local c _).trans here))⟩

end

/-- Settles O28: an operation of the port is what it addresses and what the port notes of it, beside path conditions and events. -/
theorem tablePortOperates : Obligations.TablePortOperates := by
  intro s m c reach may active idle
  obtain ⟨claim, release⟩ := exec_tpLock reach may active idle
  refine ⟨claim, release, fun ctl owner go reads table entry => completes_tpRead reach may active idle owner go reads table entry,
    fun ctl owner go writes table entry out plain => completes_tpWrite_circ reach may active idle owner go writes table entry rfl out plain,
    fun d0 owner trig table entry enc dec free => completes_tpWrite_slot reach may active idle owner trig table entry enc dec free⟩

end Sys2Proof.Machine
end

section
/-!
PROOF. Circuits in service (O29): an accepted enable, the end of a port operation, a circuit's start and the end of its drain.
-/
namespace Sys2Proof.Machine

/-! ## The checks of an enable -/

section
variable (x : Chan) {off : Nat} (w : Word)

theorem Chan.rate_setReg {p : Lane} (n : off ≠ laneReg p) : (x.setReg off w).rate p = x.rate p :=
  rate_congr ((x.reg_setReg off w _).trans (if_neg n.symm))

/-- The checks of an enable read the lane's rate, the 1GE bound and DIFF_ALLOW alone of the registers. -/
theorem Chan.enableCheck_setReg (rate : off ≠ laneReg .red) (ge : off ≠ 0x4000) (diff : off ≠ 0x6000) (n : Nat) (y : Circ) :
    (x.setReg off w).enableCheck n y = x.enableCheck n y := by
  have kind := x.kindOf_setReg ge w y
  have speed := x.rate_setReg w (p := .red) rate
  have allow : (x.setReg off w).diffAllow = x.diffAllow := by rw [Chan.diffAllow, Chan.reg_setReg, if_neg diff.symm, Chan.diffAllow]
  simp only [Chan.enableCheck, Chan.admission, Chan.posBad, Chan.delayShort, kind, speed, allow]
  rfl

end

/-! ## An accepted enable -/

/-- A circuit has been taken into service, or is starved of its holds; its entry and its sequence numbers are as before. -/
structure Circ.Begun (z y : Circ) : Prop where
  w0 : z.w0 = y.w0
  odd : z.odd = y.odd
  live : z.live = false
  quar : z.quar = y.quar
  clear : z.clear = y.clear
  anchor : z.anchor = none
  guard : z.starved = false → z.guard = true
  eseqE : z.eseqE = y.eseqE
  eseqO : z.eseqO = y.eseqO

theorem Circ.begin_begun (y : Circ) (n : Nat) : Circ.Begun ({ y with reserved := n }).begin_ y :=
  ⟨rfl, rfl, rfl, rfl, rfl, rfl, fun _ => rfl, rfl, rfl⟩

theorem Circ.begin_paths_begun (y : Circ) (n : Nat) (w p : RxPath) : Circ.Begun { ({ y with reserved := n }).begin_ with w := w, p := p } y :=
  ⟨rfl, rfl, rfl, rfl, rfl, rfl, fun _ => rfl, rfl, rfl⟩

theorem Circ.starved_begun (y : Circ) : Circ.Begun { (y.onPaths RxPath.halt).unanchor with starved := true, live := false, reserved := 0 } y :=
  ⟨rfl, rfl, rfl, rfl, rfl, rfl, fun out => absurd out Bool.noConfusion, rfl, rfl⟩

theorem Hw.reserve_begun (h : Hw) (c : ChanId) (k : CircId) : (((h.reserve c k).chan c).circ! k).Begun ((h.chan c).circ! k) := by
  unfold Hw.reserve
  dsimp only
  split
  · rw [Hw.onCirc_chan, if_pos rfl, Chan.circ_setCirc, if_pos rfl]
    split
    · exact Circ.begin_paths_begun _ _ _ _
    · exact Circ.begin_begun _ _
  · rw [Chan.circ!, Hw.evLat, Hw.chEvent_chan_circ, Hw.raiseChan_chan, ← Chan.circ!, Hw.onCirc_chan, if_pos rfl, Chan.circ_setCirc, if_pos rfl]
    exact Circ.starved_begun _

/-- A circuit's entry as an enable takes it: EN set, its sequence numbers no lower than its context's floors. -/
def Circ.enabled (y : Circ) (z : Ctx) : Circ :=
  { y.setEn true with
    odd := z.txp
    quar := false, clear := false, clearNext := none, aged := false, stopped := false, diffs := [], delta := none, dovf := false,
    eseqE := if y.eseqE < z.floorE then z.floorE else y.eseqE,
    eseqO := if y.eseqO < z.floorO then z.floorO else y.eseqO }

theorem Hw.enable_begun (h : Hw) (c : ChanId) (k : CircId) :
    (((h.enable c k).chan c).circ! k).Begun (((h.chan c).circ! k).enabled ((h.chan c).ctx! ((h.chan c).circ! k).kctx)) := by
  have begun := (h.onCirc c k fun y => y.enabled ((h.chan c).ctx! y.kctx)).reserve_begun c k
  rw [Hw.onCirc_chan, if_pos rfl, Chan.circ_setCirc, if_pos rfl] at begun
  exact begun

theorem Hw.enable_local (h : Hw) (c : ChanId) (k : CircId) : (h.enable c k).Local h c :=
  (Hw.reserve_beside _ c k).here.trans (h.onCirc_local c k _)

theorem Chan.genEnable_circ (x : Chan) (y : Circ) : (x.genEnable y).circ = x.circ :=
  by
  unfold Chan.genEnable
  refine foldl_keeps _ Chan.circ (fun _ _ => ?_) _ x
  rfl

/-- What an enable leaves of the circuit is what it takes into service. -/
theorem Hw.enableCirc_begun (h : Hw) (c : ChanId) (k : CircId) :
    (((h.enableCirc c k).chan c).circ! k).Begun (((h.chan c).circ! k).enabled ((h.chan c).ctx! ((h.chan c).circ! k).kctx)) := by
  have circ : ((h.enableCirc c k).chan c).circ! k = ((h.enable c k).chan c).circ! k := by
    rw [Chan.circ!, Hw.enableCirc, Hw.onChan_chan, if_pos rfl, Chan.genEnable_circ, Chan.circ!]
  rw [circ]
  exact h.enable_begun c k

theorem Hw.enableCirc_local (h : Hw) (c : ChanId) (k : CircId) : (h.enableCirc c k).Local h c :=
  (Hw.onChan_local _ c _).trans (h.enable_local c k)

/-- The words of a stored circuit with EN set enable it, if every check accepts it (R158, R160). -/
theorem Hw.circWrite_enable {h : Hw} {m : Master} {c : ChanId} {off : Nat} {k : CircId} (out : ((h.chan c).circ! k).en = false)
    (sets : bitOf ((h.chan c).tpD 0) 31 = true) (same : (h.chan c).sameEntry ((h.chan c).circ! k) = true)
    (accepted : (h.chan c).enableCheck k.toNat ((h.chan c).circ! k) = none) :
    h.circWrite m c off k = { hw := h.enableCirc c k, result := 0, op := .enable k } := by
  rw [Hw.circWrite]
  dsimp only
  rw [out, sets, same, accepted]
  rfl

theorem Circ.en_enabled (y : Circ) (z : Ctx) : (y.enabled z).en = true := by
  rw [Circ.en, Circ.enabled, Circ.setEn, bitOf_withField _ _ _ _ (by omega), if_pos (by omega)]
  rfl

section
variable {s : State} {m : Master} {c : ChanId} {ctl : Word}

theorem completes_tpWrite_enable (reach : s.hw.reaches m = true) (may : tpCode m ≠ 0) (active : (s.hw.chan c).st = .active)
    (idle : (s.hw.chan c).map.tpOp = none) (owner : (s.hw.chan c).map.tpOwner = tpCode m) (go : bitOf ctl 0 = true) (writes : bitOf ctl 1 = true)
    (table : s.hw.tpTable c = 0) (entry : s.hw.tpIndex c < 8192) {k : CircId} (number : k = BitVec.ofNat 13 (s.hw.tpIndex c))
    (out : ((s.hw.chan c).circ! k).en = false) (sets : bitOf ((s.hw.chan c).tpD 0) 31 = true)
    (same : (s.hw.chan c).sameEntry ((s.hw.chan c).circ! k) = true) (accepted : (s.hw.chan c).enableCheck k.toNat ((s.hw.chan c).circ! k) = none) :
    Completes (.tpWrite m c (.go ctl)) s fun t =>
      ((t.chan c).circ! k).Begun (((s.hw.chan c).circ! k).enabled ((s.hw.chan c).ctx! ((s.hw.chan c).circ! k).kctx))
      ∧ (t.chan c).map.tpOp = some (.enable k) ∧ (t.chan c).map.tpNext = 0 ∧ t.Local s.hw c := by
  have data (j : Nat) (four : j < 4) : ((s.hw.tpReady m c ctl).chan c).tpD j = (s.hw.chan c).tpD j := s.hw.tpReady_reg m c ctl (by omega)
  have circ : ((s.hw.tpReady m c ctl).chan c).circ! k = (s.hw.chan c).circ! k := by rw [Hw.tpReady_chan];rfl
  have ctx (n : Nat) : ((s.hw.tpReady m c ctl).chan c).ctx! n = (s.hw.chan c).ctx! n := by rw [Hw.tpReady_chan]; rfl
  have does : (s.hw.tpReady m c ctl).circWrite m c 0x3018 k = { hw := (s.hw.tpReady m c ctl).enableCirc c k, result := 0, op := .enable k } := by
    refine Hw.circWrite_enable (by rw [circ]; exact out) (by rw [data 0 (by omega)]; exact sets) ?_ ?_
    · rw [circ, Chan.sameEntry, data 0 (by omega), data 1 (by omega), data 2 (by omega), data 3 (by omega)]
      exact same
    · rw [circ, Hw.tpReady_chan]
      exact ((s.hw.chan c).enableCheck_setReg _ (by decide) (by omega) (by omega) _ _).trans accepted
  have begun := (s.hw.tpReady m c ctl).enableCirc_begun c k
  rw [circ, ctx] at begun
  refine .byPort (d := { hw := (s.hw.tpReady m c ctl).enableCirc c k, result := 0, op := .enable k }) reach may active idle owner go rfl
    (by rw [table]; exact Nat.le_of_lt_succ entry)
    ((if_neg (by rw [writes]; decide)).trans ((if_pos table).trans (by rw [← number]; exact does))) fun t keeps => ⟨?_, ?_, ?_, ?_⟩
  · rw [keeps.circ!, Chan.circ!, TpDone.noted_circ]
    exact begun
  · rw [keeps.map, TpDone.noted_map]
  · rw [keeps.map, TpDone.noted_map]
    rfl
  · exact keeps.here.trans ((TpDone.noted_local _ c).trans (((s.hw.tpReady m c ctl).enableCirc_local c k).trans (s.hw.tpReady_local m c ctl)))

end

/-! ## The end of an operation -/

/-- INDEX under AINC (R179). -/
def Chan.tpStepped (x : Chan) : Chan :=
  if bitOf (x.reg 0x3018) 3 then
    x.setReg 0x3014 (withField (x.reg 0x3014) 16 0 (if tpLast (fieldOf (x.reg 0x3014) 31 30) ≤ fieldOf (x.reg 0x3014) 16 0 then 0
      else fieldOf (x.reg 0x3014) 16 0 + 1))
  else x

theorem Chan.tpStepped_map (x : Chan) : x.tpStepped.map = x.map := by unfold Chan.tpStepped; split <;> rfl

theorem Chan.tpEnd_eq {x : Chan} {o : TpOp} (busy : x.map.tpOp = some o) : x.tpEnd =
    { x.tpStepped.setReg 0x3018 (withField (x.tpStepped.reg 0x3018) 0 0 0) with map := { x.map with tpOp := none, tpResult := x.map.tpNext } } := by
  rw [Chan.tpEnd, busy]
  dsimp only
  rw [← Chan.tpStepped, ← x.tpStepped_map]
  rfl

theorem tpLast_le (t : Nat) : tpLast t ≤ 129023 := by unfold tpLast; split <;> [omega; (split <;> omega)]

theorem Chan.tpStepped_next {x : Chan} (ainc : bitOf (x.reg 0x3018) 3 = true)
    (below : fieldOf (x.reg 0x3014) 16 0 < tpLast (fieldOf (x.reg 0x3014) 31 30)) :
    fieldOf (x.tpStepped.reg 0x3014) 16 0 = fieldOf (x.reg 0x3014) 16 0 + 1 := by
  have last := tpLast_le (fieldOf (x.reg 0x3014) 31 30)
  rw [Chan.tpStepped, if_pos ainc, Chan.reg_setReg_self, if_neg (by omega), fieldOf_withField_self _ (by omega) (by omega)]

theorem completes_tpOpDone {s : State} {c : ChanId} {o : TpOp} (works : s.hw.works = true) (busy : (s.hw.chan c).map.tpOp = some o) :
    Completes (.tpOpDone c) s fun t =>
      (t.chan c).map = { (s.hw.chan c).map with tpOp := none, tpResult := (s.hw.chan c).map.tpNext } ∧ bitOf (t.chReg c 0x3018) 0 = false
      ∧ (bitOf (s.hw.chReg c 0x3018) 3 = true → fieldOf (s.hw.chReg c 0x3014) 16 0 < tpLast (fieldOf (s.hw.chReg c 0x3014) 31 30) →
          fieldOf (t.chReg c 0x3014) 16 0 = fieldOf (s.hw.chReg c 0x3014) 16 0 + 1)
      ∧ (bitOf (s.hw.chReg c 0x3018) 3 = false → t.chReg c 0x3014 = s.hw.chReg c 0x3014)
      ∧ (∀ d, d ≠ c → t.chan d = s.hw.chan d) ∧ t.dev = s.hw.dev := by
  have ended : (s.hw.onChan c Chan.tpEnd).chan c = _ := ((Hw.onChan_chan _ _ _ _).trans (if_pos rfl)).trans (Chan.tpEnd_eq busy)
  have addr : (s.hw.onChan c Chan.tpEnd).chReg c 0x3014 = (s.hw.chan c).tpStepped.reg 0x3014 := by
    rw [Hw.chReg, ended]
    exact (Chan.reg_setReg _ _ _ _).trans (if_neg (by omega))
  refine .byLive (·.onChan c Chan.tpEnd) rfl works ⟨by rw [ended], ?_, fun ainc below => ?_, fun still => ?_,
    fun d n => (Hw.onChan_chan _ _ _ _).trans (if_neg n), rfl⟩
  · have ctl : (s.hw.onChan c Chan.tpEnd).chReg c 0x3018 = withField ((s.hw.chan c).tpStepped.reg 0x3018) 0 0 0 := by
      rw [Hw.chReg, ended]
      exact Chan.reg_setReg_self _ _ _
    rw [ctl, bitOf_withField _ _ _ _ (by omega), if_pos (by omega)]
    rfl
  · rw [addr]
    exact Chan.tpStepped_next ainc below
  · rw [addr, Chan.tpStepped, if_neg (by rw [← Hw.chReg, still]; exact Bool.false_ne_true)]
    rfl

/-! ## A circuit's start, and the end of its drain -/

theorem exec_circuitStart {s : State} {c : ChanId} {k : CircId} {frame : Nat} (works : s.hw.works = true)
    (serves : (s.hw.chan c).serves k = true) (waits : ((s.hw.chan c).circ! k).live = false) :
    ((s.hw.chan c).atPhase { (s.hw.chan c).circ! k with phase := (s.hw.chan c).startPhase ((s.hw.chan c).circ! k) frame } frame = true →
      exec (.circuitStart c ⟨k, frame⟩) s = .next { s with hw := s.hw.onCirc c k fun y =>
        { y with live := true, kaLeft := fieldOf ((s.hw.chan c).reg 0x4000) 15 8,
                 phase := (s.hw.chan c).startPhase ((s.hw.chan c).circ! k) frame, switched := false, prevTrailer := [] } })
    ∧ ((s.hw.chan c).atPhase { (s.hw.chan c).circ! k with phase := (s.hw.chan c).startPhase ((s.hw.chan c).circ! k) frame } frame = false →
      exec (.circuitStart c ⟨k, frame⟩) s = .next s) := by
  have active : (s.hw.chan c).st = .active := by
    rw [Chan.serves, Bool.and_eq_true, Bool.and_eq_true, Bool.and_eq_true, Bool.and_eq_true] at serves
    exact of_decide_eq_true serves.1.1.1.1
  have is : exec (.circuitStart c ⟨k, frame⟩) s = .next { s with hw := s.hw.circuitStart c k frame } :=
    onActive_on (f := (·.circuitStart c k frame)) works active
  rw [is, Hw.circuitStart]
  dsimp only
  rw [serves, waits]
  exact ⟨fun at_ => by rw [at_]; rfl, fun off => by rw [off]; rfl⟩

/-- What R150 gives positions that no circuit uses: nothing of a tributary's own, all ones of an ODU, an unequipped VC of zeros. -/
def Circ.unusedOut (y : Circ) (par : Byte) : LineOut :=
  if isFrac y.kind then .none
  else if isWhole y.kind then .line (.bytes (List.replicate (blockFrames y.kind * frameLen y.kind) 0xFF))
  else .line (.bytes (regen y.kind 0 par (zeroBlock y.kind)).1)

section
variable {x : Chan} {n : Nat} {k : CircId}

/-- A span on the black lanes changes the circuit's outputs and its coder's state alone. -/
theorem Chan.emitBlack_own (d : Due) : ∃ o w scr rd par, (x.emitBlack n k d).circ! k =
    { x.circ! k with black := o, blackWas := w, scr := scr, rdB := rd, parB := par } := by
  unfold Chan.emitBlack Chan.putSub
  extract_lets
  repeat' split
  all_goals exact ⟨_, _, _, _, _, (Chan.circ_setCirc _ _ _ _).trans (if_pos rfl)⟩

theorem Chan.emitRed_own (d : RedDue) : ∃ o ge par, (x.emitRed n k d).circ! k = { x.circ! k with red := o, geTx := ge, parR := par } := by
  unfold Chan.emitRed Chan.putSub
  extract_lets y kind put ent pay ect unused
  clear_value pay ect unused
  repeat' split
  all_goals exact ⟨_, _, _, (Chan.circ_setCirc _ _ _ _).trans (if_pos rfl)⟩

variable (plain : isFrac (x.circ! k).kind = true ∨ frameLen (x.circ! k).kind ≠ 0)
include plain

/-- Neither 10GE nor 1GE has a frame. -/
theorem Chan.not_ethernet : (x.circ! k).kind ≠ 0x0D ∧ (x.circ! k).kind ≠ 0x0E := by
  refine ⟨fun e => ?_, fun e => ?_⟩ <;> rw [e] at plain <;> exact absurd plain (by decide)

theorem Chan.emitBlack_unused : ((x.emitBlack n k .unused).circ! k).black = (x.circ! k).unusedOut (x.circ! k).parB := by
  obtain ⟨notXge, notGe⟩ := Chan.not_ethernet plain
  have own (x : Chan) (y : Circ) : (x.setCirc k y).circ! k = y := (Chan.circ_setCirc _ _ _ _).trans (if_pos rfl)
  unfold Chan.emitBlack Circ.unusedOut
  extract_lets y kind put span bits unused mep sub l r r' r'' base r'''
  have is : unused = true := decide_eq_true rfl
  by_cases frac : isFrac kind = true
  · rw [if_pos frac, if_pos frac, if_pos is, own]
    rfl
  · rw [if_neg frac, if_neg frac, if_neg notXge, if_neg notGe]
    by_cases whole : isWhole kind = true
    · rw [if_pos whole, if_pos (by rw [whole, is]; rfl), own]
      exact congrArg (fun l => LineOut.line (.bytes l)) (by rw [zeroBlock, List.map_replicate])
    · rw [if_neg whole, if_neg (by rw [Bool.eq_false_iff.mpr whole]; exact Bool.false_ne_true), if_neg (plain.resolve_left frac), own]
      exact congrArg (fun z => LineOut.line (.bytes (regen kind 0 y.parB z).1)) (if_pos is)

theorem Chan.emitRed_unused : ((x.emitRed n k .unused).circ! k).red = (x.circ! k).unusedOut (x.circ! k).parR := by
  obtain ⟨notXge, notGe⟩ := Chan.not_ethernet plain
  have own (x : Chan) (y : Circ) : (x.setCirc k y).circ! k = y := (Chan.circ_setCirc _ _ _ _).trans (if_pos rfl)
  unfold Chan.emitRed Circ.unusedOut
  extract_lets y kind put ent pay ect unused
  have is : unused = true := decide_eq_true rfl
  by_cases frac : isFrac kind = true
  · rw [if_pos frac, if_pos frac, if_pos is, own]
  · rw [if_neg frac, if_neg frac, if_neg notXge, if_neg notGe]
    by_cases whole : isWhole kind = true
    · rw [if_pos whole, if_pos (by rw [whole]; rfl), own]
      exact congrArg (fun l => LineOut.line (.bytes l)) (by rw [zeroBlock, List.map_replicate])
    · rw [if_neg whole, if_neg (by rw [Bool.eq_false_iff.mpr whole]; exact Bool.false_ne_true), if_neg (plain.resolve_left frac)]
      exact congrArg Circ.red (own _ _)

end

/-- The end of a drain (R162). -/
def Hw.drained (h : Hw) (c : ChanId) (k : CircId) : Hw :=
  (h.onCirc c k fun y => { y with drain := false, enc := [] }).onChan c fun x => { x with store := x.store.filter fun e => e.circ ≠ k }

theorem Hw.drained_chan (h : Hw) (c : ChanId) (k : CircId) : (h.drained c k).chan c =
    { (h.chan c).setCirc k { (h.chan c).circ! k with drain := false, enc := [] } with store := (h.chan c).store.filter fun e => e.circ ≠ k } := by
  rw [Hw.drained, Hw.onChan_chan, if_pos rfl, Hw.onCirc_chan, if_pos rfl]
  rfl

theorem Hw.drained_local (h : Hw) (c : ChanId) (k : CircId) : (h.drained c k).Local h c :=
  (Hw.onChan_local _ c _).trans (h.onCirc_local c k _)

/-- What the end of a drain leaves of a channel: the drained one's positions as nobody's. -/
theorem Hw.drainEnd_chan (h : Hw) (c : ChanId) (k : CircId) :
    (((h.drained c k).emitBlack c k .unused).emitRed c k .unused).chan c =
      (((h.drained c k).chan c).emitBlack k.toNat k .unused).emitRed k.toNat k .unused := by
  rw [Hw.emitRed, Hw.onChan_chan, if_pos rfl, Hw.emitBlack, Hw.onChan_chan, if_pos rfl]
  rfl

/-- The end of a drain gives up the circuit's positions and touches no other circuit. -/
theorem Chan.unused_frame (x : Chan) (n : Nat) (k : CircId) :
    ((x.emitBlack n k .unused).emitRed n k .unused).store = x.store
    ∧ ∀ j, j ≠ k → ((x.emitBlack n k .unused).emitRed n k .unused).circ! j = x.circ! j := by
  obtain ⟨y, m, black⟩ := x.emitBlack_frame n k .unused
  obtain ⟨z, m', r, red⟩ := (x.emitBlack n k .unused).emitRed_frame n k .unused
  rw [red, black]
  exact ⟨rfl, fun j ne => ((Chan.circ_setCirc _ _ _ _).trans (if_neg ne)).trans ((Chan.circ_setCirc _ _ _ _).trans (if_neg ne))⟩

/-- The end of a drain leaves the circuit with nothing under way, and its positions as nobody's. -/
theorem Chan.unused_own (x : Chan) (n : Nat) (k : CircId) :
    let y := ((x.emitBlack n k .unused).emitRed n k .unused).circ! k
    y.drain = (x.circ! k).drain ∧ y.enc = (x.circ! k).enc
    ∧ (isFrac (x.circ! k).kind = true ∨ frameLen (x.circ! k).kind ≠ 0 →
        y.black = (x.circ! k).unusedOut (x.circ! k).parB ∧ y.red = (x.circ! k).unusedOut (x.circ! k).parR) := by
  obtain ⟨o, w, scr, rd, par, black⟩ := x.emitBlack_own (n := n) (k := k) .unused
  obtain ⟨o', ge, par', red⟩ := (x.emitBlack n k .unused).emitRed_own (n := n) (k := k) .unused
  refine ⟨by rw [red, black], by rw [red, black], fun plain => ⟨?_, ?_⟩⟩
  · rw [red]
    exact x.emitBlack_unused plain
  · have kind : ((x.emitBlack n k .unused).circ! k).kind = (x.circ! k).kind := by rw [black]; rfl
    have rest : ((x.emitBlack n k .unused).circ! k).parR = (x.circ! k).parR := by rw [black]
    have out := (x.emitBlack n k .unused).emitRed_unused (n := n) (k := k) (by rw [kind]; exact plain)
    rw [out, Circ.unusedOut, kind, rest, Circ.unusedOut]

theorem not_whole_of_frac {kind : Nat} (frac : isFrac kind = true) : isWhole kind = false := by
  rcases of_decide_eq_true frac with rfl | rfl <;> rfl

theorem completes_drainEnd {s : State} {c : ChanId} {k : CircId} (works : s.hw.works = true) (active : (s.hw.chan c).st = .active)
    (drains : ((s.hw.chan c).circ! k).drain = true) :
    let y := (s.hw.chan c).circ! k
    Completes (.drainEnd c k) s fun t =>
      ((t.chan c).circ! k).drain = false ∧ ((t.chan c).circ! k).enc = []
      ∧ (t.chan c).store = (s.hw.chan c).store.filter (fun e => e.circ ≠ k)
      ∧ (isFrac y.kind = true ∨ frameLen y.kind ≠ 0 →
          ((t.chan c).circ! k).black = y.unusedOut y.parB ∧ ((t.chan c).circ! k).red = y.unusedOut y.parR)
      ∧ (∀ j, j ≠ k → (t.chan c).circ! j = (s.hw.chan c).circ! j) ∧ t.noMsg s.hw ∧ t.Local s.hw c := by
  intro y
  have own : ((s.hw.drained c k).chan c).circ! k = { y with drain := false, enc := [] } := by
    rw [Hw.drained_chan]
    exact (Chan.circ_setCirc _ _ _ _).trans (if_pos rfl)
  refine .byOnActive c (fun h => if ((h.chan c).circ! k).drain then ((h.drained c k).emitBlack c k .unused).emitRed c k .unused else h)
    rfl works active ?_
  rw [if_pos drains]
  have is := s.hw.drainEnd_chan c k
  obtain ⟨store, others⟩ := ((s.hw.drained c k).chan c).unused_frame k.toNat k
  obtain ⟨drain, enc, out⟩ := ((s.hw.drained c k).chan c).unused_own k.toNat k
  rw [own] at drain enc out
  refine ⟨by rw [is, drain], by rw [is, enc], by rw [is, store, Hw.drained_chan], fun plain => ?_, fun j ne => ?_, rfl,
    (Hw.onChan_local _ c _).trans ((Hw.onChan_local _ c _).trans (s.hw.drained_local c k))⟩
  · rw [is]
    exact out plain
  · rw [is, others j ne, Hw.drained_chan]
    exact (Chan.circ_setCirc _ _ _ _).trans (if_neg ne)

/-- Settles O29: an enable takes the circuit into service, its first block boundary makes it live, and the end of its drain gives its
positions up. -/
theorem circuitsServed : Obligations.CircuitsServed := by
  refine ⟨⟨fun s m c ctl reach may active idle owner go writes table entry => ?_,
    fun s c o works busy => completes_tpOpDone works busy⟩,
    fun s c k frame works serves waits => exec_circuitStart works serves waits, fun s c k works active drains => ?_⟩
  · intro k y out sets same accepted
    refine (completes_tpWrite_enable reach may active idle owner go writes table entry (k := k) rfl out sets same accepted).mono fun t done => ?_
    obtain ⟨begun, op, next, here⟩ := done
    have en : ((t.chan c).circ! k).en = true := by
      rw [Circ.en, begun.w0]
      exact y.en_enabled _
    exact ⟨en, begun.odd, begun.live, begun.quar, begun.clear, begun.anchor, begun.guard, begun.eseqE, begun.eseqO, op, next, here⟩
  · refine (completes_drainEnd works active drains).mono fun t done => ?_
    obtain ⟨drain, enc, store, out, others, quiet, here⟩ := done
    refine ⟨drain, enc, store, fun frac => ?_, fun whole framed => ?_, fun frac whole framed => ?_, others, quiet, here⟩
    · have plain := out (.inl frac)
      rwa [Circ.unusedOut, Circ.unusedOut, if_pos frac, if_pos frac] at plain
    · have plain := out (.inr framed)
      have frac : ¬ isFrac ((s.hw.chan c).circ! k).kind = true := fun frac => by
        rw [not_whole_of_frac frac] at whole
        exact Bool.noConfusion whole
      rwa [Circ.unusedOut, Circ.unusedOut, if_neg frac, if_neg frac, if_pos whole, if_pos whole] at plain
    · have plain := out (.inr framed)
      have frac := ne_true_of_eq_false frac
      have whole := ne_true_of_eq_false whole
      rwa [Circ.unusedOut, Circ.unusedOut, if_neg frac, if_neg frac, if_neg whole, if_neg whole] at plain

end Sys2Proof.Machine
end

section
/-!
PROOF. The encrypt side's blocks (O31): what a block takes from its circuit at its start, and what the checks after it leave alone.
-/
namespace Sys2Proof.Machine

/-! ## What a switch, an age and a level leave of the encrypt side -/

/-- What a circuit has of the encrypt side beside its marks: its blocks, its sequence numbers and what is ahead. -/
def Circ.encPart (y : Circ) : List EncBlk × Seq × Seq × Nat × List Byte := (y.enc, y.eseqE, y.eseqO, y.kaLeft, y.prevTrailer)

/-- The encrypt side of a channel: its circuits' parts, the floors of its contexts, its keystream and its counters. -/
def Chan.encView (x : Chan) : (CircId → List EncBlk × Seq × Seq × Nat × List Byte) × (Nat → Seq × Seq) × Vector (List KsEnt) 3 × Table Nat :=
  (fun j => (x.circ! j).encPart, fun n => ((x.ctx! n).floorE, (x.ctx! n).floorO), x.cph.ks, x.ctr)

theorem Chan.encView_congr {x z : Chan} (circ : x.circ = z.circ) (cph : x.cph = z.cph) (ctr : x.ctr = z.ctr) : x.encView = z.encView := by
  simp only [Chan.encView, Chan.circ!, Chan.ctx!, circ, cph, ctr]

section
variable (h : Hw) (c : ChanId)

theorem Hw.setChReg_encView (off : Nat) (w : Word) : ((h.setChReg c off w).chan c).encView = (h.chan c).encView := by
  rw [Hw.setChReg_chan, if_pos rfl]
  rfl

theorem Hw.chEvent_encView (off j : Nat) (fl : Word) : ((h.chEvent c off j fl).chan c).encView = (h.chan c).encView :=
  Chan.encView_congr (by simp) (by simp) (by simp)

theorem Hw.onCirc_encView (k : CircId) (f : Circ → Circ) (same : (f ((h.chan c).circ! k)).encPart = ((h.chan c).circ! k).encPart) :
    ((h.onCirc c k f).chan c).encView = (h.chan c).encView := by
  rw [Hw.onCirc_chan, if_pos rfl]
  refine Prod.ext (funext fun j => ?_) rfl
  simp only [Chan.encView, Chan.circ_setCirc]
  split
  · next own => rw [own, same]
  · rfl

theorem Hw.onCtx_encView (n : Nat) (f : Ctx → Ctx)
    (same : ∀ z, (f z).floorE = z.floorE ∧ (f z).floorO = z.floorO) : ((h.onCtx c n f).chan c).encView = (h.chan c).encView := by
  rw [Hw.onCtx_chan, if_pos rfl]
  refine Prod.ext rfl (Prod.ext (funext fun j => ?_) rfl)
  simp only [Chan.encView, Chan.ctx_setCtx]
  split
  · next own => rw [own, (same _).1, (same _).2]
  · rfl

theorem Hw.onCtxCircs_encView (n : Nat) (f : Circ → Circ) (same : ∀ y, (f y).encPart = y.encPart) :
    ((h.onCtxCircs c n f).chan c).encView = (h.chan c).encView := by
  rw [Hw.onCtxCircs, Hw.onChan_chan, if_pos rfl]
  refine Prod.ext (funext fun j => ?_) rfl
  refine tget_map_keeps ({} : Circ) _ Circ.encPart (fun e => ?_) (fun e => ?_) j.toNat _ <;> split
  · rfl
  · rfl
  · exact same _
  · rfl

theorem besideQueue_encView : BesideQueue (fun h => (h.chan c).encView) (.chan c) where
  own h f := Chan.encView_congr (by simp [Hw.onQueue]) (by simp [Hw.onQueue]) (by simp [Hw.onQueue])
  device _ _ := rfl
  levels h := Chan.encView_congr (by simp) (by simp) (by simp)
  kbuf _ := rfl
  notify h f src := by simp

theorem Hw.switchDone_encView (n : Nat) : ((h.switchDone c n).chan c).encView = (h.chan c).encView := by
  unfold Hw.switchDone
  extract_lets t h1 h2
  refine ((besideQueue_encView c).finish _ _ _ _ _).trans ((Hw.chEvent_encView _ c _ _ _).trans ?_)
  refine (Hw.onCtxCircs_encView h1 c n _ ?_).trans (h.onCtx_encView c n _ fun z => ?_)
  · exact fun _ => rfl
  · dsimp only
    unfold Ctx.onSlot
    constructor <;> (repeat' split) <;> rfl

theorem Hw.switchCheck_encView (n : Nat) : ((h.switchCheck c n).chan c).encView = (h.chan c).encView :=
  ite_keeps (p := fun u => (u.chan c).encView) (h.switchDone_encView c n) rfl

theorem Hw.switchArm_encView (n : Nat) (at_ : Option Seq) : ((h.switchArm c n at_).chan c).encView = (h.chan c).encView := by
  refine (Hw.switchCheck_encView _ c n).trans ((Hw.onCtxCircs_encView _ c n _ ?_).trans (h.onCtx_encView c n _ ?_))
  · exact fun _ => rfl
  · exact fun _ => ⟨rfl, rfl⟩

theorem Hw.ageCheck_encView (k : CircId) : ((h.ageCheck c k).chan c).encView = (h.chan c).encView := by
  unfold Hw.ageCheck
  extract_lets x y h1 z
  have aged : (h1.chan c).encView = (h.chan c).encView := by
    refine (Hw.chEvent_encView _ c _ _ _).trans ?_
    rw [Hw.raiseChan_chan]
    exact h.onCirc_encView c k _ rfl
  exact ite_keeps (p := fun u => (u.chan c).encView) rfl
    (ite_keeps (p := fun u => (u.chan c).encView) ((h1.switchArm_encView c _ _).trans aged) aged)

theorem Hw.stopCheck_encView (k : CircId) : ((h.stopCheck c k).chan c).encView = (h.chan c).encView := by
  refine ite_keeps (p := fun u => (u.chan c).encView) rfl ?_
  refine (Hw.switchCheck_encView _ c _).trans ((Hw.chEvent_encView _ c _ _ _).trans ?_)
  rw [Hw.raiseChan_chan]
  exact h.onCirc_encView c k _ rfl

theorem Hw.level_encView (q n : Nat) : ((h.level c q n).chan c).encView = (h.chan c).encView :=
  Hw.level_keeps (fun u => (u.chan c).encView) c (fun h off w => h.setChReg_encView c off w) (by simp) h q n

theorem Hw.levels_encView : ((h.levels c).chan c).encView = (h.chan c).encView := by
  unfold Hw.levels
  extract_lets x pay enc w q ds h1
  iterate 7 refine (Hw.level_encView _ c _ _).trans ?_
  rfl

end

/-! ## The block that starts -/

/-- The block that a circuit starts now. -/
def Chan.nextBlock (x : Chan) (y : Circ) : EncBlk :=
  { seq := y.eseq y.odd, odd := y.odd, format := if 0 < y.kaLeft || y.guard then 3 else 1
    clear := y.clear, ect := 0, mep := x.encBank y, aps := 0, carries := y.prevTrailer
    spec := decide (x.red.fr = .runahead), guard := y.guard && decide (y.kaLeft = 0), defAll := x.inDefect .red y, defAny := x.inDefect .red y }

/-- A circuit with a block begun. -/
def Circ.withBlock (y : Circ) (b : EncBlk) : Circ :=
  { y with
    enc := y.enc ++ [b], kaLeft := y.kaLeft - 1, prevTrailer := []
    eseqE := if y.odd then y.eseqE else y.eseq y.odd + 1
    eseqO := if y.odd then y.eseq y.odd + 1 else y.eseqO }

/-- A context's floor of a slot no lower than a SEQ. -/
def Ctx.floored (z : Ctx) (odd : Bool) (seq : Seq) : Ctx :=
  if odd then { z with floorO := if z.floorO < seq then seq else z.floorO } else { z with floorE := if z.floorE < seq then seq else z.floorE }

/-- The hardware with the block begun, before the checks that follow. -/
def Hw.begunBlock (h : Hw) (c : ChanId) (k : CircId) : Hw :=
  let y := (h.chan c).circ! k
  ((h.onCirc c k (·.withBlock ((h.chan c).nextBlock y))).onCtx c y.kctx (·.floored y.odd (y.eseq y.odd + 1))).onChan c (·.ksNext k y (y.eseq y.odd))

section
variable {h : Hw} {c : ChanId} {k : CircId}

theorem Hw.buildBlock_encView : ((h.buildBlock c k).chan c).encView = ((h.begunBlock c k).chan c).encView := by
  have checks := (Hw.levels_encView (((h.begunBlock c k).ageCheck c k).stopCheck c k) c).trans
    ((Hw.stopCheck_encView ((h.begunBlock c k).ageCheck c k) c k).trans ((h.begunBlock c k).ageCheck_encView c k))
  exact checks

/-- The keystream beside which the engine runs is the queue's alone. -/
theorem Chan.ksNext_shape (x : Chan) (y : Circ) (seq : Seq) : ∃ ks, x.ksNext k y seq = { x with cph := { x.cph with ks := ks } } := by
  unfold Chan.ksNext
  extract_lets x'
  split <;> exact ⟨_, rfl⟩

/-- No entry of the queue is the one that the block takes. -/
theorem Chan.ksNext_taken (x : Chan) (y : Circ) (seq : Seq) :
    ∀ r ∈ (x.ksNext k y seq).cph.ks[ksEnc], ¬(r.circ = k ∧ r.odd = y.odd ∧ r.seq = seq) := by
  have taken : ∀ r ∈ (x.ksTake ksEnc k y.odd seq).cph.ks[ksEnc], ¬(r.circ = k ∧ r.odd = y.odd ∧ r.seq = seq) := fun r mem =>
    of_decide_eq_false ((Chan.ksFlush_mem _ _ _ _).mp mem).2
  have next : seq + 1 ≠ seq := fun e => absurd (BitVec.add_right_eq_self.mp e) (by decide)
  intro r
  unfold Chan.ksNext
  extract_lets x'
  split
  · exact taken r
  · rw [Chan.ksRun, Chan.onKs_ks, if_pos rfl]
    dsimp only
    split
    · exact taken r
    · intro mem
      rcases List.mem_append.mp mem with mem | mem
      · exact taken r mem
      · rw [List.mem_singleton.mp mem]
        exact fun bad => next bad.2.2

/-- Running ahead keeps the bound of R255. -/
theorem Chan.ksNext_level (x : Chan) (y : Circ) (seq : Seq) (bound : ksLevel x.cph.ks[ksEnc] ≤ 512) :
    ksLevel (x.ksNext k y seq).cph.ks[ksEnc] ≤ 512 := by
  have taken : ksLevel (x.ksTake ksEnc k y.odd seq).cph.ks[ksEnc] ≤ 512 := by
    rw [Chan.ksTake, Chan.ksFlush, Chan.onKs_ks, if_pos rfl]
    exact (ksLevel_filter _ _).trans bound
  unfold Chan.ksNext
  extract_lets x'
  split
  · exact taken
  · exact Chan.ksRun_level x' _ _ _ _ _ taken

theorem Hw.begunBlock_chan : ∃ x : Chan, (h.begunBlock c k).chan c = x.ksNext k ((h.chan c).circ! k) (((h.chan c).circ! k).eseq ((h.chan c).circ! k).odd)
    ∧ x = ((h.chan c).setCirc k (((h.chan c).circ! k).withBlock ((h.chan c).nextBlock ((h.chan c).circ! k)))).setCtx ((h.chan c).circ! k).kctx
      (((h.chan c).ctx! ((h.chan c).circ! k).kctx).floored ((h.chan c).circ! k).odd (((h.chan c).circ! k).eseq ((h.chan c).circ! k).odd + 1)) := by
  refine ⟨_, ?_, rfl⟩
  unfold Hw.begunBlock
  rw [Hw.onChan_chan, if_pos rfl, Hw.onCtx_chan, if_pos rfl, Hw.onCirc_chan, if_pos rfl]
  rfl

/-- What a block's start leaves of every circuit's part of the encrypt side. -/
theorem Hw.buildBlock_part (j : CircId) : (((h.buildBlock c k).chan c).circ! j).encPart =
    if j = k then (((h.chan c).circ! k).withBlock ((h.chan c).nextBlock ((h.chan c).circ! k))).encPart else ((h.chan c).circ! j).encPart := by
  obtain ⟨x, begun, is⟩ := Hw.begunBlock_chan (h := h) (c := c) (k := k)
  obtain ⟨ks, shape⟩ := x.ksNext_shape (k := k) ((h.chan c).circ! k) (((h.chan c).circ! k).eseq ((h.chan c).circ! k).odd)
  refine (congrFun (congrArg Prod.fst Hw.buildBlock_encView) j).trans ?_
  rw [begun, shape, is]
  refine (congrArg Circ.encPart (Chan.circ_setCirc _ _ _ _)).trans ?_
  split <;> rfl

/-- The floors of the circuit's context after a block's start. -/
theorem Hw.buildBlock_floor (n : Nat) (own : n = ((h.chan c).circ! k).kctx) :
    ((((h.buildBlock c k).chan c).ctx! n).floorE, (((h.buildBlock c k).chan c).ctx! n).floorO)
      = ((((h.chan c).ctx! n).floored ((h.chan c).circ! k).odd (((h.chan c).circ! k).eseq ((h.chan c).circ! k).odd + 1)).floorE,
        (((h.chan c).ctx! n).floored ((h.chan c).circ! k).odd (((h.chan c).circ! k).eseq ((h.chan c).circ! k).odd + 1)).floorO) := by
  obtain ⟨x, begun, is⟩ := Hw.begunBlock_chan (h := h) (c := c) (k := k)
  obtain ⟨ks, shape⟩ := x.ksNext_shape (k := k) ((h.chan c).circ! k) (((h.chan c).circ! k).eseq ((h.chan c).circ! k).odd)
  refine (congrFun (congrArg (fun v => v.2.1) Hw.buildBlock_encView) n).trans ?_
  rw [begun, shape, is, own]
  exact congrArg (fun z : Ctx => (z.floorE, z.floorO)) ((Chan.ctx_setCtx _ _ _ _).trans (if_pos rfl))

theorem Hw.buildBlock_ks : ((h.buildBlock c k).chan c).cph.ks = ((h.begunBlock c k).chan c).cph.ks :=
  congrArg (fun v => v.2.2.1) Hw.buildBlock_encView

end

/-! ## A block period without a block -/

section
variable (h : Hw) (c : ChanId) (k : CircId)

/-- A fill event touches the log and the counter that it names. -/
theorem Hw.fill_keeps {γ : Type} (p : Chan → γ) (regs : ∀ x o w, p (Chan.setReg x o w) = p x)
    (event : ∀ (h : Hw) o j fl, p ((h.chEvent c o j fl).chan c) = p (h.chan c)) (dec : Bool) (ctr cause : Nat) :
    p ((h.fill c k dec ctr cause).chan c) = p ((h.chan c).count 0x11 (4 * ctr) 1) := by
  unfold Hw.fill
  extract_lets h1 q nx w h2 h3
  refine (event _ _ _ _).trans ?_
  rw [Hw.setChReg_chan, if_pos rfl, regs, Hw.setChReg_chan, if_pos rfl, regs, Hw.count_chan, if_pos rfl]

theorem Hw.fill_circ (dec : Bool) (ctr cause : Nat) : ((h.fill c k dec ctr cause).chan c).circ = (h.chan c).circ :=
  h.fill_keeps c k (·.circ) (fun _ _ _ => rfl) (by simp) dec ctr cause

theorem Hw.fill_ctr (dec : Bool) (ctr cause : Nat) : ((h.fill c k dec ctr cause).chan c).ctr = ((h.chan c).count 0x11 (4 * ctr) 1).ctr :=
  h.fill_keeps c k (·.ctr) (fun _ _ _ => rfl) (by simp) dec ctr cause

theorem Hw.fill_local (dec : Bool) (ctr cause : Nat) : (h.fill c k dec ctr cause).Local h c :=
  (Hw.chEvent_local _ c _ _ _).trans ((Hw.setChReg_local _ c _ _).trans ((Hw.setChReg_local _ c _ _).trans (h.onChan_local c _)))

theorem Hw.fill_fcl (dec : Bool) (ctr cause : Nat) : (h.fill c k dec ctr cause).dev.fcl = h.dev.fcl :=
  (Hw.chEvent_fcl _ _ _ _ _).trans rfl

theorem Hw.stopCheck_local : (h.stopCheck c k).Local h c := by
  unfold Hw.stopCheck
  extract_lets y
  split
  · exact .refl h c
  · exact (Hw.switchCheck_beside _ c _).here.trans ((Hw.chEvent_local _ c _ _ _).trans ((Hw.raiseChan_local _ c c _ _ _ _).trans (h.onCirc_local c k _)))

theorem Hw.noBlock_local : (h.noBlock c k).Local h c :=
  (Hw.onCirc_local _ c k _).trans ((Hw.onChan_local _ c _).trans (h.fill_local c k _ _ _))

theorem Chan.count_ctr_congr {x z : Chan} (same : x.ctr = z.ctr) (g i n : Nat) : (x.count g i n).ctr = (z.count g i n).ctr := by
  rw [Chan.count, same, Chan.count]

theorem Hw.noBlock_chan : ((h.noBlock c k).chan c).circ! k = { (h.chan c).circ! k with prevTrailer := [] }
    ∧ ((h.noBlock c k).chan c).ctr = (((h.chan c).count 0x11 0 1).count 0x10 4 1).ctr := by
  unfold Hw.noBlock
  rw [Hw.onCirc_chan, if_pos rfl, Hw.count_chan, if_pos rfl]
  constructor
  · refine (Chan.circ_setCirc _ _ _ _).trans ((if_pos rfl).trans ?_)
    rw [Chan.circ!, Chan.count_circ, h.fill_circ c k, Chan.circ!]
  · rw [Chan.setCirc_ctr]
    exact Chan.count_ctr_congr (h.fill_ctr c k false 0 6) _ _ _

end

/-! ## The start of a block -/

section
variable {h : Hw} {c : ChanId} {k : CircId}

/-- The hardware at a block boundary, its tributary's count advanced (R172). -/
def Hw.ticked (h : Hw) (c : ChanId) (k : CircId) : Hw := h.onChan c (·.tribTick k ((h.chan c).circ! k))

/-- The count of blocks since a tributary's swap is all that a boundary changes of the mapper. -/
theorem Chan.tribTick_shape (x : Chan) (y : Circ) : ∃ w, x.tribTick k y = { x with map := { x.map with swaps := w } }
    ∧ ∀ n, (tget ({} : TribSwap) w n).encB = (tget ({} : TribSwap) x.map.swaps n).encB := by
  unfold Chan.tribTick
  split
  · refine ⟨_, rfl, fun n => ?_⟩
    rw [tget_tput]
    split
    · next own => rw [own]
    · rfl
  · exact ⟨_, rfl, fun _ => rfl⟩

theorem Hw.ticked_chan (h : Hw) (c : ChanId) (k : CircId) : ∃ w, (h.ticked c k).chan c = { h.chan c with map := { (h.chan c).map with swaps := w } }
    ∧ ∀ n, (tget ({} : TribSwap) w n).encB = (tget ({} : TribSwap) (h.chan c).map.swaps n).encB := by
  obtain ⟨w, shape, same⟩ := (h.chan c).tribTick_shape (k := k) ((h.chan c).circ! k)
  refine ⟨w, ?_, same⟩
  rw [Hw.ticked, Hw.onChan_chan, if_pos rfl, shape]

theorem Hw.ticked_circ (j : CircId) : ((h.ticked c k).chan c).circ! j = (h.chan c).circ! j := by
  obtain ⟨w, shape, _⟩ := h.ticked_chan c k
  rw [shape]
  rfl

theorem Hw.ticked_ctx (n : Nat) : ((h.ticked c k).chan c).ctx! n = (h.chan c).ctx! n := by
  obtain ⟨w, shape, _⟩ := h.ticked_chan c k
  rw [shape]
  rfl

theorem Hw.ticked_serves (j : CircId) : ((h.ticked c k).chan c).serves j = (h.chan c).serves j := by
  obtain ⟨w, shape, _⟩ := h.ticked_chan c k
  rw [shape]
  rfl

theorem Hw.ticked_next (y : Circ) : ((h.ticked c k).chan c).nextBlock y = (h.chan c).nextBlock y := by
  obtain ⟨w, shape, same⟩ := h.ticked_chan c k
  have bank : ((h.ticked c k).chan c).encBank y = (h.chan c).encBank y := by
    rw [shape, Chan.encBank, Chan.encBank, same]
  rw [Chan.nextBlock, bank, shape]
  rfl

theorem Chan.not_starved {x : Chan} (serves : x.serves k = true) : (x.circ! k).starved = false := by
  simp only [Chan.serves, Bool.and_eq_true, Bool.not_eq_true'] at serves
  exact serves.1.1.2

/-- Off its phase a circuit's boundary is none. -/
theorem Hw.encStart_off {frame : Nat} (live : ((h.chan c).circ! k).live = true) (off : (h.chan c).atPhase ((h.chan c).circ! k) frame = false) :
    h.encStart c k frame = h := by
  unfold Hw.encStart
  extract_lets x y
  refine if_pos ?_
  rw [if_pos live, Bool.not_eq_true']
  exact off

/-- What becomes of a block boundary of a circuit (R188). -/
def Hw.atBoundary (h : Hw) (c : ChanId) (k : CircId) : Hw :=
  let y := (h.chan c).circ! k
  let s := ((h.chan c).ctx! y.kctx).slot y.odd
  if s.corrupt 0 then h.trigger c.val 5 0x2E y.kctx
  else if y.hardStop then (h.noBlock c k).stopCheck c k
  else if s.st = .empty ∧ y.clear = false then h.noBlock c k
  else h.buildBlock c k

/-- With no switch armed none is due. -/
theorem Hw.epochDue_none (unarmed : ((h.chan c).ctx! ((h.chan c).circ! k).kctx).arm = false) : h.epochDue c k = h := by
  unfold Hw.epochDue
  extract_lets x y z
  refine if_neg ?_
  have none : z.arm = false := unarmed
  rw [switchDue, none]
  exact Bool.false_ne_true

/-- At its phase a circuit in service starts a block, or has none to start (R188, R193, R201). -/
theorem Hw.encStart_on {frame : Nat} (serves : (h.chan c).serves k = true) (live : ((h.chan c).circ! k).live = true)
    (still : ((h.chan c).circ! k).clearNext = none) (unarmed : ((h.chan c).ctx! ((h.chan c).circ! k).kctx).arm = false)
    (on : (h.chan c).atPhase ((h.chan c).circ! k) frame = true) : h.encStart c k frame = (h.ticked c k).atBoundary c k := by
  have unchanged : (h.ticked c k).clearDue c k = h.ticked c k := by rw [Hw.clearDue, Hw.ticked_circ, still]
  have stays : (h.ticked c k).epochDue c k = h.ticked c k := Hw.epochDue_none (by rw [Hw.ticked_circ, Hw.ticked_ctx]; exact unarmed)
  have starved := Chan.not_starved serves
  rw [← Hw.ticked_serves (k := k)] at serves
  rw [← Hw.ticked_circ (k := k)] at live starved
  calc h.encStart c k frame
    _ = if (((((h.ticked c k).clearDue c k).chan c).circ! k).en && ((((h.ticked c k).clearDue c k).chan c).circ! k).starved
          && !(((h.ticked c k).clearDue c k).chan c).quarantined) = true then ((h.ticked c k).clearDue c k).count c 0x11 28 1
        else if (!((((h.ticked c k).clearDue c k).chan c).serves k && ((((h.ticked c k).clearDue c k).chan c).circ! k).live)) = true then
          (h.ticked c k).clearDue c k
        else (((h.ticked c k).clearDue c k).epochDue c k).atBoundary c k := if_neg (by
      rw [Hw.ticked_circ] at live
      rw [if_pos live]
      simpa using on)
    _ = _ := by
      rw [unchanged, starved, serves, live, stays, Bool.and_false, Bool.false_and, if_neg Bool.false_ne_true, if_neg (by decide)]

end

/-- A floor raised above a SEQ that is not the last (R190, R193). -/
theorem floor_above {f seq : Seq} (room : seq ≠ BitVec.ofNat 40 (2 ^ 40 - 1)) : seq.toNat + 1 ≤ (if f < seq + 1 then seq + 1 else f).toNat := by
  have next : (seq + 1).toNat = seq.toNat + 1 := by
    have last : seq.toNat ≠ 2 ^ 40 - 1 := fun e => room (BitVec.eq_of_toNat_eq e)
    have small := seq.isLt
    rw [BitVec.toNat_add]
    exact Nat.mod_eq_of_lt (Nat.lt_of_le_of_ne small fun e => last (Nat.succ.inj e))
  split
  · exact next.ge
  · next above =>
    rw [BitVec.lt_def, next] at above
    omega

/-- A part of the encrypt side fixes its sequence numbers. -/
theorem Circ.eseq_congr {y z : Circ} (same : y.encPart = z.encPart) (odd : Bool) : y.eseq odd = z.eseq odd := by
  have even : y.eseqE = z.eseqE := congrArg (fun v => v.2.1) same
  have other : y.eseqO = z.eseqO := congrArg (fun v => v.2.2.1) same
  rw [Circ.eseq, even, other, Circ.eseq]

/-- A block begun uses one sequence number of its slot. -/
theorem Circ.withBlock_eseq (y : Circ) (b : EncBlk) : (y.withBlock b).eseq y.odd = y.eseq y.odd + 1 := by
  unfold Circ.eseq Circ.withBlock Circ.eseq
  cases y.odd <;> rfl

/-- The floor of a slot of a context, once raised. -/
theorem Ctx.floored_above {z : Ctx} {odd : Bool} {seq : Seq} (room : seq ≠ BitVec.ofNat 40 (2 ^ 40 - 1)) :
    seq.toNat + 1 ≤ (if odd then (z.floored odd (seq + 1)).floorO else (z.floored odd (seq + 1)).floorE).toNat := by
  cases odd
  · exact floor_above room
  · exact floor_above room

/-- Settles O31: the block that a boundary starts, or the period that goes without one. -/
theorem encryptBlockStarts : Obligations.EncryptBlockStarts := by
  intro s c k frame works serves y z gone live still unarmed
  have active : (s.hw.chan c).st = .active := by
    simp only [Chan.serves, Bool.and_eq_true] at serves
    exact of_decide_eq_true serves.1.1.1.1
  refine ⟨fun off => ?_, fun on sound goes keyed => ?_, fun on sound without => ?_, fun on bad up => ?_⟩
  · exact (onActive_on (f := (·.encStart c k frame)) works active).trans (next_congr (Hw.encStart_off live off))
  all_goals
    refine .byOnActive c (·.encStart c k frame) rfl works active ?_
    rw [Hw.encStart_on serves live still unarmed on]
    have own : ((s.hw.ticked c k).chan c).circ! k = y := Hw.ticked_circ k
    have ctx : ((s.hw.ticked c k).chan c).ctx! y.kctx = z := Hw.ticked_ctx _
    unfold Hw.atBoundary
    dsimp only
    rw [own, ctx]
  · rw [sound, goes, if_neg Bool.false_ne_true, if_neg Bool.false_ne_true,
      if_neg fun bad : _ ∧ _ => keyed.elim (fun k => k bad.1) fun clear => absurd (clear.symm.trans bad.2) Bool.noConfusion]
    have part (j : CircId) := Hw.buildBlock_part (h := s.hw.ticked c k) (c := c) (k := k) j
    rw [own, Hw.ticked_next] at part
    have mine := (part k).trans (if_pos rfl)
    have enc := congrArg (fun v => v.1) mine
    have even := congrArg (fun v => v.2.1) mine
    have odd := congrArg (fun v => v.2.2.1) mine
    have floor := Hw.buildBlock_floor (h := s.hw.ticked c k) (c := c) (k := k) y.kctx (by rw [own])
    rw [own, ctx] at floor
    refine ⟨enc.trans ?_, ?_, congrArg (fun v => v.2.2.2.1) mine, congrArg (fun v => v.2.2.2.2) mine, ?_, ?_, ?_, fun j other => ?_⟩
    · have format : (if (decide (0 < y.kaLeft) || y.guard) = true then 3 else 1 : BitVec 2) = if 0 < y.kaLeft ∨ y.guard = true then 3 else 1 := by
        simp only [Bool.or_eq_true, decide_eq_true_eq]
      rw [← format]
      rfl
    · exact (Circ.eseq_congr mine y.odd).trans (y.withBlock_eseq _)
    · have floorE := congrArg Prod.fst floor
      have floorO := congrArg Prod.snd floor
      dsimp only at floorE floorO
      rw [floorE, floorO]
      exact Ctx.floored_above (of_decide_eq_false goes)
    · rw [Hw.buildBlock_ks]
      obtain ⟨x, begun, _⟩ := Hw.begunBlock_chan (h := s.hw.ticked c k) (c := c) (k := k)
      rw [begun, own]
      exact x.ksNext_taken y _
    · rw [Hw.buildBlock_ks]
      obtain ⟨x, begun, is⟩ := Hw.begunBlock_chan (h := s.hw.ticked c k) (c := c) (k := k)
      obtain ⟨w, shape, _⟩ := s.hw.ticked_chan c k
      have same : x.cph.ks = (s.hw.chan c).cph.ks := by
        rw [is, shape]
        rfl
      rw [begun, ← same]
      exact x.ksNext_level _ _
    · refine (congrArg (fun v => v.1) ((part j).trans (if_neg other))).trans ?_
      rw [Hw.ticked_circ]
      rfl
  · rw [sound, if_neg Bool.false_ne_true]
    obtain ⟨circ, ctr⟩ := Hw.noBlock_chan (s.hw.ticked c k) c k
    have here := ((s.hw.ticked c k).noBlock_local c k).trans (s.hw.onChan_local c _)
    have counts (n : Nat) : tget 0 (((s.hw.ticked c k).chan c).count 0x11 0 1).ctr n = tget 0 ((s.hw.chan c).count 0x11 0 1).ctr n := by
      obtain ⟨w, shape, _⟩ := s.hw.ticked_chan c k
      rw [shape]
      rfl
    rw [own] at circ
    have shows (t : Hw) (view : (t.chan c).encView = (((s.hw.ticked c k).noBlock c k).chan c).encView) (near : t.Local ((s.hw.ticked c k).noBlock c k) c) :
        ((t.chan c).circ! k).enc = y.enc ∧ ((t.chan c).circ! k).eseq y.odd = y.eseq y.odd ∧ ((t.chan c).circ! k).prevTrailer = []
        ∧ tget 0 (t.chan c).ctr (ctrKey 0x11 0) = min (2 ^ 48 - 1) (tget 0 (s.hw.chan c).ctr (ctrKey 0x11 0) + 1)
        ∧ tget 0 (t.chan c).ctr (ctrKey 0x10 4) = min (2 ^ 48 - 1) (tget 0 (s.hw.chan c).ctr (ctrKey 0x10 4) + 1)
        ∧ t.Local s.hw c := by
      have part : ((t.chan c).circ! k).encPart = { y with prevTrailer := [] }.encPart := by
        refine (congrFun (congrArg Prod.fst view) k).trans ?_
        rw [← circ]
        rfl
      have told : (t.chan c).ctr = ((((s.hw.ticked c k).chan c).count 0x11 0 1).count 0x10 4 1).ctr :=
        (congrArg (fun v => v.2.2.2) view).trans ctr
      refine ⟨congrArg (fun v => v.1) part, Circ.eseq_congr part _, congrArg (fun v => v.2.2.2.2) part, ?_, ?_, near.trans here⟩
      · rw [told, Chan.count_ctr, if_neg (by decide), counts, Chan.count_ctr, if_pos rfl]
      · rw [told, Chan.count_ctr, if_pos rfl, counts, Chan.count_ctr, if_neg (by decide)]
    by_cases stop : y.hardStop = true
    · rw [if_pos stop]
      exact shows _ (Hw.stopCheck_encView _ c k) (Hw.stopCheck_local _ c k)
    · rw [if_neg stop, if_pos (without.resolve_left stop)]
      exact shows _ rfl (.refl _ c)
  · rw [bad, if_pos rfl]
    exact (Hw.trigger_works (h := s.hw.ticked c k) works up _ _ _ _).congr rfl

end Sys2Proof.Machine
end

section
/-!
PROOF. The end of a block (O32): what a keep-alive block is sealed into, and what the seal check turns away.
-/
namespace Sys2Proof.Machine

/-! ## The words of a block -/

section
variable (l : List Byte) (sealed : Bool) (kind : Nat) (sob eob spec : Bool)

theorem mkWord_toNat : (mkWord l sealed kind sob eob spec).toNat =
    (beNat (fit 4 l) * 256 + b2n sealed * 128 + kind % 4 * 32 + b2n sob * 16 + b2n eob * 8 + b2n spec * 4 + (min 4 l.length - 1) % 4) % 2 ^ 40 :=
  BitVec.toNat_ofNat _ _

theorem b2n_le (b : Bool) : b2n b ≤ 1 := by cases b <;> decide

/-- The part of a word below its KIND. -/
theorem mkWord_low : b2n sob * 16 + b2n eob * 8 + b2n spec * 4 + (min 4 l.length - 1) % 4 < 32 := by
  have first := b2n_le sob
  have last := b2n_le eob
  have held := b2n_le spec
  omega

theorem W40.kind_mkWord : (mkWord l sealed kind sob eob spec).kind = BitVec.ofNat 2 kind := by
  have low := mkWord_low l sob eob spec
  have flag := b2n_le sealed
  refine BitVec.eq_of_toNat_eq ?_
  rw [W40.kind, BitVec.extractLsb'_toNat, mkWord_toNat, BitVec.toNat_ofNat, Nat.shiftRight_eq_div_pow]
  omega

theorem W40.seal_mkWord : (mkWord l sealed kind sob eob spec).seal = sealed := by
  have low := mkWord_low l sob eob spec
  have flag := b2n_le sealed
  have bit : (mkWord l sealed kind sob eob spec).toNat / 2 ^ 7 % 2 = b2n sealed := by
    rw [mkWord_toNat]
    omega
  rw [W40.seal, BitVec.getLsbD, Nat.testBit_eq_decide_div_mod_eq, bit]
  cases sealed <;> rfl

theorem W40.payload_mkWord_zero (zero : beNat (fit 4 l) = 0) : (mkWord l sealed kind sob eob spec).payload = 0 := by
  have low := mkWord_low l sob eob spec
  have flag := b2n_le sealed
  have none : (0 : Word).toNat = 0 := rfl
  refine BitVec.eq_of_toNat_eq ?_
  rw [W40.payload, BitVec.extractLsb'_toNat, mkWord_toNat, zero, Nat.shiftRight_eq_div_pow, none]
  omega

end

/-- A word with marks of a block's ends. -/
def W40.mark (w : W40) (first last : Bool) : W40 := w ||| (if first then 0x10#40 else 0) ||| (if last then 0x08#40 else 0)

section
variable (w : W40) (first last : Bool)

theorem W40.kind_mark : (w.mark first last).kind = w.kind := by
  rw [W40.mark, W40.kind, BitVec.extractLsb'_or, BitVec.extractLsb'_or, W40.kind]
  cases first <;> cases last <;> simp

theorem W40.seal_mark : (w.mark first last).seal = w.seal := by
  rw [W40.mark, W40.seal, BitVec.getLsbD_or, BitVec.getLsbD_or, W40.seal]
  cases first <;> cases last <;> simp

theorem W40.payload_mark : (w.mark first last).payload = w.payload := by
  rw [W40.mark, W40.payload, BitVec.extractLsb'_or, BitVec.extractLsb'_or, W40.payload]
  cases first <;> cases last <;> simp

end

/-- A word as the encrypt side builds it: payload that is sealed but for clear mode, an empty reclaim word, or idle-fill. -/
def W40.built (clear : Bool) (w : W40) : Prop :=
  (w.kind = 0 ∧ w.seal = !clear) ∨ (w.kind = 2 ∧ w.seal = false ∧ w.payload = 0) ∨ (w.kind = 3 ∧ w.seal = false)

theorem W40.built_mark {clear : Bool} {w : W40} (built : w.built clear) (first last : Bool) : (w.mark first last).built clear := by
  rw [W40.built, W40.kind_mark, W40.seal_mark, W40.payload_mark]
  exact built

/-- What is built passes the seal check. -/
theorem W40.built_ok {clear : Bool} {w : W40} (built : w.built clear) : sealOk clear (if w.kind = 3 then w.payload else 0) w = true := by
  rw [sealOk_iff]
  rcases built with ⟨kind, sealed⟩ | reclaim | ⟨kind, sealed⟩
  · exact .inl ⟨kind, by cases clear <;> simp [sealed]⟩
  · exact .inr (.inl reclaim)
  · exact .inr (.inr ⟨kind, sealed, by rw [if_pos kind]⟩)

theorem markBlock_eq (l : List W40) : markBlock l = l.zipIdx.map fun e => e.1.mark (decide (e.2 = 0)) (decide (e.2 + 1 = l.length)) := by
  simp only [markBlock, W40.mark, decide_eq_true_eq]

theorem mem_partsOf {α : Type} {p : List α} {b : α} : ∀ {n w : Nat} {l : List α}, p ∈ partsOf n w l → b ∈ p → b ∈ l
  | 0, _, _, mem, _ => absurd mem List.not_mem_nil
  | n + 1, w, l, mem, own => by
    rw [partsOf] at mem
    split at mem
    · exact absurd mem List.not_mem_nil
    · rcases List.mem_cons.mp mem with rfl | mem
      · exact List.mem_of_mem_take own
      · exact List.mem_of_mem_drop (mem_partsOf mem own)

theorem beNat_zeros {l : List Byte} (zero : ∀ b ∈ l, b = 0) : beNat l = 0 := by
  have fold : ∀ (l : List Byte), (∀ b ∈ l, b = 0) → l.foldl (fun a b => a * 256 + b.toNat) 0 = 0 := by
    intro l
    induction l with
    | nil => exact fun _ => rfl
    | cons b t ih =>
      intro zero
      rw [List.foldl_cons, zero b List.mem_cons_self]
      exact ih fun b mem => zero b (List.mem_cons_of_mem _ mem)
  exact fold l zero

theorem fit_zeros {n : Nat} {l : List Byte} (zero : ∀ b ∈ l, b = 0) : ∀ b ∈ fit n l, b = 0 := fun b mem => by
  rcases List.mem_append.mp (List.mem_of_mem_take mem) with mem | mem
  · exact zero b mem
  · exact List.eq_of_mem_replicate mem

section
variable {clear spec : Bool} {w : W40} {body rcl idle : List Byte}

theorem wordsOf_payload (mem : w ∈ wordsOf (!clear) 0 spec body) : w.built clear := by
  obtain ⟨p, _, rfl⟩ := List.mem_map.mp mem
  exact .inl ⟨W40.kind_mkWord .., W40.seal_mkWord ..⟩

theorem wordsOf_reclaim (mem : w ∈ wordsOf false 2 spec (rcl.map fun _ => 0)) : w.built clear := by
  obtain ⟨p, part, rfl⟩ := List.mem_map.mp mem
  refine .inr (.inl ⟨W40.kind_mkWord .., W40.seal_mkWord .., W40.payload_mkWord_zero _ _ _ _ _ _ (beNat_zeros (fit_zeros fun b own => ?_))⟩)
  obtain ⟨_, _, rfl⟩ := List.mem_map.mp (mem_partsOf part own)
  rfl

theorem wordsOf_idle (mem : w ∈ wordsOf false 3 false idle) : w.built clear := by
  obtain ⟨p, _, rfl⟩ := List.mem_map.mp mem
  exact .inr (.inr ⟨W40.kind_mkWord .., W40.seal_mkWord ..⟩)

/-- Every word of a block is as the encrypt side builds it. -/
theorem blockWords_built (mem : w ∈ blockWords clear spec body rcl idle) : w.built clear := by
  rw [blockWords, markBlock_eq] at mem
  obtain ⟨⟨w', i⟩, own, rfl⟩ := List.mem_map.mp mem
  have built : W40.built clear w' := by
    rcases List.mem_append.mp (List.fst_mem_of_mem_zipIdx own) with front | rest
    · rcases List.mem_append.mp front with front | idle
      · rcases List.mem_append.mp front with body | reclaim
        · exact wordsOf_payload (List.mem_of_mem_take body)
        · exact wordsOf_reclaim reclaim
      · exact wordsOf_idle idle
    · exact wordsOf_payload (List.mem_of_mem_drop rest)
  exact W40.built_mark built _ _

theorem upsetOf_nil (l : List W40) : upsetOf l [] = l := by
  unfold upsetOf
  simp only [List.foldl_nil]
  exact List.zipIdx_map_fst 0 l

/-- A block that no fault upsets passes the seal check. -/
theorem blockWords_ok : sealsOk clear (blockWords clear spec body rcl idle) [] = true := by
  unfold sealsOk upsetWords
  rw [upsetOf_nil, List.filter_nil, List.map_nil, List.append_nil, List.all_eq_true]
  intro e mem
  rw [List.zip_eq_zipWith, List.zipWith_self] at mem
  obtain ⟨w, own, rfl⟩ := List.mem_map.mp mem
  exact W40.built_ok (blockWords_built own)

/-- The first word of a block that holds payload is its first payload word. -/
theorem blockWords_first (full : body ≠ []) : ∃ a l, blockWords clear spec body rcl idle = a :: l ∧ a.kind = 0 ∧ a.seal = !clear := by
  obtain ⟨b, t, rfl⟩ := List.exists_cons_of_ne_nil full
  rw [blockWords, markBlock_eq, wordsOf, partsOf, List.isEmpty_cons, if_neg Bool.false_ne_true, List.map_cons, List.take_succ_cons, List.take_zero, List.cons_append,
    List.cons_append, List.cons_append, List.zipIdx_cons, List.map_cons]
  exact ⟨_, _, rfl, by rw [W40.kind_mark, W40.kind_mkWord]; rfl, by rw [W40.seal_mark, W40.seal_mkWord]⟩

/-- A fault that makes a block's first word an overhead word, or takes its SEAL, is seen (R35). -/
theorem blockWords_upset {v : W40} (full : body ≠ []) (fault : v = 0x20#40 ∨ (v = 0x80#40 ∧ clear = false)) :
    sealsOk clear (blockWords clear spec body rcl idle) [(0, v)] = false := by
  obtain ⟨a, l, is, kind, sealed⟩ := blockWords_first (clear := clear) (spec := spec) (rcl := rcl) (idle := idle) full
  have rejected : sealOk clear 0 (a ^^^ v) = false := by
    rcases fault with rfl | ⟨rfl, rfl⟩
    · refine sealOk_overhead _ _ _ ?_
      rw [W40.kind, BitVec.extractLsb'_xor, ← W40.kind, kind]
      rfl
    · have kind' : (a ^^^ 0x80#40).kind = 0 := by
        rw [W40.kind, BitVec.extractLsb'_xor, ← W40.kind, kind]
        rfl
      have open_ : (a ^^^ 0x80#40).seal = false := by
        rw [W40.seal, BitVec.getLsbD_xor, ← W40.seal, sealed]
        rfl
      rw [sealOk, kind', open_]
      rfl
  rw [is, sealsOk, upsetWords, upsetOf, List.zipIdx_cons, List.map_cons, List.zip_cons_cons, List.cons_append, List.all_cons]
  rw [kind, if_neg (by decide)]
  exact Bool.and_eq_false_imp.mpr fun ok => absurd (ok.symm.trans rejected) Bool.noConfusion

end

/-! ## The block that ends -/

/-- A circuit's oldest block that has not reached its end, with its place. -/
def Circ.openBlock (y : Circ) : Option (Nat × EncBlk) := y.enc.zipIdx.findSome? fun e => if e.1.done then none else some (e.2, e.1)

theorem openBlock_of_find {b : EncBlk} : ∀ {l : List EncBlk} {i : Nat} (n : Nat), l.findIdx? (fun b => !b.done) = some i → l[i]? = some b →
    (l.zipIdx n).findSome? (fun e => if e.1.done then none else some (e.2, e.1)) = some (n + i, b)
  | [], _, _, found, _ => by simp at found
  | a :: t, i, n, found, at_ => by
    rw [List.findIdx?_cons] at found
    rw [List.zipIdx_cons, List.findSome?_cons]
    cases done : a.done
    · rw [done, Bool.not_false, if_pos rfl] at found
      obtain rfl := Option.some.inj found
      rw [List.getElem?_cons_zero] at at_
      obtain rfl := Option.some.inj at_
      simp
    · rw [done, Bool.not_true, if_neg Bool.false_ne_true] at found
      obtain ⟨j, later, rfl⟩ := Option.map_eq_some_iff.mp found
      rw [List.getElem?_cons_succ] at at_
      simp only [if_true]
      rw [openBlock_of_find (n + 1) later at_, Nat.add_right_comm, Nat.add_assoc]

theorem Circ.openBlock_some {y : Circ} {i : Nat} {b : EncBlk} (found : y.enc.findIdx? (fun b => !b.done) = some i) (at_ : y.enc[i]? = some b) :
    y.openBlock = some (i, b) := by
  rw [Circ.openBlock, openBlock_of_find 0 found at_, Nat.zero_add]

theorem Circ.openBlock_none {y : Circ} (done : ∀ b ∈ y.enc, b.done = true) : y.openBlock = none := by
  rw [Circ.openBlock, List.findSome?_eq_none_iff]
  intro e mem
  rw [if_pos (done _ (List.fst_mem_of_mem_zipIdx mem))]

section
variable {h : Hw} {c : ChanId} {k : CircId} {sp : LineSpan} {gone : List (Nat × Nat)} {ups : List (Nat × W40)} {checks : List StageUnit}

/-- What the RED lane gives a block of a circuit, with what of it is in defect. -/
def Chan.redOf (x : Chan) (k : CircId) (b : EncBlk) (gone : List (Nat × Nat)) (sp : LineSpan) : RedBlk :=
  x.redBlock k.toNat (x.circ! k) b.mep (if b.defAll then [(0, geTimes)] else if b.defAny then gone else []) (x.seen .red (x.circ! k) (x.circ! k).red sp)

theorem Hw.encEnd_open {i : Nat} {b : EncBlk} (first : ((h.chan c).circ! k).openBlock = some (i, b)) (kept : b.lost = 0) :
    h.encEnd c k sp gone ups checks = (h.onLane c .red fun l => { l with rd := ((h.chan c).redOf k b gone sp).rd }).encFinish c k i b
      ((h.chan c).redOf k b gone sp) ups checks := by
  unfold Circ.openBlock at first
  unfold Hw.encEnd
  dsimp only
  rw [first]
  exact if_neg (not_not_intro kept)

theorem Hw.encEnd_none (none_ : ((h.chan c).circ! k).openBlock = none) : ∃ d : RedBlk, h.encEnd c k sp gone ups checks =
    ((h.onLane c .red fun l => { l with rd := d.rd }).onCirc c k fun y => { y with ge := d.ge }).sealCheck c k ((h.chan c).circ! k).clear [] ups := by
  unfold Circ.openBlock at none_
  unfold Hw.encEnd
  dsimp only
  rw [none_]
  exact ⟨_, rfl⟩

/-- What a keep-alive block of `n` payload bytes is sealed into: its body and its trailer (R48, R183, R185, R221). -/
def Chan.sealedKa (x : Chan) (k : CircId) (b : EncBlk) (n : Nat) : List Byte × List Byte :=
  let y := x.circ! k
  let tl := ((x.kindOf y).map (·.tagLen)).getD 12
  let head := trlHead (mkType 3 b.odd b.mep x.psw.st.code) b.seq 0
  let o := gcmSeal ((x.ctx! y.kctx).slot b.odd).key (ivOf x.roleB y.lcid b.seq) (aadOf head y.lcid) (List.replicate n 0) tl
  (if b.clear then List.replicate n 0 else o.1, mkTrailer head (if b.clear then List.replicate tl 0 else o.2) y.lcid)

/-- A keep-alive block at its end. -/
def EncBlk.ended (b : EncBlk) (x : Chan) (k : CircId) (d : RedBlk) (e : EncBlk) : EncBlk :=
  { e with done := true, format := 3, ect := 0, aps := x.psw.st.code, body := (x.sealedKa k b d.plain.length).1,
           trailer := (x.sealedKa k b d.plain.length).2, span := d.span, held := [] }

/-- A circuit with a keep-alive block at its end, whose trailer goes to its successor. -/
def Circ.kaEnded (y : Circ) (x : Chan) (k : CircId) (i : Nat) (b : EncBlk) (d : RedBlk) : Circ :=
  ({ y with ectAcc := 0, ge := d.ge, enc := y.enc.modify i (b.ended x k d) } : Circ).putTrailer i (x.sealedKa k b d.plain.length).2

/-- The hardware in which the seal check sees the words of a keep-alive block. -/
def Hw.kaFinished (h : Hw) (c : ChanId) (k : CircId) (i : Nat) (b : EncBlk) (d : RedBlk) : Hw :=
  ((((h.onCirc c k fun y => y.kaEnded (h.chan c) k i b d).cvuBlock c 0 k b.seq (List.replicate d.plain.length 0)).encStages c k b.seq b.odd []).levels c)

theorem Hw.encFinish_ka {i : Nat} {b : EncBlk} {d : RedBlk} (ka : b.format = 3) : h.encFinish c k i b d ups [] =
    (h.kaFinished c k i b d).sealCheck c k b.clear
      ((h.chan c).sealWords k.toNat ((h.chan c).circ! k) b ((h.chan c).sealedKa k b d.plain.length).1 d.span) ups := by
  unfold Hw.encFinish
  rw [ka]
  simp only [ite_self]
  rfl

end

/-! ## What the checks after a block leave -/

section
variable (h : Hw) (c : ChanId) (k : CircId)

theorem Hw.raiseInj_local (unit cls kind addr : Nat) : (h.raiseInj c unit cls kind addr).Local h c := by
  unfold Hw.raiseInj
  split
  · constructor <;> simp
  · exact .refl h c

theorem Hw.Local.ite {p : Prop} [Decidable p] {t u h : Hw} {c : ChanId} (a : t.Local h c) (b : u.Local h c) : (if p then t else u).Local h c := by
  split <;> assumption

theorem Hw.stageFail_local (n : Fin 16) (sealed inj : Bool) : (h.stageFail c k n sealed inj).Local h c := by
  unfold Hw.stageFail
  extract_lets addr h1 h2 h3 raise
  have noted : h3.Local h c := (Hw.chEvent_local h2 c _ _ _).trans ((Hw.setChReg_local h1 c _ _).trans (.ite (.refl h c) (h.onChan_local c _)))
  have told (cls kind : Nat) : (raise cls kind addr).Local h3 c := by
    by_cases injected : inj = true
    · have is : raise = h3.raiseInj c 10 := if_pos injected
      rw [is]
      exact h3.raiseInj_local c _ _ _ _
    · have is : raise = h3.raiseChan c 10 := if_neg injected
      rw [is]
      exact h3.raiseChan_local c c _ _ _ _
  exact .trans (.ite (told _ _) (.ite (told _ _) (told _ _))) noted

/-- With no unit presented only an armed inversion can fail a check. -/
theorem Hw.encStages_local (seq : Seq) (odd : Bool) : (h.encStages c k seq odd []).Local h c := by
  have stages : ((h.stages c k seq.toNat [3, 4, 5, 6] []).2).Local h c := by
    unfold Hw.stages
    extract_lets x lcid bad h1 cut
    have same : h1 = h := rfl
    split
    · split
      · exact (Hw.stageFail_local _ c k _ _ _).trans ((Hw.onChan_local _ c _).trans (h.onChan_local c _))
      · exact .refl h c
    · exact .refl h c
  unfold Hw.encStages
  extract_lets r
  exact .ite ((Hw.onCirc_local _ c k _).trans stages) stages

theorem Hw.encStages_none (seq : Seq) (odd : Bool) (unarmed : (h.chan c).cvu.inj = none) : h.encStages c k seq odd [] = h := by
  have stages : h.stages c k seq.toNat [3, 4, 5, 6] [] = (false, h) := by
    unfold Hw.stages
    dsimp only
    rw [List.filter_nil, List.foldl_nil, unarmed]
    rfl
  rw [Hw.encStages, stages]
  exact if_neg Bool.false_ne_true

theorem Hw.cvuBlock_local (point : Nat) (seq : Seq) (l : List Byte) : (h.cvuBlock c point k seq l).Local h c :=
  .ite ((Hw.chEvent_local _ c _ _ _).trans (h.onChan_local c _)) (h.onChan_local c _)

/-- A block that passes a snoop point touches the check-value units, and their event. -/
theorem Hw.cvuBlock_keeps {γ : Type} (p : Hw → γ) (units : ∀ v : Chan → Vector Cvu 8, p (h.onChan c fun x => { x with cvu := { x.cvu with unit := v x } }) = p h)
    (event : ∀ (h : Hw) o j fl, p (h.chEvent c o j fl) = p h) (point : Nat) (seq : Seq) (l : List Byte) :
    p (h.cvuBlock c point k seq l) = p h :=
  ite_keeps ((event _ _ _ _).trans (units fun _ => _)) (units fun _ => _)

theorem Hw.levels_local : (h.levels c).Local h c := (h.levels_step c .red).here

theorem Hw.levels_keeps {γ : Type} (p : Hw → γ) (put : ∀ (h : Hw) (off : Nat) (w : Word), p (h.setChReg c off w) = p h)
    (told : ∀ (h : Hw) (src : Nat), p (h.notify src) = p h) : p (h.levels c) = p h := by
  unfold Hw.levels
  extract_lets x pay enc w q ds h1
  iterate 7 refine (Hw.level_keeps p c put told _ _ _).trans ?_
  rfl

end

section
variable {h : Hw} {c : ChanId} {k : CircId} {i : Nat} {b : EncBlk} {d : RedBlk}

theorem Hw.kaFinished_local : (h.kaFinished c k i b d).Local h c :=
  (Hw.levels_local _ c).trans ((Hw.encStages_local _ c k _ _).trans ((Hw.cvuBlock_local _ c k _ _ _).trans (h.onCirc_local c k _)))

/-- With no inversion armed nothing is raised, and the circuits are those with the block ended. -/
theorem Hw.kaFinished_keeps {γ : Type} (p : Hw → γ) (unarmed : (h.chan c).cvu.inj = none)
    (put : ∀ (h : Hw) (off : Nat) (w : Word), p (h.setChReg c off w) = p h) (told : ∀ (h : Hw) (src : Nat), p (h.notify src) = p h)
    (units : ∀ (h : Hw) (v : Chan → Vector Cvu 8), p (h.onChan c fun x => { x with cvu := { x.cvu with unit := v x } }) = p h)
    (event : ∀ (h : Hw) o j fl, p (h.chEvent c o j fl) = p h) :
    p (h.kaFinished c k i b d) = p (h.onCirc c k fun y => y.kaEnded (h.chan c) k i b d) := by
  have still : (((h.onCirc c k fun y => y.kaEnded (h.chan c) k i b d).cvuBlock c 0 k b.seq (List.replicate d.plain.length 0)).chan c).cvu.inj = none := by
    refine (Hw.cvuBlock_keeps _ c k (fun u => (u.chan c).cvu.inj) ?_ ?_ _ _ _).trans ?_
    · simp
    · simp
    · rw [Hw.onCirc_chan, if_pos rfl]
      exact unarmed
  unfold Hw.kaFinished
  rw [Hw.encStages_none _ c k _ _ still]
  exact (Hw.levels_keeps _ c p put told).trans (Hw.cvuBlock_keeps _ c k p (units _) event _ _ _)

theorem Hw.kaFinished_circ (unarmed : (h.chan c).cvu.inj = none) :
    ((h.kaFinished c k i b d).chan c).circ! k = ((h.chan c).circ! k).kaEnded (h.chan c) k i b d := by
  have circ := Hw.kaFinished_keeps (k := k) (i := i) (b := b) (d := d) (fun u => (u.chan c).circ) unarmed (by simp) (by simp) (by simp) (by simp)
  rw [Chan.circ!, circ, ← Chan.circ!, Hw.onCirc_chan, if_pos rfl, Chan.circ_setCirc, if_pos rfl]

theorem Hw.kaFinished_fcl (unarmed : (h.chan c).cvu.inj = none) : (h.kaFinished c k i b d).dev.fcl = h.dev.fcl :=
  Hw.kaFinished_keeps (fun u => u.dev.fcl) unarmed (by simp) (by simp) (by simp) (by simp)

end

/-- The ended block stands in its place, and what its circuit had gathered of violations is spent. -/
theorem Circ.kaEnded_block {y : Circ} {x : Chan} {k : CircId} {i : Nat} {b : EncBlk} {d : RedBlk} (at_ : y.enc[i]? = some b) :
    (y.kaEnded x k i b d).enc[i]? = some (b.ended x k d b) ∧ (y.kaEnded x k i b d).ectAcc = 0 := by
  have put : (y.enc.modify i (b.ended x k d))[i]? = some (b.ended x k d b) := by
    rw [List.getElem?_modify_eq, at_]
    rfl
  unfold Circ.kaEnded Circ.putTrailer
  split
  · exact ⟨(List.getElem?_modify_ne _ _ (Nat.succ_ne_self i)).trans put, rfl⟩
  · exact ⟨put, rfl⟩

/-! ## O32 -/

section
variable {s : State} {c : ChanId} {k : CircId} {sp : LineSpan} {gone : List (Nat × Nat)} {i : Nat} {b : EncBlk}

/-- The hardware whose RED lane stands after a block. -/
def Hw.redTaken (h : Hw) (c : ChanId) (d : RedBlk) : Hw := h.onLane c .red fun l => { l with rd := d.rd }

theorem Hw.redTaken_chan (h : Hw) (c : ChanId) (d : RedBlk) : (h.redTaken c d).chan c = { h.chan c with red := { (h.chan c).red with rd := d.rd } } := by
  rw [Hw.redTaken, Hw.onLane_chan, if_pos rfl]
  rfl

theorem Hw.redTaken_local (h : Hw) (c : ChanId) (d : RedBlk) : (h.redTaken c d).Local h c := (h.onLane_step c .red _).here

theorem Hw.encEnd_ka {h : Hw} {ups : List (Nat × W40)} (first : ((h.chan c).circ! k).openBlock = some (i, b)) (kept : b.lost = 0) (ka : b.format = 3) :
    let d := (h.chan c).redOf k b gone sp
    h.encEnd c k sp gone ups [] = ((h.redTaken c d).kaFinished c k i b d).sealCheck c k b.clear
      ((h.chan c).sealWords k.toNat ((h.chan c).circ! k) b ((h.chan c).sealedKa k b d.plain.length).1 d.span) ups := by
  intro d
  rw [Hw.encEnd_open first kept, Hw.encFinish_ka ka]
  have same := h.redTaken_chan c d
  unfold Hw.redTaken at same ⊢
  rw [same]
  rfl

/-- A keep-alive block that no fault upsets ends sealed (R48, R183, R221). -/
theorem completes_encBlockEnd_ka (works : s.hw.works = true) (active : (s.hw.chan c).st = .active)
    (first : ((s.hw.chan c).circ! k).openBlock = some (i, b)) (at_ : ((s.hw.chan c).circ! k).enc[i]? = some b) (kept : b.lost = 0) (ka : b.format = 3)
    (unarmed : (s.hw.chan c).cvu.inj = none) :
    Completes (.encBlockEnd c k sp ⟨gone, []⟩ []) s fun t =>
      ((t.chan c).circ! k).enc[i]? = some (b.ended (s.hw.chan c) k ((s.hw.chan c).redOf k b gone sp) b)
      ∧ ((t.chan c).circ! k).ectAcc = 0 ∧ t.noMsg s.hw ∧ t.Local s.hw c := by
  refine .byOnActive c (·.encEnd c k sp gone [] []) rfl works active ?_
  have same := s.hw.redTaken_chan c ((s.hw.chan c).redOf k b gone sp)
  have unarmed' : ((s.hw.redTaken c ((s.hw.chan c).redOf k b gone sp)).chan c).cvu.inj = none := by
    rw [same]
    exact unarmed
  rw [Hw.encEnd_ka first kept ka, Hw.sealCheck, Chan.sealWords, if_pos blockWords_ok]
  have circ := Hw.kaFinished_circ (k := k) (i := i) (b := b) (d := (s.hw.chan c).redOf k b gone sp) unarmed'
  rw [same] at circ
  obtain ⟨block, acc⟩ := Circ.kaEnded_block (x := s.hw.chan c) (k := k) (d := (s.hw.chan c).redOf k b gone sp) at_
  exact ⟨by rw [circ]; exact block, by rw [circ]; exact acc, congrArg Fcl.slots (Hw.kaFinished_fcl unarmed'),
    Hw.kaFinished_local.trans (s.hw.redTaken_local c _)⟩

/-- What the seal check turns away is the end of the module's work (R35, R371). -/
theorem Hw.sealCheck_fails {h u : Hw} {clear : Bool} {words : List W40} {ups : List (Nat × W40)} (works : h.works = true)
    (up : h.dev.boot.st ≠ .supplyUp) (here : u.Local h c) (bad : sealsOk clear words ups = false) :
    (u.sealCheck c k clear words ups).inMw = true ∧ (u.sealCheck c k clear words ups).keyless := by
  have works' : u.works = true := by rw [Hw.works_congr here.boot]; exact works
  rw [Hw.sealCheck, if_neg (by rw [bad]; exact Bool.false_ne_true)]
  have by_ := Hw.trigger_works works' (by rw [here.boot]; exact up) c.val 5 0x2F k.toNat
  exact ⟨by_.entered, by_.noKeys⟩

end

/-- Settles O32: a keep-alive block that no fault upsets is sealed and passes the seal check; what is not as the encrypt side builds it
does not. -/
theorem encryptBlockEnds : Obligations.EncryptBlockEnds := by
  refine ⟨fun s c k sp gone i b kd works active => ?_, fun s c k sp gone i b v works up active => ?_,
    fun s c k sp gone ups works up active done bad => ?_⟩
  · intro y found at_ kept ka kind unarmed g d n head o
    have first : ((s.hw.chan c).circ! k).openBlock = some (i, b) := Circ.openBlock_some found at_
    refine (completes_encBlockEnd_ka works active first at_ kept ka unarmed).mono fun t shows => ?_
    have tag : (((s.hw.chan c).kindOf ((s.hw.chan c).circ! k)).map (·.tagLen)).getD 12 = kd.tagLen := by
      rw [kind]
      rfl
    have sealed : (s.hw.chan c).sealedKa k b n =
        (if b.clear then List.replicate n 0 else o.1, mkTrailer head (if b.clear then List.replicate kd.tagLen 0 else o.2) y.lcid) := by
      unfold Chan.sealedKa
      dsimp only
      rw [tag]
    have ended : b.ended (s.hw.chan c) k d b = { b with
        done := true, ect := 0, aps := (s.hw.chan c).psw.st.code, body := ((s.hw.chan c).sealedKa k b n).1,
        trailer := ((s.hw.chan c).sealedKa k b n).2, span := d.span, held := [] } := by
      rw [EncBlk.ended, ← ka]
    obtain ⟨block, acc, quiet, here⟩ := shows
    exact ⟨block.trans (congrArg some (ended.trans (by rw [sealed]))), acc, quiet, here⟩
  · intro y found at_ kept ka d z head full fault
    refine .byOnActive c (·.encEnd c k sp gone [(0, v)] []) rfl works active ?_
    have first : ((s.hw.chan c).circ! k).openBlock = some (i, b) := Circ.openBlock_some found at_
    rw [Hw.encEnd_ka first kept ka]
    refine Hw.sealCheck_fails works up (Hw.kaFinished_local.trans (s.hw.redTaken_local c _)) ?_
    exact blockWords_upset full fault
  · refine .byOnActive c (·.encEnd c k sp gone ups []) rfl works active ?_
    obtain ⟨d, is⟩ := Hw.encEnd_none (sp := sp) (gone := gone) (ups := ups) (checks := []) (Circ.openBlock_none done)
    rw [is]
    refine Hw.sealCheck_fails works up ((Hw.onCirc_local _ c k _).trans (s.hw.redTaken_local c d)) ?_
    obtain ⟨u, own, rejected⟩ := bad
    have seen : ((0 : W40), u.2) ∈ upsetWords [] ups := List.mem_append_right _ (List.mem_map.mpr ⟨u, by simpa using own, rfl⟩)
    refine Bool.eq_false_iff.mpr fun ok => ?_
    have accepted := List.all_eq_true.mp ok _ seen
    have plain : ¬ (0 : W40).kind = 3 := by decide
    rw [if_neg plain] at accepted
    exact absurd (accepted.symm.trans rejected) Bool.noConfusion

end Sys2Proof.Machine
end

section
/-!
PROOF. Release on the encrypt side (O33): bits placed are the bits taken, what is scrambled is descrambled, and what a block leaves on the
black lanes.
-/
namespace Sys2Proof.Machine

/-! ## Bits and numbers -/

theorem natOf_foldl (l : List Bool) : ∀ a, l.foldl (fun a b => 2 * a + b2n b) a = a * 2 ^ l.length + natOf l := by
  induction l with
  | nil => intro a; simp [natOf]
  | cons b t ih =>
    intro a
    rw [natOf, List.foldl_cons, List.foldl_cons, ih, ih, List.length_cons, Nat.pow_succ]
    ring

theorem natOf_cons (b : Bool) (t : List Bool) : natOf (b :: t) = b2n b * 2 ^ t.length + natOf t := by
  rw [natOf, List.foldl_cons, natOf_foldl]
  ring

theorem natOf_lt (l : List Bool) : natOf l < 2 ^ l.length := by
  induction l with
  | nil => decide
  | cons b t ih =>
    have flag := b2n_le b
    rw [natOf_cons, List.length_cons, Nat.pow_succ]
    nlinarith

@[simp] theorem bitsOf_length (n v : Nat) : (bitsOf n v).length = n := by rw [bitsOf, List.length_map, List.length_range]

theorem bitsOf_succ (n v : Nat) : bitsOf (n + 1) v = v.testBit n :: bitsOf n v := by
  rw [bitsOf, List.range_succ_eq_map, List.map_cons, List.map_map, bitsOf]
  refine congrArg₂ List.cons rfl (List.map_congr_left fun i _ => ?_)
  have place : n + 1 - 1 - (i + 1) = n - 1 - i := by omega
  exact congrArg v.testBit place

theorem bitsOf_mod (n : Nat) {v w : Nat} (same : v % 2 ^ n = w % 2 ^ n) : bitsOf n v = bitsOf n w := by
  refine List.map_congr_left fun i mem => ?_
  have below : n - 1 - i < n := by have := List.mem_range.mp mem; omega
  have bits := congrArg (fun u => Nat.testBit u (n - 1 - i)) same
  simpa only [Nat.testBit_mod_two_pow, below, decide_true, Bool.true_and] using bits

theorem b2n_eq_toNat (b : Bool) : b2n b = b.toNat := by cases b <;> rfl

theorem natOf_bitsOf (n v : Nat) : natOf (bitsOf n v) = v % 2 ^ n := by
  induction n with
  | zero => rw [Nat.pow_zero, Nat.mod_one]; rfl
  | succ n ih => rw [bitsOf_succ, natOf_cons, ih, bitsOf_length, Nat.mod_pow_succ, b2n_eq_toNat, Nat.toNat_testBit]; ring

/-- A bit string is what its number spells. -/
theorem bitsOf_natOf (l : List Bool) : bitsOf l.length (natOf l) = l := by
  induction l with
  | nil => rfl
  | cons b t ih =>
    have small := natOf_lt t
    have top : (natOf (b :: t)).testBit t.length = b := by
      rw [natOf_cons, Nat.testBit_eq_decide_div_mod_eq, Nat.add_comm, Nat.add_mul_div_right _ _ (Nat.two_pow_pos _), Nat.div_eq_of_lt small]
      cases b <;> rfl
    rw [List.length_cons, bitsOf_succ, top]
    refine congrArg (List.cons b) ((bitsOf_mod _ ?_).trans ih)
    rw [natOf_cons, Nat.mul_add_mod_self_right]

/-- A word is what its bits spell. -/
theorem ofNat_natOf_bitsOf {n : Nat} (v : BitVec n) : BitVec.ofNat n (natOf (bitsOf n v.toNat)) = v := by
  refine BitVec.eq_of_toNat_eq ?_
  rw [natOf_bitsOf, BitVec.toNat_ofNat, Nat.mod_mod, Nat.mod_eq_of_lt v.isLt]

theorem bitsOf_ofNat {n : Nat} {l : List Bool} (len : l.length = n) : bitsOf n (BitVec.ofNat n (natOf l)).toNat = l := by
  have small := natOf_lt l
  rw [len] at small
  rw [BitVec.toNat_ofNat, Nat.mod_eq_of_lt small]
  subst len
  exact bitsOf_natOf l

/-! ## Scrambling -/

/-- What is scrambled is descrambled, and both registers hold what was sent. -/
theorem descramble_scramble (l : List Bool) : ∀ r : Scr, descramble r (scramble r l).1 = (l, (scramble r l).2) := by
  induction l with
  | nil => exact fun _ => rfl
  | cons b t ih =>
    intro r
    simp only [scramble, descramble, ih]
    cases b <;> cases r.getLsbD 38 <;> cases r.getLsbD 57 <;> rfl

theorem through_descramble (l : List Block66) : ∀ r : Scr, (through descramble r (through scramble r l).1).1 = l := by
  induction l with
  | nil => exact fun _ => rfl
  | cons b t ih =>
    intro r
    have sent : bitsOf 64 (BitVec.ofNat 64 (natOf (scramble r (bitsOf 64 b.pay.toNat)).1)).toNat = (scramble r (bitsOf 64 b.pay.toNat)).1 :=
      bitsOf_ofNat (by rw [scramble_length, bitsOf_length])
    simp only [through, sent, descramble_scramble, ofNat_natOf_bitsOf, ih]

/-! ## Bits placed and taken -/

theorem fitBits_zero (l : List Bool) : fitBits 0 l = [] := by rw [fitBits, List.take_zero]

theorem fitBits_succ (n : Nat) (l : List Bool) : fitBits (n + 1) l = l.headD false :: fitBits n l.tail := by
  cases l with
  | nil => simp [fitBits, List.replicate_succ]
  | cons b t => simp [fitBits]

theorem fitBits_add (m n : Nat) : ∀ l : List Bool, fitBits (m + n) l = fitBits m l ++ fitBits n (l.drop m) := by
  induction m with
  | zero => intro l; rw [Nat.zero_add, fitBits_zero, List.drop_zero, List.nil_append]
  | succ m ih =>
    intro l
    rw [Nat.succ_add, fitBits_succ, fitBits_succ, ih, List.cons_append, List.drop_tail]

/-- Bits replaced under a mask by the next of a string, and the rest of that string. -/
def placeOver : List (Bool × Bool) → List Bool → List Bool × List Bool
  | [], bs => ([], bs)
  | e :: t, bs => if e.1 then (bs.headD false :: (placeOver t bs.tail).1, (placeOver t bs.tail).2) else (e.2 :: (placeOver t bs).1, (placeOver t bs).2)

@[simp] theorem placeOver_length (z : List (Bool × Bool)) : ∀ bs, (placeOver z bs).1.length = z.length := by
  induction z with
  | nil => exact fun _ => rfl
  | cons e t ih => intro bs; unfold placeOver; split <;> simp [ih]

/-- The bits of a string under a mask. -/
def underMask (ms l : List Bool) : List Bool := (ms.zip l).filterMap fun e => if e.1 then some e.2 else none

theorem putByte_foldl (z : List (Bool × Bool)) : ∀ (a : Nat) (bs : List Bool),
    z.foldl (fun (a : Nat × List Bool) e => if e.1 then (a.1 * 2 + b2n (a.2.headD false), a.2.tail) else (a.1 * 2 + b2n e.2, a.2)) (a, bs)
      = (a * 2 ^ z.length + natOf (placeOver z bs).1, (placeOver z bs).2) := by
  induction z with
  | nil => intro a bs; simp [placeOver, natOf]
  | cons e t ih =>
    intro a bs
    rw [List.foldl_cons, placeOver]
    split <;> rw [ih, List.length_cons, natOf_cons, placeOver_length, Nat.pow_succ] <;> refine Prod.ext ?_ rfl <;> ring

/-- A byte with bits placed under a mask. -/
theorem putByte_bits (m b : Byte) (bs : List Bool) :
    byteBits (putByte m b bs).1 = (placeOver ((byteBits m).zip (byteBits b)) bs).1
    ∧ (putByte m b bs).2 = (placeOver ((byteBits m).zip (byteBits b)) bs).2 := by
  have len : ((byteBits m).zip (byteBits b)).length = 8 := by simp [byteBits]
  have fold := putByte_foldl ((byteBits m).zip (byteBits b)) 0 bs
  rw [Nat.zero_mul, Nat.zero_add] at fold
  unfold putByte
  dsimp only
  rw [fold]
  exact ⟨bitsOf_ofNat (by rw [placeOver_length, len]), rfl⟩

section
variable (ms : List Bool)

/-- The bits placed under a mask are the bits that stand there. -/
theorem underMask_placeOver : ∀ (l bs : List Bool), ms.length = l.length →
    underMask ms (placeOver (ms.zip l) bs).1 = fitBits (ms.filter id).length bs ∧ (placeOver (ms.zip l) bs).2 = bs.drop (ms.filter id).length := by
  induction ms with
  | nil => exact fun l bs _ => ⟨(fitBits_zero bs).symm, rfl⟩
  | cons m t ih =>
    intro l bs len
    obtain ⟨b, r, rfl⟩ := List.exists_cons_of_length_pos (l := l) (by rw [← len]; exact Nat.succ_pos _)
    have len' : t.length = r.length := by simpa using len
    cases m
    · obtain ⟨take, rest⟩ := ih r bs len'
      exact ⟨take, rest⟩
    · obtain ⟨take, rest⟩ := ih r bs.tail len'
      refine ⟨(congrArg (List.cons (bs.headD false)) take).trans (fitBits_succ _ bs).symm, rest.trans ?_⟩
      rw [List.drop_tail]
      rfl

/-- Bits placed under a mask leave the bits under a mask apart from it. -/
theorem underMask_placeOver_apart : ∀ (l ms' bs : List Bool), ms.length = l.length → (∀ e ∈ ms.zip ms', ¬(e.1 = true ∧ e.2 = true)) →
    underMask ms' (placeOver (ms.zip l) bs).1 = underMask ms' l := by
  induction ms with
  | nil =>
    intro l ms' bs len _
    rw [List.length_nil] at len
    rw [List.eq_nil_of_length_eq_zero len.symm]
    rfl
  | cons m t ih =>
    intro l ms' bs len apart
    obtain ⟨b, r, rfl⟩ := List.exists_cons_of_length_pos (l := l) (by rw [← len]; exact Nat.succ_pos _)
    have len' : t.length = r.length := by simpa using len
    cases ms' with
    | nil => rfl
    | cons m' t' =>
      have here := apart (m, m') List.mem_cons_self
      have later (bs : List Bool) := ih r t' bs len' fun e mem => apart e (List.mem_cons_of_mem _ mem)
      cases m
      · cases m'
        · exact later bs
        · exact congrArg (List.cons b) (later bs)
      · cases m'
        · exact later bs.tail
        · exact absurd ⟨rfl, rfl⟩ here

end

/-! ## Containers -/

theorem pickBits_eq (m b : Byte) : pickBits m b = underMask (byteBits m) (byteBits b) := rfl

@[simp] theorem byteBits_length (b : Byte) : (byteBits b).length = 8 := bitsOf_length 8 _

/-- The count of the places that masks name. -/
def maskCount (f : Mask → Byte) (ms : List Mask) : Nat := (ms.flatMap fun m => (byteBits (f m)).filter id).length

theorem maskCount_cons (f : Mask → Byte) (m : Mask) (ms : List Mask) :
    maskCount f (m :: ms) = ((byteBits (f m)).filter id).length + maskCount f ms := by
  rw [maskCount, List.flatMap_cons, List.length_append, maskCount]

theorem takeBits_cons (f : Mask → Byte) (m : Mask) (ms : List Mask) (b : Byte) (l : List Byte) :
    takeBits f (m :: ms) (b :: l) = pickBits (f m) b ++ takeBits f ms l := by rw [takeBits, List.zip_cons_cons, List.flatMap_cons, takeBits]

/-- What is placed under masks is what is taken under them (R46). -/
theorem takeBits_putBits (f : Mask → Byte) (ms : List Mask) : ∀ (l : List Byte) (bs : List Bool), ms.length = l.length →
    takeBits f ms (putBits f ms l bs) = fitBits (maskCount f ms) bs := by
  induction ms with
  | nil => exact fun l bs _ => (fitBits_zero bs).symm
  | cons m t ih =>
    intro l bs len
    obtain ⟨b, r, rfl⟩ := List.exists_cons_of_length_pos (l := l) (by rw [← len]; exact Nat.succ_pos _)
    obtain ⟨bits, rest⟩ := putByte_bits (f m) b bs
    obtain ⟨own, left⟩ := underMask_placeOver (byteBits (f m)) (byteBits b) bs (by simp)
    rw [putBits, takeBits_cons, pickBits_eq, bits, own, rest, left, ih _ _ (by simpa using len), maskCount_cons, fitBits_add]

/-- What is placed under masks leaves what masks apart from them take. -/
theorem takeBits_putBits_apart (f g : Mask → Byte) (ms : List Mask) : ∀ (l : List Byte) (bs : List Bool), ms.length = l.length →
    (∀ m ∈ ms, ∀ e ∈ (byteBits (f m)).zip (byteBits (g m)), ¬(e.1 = true ∧ e.2 = true)) →
    takeBits g ms (putBits f ms l bs) = takeBits g ms l := by
  induction ms with
  | nil => exact fun _ _ _ _ => rfl
  | cons m t ih =>
    intro l bs len apart
    obtain ⟨b, r, rfl⟩ := List.exists_cons_of_length_pos (l := l) (by rw [← len]; exact Nat.succ_pos _)
    rw [putBits, takeBits_cons, takeBits_cons, pickBits_eq, (putByte_bits (f m) b bs).1,
      underMask_placeOver_apart _ _ _ _ (by simp) (apart m List.mem_cons_self), ih _ _ (by simpa using len) fun m mem => apart m (List.mem_cons_of_mem _ mem)]
    rfl

/-- No place of a byte is both a payload and a reclaim place. -/
def Mask.apart (m : Mask) : Prop := ∀ e ∈ (byteBits m.rcl).zip (byteBits m.pay), ¬(e.1 = true ∧ e.2 = true)

theorem Mask.apart_of_no_reclaim (p : Byte) : (⟨p, 0⟩ : Mask).apart := fun e mem both => by
  have none : ∀ b ∈ byteBits (0 : Byte), b = false := by decide
  exact absurd (both.1.symm.trans (none _ (List.of_mem_zip mem).1)) Bool.noConfusion

theorem Mask.apart_of_no_payload (r : Byte) : (⟨0, r⟩ : Mask).apart := fun e mem both => by
  have none : ∀ b ∈ byteBits (0 : Byte), b = false := by decide
  exact absurd (both.2.symm.trans (none _ (List.of_mem_zip mem).2)) Bool.noConfusion

theorem maskVc12_apart (sub byte : Nat) : (maskVc12 sub byte).apart := by
  have shared : (⟨0x01, 0x3E⟩ : Mask).apart := by unfold Mask.apart; decide
  unfold maskVc12
  split
  · exact Mask.apart_of_no_payload _
  · split
    · exact Mask.apart_of_no_payload _
    · split
      · split
        · exact Mask.apart_of_no_payload _
        · split
          · exact shared
          · exact Mask.apart_of_no_payload _
      · exact Mask.apart_of_no_reclaim _

theorem maskVc11_apart (sub byte : Nat) : (maskVc11 sub byte).apart := by
  have last : (⟨0x07, 0x38⟩ : Mask).apart := by unfold Mask.apart; decide
  have other : (⟨0x02, 0x3D⟩ : Mask).apart := by unfold Mask.apart; decide
  unfold maskVc11
  split
  · exact Mask.apart_of_no_payload _
  · split
    · split
      · exact Mask.apart_of_no_payload _
      · split
        · exact last
        · exact other
    · exact Mask.apart_of_no_reclaim _

theorem maskHigh_apart (n row col : Nat) : (maskHigh n row col).apart := by
  unfold maskHigh
  split
  · split <;> exact Mask.apart_of_no_payload _
  · split
    · exact Mask.apart_of_no_payload _
    · exact Mask.apart_of_no_reclaim _

theorem maskOdu_apart (row col : Nat) : (maskOdu row col).apart := by
  unfold maskOdu
  split
  · exact Mask.apart_of_no_reclaim _
  · split <;> exact Mask.apart_of_no_payload _

/-- No byte of a container holds a bit of the payload and of the reclaim sequence alike (R58). -/
theorem layoutOf_apart (kind i : Nat) : (layoutOf kind i).apart := by
  unfold layoutOf
  split
  · exact maskVc11_apart _ _
  · split
    · exact maskVc12_apart _ _
    · repeat' split
      iterate 5 exact maskHigh_apart _ _ _
      exact maskOdu_apart _ _

/-- A container gives back the payload and the reclaim sequence that are placed in it (R46). -/
theorem takeBits_placeBlock (kind : Nat) (l pay : List Byte) (rec : List Bool) :
    takeBits Mask.rcl (masks kind) (placeBlock kind l pay rec) = fitBits (maskCount Mask.rcl (masks kind)) rec
    ∧ takeBits Mask.pay (masks kind) (placeBlock kind l pay rec) = fitBits (maskCount Mask.pay (masks kind)) (bytesBits pay) := by
  have len : (masks kind).length = (fit (blockFrames kind * frameLen kind) l).length := by
    rw [masks, List.length_map, List.length_range, fit, List.length_take, List.length_append, List.length_replicate]
    omega
  have apart : ∀ m ∈ masks kind, m.apart := fun m mem => by
    obtain ⟨i, _, rfl⟩ := List.mem_map.mp mem
    exact layoutOf_apart kind _
  unfold placeBlock
  exact ⟨takeBits_putBits _ _ _ _ (by rw [putBits_length]; exact len),
    (takeBits_putBits_apart _ _ _ _ _ (by rw [putBits_length]; exact len) apart).trans (takeBits_putBits _ _ _ _ len)⟩

/-! ## What is due on the black lanes -/

/-- What holds a block's container beside its payload and its reclaim sequence. -/
def Due.span : Due → Option LineSpan
  | .block b => b.span
  | _ => none

/-- The trailer of a 1GE block. -/
def Due.trl : Due → List Byte
  | .block b => if b.lost = 0 then fit 21 b.carries else []
  | _ => []

/-- The payload and the reclaim sequence that are due. -/
def Chan.dueBits (x : Chan) (n : Nat) (y : Circ) : Due → List Byte × List Bool
  | .block b => x.blockBits n y b
  | _ => ([], [])

/-- A circuit's positions carry what is due (R23, R31, R48, R74, R76, R149). -/
theorem Chan.emitBlack_carries {x : Chan} {n : Nat} {k : CircId} {d : Due} (used : d ≠ .unused) :
    (x.circ! k).carries ((d.span.map LineSpan.toBytes).getD []) (x.dueBits n (x.circ! k) d).1 (x.dueBits n (x.circ! k) d).2 d.trl
      ((x.emitBlack n k d).circ! k).black := by
  have own (x : Chan) (y : Circ) : (x.setCirc k y).circ! k = y := (Chan.circ_setCirc _ _ _ _).trans (if_pos rfl)
  unfold Chan.emitBlack
  extract_lets y kind put span bits unused mep sub l r r' r'' base r'''
  have out : ¬ unused = true := fun is => used (of_decide_eq_true is)
  have bitsIs : bits = x.dueBits n y d := by cases d <;> rfl
  refine ⟨fun frac => ?_, fun xge => ?_, fun ge => ?_, fun frac framed => ?_⟩
  · rw [if_pos frac, if_neg out]
    exact ⟨sub, congrArg Circ.black (own _ _), by rw [← bitsIs], by rw [← bitsIs], rfl⟩
  · have notFrac : ¬ isFrac kind = true := fun is => absurd (xge ▸ is : isFrac 0x0D = true) (by decide)
    have blocks : l = xgeBlocks (xgeStream bits.1 bits.2) := if_neg out
    rw [if_neg notFrac, if_pos xge, own, ← bitsIs, ← blocks]
    rfl
  · have notFrac : ¬ isFrac kind = true := fun is => absurd (ge ▸ is : isFrac 0x0E = true) (by decide)
    have notXge : ¬ kind = 0x0D := fun is => absurd (ge.symm.trans is) (by decide)
    have trl : r'' = geBlack y.rdB bits.1 d.trl := by cases d <;> rfl
    rw [if_neg notFrac, if_neg notXge, if_pos ge, if_neg out, own, ← bitsIs]
    exact congrArg (fun o => LineOut.line (.codes o.1)) trl
  · obtain ⟨notXge, notGe⟩ := Chan.not_ethernet (x := x) (k := k) (.inr framed)
    have spanIs : span = d.span := by cases d <;> rfl
    have block : r''' = regen kind 0 y.parB (placeBlock kind ((d.span.map LineSpan.toBytes).getD []) bits.1 bits.2) := by
      have held : base = (d.span.map LineSpan.toBytes).getD [] := (if_neg out).trans (by rw [spanIs])
      rw [← held]
      exact congrArg (regen kind 0 y.parB) (if_neg out)
    rw [if_neg (ne_true_of_eq_false frac), if_neg notXge, if_neg notGe, if_neg fun both => out (Bool.and_eq_true_iff.mp both).2, if_neg framed, own,
      ← bitsIs]
    exact congrArg (fun o : List Byte × Byte => LineOut.line (.bytes o.1)) block

/-! ## Releases -/

section
variable {h : Hw} {c : ChanId} {k : CircId} {b : EncBlk} {rest : List EncBlk}

/-- What a release leaves of a circuit whose oldest block goes: its positions, and the blocks behind. -/
def Hw.blockLeaves (h : Hw) (c : ChanId) (k : CircId) (d : Due) : Hw := (h.emitBlack c k d).onCirc c k Circ.popEnc

theorem Hw.blockLeaves_local (d : Due) : (h.blockLeaves c k d).Local h c := (Hw.onCirc_local _ c k _).trans (h.onChan_local c _)

theorem Hw.blockLeaves_chan (d : Due) : (h.blockLeaves c k d).chan c =
    ((h.chan c).emitBlack k.toNat k d).setCirc k (((h.chan c).emitBlack k.toNat k d).circ! k).popEnc := by
  rw [Hw.blockLeaves, Hw.onCirc_chan, if_pos rfl, Hw.emitBlack, Hw.onChan_chan, if_pos rfl]

theorem Hw.blockLeaves_enc {d : Due} (enc : ((h.chan c).circ! k).enc = b :: rest) : (((h.blockLeaves c k d).chan c).circ! k).enc = rest := by
  obtain ⟨o, w, scr, rd, par, own⟩ := (h.chan c).emitBlack_own (n := k.toNat) (k := k) d
  rw [Hw.blockLeaves_chan, Chan.circ_setCirc, if_pos rfl, own, Circ.popEnc, enc]
  rfl

theorem Hw.blockLeaves_carries {d : Due} (used : d ≠ .unused) :
    ((h.chan c).circ! k).carries ((d.span.map LineSpan.toBytes).getD []) ((h.chan c).dueBits k.toNat ((h.chan c).circ! k) d).1
      ((h.chan c).dueBits k.toNat ((h.chan c).circ! k) d).2 d.trl (((h.blockLeaves c k d).chan c).circ! k).black := by
  rw [Hw.blockLeaves_chan, Chan.circ_setCirc, if_pos rfl]
  exact Chan.emitBlack_carries used

theorem Hw.blockLeaves_ctr (d : Due) : ((h.blockLeaves c k d).chan c).ctr = (h.chan c).ctr := by
  obtain ⟨y, m, frame⟩ := (h.chan c).emitBlack_frame k.toNat k d
  rw [Hw.blockLeaves_chan, frame]
  rfl

theorem Hw.levels_circ (h : Hw) (c : ChanId) : ((h.levels c).chan c).circ = (h.chan c).circ :=
  h.levels_keeps c (fun u => (u.chan c).circ) (by simp) (by simp)

theorem Hw.levels_ctr (h : Hw) (c : ChanId) : ((h.levels c).chan c).ctr = (h.chan c).ctr :=
  h.levels_keeps c (fun u => (u.chan c).ctr) (by simp) (by simp)

theorem Hw.levels_fcl (h : Hw) (c : ChanId) : (h.levels c).dev.fcl = h.dev.fcl := h.levels_keeps c (fun u => u.dev.fcl) (by simp) (by simp)

/-- A finished block that holds no word of an episode leaves whole. -/
theorem Hw.encRelease_whole {first : Bool} (enc : ((h.chan c).circ! k).enc = b :: rest) (kept : b.lost = 0) (done : b.done = true) (sure : b.spec = false) :
    h.encRelease c k first true =
      (if b.guard then ((h.blockLeaves c k (.block b)).count c 0x10 0 1).count c 0x10 8 1 else (h.blockLeaves c k (.block b)).count c 0x10 0 1).levels c := by
  unfold Hw.encRelease
  dsimp only
  rw [enc]
  dsimp only
  rw [if_neg (not_not_intro kept), done, sure]
  rfl

/-- A lost block that was counted already leaves, and fill with it. -/
theorem Hw.encRelease_lost {first : Bool} (enc : ((h.chan c).circ! k).enc = b :: rest) (lost : b.lost = 1) (missed : b.missed = true) :
    h.encRelease c k first true =
      ((h.onCirc c k fun y => { y with enc := y.enc.modify 0 fun b => { b with missed := true } }).blockLeaves c k .fill).levels c := by
  unfold Hw.encRelease
  dsimp only
  rw [enc]
  dsimp only
  rw [if_pos (by rw [lost]; decide), Hw.releaseLost, missed, lost]
  rfl

/-- A block that misses its release point wholly. -/
def EncBlk.missedWhole (b : EncBlk) : EncBlk := { b with lost := 1, cause := 0, body := [], trailer := [] }

/-- A circuit whose oldest block has missed its release point: its successor carries a null trailer (R54). -/
def Circ.missedFirst (y : Circ) : Circ :=
  { ({ y with enc := y.enc.modify 0 EncBlk.miss }.loseEnc (fun _ => false) 0) with prevTrailer := if (y.enc.modify 0 EncBlk.miss).length = 1 then [] else y.prevTrailer }

/-- A block with words of an episode misses its release point. -/
theorem Hw.encRelease_missed (enc : ((h.chan c).circ! k).enc = b :: rest) (kept : b.lost = 0) (unsure : b.spec = true) (fresh : b.started = false)
    (new : b.missed = false) :
    h.encRelease c k true false =
      (((h.onCirc c k Circ.missedFirst).fill c k false 0 0).onCirc c k fun y =>
        { y with enc := y.enc.modify 0 fun b => { b with missed := true } }).levels c := by
  unfold Hw.encRelease
  dsimp only
  rw [enc]
  dsimp only
  rw [if_neg (not_not_intro kept), unsure, Bool.true_or, if_pos rfl, Hw.releaseLost, EncBlk.miss, fresh, new]
  rfl

/-- The oldest block is the one that missed. -/
theorem Circ.missedFirst_head {y : Circ} (enc : y.enc = b :: rest) (fresh : b.started = false) :
    y.missedFirst.enc.head? = some b.missedWhole ∧ y.missedFirst.black = y.black := by
  refine ⟨?_, rfl⟩
  have miss : b.miss = b.missedWhole := by rw [EncBlk.miss, EncBlk.missedWhole, fresh]; rfl
  rw [← miss, Circ.missedFirst, Circ.loseEnc]
  dsimp only
  rw [enc, List.modify_zero_cons]
  rfl

end

/-- What a release shows of its channel. -/
theorem Hw.leaves_shows {h t : Hw} {c : ChanId} (circ : (t.chan c).circ = (h.chan c).circ) (k : CircId) : (t.chan c).circ! k = (h.chan c).circ! k := by
  rw [Chan.circ!, circ, Chan.circ!]

section
variable {s : State} {c : ChanId} {k : CircId} {b : EncBlk} {rest : List EncBlk} (works : s.hw.works = true) (active : (s.hw.chan c).st = .active)
  (enc : ((s.hw.chan c).circ! k).enc = b :: rest)
include works active enc

theorem completes_release_whole (kept : b.lost = 0) (done : b.done = true) (sure : b.spec = false) :
    Completes (.encWordRelease c k false true) s fun t =>
      ((t.chan c).circ! k).enc = rest
      ∧ ((s.hw.chan c).circ! k).carries ((b.span.map LineSpan.toBytes).getD []) b.body
          (reclaimSeq ((s.hw.chan c).reclaimLen b.mep k.toNat ((s.hw.chan c).circ! k) (b.span.bind LineSpan.toTrib))
            ((s.hw.chan c).trlLen ((s.hw.chan c).circ! k)) b.carries) (fit 21 b.carries) ((t.chan c).circ! k).black
      ∧ tget 0 (t.chan c).ctr (ctrKey 0x10 0) = min (2 ^ 48 - 1) (tget 0 (s.hw.chan c).ctr (ctrKey 0x10 0) + 1) ∧ t.noMsg s.hw ∧ t.Local s.hw c := by
  refine .byOnActive c (·.encRelease c k false true) rfl works active ?_
  rw [Hw.encRelease_whole enc kept done sure]
  generalize counted : (if b.guard then ((s.hw.blockLeaves c k (.block b)).count c 0x10 0 1).count c 0x10 8 1
    else (s.hw.blockLeaves c k (.block b)).count c 0x10 0 1) = u
  have circ : (u.chan c).circ = ((s.hw.blockLeaves c k (.block b)).chan c).circ := by
    rw [← counted]
    split <;> simp
  have ctr : tget 0 (u.chan c).ctr (ctrKey 0x10 0) = min (2 ^ 48 - 1) (tget 0 (s.hw.chan c).ctr (ctrKey 0x10 0) + 1) := by
    rw [← s.hw.blockLeaves_ctr (k := k) (.block b), ← counted]
    split
    · rw [Hw.count_chan, if_pos rfl, Chan.count_ctr, if_neg (by decide), Hw.count_chan, if_pos rfl, Chan.count_ctr, if_pos rfl]
    · rw [Hw.count_chan, if_pos rfl, Chan.count_ctr, if_pos rfl]
  have fcl : u.dev.fcl = s.hw.dev.fcl := by
    rw [← counted]
    split <;> rfl
  have here : u.Local s.hw c := by
    rw [← counted]
    exact .ite ((Hw.onChan_local _ c _).trans ((Hw.onChan_local _ c _).trans (Hw.blockLeaves_local _)))
      ((Hw.onChan_local _ c _).trans (Hw.blockLeaves_local _))
  have shows := Hw.leaves_shows ((u.levels_circ c).trans circ) k
  have carries := Hw.blockLeaves_carries (h := s.hw) (c := c) (k := k) (d := .block b) Due.noConfusion
  rw [Due.trl, if_pos kept, Chan.dueBits, Chan.blockBits, if_pos kept] at carries
  refine ⟨by rw [shows, Hw.blockLeaves_enc enc], by rw [shows]; exact carries, by rw [Hw.levels_ctr, ctr], ?_, (u.levels_local c).trans here⟩
  rw [Hw.noMsg, Hw.levels_fcl, fcl]

theorem completes_release_missed (kept : b.lost = 0) (unsure : b.spec = true) (fresh : b.started = false) (new : b.missed = false) :
    Completes (.encWordRelease c k true false) s fun t =>
      ((t.chan c).circ! k).enc.head? = some { b with lost := 1, cause := 0, body := [], trailer := [], missed := true }
      ∧ ((t.chan c).circ! k).black = ((s.hw.chan c).circ! k).black
      ∧ tget 0 (t.chan c).ctr (ctrKey 0x11 0) = min (2 ^ 48 - 1) (tget 0 (s.hw.chan c).ctr (ctrKey 0x11 0) + 1) ∧ t.noMsg s.hw ∧ t.Local s.hw c := by
  refine .byOnActive c (·.encRelease c k true false) rfl works active ?_
  rw [Hw.encRelease_missed enc kept unsure fresh new]
  generalize filled : (s.hw.onCirc c k Circ.missedFirst).fill c k false 0 0 = u
  have circ : (u.chan c).circ! k = ((s.hw.chan c).circ! k).missedFirst := by
    rw [← filled, Chan.circ!, Hw.fill_circ, ← Chan.circ!, Hw.onCirc_chan, if_pos rfl, Chan.circ_setCirc, if_pos rfl]
  have shows := Hw.leaves_shows (Hw.levels_circ (u.onCirc c k fun y => { y with enc := y.enc.modify 0 fun b => { b with missed := true } }) c) k
  rw [Hw.onCirc_chan, if_pos rfl, Chan.circ_setCirc, if_pos rfl, circ] at shows
  obtain ⟨head, black⟩ := Circ.missedFirst_head enc fresh
  refine ⟨?_, by rw [shows]; exact black, ?_, ?_, ?_⟩
  · obtain ⟨t, list⟩ := List.head?_eq_some_iff.mp head
    rw [shows, list, List.modify_zero_cons]
    rfl
  · rw [Hw.levels_ctr, Hw.onCirc_chan, if_pos rfl, Chan.setCirc_ctr, ← filled, Hw.fill_ctr, Chan.count_ctr, if_pos rfl, Hw.onCirc_chan, if_pos rfl]
    rfl
  · rw [Hw.noMsg, Hw.levels_fcl, Hw.onCirc_dev, ← filled, Hw.fill_fcl]
    rfl
  · rw [← filled]
    exact (Hw.levels_local _ c).trans ((Hw.onCirc_local _ c k _).trans ((Hw.fill_local _ c k _ _ _).trans (Hw.onCirc_local _ c k _)))

theorem completes_release_lost (lost : b.lost = 1) (missed : b.missed = true) :
    Completes (.encWordRelease c k false true) s fun t =>
      ((t.chan c).circ! k).enc = rest ∧ ((s.hw.chan c).circ! k).carries [] [] [] [] ((t.chan c).circ! k).black ∧ (t.chan c).ctr = (s.hw.chan c).ctr
      ∧ t.noMsg s.hw ∧ t.Local s.hw c := by
  refine .byOnActive c (·.encRelease c k false true) rfl works active ?_
  rw [Hw.encRelease_lost enc lost missed]
  generalize marked : (s.hw.onCirc c k fun y => { y with enc := y.enc.modify 0 fun b => { b with missed := true } }) = u
  have circ : (u.chan c).circ! k = { (s.hw.chan c).circ! k with enc := { b with missed := true } :: rest } := by
    rw [← marked, Hw.onCirc_chan, if_pos rfl, Chan.circ_setCirc, if_pos rfl, enc]
    rfl
  have shows := Hw.leaves_shows ((u.blockLeaves c k .fill).levels_circ c) k
  have carries := Hw.blockLeaves_carries (h := u) (c := c) (k := k) (d := .fill) Due.noConfusion
  rw [circ] at carries
  refine ⟨?_, by rw [shows]; exact carries, ?_, ?_, ?_⟩
  · rw [shows]
    exact Hw.blockLeaves_enc (by rw [circ])
  · rw [Hw.levels_ctr, Hw.blockLeaves_ctr, ← marked, Hw.onCirc_chan, if_pos rfl, Chan.setCirc_ctr]
  · rw [Hw.noMsg, Hw.levels_fcl, ← marked]
    rfl
  · rw [← marked]
    exact (Hw.levels_local _ c).trans ((Hw.blockLeaves_local _).trans (Hw.onCirc_local _ c k _))

end

/-- Settles O33: a release leaves the block or fill on the black lanes, placed bits are the bits taken, and the scrambler has its inverse. -/
theorem encryptRelease : Obligations.EncryptRelease :=
  ⟨fun _ _ _ _ _ works active enc =>
    ⟨fun kept done sure => completes_release_whole works active enc kept done sure,
      fun kept unsure fresh new => completes_release_missed works active enc kept unsure fresh new,
      fun lost missed => completes_release_lost works active enc lost missed⟩,
    takeBits_placeBlock, fun b l => through_descramble l b⟩

end Sys2Proof.Machine
end

section
/-!
PROOF. Commands that a channel's Malot carries out: what is left when one is taken, completes or waits, and the key store, the epochs,
clear mode and re-anchoring that they act on (O34 to O38).
-/
namespace Sys2Proof.Machine

/-! ## Commands of a channel's Malot -/

/-- The oldest command that meets a test has been taken out of a channel's queue to be carried out. -/
def Hw.taken (h : Hw) (c : ChanId) (sel : Cmd → Bool) : Hw :=
  (h.onQueue (.chan c) fun q => { q with run := q.run.eraseP sel }).qLevels (.chan c)

section
variable {h u : Hw} {c : ChanId} {sel : Cmd → Bool} {x : Cmd}

theorem Hw.carry_chan (next : (h.chan c).q.run.find? sel = some x) (f : Cmd → Hw → Hw) :
    h.carry (.chan c) sel f = f x (h.taken c sel) := by
  simp only [Hw.carry, Hw.takeRun, Hw.queue, next, Hw.taken]

theorem Hw.taken_q (h : Hw) (c : ChanId) (sel : Cmd → Bool) :
    ((h.taken c sel).chan c).q = { (h.chan c).q with run := (h.chan c).q.run.eraseP sel } := by
  rw [Hw.taken, Hw.qLevels_chan_q, Hw.onQueue_chan_q]

theorem BesideQueue.taken {γ : Type} {p : Hw → γ} (k : BesideQueue p (.chan c)) (h : Hw) (sel : Cmd → Bool) : p (h.taken c sel) = p h :=
  (k.levels _).trans (k.own h _)

theorem Hw.taken_beside (h : Hw) (c : ChanId) (sel : Cmd → Bool) : (h.taken c sel).Beside h c :=
  (Hw.qLevels_beside _ (.inr rfl)).trans (h.onQueue_beside (.inr rfl) _)

theorem Hw.hold_beside (h : Hw) (c : ChanId) (x : Cmd) : (h.hold (.chan c) x).Beside h c :=
  (Hw.qLevels_beside _ (.inr rfl)).trans (h.onQueue_beside (.inr rfl) _)

/-- The circuits of a channel beside its queue and its completions. -/
theorem besideQueue_circ (c d : ChanId) : BesideQueue (fun h => (h.chan d).circ) (.chan c) :=
  ⟨fun h _ => by simp only [Hw.onQueue, Hw.onChan_chan]; split <;> [(subst_vars; rfl); rfl], fun _ _ => rfl, by simp, fun _ => rfl, by simp⟩

theorem besideQueue_st (c d : ChanId) : BesideQueue (fun h => (h.chan d).st) (.chan c) :=
  ⟨fun h _ => by simp only [Hw.onQueue, Hw.onChan_chan]; split <;> [(subst_vars; rfl); rfl], fun _ _ => rfl, by simp, fun _ => rfl, by simp⟩

theorem besideQueue_flt (c d : ChanId) : BesideQueue (fun h => (h.chan d).flt) (.chan c) :=
  ⟨fun h _ => by simp only [Hw.onQueue, Hw.onChan_chan]; split <;> [(subst_vars; rfl); rfl], fun _ _ => rfl, by simp, fun _ => rfl, by simp⟩

theorem besideQueue_psw (c d : ChanId) : BesideQueue (fun h => (h.chan d).psw) (.chan c) :=
  ⟨fun h _ => by simp only [Hw.onQueue, Hw.onChan_chan]; split <;> [(subst_vars; rfl); rfl], fun _ _ => rfl, by simp, fun _ => rfl, by simp⟩

theorem besideQueue_fuses (port : Port) : BesideQueue (fun h => h.dev.fuses) port :=
  besideQueue_dev (·.fuses) port (fun _ _ => rfl) (fun _ _ => rfl) (by simp) (by simp)

/-- A channel's command that was taken completes, once its work is done. -/
theorem Hw.complete_completed (q : (u.chan c).q = { (h.chan c).q with run := (h.chan c).q.run.eraseP sel }) (here : u.Local h c)
    (own : x.parent = none) (kept : x.dropped = false) (status reason result : Nat) :
    (u.complete (.chan c) x status reason result).Completed h c sel x status reason result := by
  have delivers : u.complete (.chan c) x status reason result = u.deliver (.chan c) x.by_ (cplWord x.op x.tag status c.val reason result) := by
    simp [Hw.complete, own, kept, portChan]
  refine ⟨?_, ?_, (Hw.complete_beside u c x _ _ _).here.trans here⟩
  · rw [delivers, Hw.deliver_chan_q, CmdQ.onBank_run, q]
  · rw [delivers, Hw.deliver_chan_q, q]
    cases x.by_ <;> rfl

/-- A channel's command that was taken goes back to wait for its event. -/
theorem Hw.hold_waits (q : (u.chan c).q = { (h.chan c).q with run := (h.chan c).q.run.eraseP sel }) (here : u.Local h c) :
    (u.hold (.chan c) x).Waits h c sel x := by
  have queued : ((u.hold (.chan c) x).chan c).q = { (u.chan c).q with run := (u.chan c).q.run ++ [{ x with held := true }] } := by
    rw [Hw.hold, Hw.qLevels_chan_q, Hw.onQueue_chan_q]
  refine ⟨by rw [queued, q], ?_, (u.hold_beside c x).here.trans here⟩
  rw [queued, q]
  cases x.by_ <;> rfl

/-- What a completed command leaves stands where neither the channel's queue nor anything beyond the channel has moved since. -/
theorem Hw.Completed.after {t : Hw} {status reason result : Nat} (done : u.Completed h c sel x status reason result)
    (q : (t.chan c).q = (u.chan c).q) (here : t.Local u c) : t.Completed h c sel x status reason result :=
  ⟨by rw [q]; exact done.run, by rw [q]; exact done.cpl, here.trans done.here⟩

theorem Hw.Waits.after {t : Hw} (waits : u.Waits h c sel x) (q : (t.chan c).q = (u.chan c).q) (here : t.Local u c) : t.Waits h c sel x :=
  ⟨by rw [q]; exact waits.run, by rw [q]; exact waits.cpl, here.trans waits.here⟩

theorem Hw.Completed.settled {status reason result : Nat} (done : u.Completed h c sel x status reason result) (h0 : Hw) :
    (u.settle h0 [c]).Completed h c sel x status reason result := done.after (by simp) (u.settle_local h0 c)

theorem Hw.Waits.settled (waits : u.Waits h c sel x) (h0 : Hw) : (u.settle h0 [c]).Waits h c sel x := waits.after (by simp) (u.settle_local h0 c)

theorem Hw.Runs.active (runs : h.Runs c sel x) : (h.chan c).st = .active := by
  have executes := runs.executes
  simp only [Hw.executes, Chan.isActive, Bool.and_eq_true, decide_eq_true_eq] at executes
  exact executes.1

/-- A command that its channel's Malot carries out. -/
theorem Completes.byCommand {i : Instr} {s : State} {op : Byte} {P : Hw → Prop} (f : Cmd → Hw → Hw) (exec_ : exec i s = onCmd s c op f)
    (runs : s.hw.Runs c (fresh op) x) (shows : P ((f x (s.hw.taken c (fresh op))).settle s.hw [c])) : Completes i s P := by
  refine .byWatched c _ exec_ runs.works ?_
  rwa [if_pos runs.executes, Hw.carry_chan runs.next]

/-- A command that completes at once after work in its channel's cipher and circuits. -/
theorem Hw.taken_completes (own : x.parent = none) (kept : x.dropped = false) (q : (u.chan c).q = ((h.taken c sel).chan c).q)
    (here : u.Local (h.taken c sel) c) (status reason result : Nat) :
    (u.complete (.chan c) x status reason result).Completed h c sel x status reason result :=
  Hw.complete_completed (q.trans (h.taken_q c sel)) (here.trans (h.taken_beside c sel).here) own kept status reason result

theorem Hw.taken_waits (q : (u.chan c).q = ((h.taken c sel).chan c).q) (here : u.Local (h.taken c sel) c) :
    (u.hold (.chan c) x).Waits h c sel x :=
  Hw.hold_waits (q.trans (h.taken_q c sel)) (here.trans (h.taken_beside c sel).here)

end

/-! ## The circuits of a context -/

/-- A table whose entries that meet a test are changed under their keys. -/
theorem tget_mapIf {α : Type} (d : α) (P : α → Prop) [DecidablePred P] (f : α → α) (idle : ¬P d) (k : Nat) : ∀ t : Table α,
    tget d (t.map fun e => if P e.2 then (e.1, f e.2) else e) k = if P (tget d t k) then f (tget d t k) else tget d t k
  | [] => (if_neg idle).symm
  | e :: t => by
    have key : (if P e.2 then (e.1, f e.2) else e).1 = e.1 := by split <;> rfl
    simp only [List.map_cons, tget, key]
    by_cases at_ : e.1 = k
    · simp only [if_pos at_]
      split <;> rfl
    · simp only [if_neg at_]
      exact tget_mapIf d P f idle k t

theorem Hw.onCtxCircs_circ (h : Hw) (c : ChanId) (n : Nat) (f : Circ → Circ) (k : CircId) : ((h.onCtxCircs c n f).chan c).circ! k
    = if ((h.chan c).circ! k).kctx = n ∧ (h.chan c).circ! k ≠ {} then f ((h.chan c).circ! k) else (h.chan c).circ! k := by
  simp only [Hw.onCtxCircs, Hw.onChan_chan, if_pos]
  exact tget_mapIf ({} : Circ) (fun y => y.kctx = n ∧ y ≠ {}) f (fun idle => idle.2 rfl) k.toNat _

theorem Hw.onCtxCircs_kctx (h : Hw) (c : ChanId) (n : Nat) (f : Circ → Circ) (same : ∀ y, (f y).kctx = y.kctx) (k : CircId) :
    (((h.onCtxCircs c n f).chan c).circ! k).kctx = ((h.chan c).circ! k).kctx := by
  rw [Hw.onCtxCircs_circ]
  split
  · exact same _
  · rfl

theorem Circ.ne_of_en {y : Circ} (en : y.en = true) : y ≠ {} := by
  rintro rfl
  exact absurd en (by decide)

/-- What lies beside the circuits of a channel. -/
@[simp] theorem Hw.onCtxCircs_cph (h : Hw) (c : ChanId) (n : Nat) (f : Circ → Circ) : ((h.onCtxCircs c n f).chan c).cph = (h.chan c).cph := by
  simp [Hw.onCtxCircs]

@[simp] theorem Hw.onCtxCircs_q (h : Hw) (c : ChanId) (n : Nat) (f : Circ → Circ) : ((h.onCtxCircs c n f).chan c).q = (h.chan c).q := by
  simp [Hw.onCtxCircs]

theorem Hw.onCtxCircs_local (h : Hw) (c : ChanId) (n : Nat) (f : Circ → Circ) : (h.onCtxCircs c n f).Local h c := h.onChan_local c _

theorem Hw.onCtx_local (h : Hw) (c : ChanId) (n : Nat) (f : Ctx → Ctx) : (h.onCtx c n f).Local h c := (h.onCtx_beside c n f).here

theorem Hw.onCtx_ctx (h : Hw) (c : ChanId) (n m : Nat) (f : Ctx → Ctx) :
    ((h.onCtx c n f).chan c).ctx! m = if m = n then f ((h.chan c).ctx! n) else (h.chan c).ctx! m := by
  rw [Hw.onCtx_chan, if_pos rfl, Chan.ctx_setCtx]

/-! ## Slots of a context -/

theorem Ctx.onSlot_slot (z : Ctx) (odd o : Bool) (f : KeySlot → KeySlot) : (z.onSlot odd f).slot o = if o = odd then f (z.slot odd) else z.slot o := by
  cases odd <;> cases o <;> rfl

@[simp] theorem Ctx.onSlot_highSerial (z : Ctx) (odd : Bool) (f : KeySlot → KeySlot) : (z.onSlot odd f).highSerial = z.highSerial := by
  cases odd <;> rfl

@[simp] theorem Ctx.onSlot_txp (z : Ctx) (odd : Bool) (f : KeySlot → KeySlot) : (z.onSlot odd f).txp = z.txp := by cases odd <;> rfl

@[simp] theorem Ctx.onSlot_arm (z : Ctx) (odd : Bool) (f : KeySlot → KeySlot) : (z.onSlot odd f).arm = z.arm := by cases odd <;> rfl

theorem KeySlot.stamp_sound (k : KeySlot) : k.stamp.corrupt 0 = false := by
  by_cases empty : k.st = .empty
  · simp [KeySlot.corrupt, KeySlot.stamp, empty]
  · have same : k.stamp.check = k.check := rfl
    have kept : k.stamp.integ = k.check := if_neg empty
    rw [KeySlot.corrupt, same, kept]
    simp

/-! ## KEY_LOAD -/

section
variable {h : Hw} {c : ChanId} {sel : Cmd → Bool} {x : Cmd}

/-- What KEY_LOAD's checks read of the hardware beside the blob. -/
theorem Hw.taken_cipher (h : Hw) (c : ChanId) (sel : Cmd → Bool) :
    ((h.taken c sel).chan c).cph = (h.chan c).cph ∧ (h.taken c sel).kwk = h.kwk ∧ (h.taken c sel).cipherOff c = h.cipherOff c := by
  have cph : ((h.taken c sel).chan c).cph = (h.chan c).cph := (besideQueue_cph c c).taken h sel
  have boot : (h.taken c sel).dev.boot = h.dev.boot := (besideQueue_boot (.chan c)).taken h sel
  have fuses : (h.taken c sel).dev.fuses = h.dev.fuses := (besideQueue_fuses (.chan c)).taken h sel
  exact ⟨cph, by rw [Hw.kwk, fuses, Hw.kwk], by rw [Hw.cipherOff, cph, boot, Hw.cipherOff]⟩

theorem Chan.ctx_congr {x y : Chan} (same : x.cph = y.cph) (n : Nat) : x.ctx! n = y.ctx! n := by rw [Chan.ctx!, Chan.ctx!, same]

theorem Chan.circ_congr {x y : Chan} (same : x.circ = y.circ) (k : CircId) : x.circ! k = y.circ! k := by rw [Chan.circ!, Chan.circ!, same]

/-- A refused command leaves its channel's cipher and circuits. -/
theorem Hw.refuse_taken (h : Hw) (own : x.parent = none) (kept : x.dropped = false) (r : Nat) (h0 : Hw) :
    (((h.taken c sel).refuse (.chan c) x r).settle h0 [c]).Completed h c sel x stRefused r 0
    ∧ ((((h.taken c sel).refuse (.chan c) x r).settle h0 [c]).chan c).cph = (h.chan c).cph
    ∧ ((((h.taken c sel).refuse (.chan c) x r).settle h0 [c]).chan c).circ = (h.chan c).circ := by
  refine ⟨(Hw.taken_completes own kept rfl (Hw.Local.refl _ c) _ _ _).settled h0, ?_, ?_⟩
  · rw [Hw.settle_chan_cph]
    exact ((besideQueue_cph c c).bank.complete _ x _ _ _).trans ((besideQueue_cph c c).taken h sel)
  · rw [Hw.settle_chan_circ]
    exact ((besideQueue_circ c c).bank.complete _ x _ _ _).trans ((besideQueue_circ c c).taken h sel)

theorem keyCheck_off (kwk : List Byte) (chan : Nat) (z : Ctx) (n : Nat) (odd : Bool) (blob : List Byte) :
    keyCheck kwk true chan z n odd blob = .inl rCipherOff := rfl

theorem keyCheck_blank {kwk : List Byte} (blank : ∀ b ∈ kwk, b = 0) (chan : Nat) (z : Ctx) (n : Nat) (odd : Bool) (blob : List Byte) :
    keyCheck kwk false chan z n odd blob = .inl rKwkBlank := by
  have all : kwk.all (· == 0) = true := List.all_eq_true.2 fun b mem => by simp [blank b mem]
  rw [keyCheck, if_neg (by decide), if_pos all]

/-- A refused KEY_LOAD. -/
theorem Hw.keyLoad_refused {r : Nat} (check : keyCheck h.kwk (h.cipherOff c) c.val ((h.chan c).ctx! (cmdCtx x)) (cmdCtx x) (bitOf x.w1 16) (blobBytes x.blob)
    = .inl r) : (h.taken c sel).keyLoad c x = (h.taken c sel).refuse (.chan c) x r := by
  obtain ⟨cph, kwk, off⟩ := h.taken_cipher c sel
  unfold Hw.keyLoad
  dsimp only
  rw [kwk, off, Chan.ctx_congr cph, check]

theorem Hw.keyLoad_stored {key : List Byte} {kcv : BitVec 24} {serial : Word}
    (check : keyCheck h.kwk (h.cipherOff c) c.val ((h.chan c).ctx! (cmdCtx x)) (cmdCtx x) (bitOf x.w1 16) (blobBytes x.blob)
      = .inr (key, kcv, serial)) :
    (h.taken c sel).keyLoad c x = ((h.taken c sel).storeKey c (cmdCtx x) (bitOf x.w1 16) key kcv serial).done (.chan c) x kcv.toNat := by
  obtain ⟨cph, kwk, off⟩ := h.taken_cipher c sel
  unfold Hw.keyLoad
  dsimp only
  rw [kwk, off, Chan.ctx_congr cph, check]

/-- A context whose slot a key has been stored in (R189, R199). -/
def Ctx.stored (z : Ctx) (odd : Bool) (key : List Byte) (kcv : BitVec 24) (serial : Word) (now : Nat) : Ctx :=
  let z := z.onSlot odd fun s => KeySlot.stamp { st := z.loadState odd, key := key, kcv := kcv, lastKcv := s.lastKcv, serial := serial, since := now }
  let z := if odd then { z with floorO := 0 } else { z with floorE := 0 }
  { z with highSerial := serial, staleRaised := z.staleRaised && decide ((z.slot (!odd)).st ≠ .current) }

theorem Ctx.stored_slot (z : Ctx) (odd : Bool) (key : List Byte) (kcv : BitVec 24) (serial : Word) (now : Nat) :
    (z.stored odd key kcv serial now).slot odd
      = KeySlot.stamp { st := z.loadState odd, key := key, kcv := kcv, lastKcv := (z.slot odd).lastKcv, serial := serial, since := now }
    ∧ (z.stored odd key kcv serial now).slot (!odd) = z.slot (!odd) ∧ (z.stored odd key kcv serial now).highSerial = serial := by
  cases odd <;> exact ⟨rfl, rfl, rfl⟩

theorem Chan.ksFlushAll_circ (x : Chan) (sel : KsEnt → Bool) : (x.ksFlushAll sel).circ = x.circ := rfl

theorem Chan.ksFlushAll_ctx (x : Chan) (sel : KsEnt → Bool) (n : Nat) : (x.ksFlushAll sel).ctx! n = x.ctx! n := rfl

theorem Hw.storeKey_ctx (h : Hw) (c : ChanId) (n : Nat) (odd : Bool) (key : List Byte) (kcv : BitVec 24) (serial : Word) (m : Nat) :
    ((h.storeKey c n odd key kcv serial).chan c).ctx! m
      = if m = n then ((h.chan c).ctx! n).stored odd key kcv serial h.now else (h.chan c).ctx! m := by
  rw [Hw.storeKey, Hw.onChan_chan, if_pos rfl, Chan.ksFlushAll_ctx]
  refine (Chan.ctx_congr (Hw.onCtxCircs_cph _ c n _) m).trans (Hw.onCtx_ctx _ c n m _)

theorem Hw.storeKey_circ (h : Hw) (c : ChanId) (n : Nat) (odd : Bool) (key : List Byte) (kcv : BitVec 24) (serial : Word) {k : CircId}
    (en : ((h.chan c).circ! k).en = true) (ctx : ((h.chan c).circ! k).kctx = n) :
    ((h.storeKey c n odd key kcv serial).chan c).circ! k = ((h.chan c).circ! k).loaded odd := by
  rw [Hw.storeKey, Hw.onChan_chan, if_pos rfl, Chan.circ_congr (Chan.ksFlushAll_circ _ _), Hw.onCtxCircs_circ, Hw.onCtx_chan, if_pos rfl]
  exact if_pos ⟨ctx, Circ.ne_of_en en⟩

theorem Circ.eseq_unaged (y : Circ) (p : Prop) [Decidable p] (odd : Bool) :
    (if p then { y with aged := false, stopped := false } else y).eseq odd = y.eseq odd := by split <;> rfl

theorem Circ.loaded_eseq (y : Circ) (odd : Bool) : (y.loaded odd).eseq odd = 0 ∧ (y.loaded odd).eseq (!odd) = y.eseq (!odd) := by
  unfold Circ.loaded
  exact ⟨(Circ.eseq_unaged _ _ _).trans (by cases odd <;> rfl), (Circ.eseq_unaged _ _ _).trans (by cases odd <;> rfl)⟩

theorem Hw.storeKey_q (h : Hw) (c : ChanId) (n : Nat) (odd : Bool) (key : List Byte) (kcv : BitVec 24) (serial : Word) :
    ((h.storeKey c n odd key kcv serial).chan c).q = (h.chan c).q := by
  rw [Hw.storeKey, Hw.onChan_chan, if_pos rfl]
  refine (Hw.onCtxCircs_q _ c n _).trans ?_
  rw [Hw.onCtx_chan, if_pos rfl]
  rfl

theorem Hw.storeKey_local (h : Hw) (c : ChanId) (n : Nat) (odd : Bool) (key : List Byte) (kcv : BitVec 24) (serial : Word) :
    (h.storeKey c n odd key kcv serial).Local h c := by
  unfold Hw.storeKey
  exact (Hw.onChan_local _ c _).trans ((Hw.onCtxCircs_local _ c n _).trans (h.onCtx_local c n _))

/-- A KEY_LOAD that its checks accept: the slot, its sequence numbers, and nothing of another slot or context (R189, R199). -/
theorem Hw.keyLoad_shows (h0 : Hw) (own : x.parent = none) (kept : x.dropped = false) {key : List Byte} {kcv : BitVec 24} {serial : Word}
    (n : Nat) (odd : Bool) {t : Hw}
    (ends : t = (((h.taken c sel).storeKey c n odd key kcv serial).done (.chan c) x kcv.toNat).settle h0 [c]) :
    t.Completed h c sel x stDone 0 kcv.toNat
    ∧ (∀ m, (t.chan c).ctx! m = if m = n then ((h.chan c).ctx! n).stored odd key kcv serial h.now else (h.chan c).ctx! m)
    ∧ ∀ k, ((h.chan c).circ! k).en = true → ((h.chan c).circ! k).kctx = n → (t.chan c).circ! k = ((h.chan c).circ! k).loaded odd := by
  subst ends
  have cph := (h.taken_cipher c sel).1
  have circ : ((h.taken c sel).chan c).circ = (h.chan c).circ := (besideQueue_circ c c).taken h sel
  have now : (h.taken c sel).now = h.now := (h.taken_beside c sel).here.now
  refine ⟨(Hw.taken_completes own kept (Hw.storeKey_q _ c _ _ _ _ _) (Hw.storeKey_local _ c _ _ _ _ _) _ _ _).settled h0, fun m => ?_, fun k en ctx => ?_⟩
  · refine (Chan.ctx_congr (Hw.settle_chan_cph _ _ _ c) m).trans ((Chan.ctx_congr ((besideQueue_cph c c).bank.complete _ x _ _ _) m).trans ?_)
    rw [Hw.storeKey_ctx, Chan.ctx_congr cph, Chan.ctx_congr cph, now]
  · refine (Chan.circ_congr (Hw.settle_chan_circ _ _ _ c) k).trans ((Chan.circ_congr ((besideQueue_circ c c).bank.complete _ x _ _ _) k).trans ?_)
    have same := Chan.circ_congr circ k
    rw [Hw.storeKey_circ _ c n odd key kcv serial (by rw [same]; exact en) (by rw [same]; exact ctx), same]

/-- A KEY_LOAD's slot is loaded, so that it holds a key. -/
theorem keyLoad_stores (s : State) (c : ChanId) (x : Cmd) (runs : s.hw.Runs c (fresh 0x10) x) {key : List Byte} {kcv : BitVec 24} {serial : Word}
    (check : keyCheck s.hw.kwk (s.hw.cipherOff c) c.val ((s.hw.chan c).ctx! (cmdCtx x)) (cmdCtx x) (bitOf x.w1 16) (blobBytes x.blob)
      = .inr (key, kcv, serial)) :
    Completes (.keyLoad c) s fun t =>
      t.Completed s.hw c (fresh 0x10) x stDone 0 kcv.toNat
      ∧ (∀ m, (t.chan c).ctx! m = if m = cmdCtx x then ((s.hw.chan c).ctx! (cmdCtx x)).stored (bitOf x.w1 16) key kcv serial s.hw.now
          else (s.hw.chan c).ctx! m)
      ∧ ∀ k, ((s.hw.chan c).circ! k).en = true → ((s.hw.chan c).circ! k).kctx = cmdCtx x →
        (t.chan c).circ! k = ((s.hw.chan c).circ! k).loaded (bitOf x.w1 16) := by
  refine .byCommand (fun x h => h.keyLoad c x) rfl runs ?_
  rw [Hw.keyLoad_stored check]
  exact Hw.keyLoad_shows s.hw runs.own runs.kept _ _ rfl

theorem keyLoad_refused (s : State) (c : ChanId) (x : Cmd) (runs : s.hw.Runs c (fresh 0x10) x) {r : Nat}
    (check : keyCheck s.hw.kwk (s.hw.cipherOff c) c.val ((s.hw.chan c).ctx! (cmdCtx x)) (cmdCtx x) (bitOf x.w1 16) (blobBytes x.blob) = .inl r) :
    Completes (.keyLoad c) s fun t => t.Completed s.hw c (fresh 0x10) x stRefused r 0 ∧ (t.chan c).cph = (s.hw.chan c).cph := by
  refine .byCommand (fun x h => h.keyLoad c x) rfl runs ?_
  rw [Hw.keyLoad_refused check]
  obtain ⟨done, cph, -⟩ := s.hw.refuse_taken (c := c) (sel := fresh 0x10) runs.own runs.kept r s.hw
  exact ⟨done, cph⟩

end

/-! ## A device KEY_LOAD -/

theorem chanOf_val (c : ChanId) : chanOf c.val = some c := by
  unfold chanOf
  simp

theorem chanOf_none {n : Nat} (out : 48 ≤ n) : chanOf n = none := by
  unfold chanOf
  rw [dif_neg (by omega)]

/-- A list put into an empty table at its positions from `i` on. -/
theorem tget_zipIdx (j : Nat) : ∀ (l : List Word) (i : Nat) (t : Table Word),
    tget 0 ((l.zipIdx i).foldl (fun t e => tput 0 t e.2 e.1) t) j = if i ≤ j ∧ j < i + l.length then l.getD (j - i) 0 else tget 0 t j
  | [], i, t => by rw [if_neg (by simp)]; rfl
  | w :: l, i, t => by
    rw [List.zipIdx_cons, List.foldl_cons, tget_zipIdx j l (i + 1)]
    by_cases own : j = i
    · subst own
      rw [if_neg (by omega), if_pos (by simp), tget_tput_self]
      simp
    · rw [tget_tput_ne _ _ _ _ own]
      by_cases inside : i + 1 ≤ j ∧ j < i + 1 + l.length
      · rw [if_pos inside, if_pos (by rw [List.length_cons]; omega)]
        rw [show j - i = (j - (i + 1)) + 1 by omega]
        rfl
      · rw [if_neg inside, if_neg (by rw [List.length_cons]; omega)]

/-- The blob that the Isund hands to a channel is read back whole (R208). -/
theorem kbufWords_blob {l : List Word} (whole : l.length = 18) : kbufWords (l.zipIdx.foldl (fun t e => tput 0 t e.2 e.1) []) = l := by
  refine List.ext_getElem (by simp [kbufWords, whole]) fun i inside inside' => ?_
  have at_ := tget_zipIdx i l 0 []
  rw [if_pos (by omega)] at at_
  simp only [kbufWords, List.getElem_map, List.getElem_range]
  rw [at_]
  simp [List.getD_eq_getElem?_getD, inside']

section
variable {h : Hw} {c : ChanId} {x : Cmd}

theorem Hw.deliver_device_q (h : Hw) (m : Master) (w : BitVec 64) :
    (h.deliver .device m w).dev.q = h.dev.q.onBank m fun b => { b with cpl := b.cpl ++ [w] } := by
  unfold Hw.deliver
  dsimp only
  split
  · cases m <;> simp [Hw.onQueue]
  · rfl

/-- The channels beside the device queue. -/
theorem besideQueue_chans : BesideQueue (fun h => h.chans) .device :=
  ⟨fun _ _ => rfl, fun _ _ => rfl, fun _ => rfl, fun _ => rfl, fun h f src => Hw.chans_ext fun c => by simp⟩

/-- A device KEY_LOAD completes to its submitter, the device blob buffer zeroed (R444, R468). -/
theorem Hw.complete_deviceKeyLoad (own : x.parent = none) (kept : x.dropped = false) (op : x.op = 0x10) (status reason result : Nat) :
    h.complete .device x status reason result = h.kbufDone.deliver .device x.by_ (cplWord 0x10 x.tag status 63 reason result) := by
  simp [Hw.complete, own, kept, op, portChan]

theorem Hw.route_none (run : h.dev.boot.st = .run) (out : 48 ≤ ((blobBytes x.blob).getD 1 0).toNat) : h.route x = h.refuse .device x rBlobBind := by
  rw [Hw.route, if_neg (by rw [run]; decide), chanOf_none out]

/-- What a submission's checks read of the hardware, for a command other than LAT_REANCHOR. -/
theorem Hw.judge_congr {t : Hw} {p : Port} (w0 : Word) (owed : t.owed p = h.owed p) (other : x.op ≠ 0x30) : t.judge p w0 x = h.judge p w0 x := by
  unfold Hw.judge
  rw [owed]
  cases p <;> simp only [if_neg other]

/-- A KEY_LOAD that joins its channel's queue: its credit is taken and the channel's blob buffer is emptied into it (R205, R446). -/
def Hw.keyQueued (h : Hw) (c : ChanId) (x : Cmd) : Hw :=
  ((((h.onQueue (.chan c) fun q => q.onBank x.by_ fun b => { b with used := b.used + 1 }).onChan c fun y =>
    { y with cph := { y.cph with kbuf := [] } }).onQueue (.chan c) fun q =>
      { q with wait := q.wait ++ [{ x with blob := kbufWords (h.chan c).cph.kbuf }] })).qLevels (.chan c)

theorem Hw.enqueue_keyLoad (op : x.op = 0x10) (w0 : Word) (ok : h.judge (.chan c) w0 x = none) : h.enqueue (.chan c) w0 x = h.keyQueued c x := by
  let u := (h.onQueue (.chan c) fun q => q.onBank x.by_ fun b => { b with used := b.used + 1 }).onChan c fun y =>
    { y with cph := { y.cph with kbuf := [] } }
  have queue : (u.queue (.chan c)).busyTill = (h.queue (.chan c)).busyTill ∧ (u.queue (.chan c)).wait = (h.queue (.chan c)).wait := by
    simp only [u, Hw.queue, Hw.onChan_chan, if_pos, Hw.onQueue_chan_q]
    cases x.by_ <;> exact ⟨rfl, rfl⟩
  have owed : u.owed (.chan c) = h.owed (.chan c) := by
    unfold Hw.owed
    dsimp only
    rw [queue.1, queue.2]
    rfl
  have judged : u.judge (.chan c) w0 x = none := (Hw.judge_congr w0 owed (by rw [op]; decide)).trans ok
  have blob : ((h.onQueue (.chan c) fun q => q.onBank x.by_ fun b => { b with used := b.used + 1 }).chan c).cph.kbuf = (h.chan c).cph.kbuf := by
    simp [Hw.onQueue]
  unfold Hw.enqueue
  simp only [if_pos op]
  rw [blob]
  unfold Hw.keyQueued
  simp only [u] at judged
  rw [judged]
  simp

theorem Hw.keyQueued_chan (h : Hw) (c : ChanId) (x : Cmd) :
    ((h.keyQueued c x).chan c).q = { (h.chan c).q.onBank x.by_ (fun b => { b with used := b.used + 1 }) with
        wait := (h.chan c).q.wait ++ [{ x with blob := kbufWords (h.chan c).cph.kbuf }] }
    ∧ ((h.keyQueued c x).chan c).cph = { (h.chan c).cph with kbuf := [] } ∧ ((h.keyQueued c x).chan c).circ = (h.chan c).circ := by
  unfold Hw.keyQueued
  rw [Hw.qLevels_chan_q, Hw.qLevels_chan_cph, Hw.qLevels_chan_circ]
  simp only [Hw.onQueue, Hw.onChan_chan, if_pos, and_self, and_true]
  cases x.by_ <;> rfl

theorem Hw.keyQueued_local (h : Hw) (c : ChanId) (x : Cmd) : (h.keyQueued c x).Local h c :=
  (Hw.qLevels_beside _ (.inr rfl)).here.trans ((Hw.onQueue_beside _ (.inr rfl) _).here.trans
    ((Hw.onChan_local _ c _).trans (h.onQueue_beside (.inr rfl) _).here))

theorem Hw.keyQueued_dev (h : Hw) (c : ChanId) (x : Cmd) :
    (h.keyQueued c x).dev.q = h.dev.q ∧ (h.keyQueued c x).dev.kbuf = h.dev.kbuf ∧ (h.keyQueued c x).dev.fcl = h.dev.fcl := by
  unfold Hw.keyQueued
  rw [Hw.qLevels_q, Hw.qLevels_kbuf, Hw.qLevels_fcl]
  exact ⟨rfl, rfl, rfl⟩

/-- The hardware when the Isund submits a device KEY_LOAD to the channel of its blob (R208). -/
def Hw.blobHanded (h : Hw) (c : ChanId) (x : Cmd) : Hw :=
  ((h.onQueue .device fun q => { q with run := q.run.eraseP (fresh 0x10) }).onChan c fun y =>
    { y with cph := { y.cph with kbuf := x.blob.zipIdx.foldl (fun t e => tput 0 t e.2 e.1) [] } }).hold .device x

theorem Hw.blobHanded_chan (h : Hw) (c : ChanId) (x : Cmd) : (h.blobHanded c x).chan c
    = { h.chan c with cph := { (h.chan c).cph with kbuf := x.blob.zipIdx.foldl (fun t e => tput 0 t e.2 e.1) [] } } := by
  simp [Hw.blobHanded, Hw.hold, Hw.onQueue]

theorem Hw.blobHanded_local (h : Hw) (c : ChanId) (x : Cmd) : (h.blobHanded c x).Local h c := by
  unfold Hw.blobHanded Hw.hold
  exact (Hw.qLevels_beside _ (.inl rfl)).here.trans <| (Hw.onQueue_beside _ (.inl rfl) _).here.trans ((Hw.onChan_local _ c _).trans (h.onQueue_beside (.inl rfl) _).here)

theorem Hw.route_forwards (run : h.dev.boot.st = .run) (names : ((blobBytes x.blob).getD 1 0).toNat = c.val) (active : (h.chan c).st = .active)
    (credit : h.credit (.chan c) .isund ≠ 0) :
    (h.onQueue .device fun q => { q with run := q.run.eraseP (fresh 0x10) }).route x
      = (h.blobHanded c x).enqueue (.chan c) 0 { x with by_ := .isund, parent := some (x.by_, x.tag), blob := [], held := false } := by
  let h1 := h.onQueue .device fun q => { q with run := q.run.eraseP (fresh 0x10) }
  let h2 := h1.onChan c fun y => { y with cph := { y.cph with kbuf := x.blob.zipIdx.foldl (fun t e => tput 0 t e.2 e.1) [] } }
  have queue : h2.queue (.chan c) = h.queue (.chan c) := by simp [h2, h1, Hw.queue]
  have credit2 : h2.credit (.chan c) .isund = h.credit (.chan c) .isund := by
    rw [Hw.credit, queue]
    rfl
  have active2 : (h2.chan c).st = .active := by simpa [h2, h1] using active
  have routed : h1.route x = h2.forwardTo c x := by
    rw [Hw.route, if_neg (by rw [Hw.onQueue_boot, run]; decide), names, chanOf_val]
    refine if_pos (Bool.and_eq_true_iff.2 ⟨decide_eq_true active, decide_eq_true ?_⟩)
    exact credit
  rw [routed, Hw.forwardTo, active2]
  exact if_neg (by rw [credit2]; exact credit)

end

/-- Settles O34: the checks of R206 decide on the channel and its context alone, a stored key passes its own integrity word, and a device
KEY_LOAD hands the channel the very words of its blob. -/
theorem keyLoadStores : Obligations.KeyLoadStores := by
  refine ⟨fun s c x runs => ?_, fun s x works run up queue meets own kept out => ?_,
    fun s x c works run up queue meets names whole active credit => ?_⟩
  · intro n odd z refused
    refine ⟨fun fail => ?_, fun works notBare blank => ?_, fun r check => keyLoad_refused s c x runs check, fun key kcv serial check => ?_⟩
    · have off : s.hw.cipherOff c = true := by rw [Hw.cipherOff, fail, Bool.true_or]
      exact keyLoad_refused s c x runs (by rw [off]; exact keyCheck_off _ _ _ _ _ _)
    · have on : s.hw.cipherOff c = false := by rw [Hw.cipherOff, works, Bool.false_or, decide_eq_false notBare]
      exact keyLoad_refused s c x runs (by rw [on]; exact keyCheck_blank blank _ _ _ _ _)
    · refine (keyLoad_stores s c x runs check).mono fun t ⟨done, ctx, circ⟩ => ?_
      have own := (ctx n).trans (if_pos rfl)
      obtain ⟨slot, other, high⟩ := z.stored_slot odd key kcv serial s.hw.now
      rw [own]
      refine ⟨done, slot, by rw [slot]; exact KeySlot.stamp_sound _, other, high, fun m ne => (ctx m).trans (if_neg ne), fun k en at_ => ?_⟩
      rw [circ k en at_]
      exact Circ.loaded_eseq _ odd
  · have next : s.hw.dev.q.run.find? (fresh 0x10) = some x := by rw [queue, List.find?_cons_of_pos meets]
    have op : x.op = 0x10 := (of_decide_eq_true meets).1
    refine .byLive _ rfl works ?_
    rw [if_pos (by simp [Hw.executes, run, up]), Hw.carry_device next, Hw.route_none (by rw [Hw.onQueue_boot, run]) out, Hw.refuse, Hw.complete_deviceKeyLoad own kept op]
    let u := (s.hw.onQueue .device fun q => { q with run := q.run.eraseP (fresh 0x10) }).kbufDone
    have taken : u.dev.q = { s.hw.dev.q with run := [] } :=
      congrArg (fun l => { s.hw.dev.q with run := l }) (by rw [queue, List.eraseP_cons_of_pos meets])
    have kbuf := deliver_keeps (p := fun h => h.dev.kbuf) (q := .device) (fun _ _ _ => rfl) (fun _ => rfl) (by simp) u x.by_
      (cplWord 0x10 x.tag stRefused 63 rBlobBind 0)
    have chans := deliver_keeps (p := fun h => h.chans) (q := .device) (fun _ _ _ => rfl) (fun _ => rfl)
      (fun h f src => Hw.chans_ext fun c => by simp) u x.by_ (cplWord 0x10 x.tag stRefused 63 rBlobBind 0)
    have work : (u.deliver .device x.by_ (cplWord 0x10 x.tag stRefused 63 rBlobBind 0)).dev.q = _ := u.deliver_device_q _ _
    refine ⟨?_, ?_, kbuf, chans⟩
    · rw [work, taken]
      cases x.by_ <;> rfl
    · rw [work, CmdQ.onBank_run, taken]
  · have next : s.hw.dev.q.run.find? (fresh 0x10) = some x := by rw [queue, List.find?_cons_of_pos meets]
    have op : x.op = 0x10 := (of_decide_eq_true meets).1
    intro y judged
    refine .byLive _ rfl works ?_
    rw [if_pos (by simp [Hw.executes, run, up]), Hw.carry_device next, Hw.route_forwards run names active credit]
    let u := s.hw.blobHanded c x
    let z : Cmd := { x with by_ := .isund, parent := some (x.by_, x.tag), blob := [], held := false }
    have chan : u.chan c = _ := s.hw.blobHanded_chan c x
    have owed : u.owed (.chan c) = s.hw.owed (.chan c) := by
      have same : u.queue (.chan c) = s.hw.queue (.chan c) := by
        change (u.chan c).q = _
        rw [chan]
        rfl
      unfold Hw.owed
      rw [same]
      rfl
    have ok : u.judge (.chan c) 0 z = none := (Hw.judge_congr 0 owed (by
      change x.op ≠ 0x30
      rw [op]
      decide)).trans judged
    rw [Hw.enqueue_keyLoad (x := z) op 0 ok]
    obtain ⟨q, cph, circ⟩ := u.keyQueued_chan c z
    obtain ⟨devQ, kbuf, fcl⟩ := u.keyQueued_dev c z
    have blob : kbufWords (u.chan c).cph.kbuf = x.blob := by rw [chan]; exact kbufWords_blob whole
    rw [q, cph, circ, devQ, kbuf, blob, chan]
    have taken : s.hw.dev.q.run.eraseP (fresh 0x10) = [] := by rw [queue, List.eraseP_cons_of_pos meets]
    have work : u.dev.q = { s.hw.dev.q with run := [{ x with held := true }] } :=
      congrArg (fun l : List Cmd => { s.hw.dev.q with run := l ++ [{ x with held := true }] }) taken
    refine ⟨rfl, rfl, rfl, rfl, rfl, by rw [work], by rw [work], rfl, ?_, (u.keyQueued_local c z).trans (s.hw.blobHanded_local c x)⟩
    exact congrArg Fcl.slots fcl

/-! ## Zeroizing -/

theorem KeySlot.empty_empty (k : KeySlot) : k.empty.empty = k.empty := by
  have st : k.empty.st = .empty := by
    unfold KeySlot.empty
    split <;> [assumption; rfl]
  rw [KeySlot.empty.eq_def k.empty, if_pos st]

theorem KeySlot.empty_shows (k : KeySlot) :
    k.empty.st = .empty ∧ k.empty.serial = k.serial ∧ (k.st ≠ .empty → k.empty.key = [] ∧ k.empty.integ = 0) := by
  unfold KeySlot.empty
  split
  · next st => exact ⟨st, rfl, fun n => absurd st n⟩
  · exact ⟨rfl, rfl, fun _ => ⟨rfl, rfl⟩⟩

theorem KeySlot.empty_of_empty {k : KeySlot} (st : k.st = .empty) : k.empty = k := if_pos st

/-- The slots of a context that a mask names are EMPTY and their keystream is gone; nothing else of the key store has changed, and nothing
of the queue or beyond the channel. -/
structure Hw.Emptied (t h : Hw) (c : ChanId) (n : Nat) (mask : Bool → Bool) : Prop where
  slot : ∀ o, ((t.chan c).ctx! n).slot o = if mask o = true then (((h.chan c).ctx! n).slot o).empty else ((h.chan c).ctx! n).slot o
  txp : ((t.chan c).ctx! n).txp = ((h.chan c).ctx! n).txp
  arm : ((t.chan c).ctx! n).arm = ((h.chan c).ctx! n).arm
  high : ((t.chan c).ctx! n).highSerial = ((h.chan c).ctx! n).highSerial
  other : ∀ m, m ≠ n → (t.chan c).ctx! m = (h.chan c).ctx! m
  kctx : ∀ k, ((t.chan c).circ! k).kctx = ((h.chan c).circ! k).kctx
  ks : ∀ (i : Fin 3), ∀ r ∈ (t.chan c).cph.ks[i], r ∈ (h.chan c).cph.ks[i]
    ∧ ∀ o, mask o = true → (((h.chan c).ctx! n).slot o).st ≠ .empty → ¬(r.odd = o ∧ ((h.chan c).circ! r.circ).kctx = n)
  q : (t.chan c).q = (h.chan c).q
  here : t.Local h c

section
variable {t u h : Hw} {c : ChanId} {n : Nat}

theorem Hw.Emptied.refl (h : Hw) (c : ChanId) (n : Nat) : h.Emptied h c n fun _ => false :=
  ⟨fun _ => rfl, rfl, rfl, rfl, fun _ _ => rfl, fun _ => rfl, fun _ _ mem => ⟨mem, fun _ no => absurd no (by decide)⟩, rfl, .refl h c⟩

theorem Hw.Emptied.trans {a b : Bool → Bool} (second : t.Emptied u c n b) (first : u.Emptied h c n a) :
    t.Emptied h c n fun o => a o || b o where
  slot o := by
    rw [second.slot, first.slot]
    cases a o <;> cases b o <;> simp [KeySlot.empty_empty]
  txp := second.txp.trans first.txp
  arm := second.arm.trans first.arm
  high := second.high.trans first.high
  other m ne := (second.other m ne).trans (first.other m ne)
  kctx k := (second.kctx k).trans (first.kctx k)
  ks i r mem := by
    obtain ⟨mem', gone'⟩ := second.ks i r mem
    obtain ⟨mem'', gone⟩ := first.ks i r mem'
    refine ⟨mem'', fun o named key => ?_⟩
    rcases early : a o with _ | _
    · have late : b o = true := by rwa [early, Bool.false_or] at named
      have same := first.slot o
      rw [early, if_neg (by decide)] at same
      have gone := gone' o late (by rw [same]; exact key)
      rwa [first.kctx] at gone
    · exact gone o early key
  q := second.q.trans first.q
  here := second.here.trans first.here

/-- What neither the cipher, the circuits, the queue nor anything beyond the channel shows. -/
theorem Hw.Emptied.after {a : Bool → Bool} (emptied : u.Emptied h c n a) (cph : (t.chan c).cph = (u.chan c).cph) (circ : (t.chan c).circ = (u.chan c).circ)
    (q : (t.chan c).q = (u.chan c).q) (here : t.Local u c) : t.Emptied h c n a := by
  obtain ⟨slot, txp, arm, high, other, kctx, ks, q', here'⟩ := emptied
  refine ⟨?_, ?_, ?_, ?_, fun m ne => ?_, fun k => ?_, ?_, q.trans q', here.trans here'⟩
  · rwa [Chan.ctx_congr cph]
  · rwa [Chan.ctx_congr cph]
  · rwa [Chan.ctx_congr cph]
  · rwa [Chan.ctx_congr cph]
  · rw [Chan.ctx_congr cph, other m ne]
  · rw [Chan.circ_congr circ, kctx]
  · rwa [cph]

theorem Hw.switchCheck_disarmed (arm : ((h.chan c).ctx! n).arm = false) : h.switchCheck c n = h := by
  unfold Hw.switchCheck
  rw [if_neg (by simp [arm])]

/-- A slot with a key goes to EMPTY. -/
def Hw.slotCut (h : Hw) (c : ChanId) (n : Nat) (odd : Bool) : Hw :=
  (((h.onCtx c n (·.onSlot odd KeySlot.empty)).onCtxCircs c n (·.slotGone odd))).onChan c fun x =>
    x.ksFlushAll fun r => decide (r.odd = odd ∧ (x.circ! r.circ).kctx = n)

theorem Hw.slotCut_ctx (h : Hw) (c : ChanId) (n : Nat) (odd : Bool) (m : Nat) :
    ((h.slotCut c n odd).chan c).ctx! m = if m = n then ((h.chan c).ctx! n).onSlot odd KeySlot.empty else (h.chan c).ctx! m := by
  rw [Hw.slotCut, Hw.onChan_chan, if_pos rfl, Chan.ksFlushAll_ctx]
  exact (Chan.ctx_congr (Hw.onCtxCircs_cph _ c n _) m).trans (h.onCtx_ctx c n m _)

theorem Circ.slotGone_kctx (y : Circ) (odd : Bool) : (y.slotGone odd).kctx = y.kctx := rfl

theorem Hw.slotCut_kctx (h : Hw) (c : ChanId) (n : Nat) (odd : Bool) (k : CircId) :
    (((h.slotCut c n odd).chan c).circ! k).kctx = ((h.chan c).circ! k).kctx := by
  rw [Hw.slotCut, Hw.onChan_chan, if_pos rfl, Chan.circ_congr (Chan.ksFlushAll_circ _ _)]
  refine (Hw.onCtxCircs_kctx _ c n (·.slotGone odd) (fun y => y.slotGone_kctx odd) k).trans ?_
  rw [Hw.onCtx_chan, if_pos rfl]
  rfl

theorem Hw.slotCut_ks (h : Hw) (c : ChanId) (n : Nat) (odd : Bool) (i : Fin 3) (r : KsEnt) (mem : r ∈ ((h.slotCut c n odd).chan c).cph.ks[i]) :
    r ∈ (h.chan c).cph.ks[i] ∧ ¬(r.odd = odd ∧ ((h.chan c).circ! r.circ).kctx = n) := by
  rw [Hw.slotCut, Hw.onChan_chan, if_pos rfl, Chan.ksFlushAll_mem, decide_eq_false_iff_not] at mem
  have kctx := Hw.onCtxCircs_kctx (h.onCtx c n (·.onSlot odd KeySlot.empty)) c n (·.slotGone odd) (fun y => y.slotGone_kctx odd) r.circ
  have same : ((h.onCtx c n (·.onSlot odd KeySlot.empty)).chan c).circ! r.circ = (h.chan c).circ! r.circ := by
    rw [Hw.onCtx_chan, if_pos rfl]
    rfl
  have ks : (((h.onCtx c n (·.onSlot odd KeySlot.empty)).onCtxCircs c n (·.slotGone odd)).chan c).cph.ks = (h.chan c).cph.ks := by
    rw [Hw.onCtxCircs_cph, Hw.onCtx_chan, if_pos rfl]
    rfl
  rw [kctx, same, ks] at mem
  exact mem

theorem Hw.slotCut_q (h : Hw) (c : ChanId) (n : Nat) (odd : Bool) : ((h.slotCut c n odd).chan c).q = (h.chan c).q := by
  rw [Hw.slotCut, Hw.onChan_chan, if_pos rfl]
  refine (Hw.onCtxCircs_q _ c n _).trans ?_
  rw [Hw.onCtx_chan, if_pos rfl]
  rfl

theorem Hw.slotCut_local (h : Hw) (c : ChanId) (n : Nat) (odd : Bool) : (h.slotCut c n odd).Local h c :=
  (Hw.onChan_local _ c _).trans ((Hw.onCtxCircs_local _ c n _).trans (h.onCtx_local c n _))

/-- Where no switch is armed a slot going to EMPTY changes nothing else. -/
theorem Hw.slotEmpty_disarmed (arm : ((h.chan c).ctx! n).arm = false) (odd : Bool) :
    h.slotEmpty c n odd = if (((h.chan c).ctx! n).slot odd).st = .empty then h else h.slotCut c n odd := by
  unfold Hw.slotEmpty
  dsimp only
  split
  · rfl
  · have after : (((h.slotCut c n odd).chan c).ctx! n).arm = false := by rw [Hw.slotCut_ctx, if_pos rfl, Ctx.onSlot_arm, arm]
    rw [if_neg (by simp [arm])]
    exact Hw.switchCheck_disarmed after

theorem Hw.slotEmpty_emptied (arm : ((h.chan c).ctx! n).arm = false) (odd : Bool) : (h.slotEmpty c n odd).Emptied h c n (· == odd) := by
  rw [Hw.slotEmpty_disarmed arm odd]
  split
  · next st =>
    refine ⟨fun o => ?_, rfl, rfl, rfl, fun _ _ => rfl, fun _ => rfl, fun i r mem => ⟨mem, fun o named key => ?_⟩, rfl, .refl h c⟩
    · split
      · next named => rw [eq_of_beq named, KeySlot.empty_of_empty st]
      · rfl
    · rw [eq_of_beq named] at key
      exact absurd st key
  · have own := (h.slotCut_ctx c n odd n).trans (if_pos rfl)
    refine ⟨fun o => ?_, ?_, ?_, ?_, fun m ne => (h.slotCut_ctx c n odd m).trans (if_neg ne), h.slotCut_kctx c n odd, fun i r mem => ?_,
      h.slotCut_q c n odd, h.slotCut_local c n odd⟩
    · rw [own, Ctx.onSlot_slot]
      cases o <;> cases odd <;> rfl
    · rw [own, Ctx.onSlot_txp]
    · rw [own, Ctx.onSlot_arm]
    · rw [own, Ctx.onSlot_highSerial]
    · obtain ⟨mem', gone⟩ := h.slotCut_ks c n odd i r mem
      exact ⟨mem', fun o named _ => by rwa [eq_of_beq named]⟩

theorem Hw.slotEmpty_if (b : Bool) (arm : ((h.chan c).ctx! n).arm = false) (odd : Bool) :
    (if b = true then h.slotEmpty c n odd else h).Emptied h c n fun o => b && o == odd := by
  cases b
  · exact .refl h c n
  · exact Hw.slotEmpty_emptied arm odd

theorem Hw.levels_emptied {a : Bool → Bool} (emptied : u.Emptied h c n a) : (u.levels c).Emptied h c n a :=
  emptied.after (u.levels_keeps c (fun u => (u.chan c).cph) (by simp) (by simp)) (u.levels_circ c)
    (u.levels_keeps c (fun u => (u.chan c).q) (by simp) (by simp)) (u.levels_local c)

/-- The slots that a KEY_ZEROIZE or the end of the overlap names. -/
def slotMask (even odd : Bool) (o : Bool) : Bool := if o then odd else even

theorem Hw.zeroize_emptied (arm : ((h.chan c).ctx! n).arm = false) (even odd : Bool) : (h.zeroize c n even odd).Emptied h c n (slotMask even odd) := by
  have first := Hw.slotEmpty_if even arm false
  have both := (Hw.slotEmpty_if odd (first.arm.trans arm) true).trans first
  have mask : (fun o => (even && o == false) || (odd && o == true)) = slotMask even odd := by
    funext o
    cases o <;> cases even <;> cases odd <;> rfl
  rw [mask] at both
  exact Hw.levels_emptied both

theorem Hw.overlapEnd_eq (h : Hw) (c : ChanId) (n : Nat) :
    h.overlapEnd c n = h.zeroize c n (decide (((h.chan c).ctx! n).even.st = .draining)) (decide (((h.chan c).ctx! n).odd.st = .draining)) := by
  unfold Hw.overlapEnd Hw.zeroize
  simp only [decide_eq_true_eq]

theorem tget_unlisted {α : Type} (d : α) (k : Nat) : ∀ t : Table α, (∀ e ∈ t, e.1 ≠ k) → tget d t k = d
  | [], _ => rfl
  | e :: t, no => by rw [tget, if_neg (no e (by simp)), tget_unlisted d k t fun e mem => no e (by simp [mem])]

/-- KEY_ZEROIZE_ALL's work on the contexts of a list. -/
theorem Hw.zeroizeAll_shows (c : ChanId) : ∀ (l : List (Nat × Ctx)) (h : Hw), (∀ n, ((h.chan c).ctx! n).arm = false) →
    let t := l.foldl (fun h e => h.zeroize c e.1 true true) h
    (∀ m o, ((t.chan c).ctx! m).slot o = if m ∈ l.map Prod.fst then (((h.chan c).ctx! m).slot o).empty else ((h.chan c).ctx! m).slot o)
    ∧ (∀ m, ((t.chan c).ctx! m).highSerial = ((h.chan c).ctx! m).highSerial) ∧ (t.chan c).q = (h.chan c).q ∧ t.Local h c
  | [], h, _ => ⟨fun m o => by rw [if_neg (by simp)]; rfl, fun _ => rfl, rfl, .refl h c⟩
  | e :: l, h, arms => by
    have one := Hw.zeroize_emptied (arms e.1) true true
    have arms' : ∀ n, (((h.zeroize c e.1 true true).chan c).ctx! n).arm = false := by
      intro n
      by_cases own : n = e.1
      · rw [own, one.arm, arms]
      · rw [one.other n own, arms]
    obtain ⟨slot, high, q, here⟩ := Hw.zeroizeAll_shows c l _ arms'
    refine ⟨fun m o => (slot m o).trans ?_, fun m => (high m).trans ?_, q.trans one.q, here.trans one.here⟩
    · by_cases own : m = e.1
      · subst own
        have mine := (one.slot o).trans (if_pos (by cases o <;> rfl))
        rw [mine, KeySlot.empty_empty, ite_self, if_pos (by simp)]
      · rw [one.other m own]
        have listed : m ∈ l.map Prod.fst ↔ m ∈ (e :: l).map Prod.fst := by
          rw [List.map_cons, List.mem_cons]
          exact (or_iff_right own).symm
        exact if_congr listed rfl rfl
    · by_cases own : m = e.1
      · rw [own, one.high]
      · rw [one.other m own]

end

section
variable {u h : Hw} {c : ChanId} {n : Nat} {sel : Cmd → Bool} {x : Cmd}

theorem Hw.taken_ctx (h : Hw) (c : ChanId) (sel : Cmd → Bool) (m : Nat) : ((h.taken c sel).chan c).ctx! m = (h.chan c).ctx! m :=
  Chan.ctx_congr (h.taken_cipher c sel).1 m

theorem Hw.taken_circ (h : Hw) (c : ChanId) (sel : Cmd → Bool) : ((h.taken c sel).chan c).circ = (h.chan c).circ :=
  (besideQueue_circ c c).taken h sel

/-- A command that zeroizes slots completes with them EMPTY. -/
theorem Hw.zeroize_done (own : x.parent = none) (kept : x.dropped = false) {mask : Bool → Bool} (emptied : u.Emptied (h.taken c sel) c n mask) (h0 : Hw) :
    ((u.done (.chan c) x 0).settle h0 [c]).Completed h c sel x stDone 0 0
    ∧ ∃ v : Hw, v.Emptied (h.taken c sel) c n mask ∧ (((u.done (.chan c) x 0).settle h0 [c]).chan c).cph = (v.chan c).cph := by
  refine ⟨(Hw.taken_completes own kept emptied.q emptied.here _ _ _).settled h0, u, emptied, ?_⟩
  rw [Hw.settle_chan_cph]
  exact (besideQueue_cph c c).bank.complete _ x _ _ _

end

/-- Settles O35: with no switch armed, each named slot loses its key, its integrity word and its keystream and keeps its serial, and nothing
else of the key store moves. -/
theorem keysZeroized : Obligations.KeysZeroized := by
  refine ⟨fun s c x runs => ?_, fun s c x runs arms => ?_, fun s c n works active => ?_⟩
  · intro n z arm
    refine .byCommand (fun x h => (h.zeroize c (cmdCtx x) (bitOf x.w1 16) (bitOf x.w1 17)).done (.chan c) x 0) rfl runs ?_
    have emptied := Hw.zeroize_emptied (h := s.hw.taken c (fresh 0x11)) (c := c) (n := n) (by rw [Hw.taken_ctx]; exact arm)
      (bitOf x.w1 16) (bitOf x.w1 17)
    obtain ⟨done, v, ⟨slot, txp, -, high, other, -, ks, -, -⟩, cph⟩ := Hw.zeroize_done runs.own runs.kept emptied s.hw
    have circ := s.hw.taken_circ c (fresh 0x11)
    have named : ∀ o, slotMask (bitOf x.w1 16) (bitOf x.w1 17) o = bitOf x.w1 (if o then 17 else 16) := by
      intro o
      cases o <;> rfl
    simp only [Hw.taken_ctx, Chan.circ_congr circ, named] at slot txp high other ks
    rw [cph, Chan.ctx_congr cph]
    refine ⟨done, fun o mask => ?_, fun o mask => ?_, txp, high, fun m ne => (Chan.ctx_congr cph m).trans (other m ne)⟩
    · have gone := (slot o).trans (if_pos mask)
      obtain ⟨st, serial, rest⟩ := ((s.hw.chan c).ctx! n |>.slot o).empty_shows
      rw [gone]
      refine ⟨st, serial, fun key => ⟨(rest key).1, (rest key).2, fun i r mem => (ks i r mem).2 o mask key⟩⟩
    · exact (slot o).trans (if_neg (by simp [mask]))
  · refine .byCommand (op := 0x12) (fun x h => ((h.chan c).cph.ctx.foldl (fun h (e : Nat × Ctx) => h.zeroize c e.1 true true) h).done (.chan c) x 0) ?_ runs ?_
    · unfold exec execKeyZeroizeAll
      rfl
    have shows := Hw.zeroizeAll_shows c (s.hw.chan c).cph.ctx (s.hw.taken c (fresh 0x12)) fun n => by rw [Hw.taken_ctx, arms]
    obtain ⟨slot, high, q, here⟩ := shows
    have table : ((s.hw.taken c (fresh 0x12)).chan c).cph.ctx = (s.hw.chan c).cph.ctx := by rw [(s.hw.taken_cipher c _).1]
    simp only [table]
    generalize (s.hw.chan c).cph.ctx.foldl (fun h e => h.zeroize c e.1 true true) (s.hw.taken c (fresh 0x12)) = u at slot high q here
    have done := (Hw.taken_completes (u := u) runs.own runs.kept q here stDone 0 0).settled s.hw
    have cph : ((u.complete (.chan c) x stDone 0 0).chan c).cph = (u.chan c).cph := (besideQueue_cph c c).bank.complete u x stDone 0 0
    refine ⟨done, fun n o => ?_⟩
    have ctx := (Chan.ctx_congr (Hw.settle_chan_cph (u.done (.chan c) x 0) s.hw [c] c) n).trans (Chan.ctx_congr cph n)
    have slot' := slot n o
    rw [Hw.taken_ctx] at slot'
    rw [ctx, high, Hw.taken_ctx, slot']
    by_cases listed : n ∈ (s.hw.chan c).cph.ctx.map Prod.fst
    · rw [if_pos listed]
      obtain ⟨st, -, rest⟩ := ((s.hw.chan c).ctx! n |>.slot o).empty_shows
      exact ⟨st, rfl, fun key => (rest key).1⟩
    · have blank : (s.hw.chan c).ctx! n = {} := tget_unlisted _ n _ fun e mem own => listed (List.mem_map.2 ⟨e, mem, own⟩)
      have st : (((s.hw.chan c).ctx! n).slot o).st = .empty := by rw [blank]; cases o <;> rfl
      rw [if_neg listed]
      exact ⟨st, rfl, fun key => absurd st key⟩
  · intro z arm
    refine .byOnActive c (·.overlapEnd c n.toNat) rfl works active ?_
    rw [Hw.overlapEnd_eq]
    obtain ⟨slot, -, -, -, other, -, -, -, here⟩ := Hw.zeroize_emptied (h := s.hw) (c := c) arm (decide (z.even.st = .draining)) (decide (z.odd.st = .draining))
    have named : ∀ o, slotMask (decide (z.even.st = .draining)) (decide (z.odd.st = .draining)) o = decide ((z.slot o).st = .draining) := by
      intro o
      cases o <;> rfl
    refine ⟨fun o draining => ?_, fun o kept => ?_, other, here⟩
    · have gone := (slot o).trans (if_pos ((named o).trans (decide_eq_true draining)))
      obtain ⟨st, -, rest⟩ := (z.slot o).empty_shows
      rw [gone]
      exact ⟨st, (rest (by rw [draining]; decide)).1⟩
    · exact (slot o).trans (if_neg (by rw [named, decide_eq_true_eq]; exact kept))

/-! ## Registers beside the queues -/

theorem Hw.chEvent_apart (h : Hw) (c : ChanId) {off o : Nat} (j : Nat) (fl : Word) (apart : o ≠ off) : (h.chEvent c off j fl).chReg c o = h.chReg c o := by
  unfold Hw.chEvent
  split
  · simp [Hw.chReg, Chan.reg_setReg, apart]
  · rfl

/-- The registers of a queue's level lie at 0x6000 to 0x60FF. -/
theorem Hw.level_chReg (h : Hw) (c : ChanId) {q n o : Nat} (out : o < 0x6000 ∨ 0x6100 ≤ o) (queue : q < 16) : (h.level c q n).chReg c o = h.chReg c o := by
  have put : ∀ (h : Hw) (off : Nat) (w : Word), o ≠ off → (h.setChReg c off w).chReg c o = h.chReg c o := by
    intro h off w apart
    simp [Hw.chReg, Chan.reg_setReg, apart]
  unfold Hw.level
  extract_lets old n h1 w h2 mark
  have one : h1.chReg c o = h.chReg c o := put h _ _ (by omega)
  have two : h2.chReg c o = h.chReg c o := ite_keeps (p := fun u => u.chReg c o) ((put h1 _ _ (by omega)).trans one) one
  refine ite_keeps (p := fun u => u.chReg c o) ?_ two
  exact (Hw.chEvent_apart _ c _ _ (by omega)).trans ((put h2 _ _ (by omega)).trans two)

theorem besideQueue_reg (c : ChanId) {o : Nat} (out : o < 0x6000 ∨ 0x6100 ≤ o) : BesideQueue (fun h => h.chReg c o) (.chan c) where
  own h f := by simp [Hw.chReg, Hw.onQueue, Chan.reg]
  device h f := rfl
  levels h := (Hw.level_chReg _ c out (by decide)).trans (Hw.level_chReg h c out (by decide))
  kbuf h := rfl
  notify h f src := by simp [Hw.chReg]

/-! ## Switches of a context -/

/-- What decides whether a circuit builds blocks, beside its channel. -/
def Circ.builder (y : Circ) : Bool × Bool × Bool × Bool × Bool × Bool × Bool × Nat :=
  (y.en, y.starved, y.quar, y.live, y.hardStop, y.clear, y.odd, y.kctx)

theorem Chan.builds_congr {x z : Chan} (st : x.st = z.st) (flt : x.flt = z.flt) (circ : ∀ k, (x.circ! k).builder = (z.circ! k).builder)
    (slot : ∀ m o, ((x.ctx! m).slot o).st = ((z.ctx! m).slot o).st) (n : Nat) {y w : Circ} (own : y.builder = w.builder) :
    x.builds n y = z.builds n w := by
  have at_ := circ (BitVec.ofNat 13 n)
  simp only [Circ.builder, Prod.mk.injEq] at at_ own
  obtain ⟨en, starved, quar, -⟩ := at_
  obtain ⟨-, -, -, live, stop, clear, odd, ctx⟩ := own
  simp only [Chan.builds, Chan.serves, Chan.isActive, Chan.quarantined, st, flt, en, starved, quar, live, stop, clear, odd, ctx, slot]

section
variable {h : Hw} {c : ChanId} {n : Nat}

/-- A circuit of a context in which a switch is armed. -/
def Circ.armedBy (at_ : Option Seq) (y : Circ) : Circ :=
  { y with switched := false, asNow := match at_ with
      | none => true
      | some v => decide (v ≤ y.eseq y.odd) }

/-- The hardware with a switch armed, before it is seen whether any circuit makes it wait. -/
def Hw.armed (h : Hw) (c : ChanId) (n : Nat) (at_ : Option Seq) : Hw :=
  (h.onCtx c n fun z => { z with arm := true, atSeq := at_, armAt := h.now + tenthUs 100 }).onCtxCircs c n (Circ.armedBy at_)

theorem Hw.switchArm_eq (h : Hw) (c : ChanId) (n : Nat) (at_ : Option Seq) : h.switchArm c n at_ = (h.armed c n at_).switchCheck c n := rfl

theorem Hw.armed_ctx (h : Hw) (c : ChanId) (n : Nat) (at_ : Option Seq) (m : Nat) : ((h.armed c n at_).chan c).ctx! m
    = if m = n then { (h.chan c).ctx! n with arm := true, atSeq := at_, armAt := h.now + 4000 } else (h.chan c).ctx! m :=
  (Chan.ctx_congr (Hw.onCtxCircs_cph _ c n _) m).trans (h.onCtx_ctx c n m _)

theorem Hw.armed_local (h : Hw) (c : ChanId) (n : Nat) (at_ : Option Seq) : (h.armed c n at_).Local h c :=
  (Hw.onCtxCircs_local _ c n _).trans (h.onCtx_local c n _)

theorem Hw.armed_q (h : Hw) (c : ChanId) (n : Nat) (at_ : Option Seq) : ((h.armed c n at_).chan c).q = (h.chan c).q := by
  refine (Hw.onCtxCircs_q _ c n _).trans ?_
  rw [Hw.onCtx_chan, if_pos rfl]
  rfl

theorem Hw.armed_chan (h : Hw) (c : ChanId) (n : Nat) (at_ : Option Seq) : (h.armed c n at_).chan c =
    { (h.chan c).setCtx n { (h.chan c).ctx! n with arm := true, atSeq := at_, armAt := h.now + tenthUs 100 } with
      circ := (h.chan c).circ.map fun e => if e.2.kctx = n ∧ e.2 ≠ {} then (e.1, e.2.armedBy at_) else e } := by
  simp only [Hw.armed, Hw.onCtxCircs, Hw.onChan_chan, if_pos, Hw.onCtx_chan]
  rfl

theorem Circ.armedBy_builder (at_ : Option Seq) (y : Circ) : (y.armedBy at_).builder = y.builder := rfl

theorem Hw.armed_builds (h : Hw) (c : ChanId) (n : Nat) (at_ : Option Seq) (k : Nat) {y w : Circ} (own : y.builder = w.builder) :
    ((h.armed c n at_).chan c).builds k y = (h.chan c).builds k w := by
  refine Chan.builds_congr (by rw [Hw.armed_chan]; rfl) (by rw [Hw.armed_chan]; rfl) (fun j => ?_) (fun m o => ?_) k own
  · refine (congrArg Circ.builder (Hw.onCtxCircs_circ _ c n (Circ.armedBy at_) j)).trans ?_
    have same : ((h.onCtx c n fun z => { z with arm := true, atSeq := at_, armAt := h.now + tenthUs 100 }).chan c).circ! j = (h.chan c).circ! j := by
      rw [Hw.onCtx_chan, if_pos rfl]
      rfl
    rw [same]
    split
    · exact Circ.armedBy_builder at_ _
    · rfl
  · rw [Hw.armed_ctx]
    split
    · next own => rw [own]; cases o <;> rfl
    · rfl

/-- The circuits of a context, none switched, once a switch is armed. -/
theorem Hw.armed_circs (h : Hw) (c : ChanId) (n : Nat) (at_ : Option Seq) (e : Nat × Circ) :
    e ∈ ((h.armed c n at_).chan c).ctxCircs n ↔ ∃ d ∈ (h.chan c).ctxCircs n, e = (d.1, d.2.armedBy at_) := by
  rw [Hw.armed_chan]
  simp only [Chan.ctxCircs, List.mem_filter, List.mem_map, Bool.and_eq_true, decide_eq_true_eq]
  constructor
  · rintro ⟨⟨d, mem, rfl⟩, en, ctx⟩
    by_cases here : d.2.kctx = n ∧ d.2 ≠ {}
    · rw [if_pos here] at en ⊢
      exact ⟨d, ⟨mem, en, here.1⟩, rfl⟩
    · rw [if_neg here] at en ctx
      exact absurd ⟨ctx, Circ.ne_of_en en⟩ here
  · rintro ⟨d, ⟨mem, en, ctx⟩, rfl⟩
    exact ⟨⟨d, mem, if_pos ⟨ctx, Circ.ne_of_en en⟩⟩, en, ctx⟩

/-- A context in which a circuit builds blocks waits for it (R209). -/
theorem Hw.switchArm_waits (at_ : Option Seq) (building : ∃ e ∈ (h.chan c).ctxCircs n, (h.chan c).builds e.1 e.2 = true) :
    h.switchArm c n at_ = h.armed c n at_ := by
  obtain ⟨d, mem, builds⟩ := building
  rw [Hw.switchArm_eq, Hw.switchCheck]
  refine if_neg fun all => ?_
  have every := (Bool.and_eq_true_iff.1 all).2
  have one := List.all_eq_true.1 every _ ((h.armed_circs c n at_ _).2 ⟨d, mem, rfl⟩)
  dsimp only at one
  rw [h.armed_builds c n at_ d.1 (d.2.armedBy_builder at_), builds] at one
  exact absurd one (by simp [Circ.armedBy])

/-- A context in which no circuit builds blocks switches at once (R209). -/
theorem Hw.switchArm_switches (at_ : Option Seq) (idle : ¬ ∃ e ∈ (h.chan c).ctxCircs n, (h.chan c).builds e.1 e.2 = true) :
    h.switchArm c n at_ = (h.armed c n at_).switchDone c n := by
  rw [Hw.switchArm_eq, Hw.switchCheck]
  refine if_pos (Bool.and_eq_true_iff.2 ⟨by rw [Hw.armed_ctx, if_pos rfl], List.all_eq_true.2 fun e mem => ?_⟩)
  obtain ⟨d, mem', rfl⟩ := (h.armed_circs c n at_ e).1 mem
  have none_ : (h.chan c).builds d.1 d.2 = false := Bool.eq_false_iff.2 fun builds => idle ⟨d, mem', builds⟩
  dsimp only
  rw [h.armed_builds c n at_ d.1 (d.2.armedBy_builder at_), none_]
  simp

/-- The context of a completed switch (R199). -/
def Ctx.switchedTo (z : Ctx) (t : Bool) (now : Nat) : Ctx :=
  let z := z.onSlot t fun s => KeySlot.stamp { s with st := .current, since := now }
  let z := z.onSlot (!t) fun s => if s.st = .current then KeySlot.stamp { s with st := .draining } else s
  { z with txp := t, arm := false, atSeq := none, staleRaised := false }

theorem Ctx.switchedTo_slot (z : Ctx) (t : Bool) (now : Nat) :
    (z.switchedTo t now).slot t = KeySlot.stamp { z.slot t with st := .current, since := now }
    ∧ (z.switchedTo t now).slot (!t) = if (z.slot (!t)).st = .current then KeySlot.stamp { z.slot (!t) with st := .draining } else z.slot (!t) := by
  cases t <;> exact ⟨rfl, rfl⟩

theorem Ctx.switchedTo_txp (z : Ctx) (t : Bool) (now : Nat) : (z.switchedTo t now).txp = t ∧ (z.switchedTo t now).arm = false := ⟨rfl, rfl⟩

theorem KeySlot.stamp_st (k : KeySlot) : k.stamp.st = k.st := rfl

theorem KeySlot.stamp_key (k : KeySlot) : k.stamp.key = k.key := rfl

/-- What a switch changes of its context beside what arming it changed (R199). -/
structure Ctx.Switched (w z : Ctx) : Prop where
  txp : w.txp = !z.txp
  arm : w.arm = false
  current : (w.slot (!z.txp)).st = .current
  key : (w.slot (!z.txp)).key = (z.slot (!z.txp)).key
  draining : (z.slot z.txp).st = .current → (w.slot z.txp).st = .draining

theorem Ctx.switched_of_armed (z : Ctx) (at_ : Option Seq) (till now : Nat) :
    (({ z with arm := true, atSeq := at_, armAt := till } : Ctx).switchedTo (!z.txp) now).Switched z := by
  have slot : ∀ o, ({ z with arm := true, atSeq := at_, armAt := till } : Ctx).slot o = z.slot o := fun o => by cases o <;> rfl
  obtain ⟨to_, from_⟩ := Ctx.switchedTo_slot { z with arm := true, atSeq := at_, armAt := till } (!z.txp) now
  obtain ⟨txp, arm⟩ := Ctx.switchedTo_txp { z with arm := true, atSeq := at_, armAt := till } (!z.txp) now
  rw [Bool.not_not, slot] at from_
  rw [slot] at to_
  refine ⟨txp, arm, by rw [to_, KeySlot.stamp_st], by rw [to_, KeySlot.stamp_key], fun current => ?_⟩
  rw [from_, if_pos current, KeySlot.stamp_st]

theorem Hw.switchDone_shows (raises : (h.chan c).raises = true) :
    ((h.switchDone c n).chan c).ctx! n = ((h.chan c).ctx! n).switchedTo (!((h.chan c).ctx! n).txp) h.now
    ∧ bitOf ((h.switchDone c n).chReg c 0x5010) 20 = true ∧ (h.switchDone c n).Local h c := by
  unfold Hw.switchDone
  extract_lets t h1 h2
  have ctx : (h2.chan c).ctx! n = ((h.chan c).ctx! n).switchedTo (!((h.chan c).ctx! n).txp) h.now :=
    (Chan.ctx_congr (Hw.onCtxCircs_cph h1 c n _) n).trans ((h.onCtx_ctx c n n _).trans (if_pos rfl))
  have here : h2.Local h c := (Hw.onCtxCircs_local h1 c n _).trans (h.onCtx_local c n _)
  have st : (h2.chan c).raises = true := by
    refine Eq.trans ?_ raises
    simp [h2, h1, Hw.onCtxCircs, Chan.raises, Chan.setCtx]
  refine ⟨?_, ?_, (Hw.finish_beside _ c _ _ _ _).here.trans ((h2.chEvent_local c _ _ _).trans here)⟩
  · refine (Chan.ctx_congr ((besideQueue_cph c c).finish _ _ _ _ _) n).trans ((Chan.ctx_congr (Hw.chEvent_chan_cph h2 c _ _ _ c) n).trans ctx)
  · refine (congrArg (bitOf · 20) ((besideQueue_reg c (o := 0x5010) (.inl (by decide))).finish _ _ _ _ _)).trans ?_
    have flag : bitOf (0x00100000 : Word) 20 = true := by decide
    rw [Hw.evCph, Hw.chEvent_chReg st, if_pos rfl, bitOf_evWord _ _ (by omega), flag, Bool.or_true]

end

section
variable {u h : Hw} {c : ChanId} {n : Nat} {sel : Cmd → Bool} {x : Cmd}

/-- A channel beside its queue and its registers: what decides on a switch (R209). -/
structure Hw.SameCipher (u h : Hw) (c : ChanId) : Prop where
  st : (u.chan c).st = (h.chan c).st
  flt : (u.chan c).flt = (h.chan c).flt
  circ : (u.chan c).circ = (h.chan c).circ
  cph : (u.chan c).cph = (h.chan c).cph
  now : u.now = h.now
  boot : u.dev.boot = h.dev.boot

theorem besideQueue_now (port : Port) : BesideQueue (fun h => h.now) port :=
  ⟨by simp, by simp, by simp, fun _ => rfl, by simp⟩

theorem Hw.taken_same (h : Hw) (c : ChanId) (sel : Cmd → Bool) : (h.taken c sel).SameCipher h c :=
  ⟨(besideQueue_st c c).taken h sel, (besideQueue_flt c c).taken h sel, (besideQueue_circ c c).taken h sel, (besideQueue_cph c c).taken h sel,
    (besideQueue_now (.chan c)).taken h sel, (besideQueue_boot (.chan c)).taken h sel⟩

theorem Hw.complete_same (h : Hw) (c : ChanId) (x : Cmd) (status reason result : Nat) : (h.complete (.chan c) x status reason result).SameCipher h c :=
  ⟨(besideQueue_st c c).bank.complete h x _ _ _, (besideQueue_flt c c).bank.complete h x _ _ _, (besideQueue_circ c c).bank.complete h x _ _ _,
    (besideQueue_cph c c).bank.complete h x _ _ _, (besideQueue_now (.chan c)).bank.complete h x _ _ _,
    (besideQueue_boot (.chan c)).bank.complete h x _ _ _⟩

theorem Hw.hold_same (h : Hw) (c : ChanId) (x : Cmd) : (h.hold (.chan c) x).SameCipher h c :=
  ⟨(besideQueue_st c c).hold h x, (besideQueue_flt c c).hold h x, (besideQueue_circ c c).hold h x, (besideQueue_cph c c).hold h x,
    (besideQueue_now (.chan c)).hold h x, (besideQueue_boot (.chan c)).hold h x⟩

theorem Hw.SameCipher.trans {t u h : Hw} {c : ChanId} (a : t.SameCipher u c) (b : u.SameCipher h c) : t.SameCipher h c :=
  ⟨a.st.trans b.st, a.flt.trans b.flt, a.circ.trans b.circ, a.cph.trans b.cph, a.now.trans b.now, a.boot.trans b.boot⟩

theorem Hw.SameCipher.ctx (same : u.SameCipher h c) (m : Nat) : (u.chan c).ctx! m = (h.chan c).ctx! m := Chan.ctx_congr same.cph m

theorem Hw.SameCipher.building (same : u.SameCipher h c) : (∃ e ∈ (u.chan c).ctxCircs n, (u.chan c).builds e.1 e.2 = true)
    ↔ ∃ e ∈ (h.chan c).ctxCircs n, (h.chan c).builds e.1 e.2 = true := by
  have circs : (u.chan c).ctxCircs n = (h.chan c).ctxCircs n := by rw [Chan.ctxCircs, same.circ, Chan.ctxCircs]
  have builds : ∀ e : Nat × Circ, (u.chan c).builds e.1 e.2 = (h.chan c).builds e.1 e.2 := fun e =>
    Chan.builds_congr same.st same.flt (fun k => by rw [Chan.circ_congr same.circ k]) (fun m o => by rw [same.ctx]) e.1 rfl
  simp only [circs, builds]

/-- An EPOCH_ADVANCE that is accepted completes or is held, and arms the switch at its SEQ, or now (R209). -/
theorem Hw.epochAdvance_arms (own : x.parent = none) (kept : x.dropped = false) (on : h.cipherOff c = false)
    (target : (((h.chan c).ctx! (cmdCtx x)).slot (!((h.chan c).ctx! (cmdCtx x)).txp)).st = .standby) :
    ∃ u : Hw, (h.taken c sel).epochAdvance c x = u.switchArm c (cmdCtx x) (if bitOf x.w1 24 then some (cmdAtSeq x) else none)
      ∧ u.SameCipher h c ∧ u.Local h c ∧ if bitOf x.w1 24 then u.Completed h c sel x stDone 0 0 else u.Waits h c sel x := by
  have taken := h.taken_same c sel
  have here := (h.taken_beside c sel).here
  unfold Hw.epochAdvance
  dsimp only
  rw [(h.taken_cipher c sel).2.2, on, Hw.taken_ctx, if_neg (by decide), if_neg (by rw [target]; decide)]
  split
  · exact ⟨_, rfl, (Hw.complete_same _ c x _ _ _).trans taken, (Hw.complete_beside _ c x _ _ _).here.trans here,
      Hw.taken_completes own kept rfl (.refl _ c) stDone 0 0⟩
  · exact ⟨_, rfl, (Hw.hold_same _ c x).trans taken, (Hw.hold_beside _ c x).here.trans here, Hw.taken_waits rfl (.refl _ c)⟩

theorem Hw.epochAdvance_off (off : h.cipherOff c = true) : (h.taken c sel).epochAdvance c x = (h.taken c sel).refuse (.chan c) x rCipherOff := by
  unfold Hw.epochAdvance
  dsimp only
  rw [(h.taken_cipher c sel).2.2, if_pos off]

theorem Hw.epochAdvance_noStandby (on : h.cipherOff c = false)
    (target : (((h.chan c).ctx! (cmdCtx x)).slot (!((h.chan c).ctx! (cmdCtx x)).txp)).st ≠ .standby) :
    (h.taken c sel).epochAdvance c x = (h.taken c sel).refuse (.chan c) x rNoStandby := by
  unfold Hw.epochAdvance
  dsimp only
  rw [(h.taken_cipher c sel).2.2, on, Hw.taken_ctx, if_neg (by decide), if_pos target]

end

/-- Settles O36: the checks and the arming read the cipher and the circuits alone, which taking, completing and holding a command leave. -/
theorem epochsAdvance : Obligations.EpochsAdvance := by
  intro s c x runs n z building
  have command : ∀ P, P (((s.hw.taken c (fresh 0x13)).epochAdvance c x).settle s.hw [c]) → Completes (.epochAdvance c) s P := fun P shows =>
    .byCommand (fun x h => h.epochAdvance c x) rfl runs shows
  refine ⟨fun off => command _ ?_, fun on target => command _ ?_, fun on target builds => command _ ?_, fun on target idle => command _ ?_⟩
  · rw [Hw.epochAdvance_off off]
    obtain ⟨done, cph, -⟩ := s.hw.refuse_taken (c := c) (sel := fresh 0x13) runs.own runs.kept rCipherOff s.hw
    exact ⟨done, cph⟩
  · rw [Hw.epochAdvance_noStandby on target]
    obtain ⟨done, cph, -⟩ := s.hw.refuse_taken (c := c) (sel := fresh 0x13) runs.own runs.kept rNoStandby s.hw
    exact ⟨done, cph⟩
  · obtain ⟨sent, arms, same, here, outcome⟩ := Hw.epochAdvance_arms (sel := fresh 0x13) runs.own runs.kept on target
    rw [arms, Hw.switchArm_waits _ (same.building.2 builds)]
    generalize (if bitOf x.w1 24 then some (cmdAtSeq x) else none) = seq
    have ctx := (Hw.armed_ctx sent c n seq n).trans (if_pos rfl)
    rw [same.ctx, same.now] at ctx
    refine ⟨?_, (Chan.ctx_congr (Hw.settle_chan_cph _ s.hw [c] c) n).trans ctx⟩
    split
    · next at_ =>
      rw [if_pos at_] at outcome
      exact (outcome.after (sent.armed_q c n seq) (sent.armed_local c n seq)).settled s.hw
    · next at_ =>
      rw [if_neg at_] at outcome
      exact (outcome.after (sent.armed_q c n seq) (sent.armed_local c n seq)).settled s.hw
  · obtain ⟨sent, arms, same, here, -⟩ := Hw.epochAdvance_arms (sel := fresh 0x13) runs.own runs.kept on target
    rw [arms, Hw.switchArm_switches _ (mt same.building.1 idle)]
    generalize (if bitOf x.w1 24 then some (cmdAtSeq x) else none) = seq
    have ctx := (Hw.armed_ctx sent c n seq n).trans (if_pos rfl)
    rw [same.ctx, same.now] at ctx
    have raises : ((sent.armed c n seq).chan c).raises = true := by
      refine raises_of_active (Eq.trans ?_ (same.st.trans runs.active))
      rw [Hw.armed_chan]
      rfl
    obtain ⟨switched, flag, here'⟩ := Hw.switchDone_shows (n := n) raises
    rw [ctx] at switched
    have settled := (Chan.ctx_congr (Hw.settle_chan_cph ((sent.armed c n seq).switchDone c n) s.hw [c] c) n).trans switched
    obtain ⟨txp, arm, current, key, draining⟩ := z.switched_of_armed seq (s.hw.now + 4000) (sent.armed c n seq).now
    rw [settled]
    refine ⟨txp, arm, current, key, draining, ?_, ?_⟩
    · rw [Hw.chReg, Hw.settle_chan_reg]
      exact flag
    · exact (Hw.settle_local _ s.hw c).trans (here'.trans ((Hw.armed_local _ c n seq).trans here))

/-! ## The key store's own checks -/

theorem KeySlot.empty_sound {k : KeySlot} (st : k.st = .empty) (upset : Word) : k.corrupt upset = false := by simp [KeySlot.corrupt, st]

/-- An integrity word with a bit changed does not match what it covers (R201). -/
theorem KeySlot.upset_corrupt {k : KeySlot} (key : k.st ≠ .empty) (sound : k.integ = k.check) {upset : Word} (changed : upset ≠ 0) :
    k.corrupt upset = true := by
  have differs : k.check ^^^ upset ≠ k.check := fun same => changed (by
    have zero := congrArg (k.check ^^^ ·) same
    simpa [← BitVec.xor_assoc] using zero)
  simp [KeySlot.corrupt, key, sound, differs]

theorem exec_onActive_same {i : Instr} {s : State} {c : ChanId} (f : Hw → Hw) (is : exec i s = onActive s c f) (works : s.hw.works = true)
    (active : (s.hw.chan c).st = .active) (same : f s.hw = s.hw) : exec i s = .next s :=
  is.trans ((onActive_on works active).trans (next_congr same))

section
variable {h : Hw} {c : ChanId} {n : Nat} {z : Ctx} {odd : Bool}

/-- The schedule over a channel with one context in use. -/
theorem Hw.scheduleAll_one (run : (h.chan c).mlt.run = true) (period : h.chReg c 0x5004 ≠ 0) (one : (h.chan c).cph.ctx = [(n, z)])
    (due : z.due h.now (h.chReg c 0x5004).toNat = some odd) : h.scheduleAll c = h.schedule c n odd := by
  have some_ : (h.chReg c 0x5004).toNat ≠ 0 := fun zero => period (BitVec.eq_of_toNat_eq zero)
  unfold Hw.scheduleAll
  dsimp only
  rw [if_neg (by simp [some_, run]), one]
  simp only [List.foldl_cons, List.foldl_nil, due]

theorem Chan.ctx_one {x : Chan} (one : x.cph.ctx = [(n, z)]) : x.ctx! n = z := by rw [Chan.ctx!, one, tget, if_pos rfl]

/-- Where the slot beside the CURRENT one is not STANDBY, KEY_STALE is raised (R213). -/
theorem Hw.schedule_stale (ctx : (h.chan c).ctx! n = z) (arm : z.arm = false) (beside : (z.slot (!odd)).st ≠ .standby) (fresh_ : z.staleRaised = false) :
    h.schedule c n odd = ((h.onCtx c n fun z => { z with staleRaised := true }).raiseChan c 5 clsN 0x26 n).evCph c 0x00040000 := by
  unfold Hw.schedule
  dsimp only
  rw [ctx, if_neg (by simp [arm]), if_neg beside, if_neg (by simp [fresh_])]

theorem Hw.schedule_arms (ctx : (h.chan c).ctx! n = z) (arm : z.arm = false) (beside : (z.slot (!odd)).st = .standby) (on : h.cipherOff c = false)
    (target : (z.slot (!z.txp)).st = .standby) : h.schedule c n odd = h.switchArm c n none := by
  unfold Hw.schedule
  dsimp only
  rw [ctx, if_neg (by simp [arm]), if_pos beside, if_neg (by simp [on, target])]

/-- The schedule does nothing while a switch is armed, once KEY_STALE has been raised, and where EPOCH_ADVANCE is refused (R209, R213). -/
theorem Hw.schedule_rests (ctx : (h.chan c).ctx! n = z) (rests : z.arm = true ∨ ((z.slot (!odd)).st ≠ .standby ∧ z.staleRaised = true)
    ∨ ((z.slot (!odd)).st = .standby ∧ (h.cipherOff c = true ∨ (z.slot (!z.txp)).st ≠ .standby))) : h.schedule c n odd = h := by
  unfold Hw.schedule
  dsimp only
  rw [ctx]
  rcases rests with arm | ⟨beside, raised⟩ | ⟨beside, refused⟩
  · rw [if_pos arm]
  · rw [if_neg beside, if_pos raised, ite_self]
  · rw [if_pos beside]
    split
    · rfl
    · exact if_pos (by simpa using refused)

end

/-- Settles O37: a slot's integrity word is compared with its CRC anew, and the schedule of R213 acts on the one context that is due. -/
theorem keyStoreWatched : Obligations.KeyStoreWatched := by
  refine ⟨fun s c n even odd works active => ?_, fun s c works active => ⟨fun off => ?_, fun n z odd run period one due => ?_⟩⟩
  · intro z
    have rests : z.even.corrupt even = false → z.odd.corrupt odd = false → exec (.keystoreCheck c n ⟨even, odd⟩) s = .next s := fun e o =>
      exec_onActive_same (·.storeCheck c n.toNat even odd) rfl works active (if_neg (by simp [z] at e o; simp [e, o]))
    have triggers : s.hw.dev.boot.st ≠ .supplyUp → z.even.corrupt even = true ∨ z.odd.corrupt odd = true →
        Completes (.keystoreCheck c n ⟨even, odd⟩) s fun t => t.MidwinterBy s.hw (mkMsg c.val 5 clsM 0x2E n.toNat) := fun up bad => by
      refine .byOnActive c (·.storeCheck c n.toNat even odd) rfl works active ?_
      have is : s.hw.storeCheck c n.toNat even odd = s.hw.trigger c.val 5 0x2E n.toNat := if_pos (by simpa [Bool.or_eq_true] using bad)
      rw [is]
      exact Hw.trigger_works works up _ _ _ _
    exact ⟨rests, fun e o => rests (KeySlot.empty_sound e _) (KeySlot.empty_sound o _), triggers,
      fun up key sound changed => triggers up (.inr (KeySlot.upset_corrupt key sound changed))⟩
  · refine exec_onActive_same (·.scheduleAll c) rfl works active ?_
    unfold Hw.scheduleAll
    rw [off]
    rfl
  · have is := Hw.scheduleAll_one run period one due
    have ctx := Chan.ctx_one one
    have rests : s.hw.schedule c n odd = s.hw → exec (.keyScheduleCheck c) s = .next s := fun same =>
      exec_onActive_same (·.scheduleAll c) rfl works active (is.trans same)
    have acts : ∀ {P : Hw → Prop} {t : Hw}, s.hw.schedule c n odd = t → P t → Completes (.keyScheduleCheck c) s P := fun {P t} does shows => by
      refine .byOnActive c (·.scheduleAll c) rfl works active ?_
      rwa [is, does]
    refine ⟨fun arm => rests (Hw.schedule_rests ctx (.inl arm)), fun arm beside raised => acts (Hw.schedule_stale ctx arm beside raised) ?_,
      fun arm beside raised => rests (Hw.schedule_rests ctx (.inr (.inl ⟨beside, raised⟩))),
      fun arm beside refused => rests (Hw.schedule_rests ctx (.inr (.inr ⟨beside, refused⟩))),
      fun arm beside on target building => acts (Hw.schedule_arms ctx arm beside on target) ?_⟩
    · let u := s.hw.onCtx c n fun z => { z with staleRaised := true }
      have raises : ((u.raiseChan c 5 clsN 0x26 n).chan c).raises = true := by simp [u, Chan.raises, Chan.setCtx, active]
      refine ⟨?_, ?_, ?_, (Hw.chEvent_local _ c _ _ _).trans ((Hw.raiseChan_local _ c c _ _ _ _).trans (s.hw.onCtx_local c n _))⟩
      · rw [Hw.tookMsg, Hw.evCph, Hw.chEvent_fcl]
        refine (Hw.raiseChan_slots (h := u) (Hw.inMw_of_works works) ?_ _ _ _ _).trans rfl
        simp [u, Chan.raises, Chan.setCtx, active]
      · refine (Chan.ctx_congr (Hw.chEvent_chan_cph _ c _ _ _ c) n).trans ?_
        rw [Hw.raiseChan_chan]
        refine (s.hw.onCtx_ctx c n n _).trans ?_
        rw [if_pos rfl, ctx]
      · have flag : bitOf (0x00040000 : Word) 18 = true := by decide
        rw [Hw.evCph, Hw.chEvent_chReg raises, if_pos rfl, bitOf_evWord _ _ (by omega), flag, Bool.or_true]
    · rw [Hw.switchArm_waits _ building]
      exact ⟨(s.hw.armed_ctx c n none n).trans (by rw [if_pos rfl, ctx]), s.hw.armed_local c n none⟩

/-! ## Clear mode and re-anchoring -/

section
variable {h : Hw} {c : ChanId} {sel : Cmd → Bool} {x : Cmd}

/-- The arming of clear mode of a channel is spent. -/
def Hw.disarmed (h : Hw) (c : ChanId) : Hw := h.onChan c fun y => { y with cph := { y.cph with armed := false } }

theorem Hw.disarmed_chan (h : Hw) (c : ChanId) :
    ((h.disarmed c).chan c).cph = { (h.chan c).cph with armed := false } ∧ ((h.disarmed c).chan c).circ = (h.chan c).circ
    ∧ ((h.disarmed c).chan c).q = (h.chan c).q := by
  simp [Hw.disarmed]

theorem Hw.disarmed_local (h : Hw) (c : ChanId) : (h.disarmed c).Local h c := h.onChan_local c _

/-- What CLEAR_MODE answers, of what its checks read (R222). -/
theorem Hw.clearMode_eq (h : Hw) (c : ChanId) (sel : Cmd → Bool) (x : Cmd) : (h.taken c sel).clearMode c x =
    if bitOf x.w1 16 && !h.clearPermit c then ((h.taken c sel).disarmed c).refuse (.chan c) x rClearFuse
    else if bitOf x.w1 16 && !(h.chan c).cph.armed then ((h.taken c sel).disarmed c).refuse (.chan c) x rClearArm
    else if bitOf x.w1 16 && h.cipherOff c then ((h.taken c sel).disarmed c).refuse (.chan c) x rCipherOff
    else if !((h.chan c).circ! (BitVec.ofNat 13 (fieldOf x.w1 15 0))).en then
      (if bitOf x.w1 16 then ((h.taken c sel).disarmed c).refuse (.chan c) x rPosInvalid else ((h.taken c sel).disarmed c).done (.chan c) x 0)
    else (((h.taken c sel).disarmed c).hold (.chan c) x).onCirc c (BitVec.ofNat 13 (fieldOf x.w1 15 0)) fun y =>
      { y with clearNext := some (bitOf x.w1 16) } := by
  have fuses : (h.taken c sel).dev.fuses = h.dev.fuses := (besideQueue_fuses (.chan c)).taken h sel
  have permit : ((h.taken c sel).disarmed c).clearPermit c = h.clearPermit c := congrArg (fun f : Fuses => bitOf (tget (0 : Word) f.words _) _) fuses
  have off : ((h.taken c sel).disarmed c).cipherOff c = h.cipherOff c := by
    refine Eq.trans ?_ (h.taken_cipher c sel).2.2
    rw [Hw.cipherOff, (Hw.disarmed_chan _ c).1]
    rfl
  rw [← permit, ← off, ← (h.taken_cipher c sel).1, ← Chan.circ_congr (h.taken_circ c sel)]
  rfl

/-- A CLEAR_MODE that completes at once has spent the arming and left its circuit. -/
theorem Hw.clearMode_ends (own : x.parent = none) (kept : x.dropped = false) (status reason : Nat) (k : CircId) (h0 : Hw) :
    let t := (((h.taken c sel).disarmed c).complete (.chan c) x status reason 0).settle h0 [c]
    t.Completed h c sel x status reason 0 ∧ (t.chan c).cph = { (h.chan c).cph with armed := false } ∧ (t.chan c).circ! k = (h.chan c).circ! k := by
  obtain ⟨cph, circ, q⟩ := (h.taken c sel).disarmed_chan c
  have same := ((h.taken c sel).disarmed c).complete_same c x status reason 0
  refine ⟨(Hw.taken_completes own kept q ((h.taken c sel).disarmed_local c) _ _ _).settled h0, ?_, ?_⟩
  · rw [Hw.settle_chan_cph, same.cph, cph, (h.taken_cipher c sel).1]
  · exact Chan.circ_congr (((Hw.settle_chan_circ _ h0 [c] c).trans same.circ).trans (circ.trans (h.taken_circ c sel))) k

/-- A CLEAR_MODE that waits for its circuit's next block boundary. -/
theorem Hw.clearMode_waits (k : CircId) (on : Bool) (h0 : Hw) :
    let t := ((((h.taken c sel).disarmed c).hold (.chan c) x).onCirc c k fun y => { y with clearNext := some on }).settle h0 [c]
    t.Waits h c sel x ∧ (t.chan c).cph = { (h.chan c).cph with armed := false }
    ∧ (t.chan c).circ! k = { (h.chan c).circ! k with clearNext := some on } := by
  obtain ⟨cph, circ, q⟩ := (h.taken c sel).disarmed_chan c
  have same := ((h.taken c sel).disarmed c).hold_same c x
  have waits := Hw.taken_waits (x := x) q ((h.taken c sel).disarmed_local c)
  refine ⟨(waits.after (by simp [Chan.setCirc]) (Hw.onCirc_local _ c k _)).settled h0, ?_, ?_⟩
  · rw [Hw.settle_chan_cph, Hw.onCirc_chan, if_pos rfl]
    exact same.cph.trans (cph.trans (congrArg (fun p : Cph => { p with armed := false }) (h.taken_cipher c sel).1))
  · refine (Chan.circ_congr (Hw.settle_chan_circ _ h0 [c] c) k).trans ?_
    rw [Hw.onCirc_chan, if_pos rfl, Chan.circ_setCirc, if_pos rfl]
    exact congrArg (fun y : Circ => { y with clearNext := some on }) (Chan.circ_congr (same.circ.trans (circ.trans (h.taken_circ c sel))) k)

/-- What decides on a LAT_REANCHOR (R244). -/
theorem Chan.reanchorBad_eq (x : Chan) (k : CircId) : x.reanchorBad k =
    if (x.circ! k).en = false then some rPosInvalid
    else if (x.circ! k).inSync .bkw = false ∧ (x.circ! k).inSync .bkp = false then some rNoPath else none := by
  unfold Chan.reanchorBad
  dsimp only
  cases (x.circ! k).en <;> cases (x.circ! k).inSync .bkw <;> cases (x.circ! k).inSync .bkp <;> rfl

theorem Circ.reanchor_shows (y : Circ) : y.reanchor.anchor = none ∧ ∀ a, y.anchor = some a → y.reanchor.gap = some a.next := by
  unfold Circ.reanchor
  refine ⟨rfl, fun a at_ => ?_⟩
  simp only [at_]

theorem Hw.taken_reanchorBad (h : Hw) (c : ChanId) (sel : Cmd → Bool) (k : CircId) :
    ((h.taken c sel).chan c).reanchorBad k = (h.chan c).reanchorBad k := by
  rw [Chan.reanchorBad_eq, Chan.circ_congr (h.taken_circ c sel), ← Chan.reanchorBad_eq]

theorem Hw.latReanchor_bad {r : Nat} (bad : (h.chan c).reanchorBad (BitVec.ofNat 13 (fieldOf x.w1 15 0)) = some r) :
    (h.taken c sel).latReanchor c x = (h.taken c sel).refuse (.chan c) x r := by
  unfold Hw.latReanchor
  dsimp only
  rw [Hw.taken_reanchorBad, bad]

theorem Hw.latReanchor_good (good : (h.chan c).reanchorBad (BitVec.ofNat 13 (fieldOf x.w1 15 0)) = none) :
    (h.taken c sel).latReanchor c x = ((h.taken c sel).hold (.chan c) x).onCirc c (BitVec.ofNat 13 (fieldOf x.w1 15 0)) Circ.reanchor := by
  unfold Hw.latReanchor
  dsimp only
  rw [Hw.taken_reanchorBad, good]

end

/-- Settles O38: CLEAR_MODE spends the arming before its checks, which read the fuses, the arming, the cipher and the circuit; LAT_REANCHOR's
read its circuit alone. -/
theorem circuitCommands : Obligations.CircuitCommands := by
  refine ⟨⟨fun s m c d reach active => ⟨fun right => ?_, fun lacks => ?_⟩, fun s c works active => (onActive_on (f := (·.disarmed c)) works active), fun s c x runs => ?_⟩,
    fun s c x runs => ?_, fun s c k x works active => ⟨fun a anchor => ?_, fun anchor queue held meets own kept => ?_⟩⟩
  · refine (live_on (f := fun h => clrArm h m c d) (Hw.works_of_reaches reach)).trans (next_congr ?_)
    exact chBeat_active reach right active
  · refine (live_on (f := fun h => clrArm h m c d) (Hw.works_of_reaches reach)).trans (next_congr ?_)
    simp [clrArm, chBeat, reach, lacks]
  · intro k y spent refused
    have command : ∀ {P : Hw → Prop} {t : Hw}, (s.hw.taken c (fresh 0x14)).clearMode c x = t → P (t.settle s.hw [c]) → Completes (.clearMode c) s P :=
      fun {P t} does shows => .byCommand (fun x h => h.clearMode c x) rfl runs (by rwa [does])
    have is := s.hw.clearMode_eq c (fresh 0x14) x
    have ends := fun status reason => Hw.clearMode_ends (h := s.hw) (c := c) (sel := fresh 0x14) runs.own runs.kept status reason k s.hw
    refine ⟨fun on permit => command (is.trans (if_pos (by simp [on, permit]))) (ends _ _), fun on permit armed => ?_, fun on permit armed off => ?_,
      fun on permit armed cipher en => ?_, fun on en => ?_, fun en right => ?_⟩
    · refine command (is.trans ?_) (ends stRefused rClearArm)
      rw [if_neg (by simp [permit]), if_pos (by simp [on, armed])]
      rfl
    · refine command (is.trans ?_) (ends stRefused rCipherOff)
      rw [if_neg (by simp [permit]), if_neg (by simp [armed]), if_pos (by simp [on, off])]
      rfl
    · refine command (is.trans ?_) (ends stRefused rPosInvalid)
      simp only [y, k] at en
      rw [if_neg (by simp [permit]), if_neg (by simp [armed]), if_neg (by simp [cipher]), if_pos (by simp [en]), if_pos on]
      rfl
    · refine command (is.trans ?_) (ends stDone 0)
      simp only [y, k] at en
      rw [if_neg (by simp [on]), if_neg (by simp [on]), if_neg (by simp [on]), if_pos (by simp [en]), if_neg (by simp [on])]
      rfl
    · refine command (is.trans ?_) (Hw.clearMode_waits (h := s.hw) (c := c) (sel := fresh 0x14) (x := x) k (bitOf x.w1 16) s.hw)
      simp only [y, k] at en
      rw [if_neg, if_neg, if_neg, if_neg]
      · simp [en]
      · exact fun bad => absurd (right (Bool.and_eq_true_iff.1 bad).1).2.2 (by simp [(Bool.and_eq_true_iff.1 bad).2])
      · exact fun bad => absurd (right (Bool.and_eq_true_iff.1 bad).1).2.1 (by simpa using (Bool.and_eq_true_iff.1 bad).2)
      · exact fun bad => absurd (right (Bool.and_eq_true_iff.1 bad).1).1 (by simpa using (Bool.and_eq_true_iff.1 bad).2)
  · intro k y
    have bad := Chan.reanchorBad_eq (s.hw.chan c) k
    refine ⟨fun en sync => ?_, fun en noW noP => ?_⟩
    · have good : (s.hw.chan c).reanchorBad k = none := by
        rw [bad, if_neg (by simp [y] at en; simp [en]), if_neg]
        rintro ⟨noW, noP⟩
        exact sync.elim (fun w => absurd (noW.symm.trans w) (by decide)) fun p => absurd (noP.symm.trans p) (by decide)
      refine .byCommand (fun x h => h.latReanchor c x) rfl runs ?_
      rw [Hw.latReanchor_good good]
      have same := (s.hw.taken c (fresh 0x30)).hold_same c x
      have circ := same.circ.trans (s.hw.taken_circ c (fresh 0x30))
      have waits := Hw.taken_waits (h := s.hw) (c := c) (sel := fresh 0x30) (u := s.hw.taken c (fresh 0x30)) (x := x) rfl (.refl _ c)
      have after : ∀ j, (((((s.hw.taken c (fresh 0x30)).hold (.chan c) x).onCirc c k Circ.reanchor).settle s.hw [c]).chan c).circ! j
          = if j = k then y.reanchor else (s.hw.chan c).circ! j := fun j => by
        refine (Chan.circ_congr (Hw.settle_chan_circ _ s.hw [c] c) j).trans ?_
        rw [Hw.onCirc_chan, if_pos rfl, Chan.circ_setCirc, Chan.circ_congr circ, Chan.circ_congr circ]
      obtain ⟨cleared, gap⟩ := y.reanchor_shows
      refine ⟨(waits.after (by simp [Chan.setCirc]) (Hw.onCirc_local _ c k _)).settled s.hw, ?_, fun a at_ => ?_, fun j ne => (after j).trans (if_neg ne)⟩
      · rw [after, if_pos rfl, cleared]
      · rw [after, if_pos rfl]
        exact gap a at_
    · have no : (s.hw.chan c).reanchorBad k = some rNoPath := by
        rw [bad, if_neg (by simp [y] at en; simp [en]), if_pos ⟨noW, noP⟩]
      refine .byCommand (fun x h => h.latReanchor c x) rfl runs ?_
      rw [Hw.latReanchor_bad no]
      obtain ⟨done, -, circ⟩ := s.hw.refuse_taken (c := c) (sel := fresh 0x30) runs.own runs.kept rNoPath s.hw
      exact ⟨done, circ⟩
  · exact exec_onActive_same _ rfl works active (if_neg (by simp [anchor]))
  · refine .byOnActive c _ rfl works active ?_
    rw [if_pos (by simp [anchor])]
    have q := Hw.finish_only_q (sel := isReanchor k) stRefused rNoPath 0 queue held meets own kept
    have op : x.op = 0x30 := (of_decide_eq_true meets).1
    refine ⟨by rw [q, CmdQ.onBank_run], ?_, (besideQueue_circ c c).finish _ _ _ _ _, (Hw.finish_beside _ c _ _ _ _).here⟩
    rw [q, op]
    cases x.by_ <;> rfl

end Sys2Proof.Machine
end

section
/-!
PROOF. Memory errors, injected faults and the registers of the check-value units (O41 to O43).
-/
namespace Sys2Proof.Machine

/-! ## Memory errors -/

section
variable {s : State} {c : ChanId}

theorem exec_live_same {i : Instr} (f : Hw → Hw) (is : exec i s = live s f) (works : s.hw.works = true) (same : f s.hw = s.hw) :
    exec i s = .next s := is.trans ((live_on works).trans (next_congr same))

/-- A channel's message on hardware that the collector of which is as it was. -/
theorem Hw.raiseChan_took {t h : Hw} (works : h.works = true) (boot : t.dev.boot = h.dev.boot) (fcl : t.dev.fcl = h.dev.fcl) (sys : t.dev.sys = h.dev.sys)
    (now : t.now = h.now) (raises : (t.chan c).raises = true) (u k n a : Nat) : (t.raiseChan c u k n a).tookMsg h (mkMsg c.val u k n a) := by
  have shut : t.inMw = false := by
    rw [Hw.inMw, boot]
    exact Hw.inMw_of_works works
  rw [Hw.tookMsg, Hw.raiseChan_slots shut raises, fcl, sys, now]

theorem Hw.onChan_took {h : Hw} (works : h.works = true) (f : Chan → Chan) (raises : (f (h.chan c)).raises = true) (u k n a : Nat) :
    ((h.onChan c f).raiseChan c u k n a).tookMsg h (mkMsg c.val u k n a) :=
  Hw.raiseChan_took (t := h.onChan c f) works rfl rfl rfl rfl (by rw [Hw.onChan_chan, if_pos rfl]; exact raises) u k n a

theorem Hw.onCirc_took {h : Hw} (works : h.works = true) (j : CircId) (f : Circ → Circ) (raises : (h.chan c).raises = true) (u k n a : Nat) :
    ((h.onCirc c j f).raiseChan c u k n a).tookMsg h (mkMsg c.val u k n a) :=
  Hw.raiseChan_took (t := h.onCirc c j f) works rfl rfl rfl rfl (by rw [Hw.onCirc_chan, if_pos rfl]; exact raises) u k n a

theorem Hw.raiseSpine_took {t h : Hw} (works : h.works = true) (mw : t.inMw = h.inMw) (fcl : t.dev.fcl = h.dev.fcl) (sys : t.dev.sys = h.dev.sys)
    (now : t.now = h.now) (u k n a : Nat) : (t.raiseSpine u k n a).tookMsg h (mkMsg 63 u k n a) := by
  rw [Hw.tookMsg, Hw.raiseSpine_slots (mw.trans (Hw.inMw_of_works works)), fcl, sys, now]

theorem EncBlk.lose_shows (cause : BitVec 4) (b : EncBlk) : (b.lose cause).seq = b.seq ∧ (b.lose cause).odd = b.odd ∧ (b.lose cause).lost ≠ 0 := by
  unfold EncBlk.lose
  split
  · next lost => exact ⟨rfl, rfl, lost⟩
  · refine ⟨rfl, rfl, ?_⟩
    dsimp only
    split <;> decide

/-- The blocks of a circuit once some are lost: each is one that stood, lost where the test meets it. -/
theorem Circ.loseEnc_mem {y : Circ} {sel : EncBlk → Bool} {cause : BitVec 4} {e : EncBlk} (mem : e ∈ (y.loseEnc sel cause).enc) :
    ∃ b ∈ y.enc, e.seq = b.seq ∧ e.odd = b.odd ∧ (sel b = true → e.lost ≠ 0) ∧ (b.lost ≠ 0 → e.lost ≠ 0) := by
  simp only [Circ.loseEnc, List.mem_map] at mem
  obtain ⟨⟨d, prior⟩, zipped, rfl⟩ := mem
  obtain ⟨b, stood, rfl⟩ := List.mem_map.1 (List.of_mem_zip zipped).1
  have lost : sel b = true → (if sel b = true then b.lose cause else b).lost ≠ 0 := fun meets => by
    rw [if_pos meets]
    exact (b.lose_shows cause).2.2
  have still : b.lost ≠ 0 → (if sel b = true then b.lose cause else b).lost ≠ 0 := fun gone => by
    split
    · exact (b.lose_shows cause).2.2
    · exact gone
  have seq : (if sel b = true then b.lose cause else b).seq = b.seq := by split <;> [exact (b.lose_shows cause).1; rfl]
  have odd : (if sel b = true then b.lose cause else b).odd = b.odd := by split <;> [exact (b.lose_shows cause).2.1; rfl]
  refine ⟨b, stood, ?_⟩
  generalize (if sel b = true then b.lose cause else b) = d at *
  rcases prior with _ | q
  · exact ⟨seq, odd, lost, still⟩
  · dsimp only
    split
    · exact ⟨seq, odd, lost, still⟩
    · exact ⟨seq, odd, lost, still⟩

theorem zeroAt_length (l : List Byte) (i : Nat) : (zeroAt l i).length = l.length := by simp [zeroAt]

theorem zeroAt_getD (l : List Byte) (i j : Nat) (inside : j < l.length) : (zeroAt l i).getD j 0 = if j / 4 = i then 0 else l.getD j 0 := by
  simp [zeroAt, List.getD_eq_getElem?_getD, inside]

/-- A block of the deep store that is not yet freed is freed for an uncorrectable error. -/
theorem Chan.freeStore_one {x : Chan} {b : DsEnt} (kept : b.freed = 0) :
    (x.freeStore (fun e => decide (e = b)) 3).store = x.store.map fun e => if e = b then { e with freed := 3, body := [] } else e := by
  refine List.map_congr_left fun e _ => ?_
  by_cases own : e = b
  · subst own
    simp [kept]
  · simp [own]

theorem Hw.onBoot_sram_mw (h : Hw) (i : Nat) : (h.onBoot fun b => { b with sram := zeroAt b.sram i }).inMw = h.inMw := rfl

end

/-- Settles O41: the message follows the owner of the memory, and what is lost is the oldest block of the buffer, one word of a table, or, where
the collector cannot trust its own state, every key. -/
theorem memoryErrors : Obligations.MemoryErrors := by
  refine ⟨fun s c works raises => ⟨fun m i u owner => ?_, fun m i none_ => ⟨?_, ?_⟩, fun k b oldest i => ?_, fun k b oldest i => ?_, fun i => ?_, fun i => ?_⟩,
    fun s m i u works owner => ⟨?_, ?_⟩, fun s c works => ?_, fun s x works up other => ?_⟩
  · refine .byLive (·.memError (some c) i (.corrected m)) rfl works ?_
    simp only [Hw.memError, owner]
    exact ⟨Hw.quiet_raiseChan _ _ _ _ _ _, Hw.raiseChan_took works rfl rfl rfl rfl raises _ _ _ _⟩
  · exact exec_live_same (·.memError (some c) i (.corrected m)) rfl works (by simp only [Hw.memError, none_])
  · exact exec_live_same (·.memError (some c) i (.table m)) rfl works (by simp only [Hw.memError, none_])
  · refine .byLive (·.memError (some c) i (.data true k)) rfl works ?_
    simp only [Hw.memError, Hw.dataLost, if_true, oldest]
    refine ⟨Hw.onCirc_took works k _ raises _ _ _ _, ?_, fun e mem seq odd => ?_, (Hw.raiseChan_local _ c c _ _ _ _).trans (s.hw.onCirc_local c k _)⟩
    · rw [Hw.raiseChan_chan, Hw.onCirc_chan, if_pos rfl]
      rfl
    · rw [Hw.raiseChan_chan, Hw.onCirc_chan, if_pos rfl, Chan.circ_setCirc, if_pos rfl] at mem
      obtain ⟨d, -, seq', odd', lost, -⟩ := Circ.loseEnc_mem mem
      exact lost (decide_eq_true ⟨seq'.symm.trans seq, odd'.symm.trans odd⟩)
  · have kept := List.find?_some oldest
    simp only [decide_eq_true_eq] at kept
    refine .byLive (·.memError (some c) i (.data false k)) rfl works ?_
    simp only [Hw.memError, Hw.dataLost, Bool.false_eq_true, if_false, oldest]
    refine ⟨Hw.onChan_took works _ raises _ _ _ _, ?_, ?_, (Hw.raiseChan_local _ c c _ _ _ _).trans (s.hw.onChan_local c _)⟩
    · rw [Hw.raiseChan_chan, Hw.onChan_chan, if_pos rfl]
      rfl
    · rw [Hw.raiseChan_chan, Hw.onChan_chan, if_pos rfl]
      exact Chan.freeStore_one kept.2
  · refine .byLive (·.memError (some c) i (.table 1)) rfl works ?_
    have owner : memOwner false 1 = some 3 := by decide
    simp only [Hw.memError, owner]
    have word : (s.hw.chan c).zeroWord 1 i.toNat = { s.hw.chan c with map := { (s.hw.chan c).map with bankA := tdrop (s.hw.chan c).map.bankA i.toNat } } := rfl
    refine ⟨Hw.onChan_took works _ raises _ _ _ _, ?_, fun j ne => ?_, ?_, (Hw.raiseChan_local _ c c _ _ _ _).trans (s.hw.onChan_local c _)⟩
    · rw [Hw.raiseChan_chan, Hw.onChan_chan, if_pos rfl, word]
      exact tget_tdrop_self 0 (s.hw.chan c).map.bankA i.toNat
    · rw [Hw.raiseChan_chan, Hw.onChan_chan, if_pos rfl, word]
      exact tget_tdrop_ne 0 (s.hw.chan c).map.bankA ne
    · rw [Hw.raiseChan_chan, Hw.onChan_chan, if_pos rfl, word]
  · refine .byLive (·.memError (some c) i (.table 9)) rfl works ?_
    have owner : memOwner false 9 = some 9 := by decide
    simp only [Hw.memError, owner]
    have word : (s.hw.chan c).zeroWord 9 i.toNat = { s.hw.chan c with mlt := { (s.hw.chan c).mlt with prog := zeroAt (s.hw.chan c).mlt.prog i.toNat } } := rfl
    refine ⟨Hw.onChan_took works _ raises _ _ _ _, ?_, fun j inside => ?_, (Hw.raiseChan_local _ c c _ _ _ _).trans (s.hw.onChan_local c _)⟩
    · rw [Hw.raiseChan_chan, Hw.onChan_chan, if_pos rfl, word]
      exact zeroAt_length _ _
    · rw [Hw.raiseChan_chan, Hw.onChan_chan, if_pos rfl, word]
      exact zeroAt_getD _ _ _ inside
  · refine .byLive (·.memError none i (.corrected m)) rfl works ?_
    simp only [Hw.memError, owner]
    exact ⟨Hw.quiet_raiseSpine _ _ _ _ _, Hw.raiseSpine_took works rfl rfl rfl rfl _ _ _ _⟩
  · refine .byLive (·.memError none i (.table m)) rfl works ?_
    simp only [Hw.memError, owner]
    refine ⟨Hw.quiet_raiseSpine _ _ _ _ _, ?_⟩
    split
    · exact Hw.raiseSpine_took works (s.hw.onBoot_sram_mw _) rfl rfl rfl _ _ _ _
    · exact Hw.raiseSpine_took works rfl rfl rfl rfl _ _ _ _
  · exact .byLive (·.raiseSpine 20 clsD 0xE1 c.val) rfl works
      ⟨Hw.quiet_raiseSpine _ _ _ _ _, Hw.raiseSpine_took works rfl rfl rfl rfl _ _ _ _⟩
  · have triggers := Hw.trigger_works works up 63 20 0xE1 63
    cases x with
    | chan c => exact absurd rfl (other c)
    | dRecord => exact .byLive (·.trigger 63 20 0xE1 63) rfl works triggers
    | timers => exact .byLive (·.trigger 63 20 0xE1 63) rfl works triggers
    | trigger => exact .byLive (·.trigger 63 20 0xE1 63) rfl works triggers

/-! ## Injection -/

section
variable {h : Hw} {m : Master}

/-- A device register beside the Malots is reached where any is. -/
theorem Hw.reachesDev_of_reaches (reach : h.reaches m = true) (other : m ≠ .malot) : h.reachesDev m = true := by
  simp [Hw.reachesDev, reach, other]

/-- The message to inject stands in registers below the matrix's counters. -/
theorem Hw.bmx_injMsg (h : Hw) (m : Master) : (h.bmx m.id 0).injMsg = h.injMsg := by
  unfold Hw.injMsg
  rw [Hw.bmx_devReg_low h m 0 (by decide), Hw.bmx_devReg_low h m 0 (by decide)]

theorem Hw.bmx_injBad (h : Hw) (m : Master) (w : BitVec 64) : (h.bmx m.id 0).injBad w = h.injBad w := by
  unfold Hw.injBad
  rw [Hw.bmx_fcl]
  rcases chanOf (msgChan w) with _ | c
  · rfl
  · dsimp only
    rw [Hw.bmx_chan]

/-- A write of GO by a master with the right (R375). -/
theorem injctlWrite_go (reach : h.reachesDev m = true) (right : h.lacks m .diagnostic = false) : injctlWrite h m 1 =
    if h.injBad h.injMsg then (h.bmx m.id 0).ignored m .cfgRej (devAddr 0x4020)
    else ((h.bmx m.id 0).raiseAny h.injMsg).onFcl fun f => { f with injBusy := some (slotKey h.injMsg) } := by
  have go : ¬ (!bitOf (1 : Word) 0) = true := by decide
  rw [injctlWrite, devBeat_on reach right, if_neg go, Hw.bmx_injMsg, Hw.bmx_injBad]

theorem stg_word (w : Word) (go : Bool) : bitOf (BitVec.ofNat 32 (b2n (true || go) * 2 ^ 31 + fieldOf w 3 0)) 31 = true
    ∧ fieldOf (BitVec.ofNat 32 (b2n (true || go) * 2 ^ 31 + fieldOf w 3 0)) 3 0 = fieldOf w 3 0 := by
  have small : fieldOf w 3 0 < 16 := Nat.mod_lt _ (by decide)
  have all : ∀ n < 16, bitOf (BitVec.ofNat 32 (b2n true * 2 ^ 31 + n)) 31 = true ∧ fieldOf (BitVec.ofNat 32 (b2n true * 2 ^ 31 + n)) 3 0 = n := by
    decide
  rw [Bool.true_or]
  exact all _ small

end

/-- Settles O42: an armed check and an injected message are each one write of a master with the right, and everything else is turned away. -/
theorem faultsInjected : Obligations.FaultsInjected := by
  intro s m reach
  have works := Hw.works_of_reaches reach
  refine ⟨fun c d active right go => ?_, fun c d lacks => ?_, fun other right good => ?_, fun other right bad => ?_, fun other lacks => ?_⟩
  · refine .byLive (fun h => stgWrite h m c d) rfl works ?_
    rw [stgWrite, chBeat_active reach right active]
    simp only [go, if_true]
    obtain ⟨bit, field⟩ := stg_word d (bitOf ((s.hw.chan c).reg 0xA004) 31)
    refine ⟨?_, ?_, ?_, ?_, (Hw.onChan_local _ c _).trans (s.hw.bmx_local _ _ c)⟩
    · rw [Hw.onChan_chan, if_pos rfl, Hw.bmx_chan]
      rfl
    · rw [Hw.chReg, Hw.onChan_chan, if_pos rfl, Hw.bmx_chan]
      exact (congrArg (bitOf · 31) (Chan.reg_setReg_self _ _ _)).trans bit
    · rw [Hw.chReg, Hw.onChan_chan, if_pos rfl, Hw.bmx_chan]
      exact (congrArg (fieldOf · 3 0) (Chan.reg_setReg_self _ _ _)).trans field
    · exact congrArg Fcl.slots (s.hw.bmx_fcl m.id 0)
  · refine (live_on (f := fun h => stgWrite h m c d) works).trans (next_congr ?_)
    simp [stgWrite, chBeat, reach, lacks]
  · refine .byLive (fun h => injctlWrite h m 1) rfl works ?_
    rw [injctlWrite_go (Hw.reachesDev_of_reaches reach other) right, if_neg (by simp [good])]
    refine ⟨?_, rfl, ?_⟩
    · have shut : (s.hw.bmx m.id 0).inMw = false := by
        rw [Hw.inMw, Hw.bmx_boot]
        exact Hw.inMw_of_works works
      refine (Hw.raiseAny_slots shut s.hw.injMsg).trans ?_
      rw [Hw.bmx_fcl, Hw.bmx_sys, Hw.bmx_now]
    · exact Hw.chans_ext fun c => by simp
  · refine (live_on (f := fun h => injctlWrite h m 1) works).trans (next_congr ?_)
    rw [injctlWrite_go (Hw.reachesDev_of_reaches reach other) right, if_pos bad]
  · refine (live_on (f := fun h => injctlWrite h m 1) works).trans (next_congr ?_)
    rw [injctlWrite, devBeat, if_neg (by simp [Hw.reachesDev_of_reaches reach other]), if_pos lacks]

/-! ## Check-value units -/

theorem fieldOf_and {d mask : Word} {hi lo : Nat} (inside : hi < 32) (open_ : ∀ i, lo ≤ i → i ≤ hi → bitOf mask i = true) :
    fieldOf (d &&& mask) hi lo = fieldOf d hi lo := by
  have masked := fieldOf_masked (old := 0) (d := d) (mask := mask) inside open_
  simpa using masked

section
variable {x : Chan} {u : Fin 8}

theorem Chan.cvuRestart_reg (x : Chan) (u : Fin 8) (o : Nat) : (x.cvuRestart u).reg o = x.reg o := rfl

theorem Chan.cvuRestart_unit (x : Chan) (u v : Fin 8) : (x.cvuRestart u).cvu.unit[v]
    = if v = u then { run := x.cvuInit u.val, ctx := (x.cvu.unit[u]).ctx.map fun k => { k with valid := false, unread := false } } else x.cvu.unit[v] := by
  by_cases own : v = u
  · subst own
    simp [Chan.cvuRestart]
  · have apart : u.val ≠ v.val := fun e => own (Fin.ext e.symm)
    rw [if_neg own]
    exact Vector.getElem_set_ne u.isLt v.isLt apart

theorem Chan.cvuRestart_valid (x : Chan) (u : Fin 8) (j : Fin 16) : (((x.cvuRestart u).cvu.unit[u]).ctx[j]).valid = false := by
  rw [Chan.cvuRestart_unit, if_pos rfl]
  simp

/-- A unit's running value, replaced in checkpoint mode only. -/
theorem Chan.cvuRun_shows (x : Chan) (u : Fin 8) (v : Word) :
    ((x.cvuRun u v).cvu.unit[u]).run = (if x.cvuMulti u.val then (x.cvu.unit[u]).run else v &&& x.cvuMask u.val)
    ∧ ((x.cvuRun u v).cvu.unit[u]).ctx = (x.cvu.unit[u]).ctx ∧ ∀ o, (x.cvuRun u v).reg o = x.reg o := by
  unfold Chan.cvuRun
  split
  · exact ⟨rfl, rfl, fun _ => rfl⟩
  · simp [Chan.reg]

/-- A write of a unit's CTL without CKPT and RESTORE. -/
theorem Chan.cvuCtl_fields (x : Chan) (u : Fin 8) {d : Word} (back : bitOf d 18 = false) (keep : bitOf d 19 = false) : x.cvuCtl u d =
    if d &&& cvuMajor = x.reg (cvuReg u.val) &&& cvuMajor then x.setReg (cvuReg u.val) (d &&& 0xFFF01FFF)
    else (x.setReg (cvuReg u.val) (d &&& 0xFFF01FFF)).cvuRestart u := by
  have major : (0xFFF01FFF : Word) &&& cvuMajor = cvuMajor := by decide
  unfold Chan.cvuCtl
  dsimp only
  rw [back, keep, Chan.reg_setReg_self, BitVec.and_assoc, major]
  rfl

theorem Chan.cvuInit_setReg (x : Chan) (u : Fin 8) (d : Word) : (x.setReg (cvuReg u.val) (d &&& 0xFFF01FFF)).cvuInit u.val
    = x.reg (cvuReg u.val + 8) &&& fieldMask (fieldOf d 24 20) 0 := by
  have width : ∀ i, 20 ≤ i → i ≤ 24 → bitOf (0xFFF01FFF : Word) i = true := by decide
  rw [Chan.cvuInit, Chan.reg_setReg_self, Chan.reg_setReg, if_neg (by omega), fieldOf_and (by omega) width]

/-- A write of a parameter register other than CTL. -/
theorem Chan.cvuParam_shows (x : Chan) (u : Fin 8) (off : Nat) (d : Word) :
    (x.cvuParam u off d).reg off = (x.reg off &&& ~~~ x.cvuMask u.val) ||| (d &&& x.cvuMask u.val)
    ∧ ((x.cvuParam u off d).reg off = x.reg off → (x.cvuParam u off d).cvu = x.cvu)
    ∧ ((x.cvuParam u off d).reg off ≠ x.reg off → ∀ j : Fin 16, (((x.cvuParam u off d).cvu.unit[u]).ctx[j]).valid = false) := by
  unfold Chan.cvuParam
  dsimp only
  split
  · next same => exact ⟨same.symm, fun _ => rfl, fun n => absurd rfl n⟩
  · next changed =>
    have reg : ((x.setReg off ((x.reg off &&& ~~~ x.cvuMask u.val) ||| (d &&& x.cvuMask u.val))).cvuRestart u).reg off
        = (x.reg off &&& ~~~ x.cvuMask u.val) ||| (d &&& x.cvuMask u.val) := by rw [Chan.cvuRestart_reg, Chan.reg_setReg_self]
    exact ⟨reg, fun same => absurd (reg.symm.trans same) changed, fun _ j => Chan.cvuRestart_valid _ u j⟩

/-- A write that sets CKPT or RESTORE and leaves the other fields as they are, in a register with none of the bits beside the fields. -/
theorem ctl_kept {w c : Word} (plain : w &&& 0x000FE000 = 0) (inside : c &&& 0xFFF01FFF = 0) : (w ||| c) &&& 0xFFF01FFF = w := by
  have all : (0x000FE000 : Word) ||| 0xFFF01FFF = BitVec.allOnes 32 := by decide
  have split_ : w = (w &&& 0x000FE000) ||| (w &&& 0xFFF01FFF) := by rw [← BitVec.and_or_distrib_left, all, BitVec.and_allOnes]
  rw [plain] at split_
  have kept : w &&& 0xFFF01FFF = w := by simpa using split_.symm
  rw [BitVec.and_or_distrib_right, inside, kept]
  simp

theorem plain_bit {w : Word} (plain : w &&& 0x000FE000 = 0) {i : Nat} (beside : bitOf (0x000FE000 : Word) i = true) : bitOf w i = false := by
  have both : bitOf (w &&& 0x000FE000) i = (bitOf w i && bitOf (0x000FE000 : Word) i) := BitVec.getLsbD_and
  rw [plain, beside, Bool.and_true] at both
  rw [← both]
  exact BitVec.getLsbD_zero

theorem Chan.setReg_same (x : Chan) (off o : Nat) : (x.setReg off (x.reg off)).reg o = x.reg o := by
  rw [Chan.reg_setReg]
  split
  · next own => rw [own]
  · rfl

theorem Chan.cvuCtl_again (x : Chan) (u : Fin 8) {c : Word} (plain : x.reg (cvuReg u.val) &&& 0x000FE000 = 0) (inside : c &&& 0xFFF01FFF = 0) :
    x.cvuCtl u (x.reg (cvuReg u.val) ||| c) =
      let y := x.setReg (cvuReg u.val) (x.reg (cvuReg u.val))
      let y := if bitOf c 19 then y.cvuCkpt u else y
      if bitOf c 18 then y.cvuBack u else y := by
  have bit : ∀ i, bitOf (0x000FE000 : Word) i = true → bitOf (x.reg (cvuReg u.val) ||| c) i = bitOf c i := fun i beside => by
    have both : bitOf (x.reg (cvuReg u.val) ||| c) i = (bitOf (x.reg (cvuReg u.val)) i || bitOf c i) := BitVec.getLsbD_or
    rw [both, plain_bit plain beside, Bool.false_or]
  unfold Chan.cvuCtl
  dsimp only
  rw [ctl_kept plain inside, Chan.reg_setReg_self, if_pos rfl, bit 19 (by decide), bit 18 (by decide)]

theorem cvuWrite_ctl {h : Hw} {m : Master} {c : ChanId} (reach : h.reaches m = true) (right : h.lacks m .guarded = false) (active : (h.chan c).st = .active)
    (u : Fin 8) (d : Word) : cvuWrite h m c u .ctl d = (h.bmx m.id 0).onChan c fun x => x.cvuCtl u d := chBeat_active reach right active

theorem cvuWrite_param {h : Hw} {m : Master} {c : ChanId} (reach : h.reaches m = true) (right : h.lacks m .guarded = false) (active : (h.chan c).st = .active)
    (u : Fin 8) {r : CvuReg} (other : r ≠ .ctl) (d : Word) : cvuWrite h m c u r d = (h.bmx m.id 0).onChan c fun x => x.cvuParam u (cvuOff u r) d := by
  refine (chBeat_active reach right active).trans ?_
  cases r with
  | ctl => exact absurd rfl other
  | poly => rfl
  | init => rfl
  | xor => rfl

/-- A write that changes one channel. -/
theorem Completes.byWrite {i : Instr} {s : State} {m : Master} {c : ChanId} {P : Hw → Prop} (g : Hw → Hw) (f : Chan → Chan) (is : exec i s = live s g)
    (works : s.hw.works = true) (does : g s.hw = (s.hw.bmx m.id 0).onChan c f)
    (shows : ∀ t : Hw, t.chan c = f (s.hw.chan c) → t.Local s.hw c → P t) : Completes i s P := by
  refine .byLive g is works ?_
  rw [does]
  exact shows _ (by rw [Hw.onChan_chan, if_pos rfl, Hw.bmx_chan]) ((Hw.onChan_local _ c _).trans (s.hw.bmx_local _ _ c))

/-- A context as a write of CCFG leaves it (R341). -/
def CvuCtx.configured (k : CvuCtx) (d : Word) : CvuCtx :=
  { k with cen := bitOf d 31, circ := BitVec.ofNat 13 (fieldOf d 12 0), valid := false, unread := false }

theorem Chan.cvuConf_unit (x : Chan) (u : Fin 8) (d : Word) {j : Fin 16} (at_ : j.val = fieldOf d 19 16) :
    (x.cvuConf u d).cvu.unit[u] = { x.cvu.unit[u] with ctx := (x.cvu.unit[u]).ctx.set j.val (((x.cvu.unit[u]).ctx[j]).configured d) } := by
  have small : fieldOf d 19 16 < 16 := Nat.mod_lt _ (by decide)
  have own : (⟨fieldOf d 19 16 % 16, Nat.mod_lt _ (by decide)⟩ : Fin 16) = j := Fin.ext (by rw [at_]; exact Nat.mod_eq_of_lt small)
  subst own
  simp [Chan.cvuConf, CvuCtx.configured]

end

/-- Settles O43: a unit restarts exactly where a register write changes what it computes, and each other write acts on one value. -/
theorem checkValueUnits : Obligations.CheckValueUnits := by
  intro s m c u reach right active x y
  have works := Hw.works_of_reaches reach
  refine ⟨fun d back keep => ?_, fun r d other => ?_, fun plain mode => ⟨?_, ?_⟩, fun d => ?_, fun d j at_ => ?_⟩
  · refine .byWrite (fun h => cvuWrite h m c u .ctl d) _ rfl works (cvuWrite_ctl reach right active u d) fun t chan here => ?_
    rw [Chan.cvuCtl_fields _ u back keep] at chan
    rw [Hw.chReg, chan]
    split
    · next same =>
      exact ⟨Chan.reg_setReg_self _ _ _, fun _ => rfl, fun n => absurd same n, fun v _ => rfl, here⟩
    · next changed =>
      refine ⟨Chan.reg_setReg_self _ _ _, fun same => absurd same changed, fun _ => ⟨?_, Chan.cvuRestart_valid _ u⟩, fun v other => ?_, here⟩
      · rw [Chan.cvuRestart_unit, if_pos rfl]
        exact Chan.cvuInit_setReg _ u d
      · rw [Chan.cvuRestart_unit, if_neg other]
        rfl
  · refine .byWrite (fun h => cvuWrite h m c u r d) _ rfl works (cvuWrite_param reach right active u other d) fun t chan here => ?_
    obtain ⟨reg, same, changed⟩ := x.cvuParam_shows u (cvuOff u r) d
    rw [Hw.chReg, chan]
    exact ⟨reg, same, changed, here⟩
  · refine .byWrite (fun h => cvuWrite h m c u .ctl (h.chReg c (cvuReg u.val) ||| 0x00080000)) _ rfl works (cvuWrite_ctl reach right active u _)
      fun t chan here => ?_
    have again := x.cvuCtl_again u plain (c := 0x00080000) (by decide)
    have ckpt : bitOf (0x00080000 : Word) 19 = true := by decide
    have back : bitOf (0x00080000 : Word) 18 = false := by decide
    have only : (x.setReg (cvuReg u.val) (x.reg (cvuReg u.val))).cvuMulti u.val = false := by
      rw [Chan.cvuMulti, Chan.setReg_same]
      exact mode
    simp only [ckpt, back, if_true, Bool.false_eq_true, if_false, Chan.cvuCkpt, only] at again
    have is : t.chan c = _ := chan.trans again
    rw [Hw.chReg, Hw.chReg, is]
    refine ⟨Chan.reg_setReg_self _ _ _, rfl, ?_, here⟩
    rw [Chan.reg_setReg, if_neg (by omega), Chan.setReg_same]
  · refine .byWrite (fun h => cvuWrite h m c u .ctl (h.chReg c (cvuReg u.val) ||| 0x00040000)) _ rfl works (cvuWrite_ctl reach right active u _)
      fun t chan here => ?_
    have again := x.cvuCtl_again u plain (c := 0x00040000) (by decide)
    have ckpt : bitOf (0x00040000 : Word) 19 = false := by decide
    have back : bitOf (0x00040000 : Word) 18 = true := by decide
    simp only [ckpt, back, if_true, Bool.false_eq_true, if_false, Chan.cvuBack, Chan.setReg_same] at again
    have is : t.chan c = _ := chan.trans again
    have only : (x.setReg (cvuReg u.val) (x.reg (cvuReg u.val))).cvuMulti u.val = false := by
      rw [Chan.cvuMulti, Chan.setReg_same]
      exact mode
    obtain ⟨run, ctx, reg⟩ := (x.setReg (cvuReg u.val) (x.reg (cvuReg u.val))).cvuRun_shows u (x.reg (cvuReg u.val + 0x14))
    rw [Hw.chReg, is]
    refine ⟨run.trans ?_, ctx, (reg _).trans (Chan.setReg_same _ _ _), here⟩
    rw [only, if_neg (by decide), Chan.cvuMask, Chan.setReg_same]
    rfl
  · refine .byWrite (fun h => cvuVal h m c u d) (fun x => x.cvuRun u d) rfl works (chBeat_active reach right active) fun t chan here => ?_
    obtain ⟨run, ctx, -⟩ := x.cvuRun_shows u d
    rw [chan]
    exact ⟨run, ctx, here⟩
  · refine .byWrite (fun h => cvuCcfg h m c u d) (fun x => x.cvuConf u d) rfl works (chBeat_active reach right active) fun t chan here => ?_
    rw [chan, Chan.cvuConf_unit _ u d at_]
    refine ⟨by simp [y, x, CvuCtx.configured], fun i ne => ?_, rfl, here⟩
    have apart : j.val ≠ i.val := fun e => ne (Fin.ext e.symm)
    exact Vector.getElem_set_ne j.isLt i.isLt apart

end Sys2Proof.Machine
end

section
/-!
PROOF. Black-side protection: what is observed of the far end (O44).
-/
namespace Sys2Proof.Machine

/-! ## What the far end shows -/

section
variable {h : Hw} {c : ChanId}

theorem Hw.onChan_congr {f g : Chan → Chan} (same : f (h.chan c) = g (h.chan c)) : h.onChan c f = h.onChan c g := by
  rw [Hw.onChan, same, Hw.onChan]

theorem Hw.evPsw_flag {fl : Word} {i : Nat} (raises : (h.chan c).raises = true) (low : i < 24) (flag : bitOf fl i = true) :
    bitOf ((h.evPsw c fl).chReg c 0x7008) i = true := by
  rw [Hw.evPsw, Hw.chEvent_chReg raises, if_pos rfl, bitOf_evWord _ _ low, flag, Bool.or_true]

/-- A majority is one of something. -/
theorem majority_nil : majority [] = none := by decide

/-- The trailers that count for an evaluation of the far end's code (R275). -/
def Psw.fresh (p : Psw) (now : Nat) : List (Nat × CircId × Seq × BitVec 4) := p.seen.filter fun e => decide (now - e.1 ≤ apsWindow)

/-- The majority of the trailers that count. -/
def Psw.vote (p : Psw) (now : Nat) : Option (BitVec 4) := majority ((p.fresh now).map fun e => e.2.2.2)

theorem Psw.vote_some {p : Psw} {now : Nat} {v : BitVec 4} (vote : p.vote now = some v) : (p.fresh now).isEmpty = false := by
  rcases l : p.fresh now with _ | _
  · rw [Psw.vote, l] at vote
    exact absurd (majority_nil.symm.trans vote) (by simp)
  · rfl

theorem Psw.aps_none {p : Psw} {now : Nat} (one : Bool) (vote : p.vote now = none) :
    (p.aps one now).rxCode = p.rxCode ∧ (p.aps one now).majRun = 0 ∧ (p.aps one now).maj = false := by
  unfold Psw.vote Psw.fresh at vote
  unfold Psw.aps
  dsimp only
  rw [vote]
  exact ⟨rfl, rfl, rfl⟩

theorem Psw.aps_reserved {p : Psw} {now : Nat} (one : Bool) {v : BitVec 4} (vote : p.vote now = some v) (reserved : pswOfCode v = none) :
    (p.aps one now).rxCode = p.rxCode ∧ (p.aps one now).majRun = 0 ∧ (p.aps one now).maj = true ∧ (p.aps one now).majCode = v := by
  unfold Psw.vote Psw.fresh at vote
  unfold Psw.aps
  dsimp only
  rw [vote]
  dsimp only
  rw [if_pos (by rw [reserved]; rfl)]
  exact ⟨rfl, rfl, rfl, rfl⟩

/-- A known code: the run of its majorities, and the third in a row (R276). -/
theorem Psw.aps_known {p : Psw} {now : Nat} (one : Bool) {v : BitVec 4} {f : PswState} (vote : p.vote now = some v) (known : pswOfCode v = some f)
    (other : v ≠ p.rxCode) :
    (p.aps one now).maj = true ∧ (p.aps one now).majCode = v ∧ (p.aps one now).majLast = v ∧ (p.aps one now).rxValid = true
    ∧ (p.majRun = 2 → p.majLast = v → (p.aps one now).rxCode = v ∧ (p.aps one now).majRun = 0)
    ∧ (p.majLast ≠ v → (p.aps one now).rxCode = p.rxCode ∧ (p.aps one now).majRun = 1) := by
  have some_ := Psw.vote_some vote
  unfold Psw.vote Psw.fresh at vote
  unfold Psw.fresh at some_
  unfold Psw.aps
  dsimp only
  rw [vote]
  dsimp only
  rw [if_neg (by simp [known]), if_neg other, some_]
  refine ⟨rfl, rfl, rfl, by simp, fun run last => ?_, fun last => ?_⟩
  · have n : (if p.majRun ≠ 0 ∧ p.majLast = v then p.majRun + 1 else 1) = 3 := by rw [if_pos ⟨by omega, last⟩, run]
    simp [n]
  · have n : (if p.majRun ≠ 0 ∧ p.majLast = v then p.majRun + 1 else 1) = 1 := if_neg fun both => last both.2
    simp [n]

/-- An evaluation of the far end's code by a Malot that runs. -/
theorem Hw.apsEval_eq (runs : (h.chan c).malotRuns = true) : h.apsEval c =
    let p := (h.chan c).psw.aps (h.chan c).pswCfg.one h.now
    let u := h.onChan c fun y => { y with psw := p }
    if p.maj && (pswOfCode p.majCode).isNone then (if (h.chan c).psw.rsvSeen then u.count c 0x12 16 1 else (u.count c 0x12 16 1).evPsw c 0x00020000) else u := by
  unfold Hw.apsEval
  dsimp only
  rw [if_neg (by simp [runs])]

end

/-- Settles O44: an evaluation reads the trailers of the last 8 ms, and the far end's code moves on the third majority of one known code. -/
theorem farEndObserved : Obligations.FarEndObserved := by
  intro s c works active p
  have raises := raises_of_active active
  refine ⟨fun v waits holds => ?_, fun runs => ?_, ?_, fun mis first => ?_, fun mis => ?_⟩
  · refine (onActive_on (f := fun h => h.onChan c fun y => { y with psw := y.psw.mature (condIdx v) }) works active).trans (next_congr (Hw.onChan_congr ?_))
    rw [Psw.mature, if_pos (by simp [p] at waits holds; simp [waits, holds])]
  · have is := Hw.apsEval_eq (h := s.hw) (c := c) runs
    have quiet_ : ∀ q, (s.hw.onChan c fun y => { y with psw := q }).Local s.hw c := fun q => s.hw.onChan_local c _
    intro m
    have vote : p.vote s.hw.now = m := rfl
    refine ⟨fun none_ => ?_, fun v some_ reserved => ?_, fun v f some_ known other => ?_⟩
    · refine .byOnActive c (·.apsEval c) rfl works active ?_
      obtain ⟨code, run, maj⟩ := Psw.aps_none (s.hw.chan c).pswCfg.one (vote.trans none_)
      rw [is]
      dsimp only
      rw [if_neg (by rw [maj]; simp), Hw.onChan_chan, if_pos rfl]
      exact ⟨code, run, quiet_ _⟩
    · refine .byOnActive c (·.apsEval c) rfl works active ?_
      obtain ⟨code, run, maj, is_⟩ := Psw.aps_reserved (s.hw.chan c).pswCfg.one (vote.trans some_) reserved
      rw [is]
      dsimp only
      rw [if_pos (by rw [maj, is_, reserved]; rfl)]
      let u := s.hw.onChan c fun y => { y with psw := p.aps (s.hw.chan c).pswCfg.one s.hw.now }
      have up : (u.chan c).raises = true := by simp [u, Chan.raises, active]
      have told : ((u.count c 0x12 16 1).chan c).raises = true := by rw [Hw.count_chan, if_pos rfl]; exact up
      have count : tget 0 ((u.count c 0x12 16 1).chan c).ctr (ctrKey 0x12 16) = min (2 ^ 48 - 1) (tget 0 (s.hw.chan c).ctr (ctrKey 0x12 16) + 1) := by
        rw [Hw.count_chan, if_pos rfl, Chan.count_ctr]
        simp [u]
      have local_ : (u.count c 0x12 16 1).Local s.hw c := (u.onChan_local c _).trans (quiet_ _)
      have psw_ : ((u.count c 0x12 16 1).chan c).psw = p.aps (s.hw.chan c).pswCfg.one s.hw.now := by
        rw [Hw.count_chan, if_pos rfl]
        simp [u, Chan.count]
      by_cases seen : p.rsvSeen = true
      · rw [if_pos seen, psw_]
        exact ⟨code, run, count, fun no => absurd (seen.symm.trans no) (by decide), local_⟩
      · rw [if_neg seen]
        refine ⟨?_, ?_, ?_, fun _ => Hw.evPsw_flag told (by decide) (by decide), (Hw.chEvent_local _ c _ _ _).trans local_⟩
        · rw [Hw.evPsw, Hw.chEvent_chan_psw, psw_, code]
        · rw [Hw.evPsw, Hw.chEvent_chan_psw, psw_, run]
        · rw [Hw.evPsw, Hw.chEvent_chan_ctr, count]
    · obtain ⟨maj, is_, last, valid, third, first⟩ := Psw.aps_known (s.hw.chan c).pswCfg.one (vote.trans some_) known other
      have plain : s.hw.apsEval c = s.hw.onChan c fun y => { y with psw := p.aps (s.hw.chan c).pswCfg.one s.hw.now } := by
        rw [is]
        exact if_neg (by rw [maj, is_, known]; simp)
      refine ⟨fun run same => ?_, fun differs => ?_⟩
      · refine .byOnActive c (·.apsEval c) rfl works active ?_
        rw [plain, Hw.onChan_chan, if_pos rfl]
        exact ⟨(third run same).1, valid, (third run same).2, quiet_ _⟩
      · refine .byOnActive c (·.apsEval c) rfl works active ?_
        rw [plain, Hw.onChan_chan, if_pos rfl]
        exact ⟨(first differs).1, (first differs).2, last, quiet_ _⟩
  · refine .byOnActive c (fun h => h.onChan c fun x => { x with psw := x.psw.rxLost x.pswCfg.one }) rfl works active ?_
    rw [Hw.onChan_chan, if_pos rfl]
    exact ⟨rfl, rfl, rfl, s.hw.onChan_local c _⟩
  · refine .byOnActive c _ rfl works active ?_
    rw [if_pos (by simp [p] at first; simp [mis, first])]
    let u := s.hw.onChan c fun x => { x with psw := { x.psw with mismatch := true } }
    have up : (u.chan c).raises = true := by simp [u, Chan.raises, active]
    refine ⟨?_, ?_, ?_, (Hw.raiseChan_local _ c c _ _ _ _).trans ((Hw.chEvent_local _ c _ _ _).trans (s.hw.onChan_local c _))⟩
    · rw [Hw.raiseChan_chan, Hw.evPsw, Hw.chEvent_chan_psw, Hw.onChan_chan, if_pos rfl]
    · rw [Hw.chReg, Hw.raiseChan_chan]
      exact Hw.evPsw_flag (h := u) up (by decide) (by decide)
    · exact Hw.raiseChan_took (t := u.evPsw c 0x00010000) works (by simp [Hw.evPsw, u]) (by simp [Hw.evPsw, u]) (by simp [Hw.evPsw, u])
        (by simp [Hw.evPsw, u]) (by simp [Hw.evPsw, Chan.raises, u, active]) _ _ _ _
  · refine (onActive_on (f := fun h => if (h.chan c).misHolds then h else h.onChan c fun x => { x with psw := { x.psw with mismatch := false } })
      works active).trans (next_congr (if_neg (by simp [mis])))

end Sys2Proof.Machine
end

section
/-!
PROOF. The state machine of black-side protection: one evaluation, its effect on the channel, its timers, and the operator's commands
(O45, O46).
-/
namespace Sys2Proof.Machine

/-! ## The highest request (R277) -/

theorem PswState.top_left {a b : PswState} (above : a.prio ≤ b.prio) : a.top b = a := if_neg (by omega)

theorem PswState.top_right {a b : PswState} (above : b.prio < a.prio) : a.top b = b := if_pos above

/-- No request is below NR. -/
theorem PswState.prio_le (a : PswState) : a.prio ≤ 11 := by cases a <;> decide

theorem PswState.top_nr (a : PswState) : a.top .nr = a := PswState.top_left a.prio_le

theorem PswState.nr_top (a : PswState) : PswState.nr.top a = a := by cases a <;> rfl

/-- A request stands against one that may be there, if it is no lower. -/
theorem PswState.top_may {a b : PswState} (above : a.prio ≤ b.prio) (q : Prop) [Decidable q] : a.top (if q then b else .nr) = a := by
  split
  · exact PswState.top_left above
  · exact a.top_nr

/-- Of two requests that may be there, neither is above one that both are no higher than. -/
theorem PswState.top_mays {a b d : PswState} (first : a.prio ≤ b.prio) (second : a.prio ≤ d.prio) (q r : Prop) [Decidable q] [Decidable r] :
    a.top ((if q then b else .nr).top (if r then d else .nr)) = a := by
  refine PswState.top_left ?_
  have nr := a.prio_le
  unfold PswState.top
  split_ifs <;> assumption

section
variable {p : Psw}

theorem Psw.pressing_lo (cmd : p.cmd = 1) : p.pressing = .lo := by
  rw [Psw.pressing, Psw.cmdReq, if_pos cmd, PswState.top_may (by decide), PswState.top_mays (by decide) (by decide)]

theorem Psw.pressing_sfP (req : p.req[1] = true) (cmd : p.cmd ≠ 1) : p.pressing = .sfP := by
  have low : PswState.sfP.prio < (p.cmdReq.top (if p.req[0] then .sfW else .nr)).prio := by
    unfold Psw.cmdReq PswState.top
    rw [if_neg cmd]
    split_ifs <;> decide
  rw [Psw.pressing, if_pos req, PswState.top_may (a := .sfP) (by decide), PswState.top_right low]

theorem Psw.pressing_fs (cmd : p.cmd = 2) (req : p.req[1] = false) : p.pressing = .fs := by
  rw [Psw.pressing, Psw.cmdReq, if_neg (by rw [cmd]; decide), if_pos cmd, PswState.top_may (by decide), if_neg (by simp [req]), PswState.nr_top,
    PswState.top_may (by decide)]

theorem Psw.cmdReq_none (cmd : p.cmd = 0) : p.cmdReq = .nr := by
  rw [Psw.cmdReq, cmd]
  rfl

theorem Psw.pressing_sfW (cmd : p.cmd = 0) (sfP : p.req[1] = false) (req : p.req[0] = true) : p.pressing = .sfW := by
  rw [Psw.pressing, Psw.cmdReq_none cmd, PswState.nr_top, if_pos req, if_neg (by simp [sfP]), PswState.nr_top, PswState.top_may (by decide)]

theorem Psw.pressing_sdW (cmd : p.cmd = 0) (sfP : p.req[1] = false) (sfW : p.req[0] = false) (req : p.req[2] = true) : p.pressing = .sdW := by
  rw [Psw.pressing, Psw.cmdReq_none cmd, PswState.nr_top, if_neg (by simp [sfW]), if_neg (by simp [sfP]), if_pos req]
  rfl

/-- Without a local condition the operator's command is what presses. -/
theorem Psw.pressing_cmd (sfW : p.req[0] = false) (sfP : p.req[1] = false) (sdW : p.req[2] = false) : p.pressing = p.cmdReq := by
  rw [Psw.pressing, if_neg (by simp [sfW]), if_neg (by simp [sfP]), if_neg (by simp [sdW]), PswState.top_nr, PswState.top_nr, PswState.top_nr]

theorem Psw.local_high {r : PswState} (pressing : p.pressing = r) (high : r.prio ≤ 7) : p.local_ = r := by
  have above : r.prio ≤ PswState.dnr.prio := high.trans (by decide)
  rw [Psw.local_, pressing, PswState.top_may (b := .wtr) high, PswState.top_may above]

theorem Psw.local_low (wtr : p.wtr = false) : p.local_ = p.pressing.top (if p.dnr then .dnr else .nr) := by
  rw [Psw.local_, if_neg (by simp [wtr]), PswState.top_nr]

end

/-! ## One evaluation (R278 to R282) -/

/-- The flags of an evaluation are settled, with the highest request `hi`. -/
def Psw.flagged (p : Psw) (g : PswCfg) (clean : Bool) (now hi : Nat) : Psw := ((p.leaveFail g hi now).leaveDnr clean).yieldTo hi

section
variable {p : Psw} {g : PswCfg} {clean : Bool} {now hi : Nat}

/-- What the exit rule of SF-W and SD-W leaves. -/
theorem Psw.leaveFail_keeps (p : Psw) (g : PswCfg) (hi now : Nat) :
    ∃ wtr wtrTo dnr, p.leaveFail g hi now = { p with wtr := wtr, wtrTo := wtrTo, dnr := dnr } := by
  unfold Psw.leaveFail
  split_ifs <;> exact ⟨_, _, _, rfl⟩

/-- What the flags leave: the requests, the far end's code, the state and the path. -/
theorem Psw.flagged_keeps (p : Psw) (g : PswCfg) (clean : Bool) (now hi : Nat) :
    ∃ wtr wtrTo dnr, p.flagged g clean now hi
      = { p with wtr := wtr, wtrTo := wtrTo, dnr := dnr, cmd := if (p.cmd = 3 ∧ hi < 6) ∨ (p.cmd = 4 ∧ hi < 8) then 0 else p.cmd,
                 exerOk := if p.cmd = 4 ∧ hi < 8 then false else p.exerOk } := by
  obtain ⟨wtr, wtrTo, dnr, leaves⟩ := p.leaveFail_keeps g hi now
  rw [Psw.flagged, leaves]
  exact ⟨_, _, _, rfl⟩

/-- A command of the operator that no higher request ends stands. -/
theorem Psw.flagged_cmd (stands : p.cmd = 3 → 6 ≤ hi) (exer : p.cmd = 4 → 8 ≤ hi) :
    (p.flagged g clean now hi).cmd = p.cmd ∧ (p.flagged g clean now hi).exerOk = p.exerOk := by
  obtain ⟨_, _, _, is⟩ := p.flagged_keeps g clean now hi
  rw [is]
  refine ⟨if_neg fun ends => ?_, if_neg fun ends => ?_⟩
  · rcases ends with ⟨ms, low⟩ | ⟨ex, low⟩
    · exact absurd (stands ms) (by omega)
    · exact absurd (exer ex) (by omega)
  · exact absurd (exer ends.1) (by omega)

theorem Psw.leaveFail_stays (sfW : p.st ≠ .sfW) (sdW : p.st ≠ .sdW) : p.leaveFail g hi now = p := if_neg (by simp [sfW, sdW])

/-- The state follows the highest local request where the far end has no say. -/
theorem Psw.settle_local {q : Psw} {one : Bool} {r : PswState} (is : q.local_ = r) (free : one = false ∨ r = .lo) :
    q.settle one = { q with st := r, active := r.path.getD q.active } := by
  unfold Psw.settle
  dsimp only
  rw [is]
  rcases free with off | top
  · have far : q.far one = none := by rw [off]; rfl
    have exer : q.farExer one = false := by rw [off]; rfl
    rw [far, exer]
    rfl
  · subst top
    split
    · have low : ∀ f : PswState, ¬f.prio < PswState.lo.prio := by intro f; cases f <;> decide
      exact if_neg (low _)
    · rw [if_neg (by simp)]

theorem Psw.evaluate_eq (p : Psw) (g : PswCfg) (clean : Bool) (now : Nat) :
    p.evaluate g clean now = (p.flagged g clean now (min p.pressing.prio (((p.far g.one).map PswState.prio).getD 11))).settle g.one := rfl

/-- Outside 1:1 mode the highest local request is the highest. -/
theorem Psw.evaluate_equinox (off : g.one = false) :
    p.evaluate g clean now = (p.flagged g clean now p.pressing.prio).settle false := by
  have far : p.far g.one = none := by rw [off]; rfl
  rw [Psw.evaluate_eq, far, off]
  exact congrArg (fun n => (p.flagged g clean now n).settle false) (Nat.min_eq_left p.pressing.prio_le)

/-- An evaluation that finds a lockout (R277). -/
theorem Psw.evaluate_lo (cmd : p.cmd = 1) :
    (p.evaluate g clean now).st = .lo ∧ (p.evaluate g clean now).active = .bkw ∧ (p.evaluate g clean now).cmd = 1
    ∧ (p.evaluate g clean now).exerOk = p.exerOk := by
  rw [Psw.evaluate_eq]
  generalize min p.pressing.prio (((p.far g.one).map PswState.prio).getD 11) = hi
  obtain ⟨stays, ok⟩ := Psw.flagged_cmd (p := p) (g := g) (clean := clean) (now := now) (hi := hi) (fun no => absurd (cmd.symm.trans no) (by decide))
    fun no => absurd (cmd.symm.trans no) (by decide)
  rw [Psw.settle_local (Psw.local_high (Psw.pressing_lo (stays.trans cmd)) (by decide)) (.inr rfl)]
  exact ⟨rfl, rfl, stays.trans cmd, ok⟩

/-- An evaluation outside 1:1 mode whose flags let one request stand. -/
theorem Psw.evaluate_stands (off : g.one = false) {r : PswState} (is : (p.flagged g clean now p.pressing.prio).local_ = r) :
    p.evaluate g clean now = { p.flagged g clean now p.pressing.prio with st := r, active := r.path.getD p.active } := by
  obtain ⟨_, _, _, keeps⟩ := p.flagged_keeps g clean now p.pressing.prio
  have active : (p.flagged g clean now p.pressing.prio).active = p.active := by rw [keeps]
  rw [Psw.evaluate_equinox off, Psw.settle_local is (.inl rfl), active]

theorem Psw.flagged_req : (p.flagged g clean now hi).req = p.req := by
  obtain ⟨_, _, _, keeps⟩ := p.flagged_keeps g clean now hi
  rw [keeps]

theorem Psw.evaluate_sfP (off : g.one = false) (req : p.req[1] = true) (cmd : p.cmd ≠ 1) :
    (p.evaluate g clean now).st = .sfP ∧ (p.evaluate g clean now).active = .bkw := by
  have others : (p.flagged g clean now p.pressing.prio).cmd ≠ 1 := by
    obtain ⟨_, _, _, keeps⟩ := p.flagged_keeps g clean now p.pressing.prio
    rw [keeps]
    dsimp only
    split
    · decide
    · exact cmd
  rw [Psw.evaluate_stands off (Psw.local_high (Psw.pressing_sfP (by rw [Psw.flagged_req]; exact req) others) (by decide))]
  exact ⟨rfl, rfl⟩

theorem Psw.evaluate_fs (off : g.one = false) (cmd : p.cmd = 2) (req : p.req[1] = false) :
    (p.evaluate g clean now).st = .fs ∧ (p.evaluate g clean now).active = .bkp ∧ (p.evaluate g clean now).cmd = 2
    ∧ (p.evaluate g clean now).exerOk = p.exerOk := by
  obtain ⟨stays, ok⟩ := Psw.flagged_cmd (p := p) (g := g) (clean := clean) (now := now) (hi := p.pressing.prio)
    (fun no => absurd (cmd.symm.trans no) (by decide)) fun no => absurd (cmd.symm.trans no) (by decide)
  rw [Psw.evaluate_stands off (Psw.local_high (Psw.pressing_fs (stays.trans cmd) (by rw [Psw.flagged_req]; exact req)) (by decide))]
  exact ⟨rfl, rfl, stays.trans cmd, ok⟩

/-- With no command in force the flags leave none. -/
theorem Psw.flagged_none (cmd : p.cmd = 0) : (p.flagged g clean now hi).cmd = 0 ∧ (p.flagged g clean now hi).exerOk = p.exerOk := by
  obtain ⟨stays, ok⟩ := Psw.flagged_cmd (p := p) (g := g) (clean := clean) (now := now) (hi := hi) (fun no => absurd (cmd.symm.trans no) (by decide))
    fun no => absurd (cmd.symm.trans no) (by decide)
  exact ⟨stays.trans cmd, ok⟩

theorem Psw.evaluate_sfW (off : g.one = false) (cmd : p.cmd = 0) (sfP : p.req[1] = false) (req : p.req[0] = true) :
    (p.evaluate g clean now).st = .sfW ∧ (p.evaluate g clean now).active = .bkp := by
  rw [Psw.evaluate_stands off (Psw.local_high (Psw.pressing_sfW (Psw.flagged_none cmd).1 (by rw [Psw.flagged_req]; exact sfP)
    (by rw [Psw.flagged_req]; exact req)) (by decide))]
  exact ⟨rfl, rfl⟩

theorem Psw.evaluate_sdW (off : g.one = false) (cmd : p.cmd = 0) (sfP : p.req[1] = false) (sfW : p.req[0] = false) (req : p.req[2] = true) :
    (p.evaluate g clean now).st = .sdW ∧ (p.evaluate g clean now).active = .bkp := by
  rw [Psw.evaluate_stands off (Psw.local_high (Psw.pressing_sdW (Psw.flagged_none cmd).1 (by rw [Psw.flagged_req]; exact sfP)
    (by rw [Psw.flagged_req]; exact sfW) (by rw [Psw.flagged_req]; exact req)) (by decide))]
  exact ⟨rfl, rfl⟩

/-- No local condition is a request (R272). -/
structure Psw.Clear (p : Psw) : Prop where
  sfW : p.req[0] = false
  sfP : p.req[1] = false
  sdW : p.req[2] = false

theorem Psw.Clear.pressing (clear : p.Clear) : p.pressing = p.cmdReq := Psw.pressing_cmd clear.sfW clear.sfP clear.sdW

theorem Psw.Clear.of_req {q : Psw} (clear : p.Clear) (req : q.req = p.req) : q.Clear :=
  ⟨by simp only [req]; exact clear.sfW, by simp only [req]; exact clear.sfP, by simp only [req]; exact clear.sdW⟩

theorem Psw.Clear.flagged (clear : p.Clear) : (p.flagged g clean now hi).Clear := clear.of_req Psw.flagged_req

theorem Psw.evaluate_ms (off : g.one = false) (clear : p.Clear) (cmd : p.cmd = 3) :
    (p.evaluate g clean now).st = .ms ∧ (p.evaluate g clean now).active = .bkp ∧ (p.evaluate g clean now).cmd = 3
    ∧ (p.evaluate g clean now).exerOk = p.exerOk := by
  have ms : ∀ q : Psw, q.cmd = 3 → q.cmdReq = .ms := by
    intro q is
    rw [Psw.cmdReq, is]
    rfl
  have hi : p.pressing.prio = 6 := by rw [clear.pressing, ms p cmd]; rfl
  obtain ⟨stays, ok⟩ := Psw.flagged_cmd (p := p) (g := g) (clean := clean) (now := now) (hi := p.pressing.prio)
    (fun _ => hi.ge) fun no => absurd (cmd.symm.trans no) (by decide)
  rw [Psw.evaluate_stands off (Psw.local_high (clear.flagged.pressing.trans (ms _ (stays.trans cmd))) (by decide))]
  exact ⟨rfl, rfl, stays.trans cmd, ok⟩

/-- Nothing presses: what the flags then are. -/
theorem Psw.Clear.prio (clear : p.Clear) (cmd : p.cmd = 0) : p.pressing.prio = 11 := by
  rw [clear.pressing, Psw.cmdReq_none cmd]
  rfl

/-- With nothing pressing, WTR and DNR decide. -/
theorem Psw.Clear.idle (clear : p.Clear) (cmd : p.cmd = 0) :
    p.local_ = if p.wtr then .wtr else if p.dnr then .dnr else .nr := by
  rw [Psw.local_, clear.pressing, Psw.cmdReq_none cmd, PswState.nr_top]
  cases p.wtr <;> cases p.dnr <;> rfl

/-- The flags outside a failure's end with nothing pressing. -/
theorem Psw.flagged_idle (hi : Nat) (high : 10 ≤ hi) (st : p.st ≠ .sfW) (st' : p.st ≠ .sdW) (dnr : p.st ≠ .dnr) :
    (p.flagged g clean now hi).wtr = p.wtr ∧ (p.flagged g clean now hi).dnr = p.dnr := by
  have seven : 7 ≤ hi := by omega
  simp [Psw.flagged, Psw.leaveFail_stays st st', Psw.leaveDnr, Psw.yieldTo, high, seven, dnr]

/-- Nothing presses outside 1:1 mode, and neither WTR nor DNR holds the state: it is NR. -/
theorem Psw.evaluate_nr (off : g.one = false) (clear : p.Clear) (cmd : p.cmd = 0) (wtr : p.wtr = false) (dnr : p.dnr = false)
    (st : p.st ≠ .sfW) (st' : p.st ≠ .sdW) :
    (p.evaluate g clean now).st = .nr ∧ (p.evaluate g clean now).active = .bkw ∧ (p.evaluate g clean now).cmd = 0
    ∧ (p.evaluate g clean now).exerOk = p.exerOk ∧ (p.evaluate g clean now).wtr = false := by
  obtain ⟨stays, ok⟩ := Psw.flagged_none (p := p) (g := g) (clean := clean) (now := now) (hi := p.pressing.prio) cmd
  have wtr' : (p.flagged g clean now p.pressing.prio).wtr = false := by simp [Psw.flagged, Psw.leaveFail_stays st st', Psw.leaveDnr, Psw.yieldTo, wtr]
  have dnr' : (p.flagged g clean now p.pressing.prio).dnr = false := by simp [Psw.flagged, Psw.leaveFail_stays st st', Psw.leaveDnr, Psw.yieldTo, dnr]
  have is : (p.flagged g clean now p.pressing.prio).local_ = .nr := by
    rw [clear.flagged.idle stays, wtr', dnr']
    rfl
  rw [Psw.evaluate_stands off is]
  exact ⟨rfl, rfl, stays, ok, wtr'⟩

/-- Nothing presses outside 1:1 mode, and DNR has been set in another state. -/
theorem Psw.evaluate_dnr (off : g.one = false) (clear : p.Clear) (cmd : p.cmd = 0) (wtr : p.wtr = false) (dnr : p.dnr = true)
    (st : p.st ≠ .sfW) (st' : p.st ≠ .sdW) (st'' : p.st ≠ .dnr) :
    (p.evaluate g clean now).st = .dnr ∧ (p.evaluate g clean now).active = .bkp ∧ (p.evaluate g clean now).cmd = 0
    ∧ (p.evaluate g clean now).exerOk = p.exerOk ∧ (p.evaluate g clean now).dnr = true := by
  obtain ⟨stays, ok⟩ := Psw.flagged_none (p := p) (g := g) (clean := clean) (now := now) (hi := p.pressing.prio) cmd
  obtain ⟨wtr', dnr'⟩ := Psw.flagged_idle (g := g) (clean := clean) (now := now) p.pressing.prio (by rw [clear.prio cmd]; decide) st st' st''
  have is : (p.flagged g clean now p.pressing.prio).local_ = .dnr := by
    rw [clear.flagged.idle stays, wtr', dnr', wtr, dnr]
    rfl
  rw [Psw.evaluate_stands off is]
  exact ⟨rfl, rfl, stays, ok, dnr'.trans dnr⟩

/-- SF-W has ended: WTR in revertive mode, DNR in the other (R279). -/
theorem Psw.evaluate_ended (off : g.one = false) (clear : p.Clear) (cmd : p.cmd = 0) (wtr : p.wtr = false) (st : p.st = .sfW) :
    (g.revert = true → 0 < g.wtrTime → (p.evaluate g clean now).st = .wtr ∧ (p.evaluate g clean now).active = .bkp
      ∧ (p.evaluate g clean now).wtr = true ∧ (p.evaluate g clean now).wtrTo = now + g.wtrTime * 400000000 ∧ (p.evaluate g clean now).cmd = 0)
    ∧ (g.revert = false → (p.evaluate g clean now).st = .dnr ∧ (p.evaluate g clean now).active = .bkp ∧ (p.evaluate g clean now).dnr = true
      ∧ (p.evaluate g clean now).cmd = 0) := by
  have hi := clear.prio cmd
  obtain ⟨stays, -⟩ := Psw.flagged_none (p := p) (g := g) (clean := clean) (now := now) (hi := p.pressing.prio) cmd
  refine ⟨fun revert timed => ?_, fun stay => ?_⟩
  · have leaves : p.leaveFail g 11 now = { p with wtr := true, wtrTo := now + g.wtrTime * 400000000 } := by
      rw [Psw.leaveFail, if_pos (by simp [st, clear.sfW]), if_pos revert, if_pos ⟨by decide, timed⟩]
    have flags : (p.flagged g clean now p.pressing.prio).wtr = true ∧ (p.flagged g clean now p.pressing.prio).wtrTo = now + g.wtrTime * 400000000 := by
      rw [Psw.flagged, hi, leaves]
      exact ⟨rfl, rfl⟩
    have is : (p.flagged g clean now p.pressing.prio).local_ = .wtr := by
      rw [clear.flagged.idle stays, flags.1]
      rfl
    rw [Psw.evaluate_stands off is]
    exact ⟨rfl, rfl, flags.1, flags.2, stays⟩
  · have leaves : p.leaveFail g 11 now = { p with dnr := true } := by
      rw [Psw.leaveFail, if_pos (by simp [st, clear.sfW]), if_neg (by simp [stay]), if_pos (by decide)]
    have flags : (p.flagged g clean now p.pressing.prio).wtr = false ∧ (p.flagged g clean now p.pressing.prio).dnr = true := by
      rw [Psw.flagged, hi, leaves]
      simp [Psw.leaveDnr, Psw.yieldTo, wtr, st]
    have is : (p.flagged g clean now p.pressing.prio).local_ = .dnr := by
      rw [clear.flagged.idle stays, flags.1, flags.2]
      rfl
    rw [Psw.evaluate_stands off is]
    exact ⟨rfl, rfl, flags.2, stays⟩

/-- An exercise in NR or DNR leaves ACTIVE where it is (R281). -/
theorem Psw.evaluate_exer (off : g.one = false) (clear : p.Clear) (cmd : p.cmd = 4) (wtr : p.wtr = false) (st : p.st = .nr ∨ p.st = .dnr) :
    (p.evaluate g clean now).st = .exer ∧ (p.evaluate g clean now).active = p.active ∧ (p.evaluate g clean now).cmd = 4
    ∧ (p.evaluate g clean now).exerOk = p.exerOk ∧ (p.evaluate g clean now).exerSeen = p.exerSeen := by
  have exer : ∀ q : Psw, q.cmd = 4 → q.cmdReq = .exer := by
    intro q is
    rw [Psw.cmdReq, is]
    rfl
  have hi : p.pressing.prio = 8 := by rw [clear.pressing, exer p cmd]; rfl
  obtain ⟨stays, ok⟩ := Psw.flagged_cmd (p := p) (g := g) (clean := clean) (now := now) (hi := p.pressing.prio)
    (fun no => absurd (cmd.symm.trans no) (by decide)) fun _ => hi.ge
  have leaves : ∀ n, p.leaveFail g n now = p := fun n =>
    Psw.leaveFail_stays (by rcases st with is | is <;> rw [is] <;> decide) (by rcases st with is | is <;> rw [is] <;> decide)
  have wtr' : (p.flagged g clean now p.pressing.prio).wtr = false := by simp [Psw.flagged, leaves, Psw.leaveDnr, Psw.yieldTo, wtr]
  have is : (p.flagged g clean now p.pressing.prio).local_ = .exer := by
    rw [Psw.local_low wtr', clear.flagged.pressing, exer _ (stays.trans cmd), PswState.top_may (by decide)]
  obtain ⟨_, _, _, keeps⟩ := p.flagged_keeps g clean now p.pressing.prio
  rw [Psw.evaluate_stands off is]
  exact ⟨rfl, rfl, stays.trans cmd, ok, by rw [keeps]⟩

/-- In 1:1 mode a far end's FS is followed as RR where nothing local stands (R282). -/
theorem Psw.evaluate_rr (on : g.one = true) (valid : p.rxValid = true) (code : p.rxCode = 0xD) (clear : p.Clear) (cmd : p.cmd = 0)
    (wtr : p.wtr = false) (dnr : p.dnr = false) (st : p.st = .nr) :
    (p.evaluate g clean now).st = .rr ∧ (p.evaluate g clean now).active = .bkp ∧ (p.evaluate g clean now).cmd = 0 := by
  rw [Psw.evaluate_eq, on]
  generalize min p.pressing.prio (((p.far true).map PswState.prio).getD 11) = hi
  obtain ⟨stays, -⟩ := Psw.flagged_none (p := p) (g := g) (clean := clean) (now := now) (hi := hi) cmd
  obtain ⟨_, _, _, keeps⟩ := p.flagged_keeps g clean now hi
  have leaves : p.leaveFail g hi now = p := Psw.leaveFail_stays (by rw [st]; decide) (by rw [st]; decide)
  have flags : (p.flagged g clean now hi).wtr = false ∧ (p.flagged g clean now hi).dnr = false := by
    simp [Psw.flagged, leaves, Psw.leaveDnr, Psw.yieldTo, wtr, dnr]
  have is : (p.flagged g clean now hi).local_ = .nr := by
    rw [clear.flagged.idle stays, flags.1, flags.2]
    rfl
  have far : (p.flagged g clean now hi).far true = some .fs := by
    rw [keeps, Psw.far]
    dsimp only
    rw [valid, code]
    rfl
  unfold Psw.settle
  dsimp only
  rw [is, far]
  exact ⟨rfl, rfl, stays⟩

end

/-! ## What an evaluation leaves on the channel (R270, R278) -/

/-- The protection state of a channel has become `p`: beyond the channel nothing has changed, its flags stand, and a change of ACTIVE is told and counted. -/
structure Hw.Takes (t h : Hw) (c : ChanId) (p : Psw) : Prop where
  here : t.Local h c
  psw : (t.chan c).psw = p
  flag : ∀ b < 24, bitOf (h.chReg c 0x7008) b = true → bitOf (t.chReg c 0x7008) b = true
  moved : p.active ≠ (h.chan c).psw.active → bitOf (t.chReg c 0x7008) 15 = true
    ∧ tget 0 (t.chan c).ctr (ctrKey 0x12 12) = min (2 ^ 48 - 1) (tget 0 (h.chan c).ctr (ctrKey 0x12 12) + 1)

theorem besideSelect_psw (c : ChanId) : BesideSelect fun h => (h.chan c).psw where
  syn h d r f := by
    rw [Hw.onSyn, Hw.onChan_chan]
    split
    · subst_vars; cases r <;> rfl
    · rfl
  tim h d fl _ := by simp [Hw.evTim]
  stn _ _ _ := rfl
  event h fl := by simp
  out h j d fl := by simp
  draw _ := rfl

section
variable {h : Hw} {c : ChanId} {p : Psw}

/-- The protection state is replaced, and nothing follows from it yet. -/
def Hw.pswSet (h : Hw) (c : ChanId) (p : Psw) : Hw := h.onChan c fun x => { x with psw := p }

theorem Hw.pswSet_chan (h : Hw) (c : ChanId) (p : Psw) : (h.pswSet c p).chan c = { h.chan c with psw := p } := by rw [Hw.pswSet, Hw.onChan_chan, if_pos rfl]

theorem Hw.pswSet_local (h : Hw) (c : ChanId) (p : Psw) : (h.pswSet c p).Local h c := h.onChan_local c _

theorem Hw.pswSet_chReg (h : Hw) (c : ChanId) (p : Psw) (o : Nat) : (h.pswSet c p).chReg c o = h.chReg c o := by
  rw [Hw.chReg, Hw.pswSet_chan]
  rfl

/-- A change of ACTIVE: SWITCH is told, the change is counted, and the protection state is as it was. -/
theorem Hw.switched_shows (raises : (h.chan c).raises = true) (left : Path) :
    (h.switched c left).Local h c ∧ ((h.switched c left).chan c).psw = (h.chan c).psw ∧ ((h.switched c left).chan c).q = (h.chan c).q
    ∧ (∀ b < 24, bitOf (h.chReg c 0x7008) b = true → bitOf ((h.switched c left).chReg c 0x7008) b = true)
    ∧ bitOf ((h.switched c left).chReg c 0x7008) 15 = true
    ∧ tget 0 ((h.switched c left).chan c).ctr (ctrKey 0x12 12) = min (2 ^ 48 - 1) (tget 0 (h.chan c).ctr (ctrKey 0x12 12) + 1) := by
  unfold Hw.switched
  extract_lets h1 h2
  have told : h1.chReg c 0x7008 = evWord (h.chReg c 0x7008) 0x00008000 := by
    have is : h1.chReg c 0x7008 = (h.evPsw c 0x00008000).chReg c 0x7008 := by simp [h1, Hw.chReg, Chan.reg, Chan.count]
    rw [is, Hw.evPsw, Hw.chEvent_chReg raises, if_pos rfl]
  have local_ : h2.Local h c := (h1.onChan_local c _).trans ((Hw.onChan_local _ c _).trans (h.chEvent_local c _ _ _))
  have reg : h2.chReg c 0x7008 = h1.chReg c 0x7008 := by simp [h2, Hw.chReg, Chan.reg]
  have follows := h2.reselect_follows c
  have told' : (h2.reselect c).chReg c 0x7008 = evWord (h.chReg c 0x7008) 0x00008000 :=
    (follows.reg _ (by decide) (by decide) (by decide)).trans (reg.trans told)
  refine ⟨follows.here.trans local_, ?_, ?_, fun b low on => ?_, ?_, ?_⟩
  · exact ((besideSelect_psw c).reselect h2 c).trans (by simp [h2, h1, Chan.count, Hw.evPsw])
  · obtain ⟨_, _, _, _, is⟩ := follows.chan
    rw [is]
    simp [h2, h1, Chan.count, Hw.evPsw]
  · rw [told', bitOf_evWord _ _ low, on, Bool.true_or]
  · have flag : bitOf (0x00008000 : Word) 15 = true := by decide
    rw [told', bitOf_evWord _ _ (by decide), flag, Bool.or_true]
  · rw [follows.ctr]
    have is : (h2.chan c).ctr = (((h.evPsw c 0x00008000).chan c).count 0x12 12 1).ctr := by simp [h2, h1]
    rw [is, Chan.count_ctr, if_pos rfl, Hw.evPsw, Hw.chEvent_chan_ctr]

/-- What follows from an exercise that has ended. -/
def Hw.exerToldIf (u h : Hw) (c : ChanId) (p : Psw) : Hw :=
  if (h.chan c).psw.cmd = 4 ∧ p.cmd ≠ 4 then (u.evPsw c 0x00040000).finish (.chan c) isExercise stDone 0 (b2n p.exerOk) else u

theorem Hw.pswTake_eq (h : Hw) (c : ChanId) (p : Psw) :
    h.pswTake c p = if p.active = (h.chan c).psw.active then (h.pswSet c p).exerToldIf h c p
      else ((h.pswSet c p).exerToldIf h c p).switched c (h.chan c).psw.active := rfl

theorem besideQueue_ctr (c d : ChanId) : BesideQueue (fun h => (h.chan d).ctr) (.chan c) :=
  ⟨fun h _ => by simp only [Hw.onQueue, Hw.onChan_chan]; split <;> [(subst_vars; rfl); rfl], fun _ _ => rfl, by simp, fun _ => rfl, by simp⟩

/-- An exercise that ends is told, and its command completes; the channel's state, its protection and its counters stand. -/
theorem Hw.exerToldIf_shows {u : Hw} (active : (u.chan c).st = .active) :
    (u.exerToldIf h c p).Local u c ∧ ((u.exerToldIf h c p).chan c).psw = (u.chan c).psw ∧ ((u.exerToldIf h c p).chan c).st = (u.chan c).st
    ∧ ((u.exerToldIf h c p).chan c).ctr = (u.chan c).ctr
    ∧ ∀ b < 24, bitOf (u.chReg c 0x7008) b = true → bitOf ((u.exerToldIf h c p).chReg c 0x7008) b = true := by
  unfold Hw.exerToldIf
  split
  · refine ⟨(Hw.finish_beside _ c _ _ _ _).here.trans (u.chEvent_local c _ _ _), ?_, ?_, ?_, fun b low on => ?_⟩
    · exact ((besideQueue_psw c c).finish _ _ _ _ _).trans (by simp [Hw.evPsw])
    · exact ((besideQueue_st c c).finish _ _ _ _ _).trans (by simp [Hw.evPsw])
    · exact ((besideQueue_ctr c c).finish _ _ _ _ _).trans (by simp [Hw.evPsw])
    · refine (congrArg (bitOf · b) ((besideQueue_reg c (o := 0x7008) (.inr (by decide))).finish _ _ _ _ _)).trans ?_
      rw [Hw.evPsw, Hw.chEvent_chReg (raises_of_active active), if_pos rfl, bitOf_evWord _ _ low, on, Bool.true_or]
  · exact ⟨.refl u c, rfl, rfl, rfl, fun _ _ on => on⟩

theorem Hw.pswTake_takes (active : (h.chan c).st = .active) : (h.pswTake c p).Takes h c p := by
  obtain ⟨here, psw, st, ctr, flag⟩ := Hw.exerToldIf_shows (h := h) (p := p) (u := h.pswSet c p) (c := c) (by rw [Hw.pswSet_chan]; exact active)
  rw [Hw.pswTake_eq]
  generalize (h.pswSet c p).exerToldIf h c p = u at *
  rw [Hw.pswSet_chan] at psw st ctr
  replace here := here.trans (h.pswSet_local c p)
  replace flag : ∀ b < 24, bitOf (h.chReg c 0x7008) b = true → bitOf (u.chReg c 0x7008) b = true :=
    fun b low on => flag b low (by rwa [Hw.pswSet_chReg])
  by_cases same : p.active = (h.chan c).psw.active
  · rw [if_pos same]
    exact ⟨here, psw, flag, fun moved => absurd same moved⟩
  · rw [if_neg same]
    obtain ⟨here', psw', -, flag', told, counted⟩ := Hw.switched_shows (raises_of_active (st.trans active)) (h.chan c).psw.active
    exact ⟨here'.trans here, psw'.trans psw, fun b low on => flag' b low (flag b low on), fun _ => ⟨told, by rw [counted, ctr]⟩⟩

/-- While no exercise ends, the channel's commands wait as they did. -/
theorem Hw.pswTake_q (active : (h.chan c).st = .active) (exer : (h.chan c).psw.cmd = 4 → p.cmd = 4) :
    ((h.pswTake c p).chan c).q = (h.chan c).q := by
  have none_ : (h.pswSet c p).exerToldIf h c p = h.pswSet c p := if_neg fun ends => ends.2 (exer ends.1)
  have raises : ((h.pswSet c p).chan c).raises = true := raises_of_active (by rw [Hw.pswSet_chan]; exact active)
  obtain ⟨-, -, q, -⟩ := Hw.switched_shows raises (h.chan c).psw.active
  rw [Hw.pswTake_eq, none_]
  split
  · rw [Hw.pswSet_chan]
  · rw [q, Hw.pswSet_chan]

theorem Chan.malotRuns_parts {x : Chan} (runs : x.malotRuns = true) : x.st = .active ∧ x.mlt.run = true ∧ x.quarantined = false := by
  simp only [Chan.malotRuns, Chan.isActive, Bool.and_eq_true, decide_eq_true_eq, Bool.not_eq_true'] at runs
  exact ⟨runs.1.1, runs.1.2, runs.2⟩

/-- BKW has neither SF nor SD. -/
def Chan.bkwClean (x : Chan) : Bool := !x.pathSF .bkw && !x.pathSD .bkw

/-- What an evaluation makes of a channel's protection. -/
def Hw.evaluated (h : Hw) (c : ChanId) : Psw := (h.chan c).psw.evaluate (h.chan c).pswCfg (h.chan c).bkwClean h.now

theorem Hw.pswEval_eq (runs : (h.chan c).malotRuns = true) : h.pswEval c = h.pswTake c (h.evaluated c) := if_pos runs

theorem Hw.pswEval_takes (runs : (h.chan c).malotRuns = true) : (h.pswEval c).Takes h c (h.evaluated c) := by
  rw [Hw.pswEval_eq runs]
  exact Hw.pswTake_takes (Chan.malotRuns_parts runs).1

theorem Hw.pswEval_q (runs : (h.chan c).malotRuns = true) (exer : (h.chan c).psw.cmd = 4 → (h.evaluated c).cmd = 4) :
    ((h.pswEval c).chan c).q = (h.chan c).q := by
  rw [Hw.pswEval_eq runs]
  exact Hw.pswTake_q (Chan.malotRuns_parts runs).1 exer

/-- What an evaluation leaves stands when the records are shown. -/
theorem Hw.Takes.settled {t : Hw} (takes : t.Takes h c p) (h0 : Hw) : (t.settle h0 [c]).Takes h c p := by
  obtain ⟨here, psw, flag, moved⟩ := takes
  have reg : (t.settle h0 [c]).chReg c 0x7008 = t.chReg c 0x7008 := by simp [Hw.chReg, Chan.reg]
  refine ⟨(t.settle_local h0 c).trans here, by rw [Hw.settle_chan_psw, psw], fun b low on => by rw [reg]; exact flag b low on, fun m => ?_⟩
  rw [reg, Hw.settle_chan_ctr]
  exact moved m

/-- Protection with another state in it, evaluated: what it starts from is unchanged but for that state. -/
theorem Hw.pswSet_evaluated (h : Hw) (c : ChanId) (p : Psw) :
    (h.pswSet c p).evaluated c = p.evaluate (h.chan c).pswCfg ((h.pswSet c p).chan c).bkwClean h.now := by
  rw [Hw.evaluated, Hw.pswSet_chan]
  rfl

theorem Hw.pswSet_runs (runs : (h.chan c).malotRuns = true) (p : Psw) : ((h.pswSet c p).chan c).malotRuns = true := by
  rw [Hw.pswSet_chan]
  exact runs

end

/-! ## The state machine evaluates, and its timers end -/

section
variable {s : State} {c : ChanId}

theorem pswEvaluate_shows {P : Hw → Prop} (works : s.hw.works = true) (runs : (s.hw.chan c).malotRuns = true)
    (shows : ∀ t, Hw.Takes t s.hw c (s.hw.evaluated c) → P t) : Completes (.pswEvaluate c) s P :=
  .byOnActiveW c (·.pswEval c) rfl works (Chan.malotRuns_parts runs).1 (shows _ ((Hw.pswEval_takes runs).settled s.hw))

/-- What an evaluation leads to, on the channel. -/
def Hw.Leads (t h : Hw) (c : ChanId) (st : PswState) (a : Path) : Prop :=
  (t.chan c).psw.st = st ∧ (t.chan c).psw.active = a ∧ t.Local h c
  ∧ (a ≠ (h.chan c).psw.active → bitOf (t.chReg c 0x7008) 15 = true
    ∧ tget 0 (t.chan c).ctr (ctrKey 0x12 12) = min (2 ^ 48 - 1) (tget 0 (h.chan c).ctr (ctrKey 0x12 12) + 1))

theorem pswEvaluate_leads (works : s.hw.works = true) (runs : (s.hw.chan c).malotRuns = true) {st : PswState} {a : Path}
    (is : (s.hw.evaluated c).st = st ∧ (s.hw.evaluated c).active = a) : Completes (.pswEvaluate c) s (Hw.Leads · s.hw c st a) := by
  refine pswEvaluate_shows works runs fun t takes => ?_
  obtain ⟨here, psw, -, moved⟩ := takes
  refine ⟨by rw [psw, is.1], by rw [psw, is.2], here, fun other => moved ?_⟩
  rwa [is.2]

/-- WTR_EXPIRE evaluates with WTR ended. -/
theorem Hw.wtrEnd_eq {h : Hw} (runs : (h.chan c).malotRuns = true) (wtr : (h.chan c).psw.wtr = true) :
    h.wtrEnd c = (h.pswSet c { (h.chan c).psw with wtr := false }).pswEval c := if_pos (by rw [runs, wtr]; rfl)

/-- EXERCISE_END takes the exercise's outcome, and evaluates. -/
theorem Hw.exerEnd_eq {h : Hw} (runs : (h.chan c).malotRuns = true) (cmd : (h.chan c).psw.cmd = 4) :
    h.exerEnd c = (h.pswTake c { (h.chan c).psw with cmd := 0, exerOk := (h.chan c).psw.exerSeen }).pswEval c := if_pos (by rw [runs, cmd]; rfl)

theorem besideQueue_mlt (c d : ChanId) : BesideQueue (fun h => (h.chan d).mlt) (.chan c) :=
  ⟨fun h _ => by simp only [Hw.onQueue, Hw.onChan_chan]; split <;> [(subst_vars; rfl); rfl], fun _ _ => rfl, by simp, fun _ => rfl, by simp⟩

/-- The exercise's command completes with its outcome, and EXER_DONE is told. -/
theorem Hw.exerDone_shows {h : Hw} {x : Cmd} {p : Psw} (runs : (h.chan c).malotRuns = true) (cmd : (h.chan c).psw.cmd = 4) (ends : p.cmd ≠ 4)
    (stays : p.active = (h.chan c).psw.active) (run : (h.chan c).q.run = [x]) (op : x.op = 0x40) (held : x.held = true) (own : x.parent = none)
    (kept : x.dropped = false) :
    ((h.pswTake c p).chan c).malotRuns = true ∧ ((h.pswTake c p).chan c).pswCfg = (h.chan c).pswCfg
    ∧ ((h.pswTake c p).chan c).q = ({ (h.chan c).q with run := [] } : CmdQ).onBank x.by_ (fun b =>
        { b with cpl := b.cpl ++ [cplWord 0x40 x.tag stDone c.val 0 (b2n p.exerOk)] })
    ∧ bitOf ((h.pswTake c p).chReg c 0x7008) 18 = true := by
  have is : h.pswTake c p = ((h.pswSet c p).evPsw c 0x00040000).finish (.chan c) isExercise stDone 0 (b2n p.exerOk) := by
    rw [Hw.pswTake_eq, if_pos stays]
    exact if_pos ⟨cmd, ends⟩
  obtain ⟨active, running, free⟩ := Chan.malotRuns_parts runs
  have raises : ((h.pswSet c p).chan c).raises = true := raises_of_active (by rw [Hw.pswSet_chan]; exact active)
  have st : ((h.pswTake c p).chan c).st = (h.chan c).st := by
    rw [is]
    exact ((besideQueue_st c c).finish _ _ _ _ _).trans (by simp [Hw.evPsw, Hw.pswSet])
  have mlt : ((h.pswTake c p).chan c).mlt = (h.chan c).mlt := by
    rw [is]
    exact ((besideQueue_mlt c c).finish _ _ _ _ _).trans (by simp [Hw.evPsw, Hw.pswSet])
  have flt : ((h.pswTake c p).chan c).flt = (h.chan c).flt := by
    rw [is]
    exact ((besideQueue_flt c c).finish _ _ _ _ _).trans (by simp [Hw.evPsw, Hw.pswSet])
  have cfg : ((h.pswTake c p).chan c).reg 0x7000 = (h.chan c).reg 0x7000 := by
    rw [is]
    refine ((besideQueue_reg c (o := 0x7000) (.inr (by decide))).finish _ _ _ _ _).trans ?_
    rw [Hw.evPsw, Hw.chEvent_chReg raises, if_neg (by decide), Hw.pswSet_chReg]
    rfl
  refine ⟨?_, by rw [Chan.pswCfg, cfg, Chan.pswCfg], ?_⟩
  · rw [← runs, Chan.malotRuns, Chan.isActive, Chan.quarantined, st, mlt, flt, Chan.malotRuns, Chan.isActive, Chan.quarantined]
  rw [is]
  refine ⟨?_, ?_⟩
  · rw [Hw.finish_only_q (x := x) _ _ _ (by simp [Hw.evPsw, Hw.pswSet, run]) held (by simp [isExercise, op]) own kept, op]
    simp [Hw.evPsw, Hw.pswSet]
  · refine (congrArg (bitOf · 18) ((besideQueue_reg c (o := 0x7008) (.inr (by decide))).finish _ _ _ _ _)).trans ?_
    exact Hw.evPsw_flag raises (by decide) (by decide)

end

/-- Settles O45: the flags of an evaluation are settled by the highest request, and what stands after them is the state; a change of
ACTIVE is what `switched` tells. -/
theorem protectionEvaluates : Obligations.ProtectionEvaluates := by
  refine ⟨?_, ?_⟩
  · intro s c works runs p leads
    refine ⟨fun cmd => ?_, fun off => ⟨fun req cmd => ?_, fun cmd req => ?_, fun cmd sfP sfW => ?_, fun cmd sfP sfW sdW => ?_,
      fun cmd sfW sfP sdW wtr dnr st => ?_⟩, fun on valid cmd sfW sfP sdW wtr dnr st code => ?_⟩
    · obtain ⟨st, active, -⟩ := Psw.evaluate_lo (g := (s.hw.chan c).pswCfg) (clean := (s.hw.chan c).bkwClean) (now := s.hw.now) cmd
      exact pswEvaluate_leads works runs ⟨st, active⟩
    · exact pswEvaluate_leads works runs (Psw.evaluate_sfP off req cmd)
    · obtain ⟨st, active, -⟩ := Psw.evaluate_fs (clean := (s.hw.chan c).bkwClean) (now := s.hw.now) off cmd req
      exact pswEvaluate_leads works runs ⟨st, active⟩
    · exact pswEvaluate_leads works runs (Psw.evaluate_sfW off cmd sfP sfW)
    · exact pswEvaluate_leads works runs (Psw.evaluate_sdW off cmd sfP sfW sdW)
    · obtain ⟨is, active, -⟩ := Psw.evaluate_nr (clean := (s.hw.chan c).bkwClean) (now := s.hw.now) off ⟨sfW, sfP, sdW⟩ cmd wtr dnr
        (ne_of_eq_of_ne st (by decide)) (ne_of_eq_of_ne st (by decide))
      exact pswEvaluate_leads works runs ⟨is, active⟩
    · obtain ⟨is, active, -⟩ := Psw.evaluate_rr (clean := (s.hw.chan c).bkwClean) (now := s.hw.now) on valid code ⟨sfW, sfP, sdW⟩ cmd wtr dnr st
      exact pswEvaluate_leads works runs ⟨is, active⟩
  · intro s c works runs off p sfW sfP sdW dnr
    have clear : p.Clear := ⟨sfW, sfP, sdW⟩
    have active := (Chan.malotRuns_parts runs).1
    refine ⟨fun st wtr cmd => ?_, fun x st wtr cmd run op held own kept => ?_, fun st wtr cmd revert timed => ?_, fun st wtr cmd stay => ?_⟩
    · refine .byOnActiveW c (·.wtrEnd c) rfl works active ?_
      rw [Hw.wtrEnd_eq runs wtr]
      have takes := (Hw.pswEval_takes (Hw.pswSet_runs runs { p with wtr := false })).settled s.hw
      have end_ := Psw.evaluate_nr (p := { p with wtr := false }) (clean := ((s.hw.pswSet c { p with wtr := false }).chan c).bkwClean) (now := s.hw.now)
        off ⟨sfW, sfP, sdW⟩ cmd rfl dnr (ne_of_eq_of_ne st (by decide)) (ne_of_eq_of_ne st (by decide))
      rw [← Hw.pswSet_evaluated] at end_
      obtain ⟨is, at_, -, -, ended⟩ := end_
      exact ⟨by rw [takes.psw, is], by rw [takes.psw, at_], by rw [takes.psw, ended], takes.here.trans (s.hw.pswSet_local c _)⟩
    · refine .byOnActiveW c (·.exerEnd c) rfl works active ?_
      rw [Hw.exerEnd_eq runs cmd]
      let ends : Psw := { p with cmd := 0, exerOk := p.exerSeen }
      have ended : ends.cmd ≠ 4 := ne_of_eq_of_ne (b := (0 : BitVec 3)) rfl (by decide)
      have taken := Hw.pswTake_takes (p := ends) active
      obtain ⟨runs', cfg, q, told⟩ := Hw.exerDone_shows (p := ends) runs cmd ended rfl run op held own kept
      generalize s.hw.pswTake c ends = u at *
      have is := Psw.evaluate_nr (p := ends) (g := (u.chan c).pswCfg) (clean := (u.chan c).bkwClean) (now := u.now) (by rw [cfg]; exact off) ⟨sfW, sfP, sdW⟩ rfl wtr dnr
        (ne_of_eq_of_ne st (by decide)) (ne_of_eq_of_ne st (by decide))
      have evaluated : ends.evaluate (u.chan c).pswCfg (u.chan c).bkwClean u.now = u.evaluated c := by rw [Hw.evaluated, taken.psw]
      rw [evaluated] at is
      obtain ⟨nr, -, none_, ok, -⟩ := is
      have takes := (Hw.pswEval_takes runs').settled s.hw
      have queue : (((u.pswEval c).settle s.hw [c]).chan c).q = (u.chan c).q := by
        rw [← Hw.pswEval_q runs' fun no => absurd ((congrArg Psw.cmd taken.psw).symm.trans no) ended]
        simp
      refine ⟨by rw [takes.psw, nr], by rw [takes.psw, none_], by rw [takes.psw, ok], ?_, ?_, takes.flag 18 (by decide) told, takes.here.trans taken.here⟩
      · rw [queue, q, CmdQ.onBank_run]
      · rw [queue, q]
        cases x.by_ <;> rfl
    · refine pswEvaluate_shows works runs fun t takes => ?_
      obtain ⟨ended, -⟩ := Psw.evaluate_ended (clean := (s.hw.chan c).bkwClean) (now := s.hw.now) off clear cmd wtr st
      obtain ⟨is, at_, on, till, -⟩ := ended revert timed
      rw [takes.psw]
      exact ⟨is, at_, on, till, takes.here⟩
    · refine pswEvaluate_shows works runs fun t takes => ?_
      obtain ⟨-, ended⟩ := Psw.evaluate_ended (clean := (s.hw.chan c).bkwClean) (now := s.hw.now) off clear cmd wtr st
      obtain ⟨is, at_, on, -⟩ := ended stay
      rw [takes.psw]
      exact ⟨is, at_, on, takes.here⟩

/-! ## Operator commands (R280, R281) -/

section
variable {s : State} {h : Hw} {c : ChanId} {ops : List Nat} {sel : Cmd → Bool} {x : Cmd}

/-- A PSW_CMD that a running Malot carries out. -/
theorem Completes.byPsw {i : Instr} {P : Hw → Prop} (f : Cmd → Hw → Hw) (exec_ : exec i s = onPsw s c ops f) (runs : s.hw.Runs c (pswSel ops) x)
    (malot : (s.hw.chan c).malotRuns = true) (shows : P ((f x (s.hw.taken c (pswSel ops))).settle s.hw [c])) : Completes i s P := by
  refine .byWatched c _ exec_ runs.works ?_
  rwa [if_pos malot, Hw.carry_chan runs.next]

theorem Hw.Runs.malot (runs : h.Runs c sel x) (free : (h.chan c).quarantined = false) : (h.chan c).malotRuns = true := by
  have executes := runs.executes
  rw [Hw.executes] at executes
  rw [Chan.malotRuns, executes, free]
  rfl

theorem BesideQueue.map {γ δ : Type} {p : Hw → γ} {port : Port} (k : BesideQueue p port) (f : γ → δ) : BesideQueue (fun h => f (p h)) port :=
  ⟨fun h g => congrArg f (k.own h g), fun h g => congrArg f (k.device h g), fun h => congrArg f (k.levels h), fun h => congrArg f (k.kbuf h),
    fun h g src => congrArg f (k.notify h g src)⟩

theorem BesideQueue.pair {γ δ : Type} {p : Hw → γ} {q : Hw → δ} {port : Port} (k : BesideQueue p port) (l : BesideQueue q port) :
    BesideQueue (fun h => (p h, q h)) port :=
  ⟨fun h g => Prod.ext (k.own h g) (l.own h g), fun h g => Prod.ext (k.device h g) (l.device h g), fun h => Prod.ext (k.levels h) (l.levels h),
    fun h => Prod.ext (k.kbuf h) (l.kbuf h), fun h g src => Prod.ext (k.notify h g src) (l.notify h g src)⟩

theorem besideQueue_pswCfg (c : ChanId) : BesideQueue (fun h => (h.chan c).pswCfg) (.chan c) :=
  (besideQueue_reg c (o := 0x7000) (.inr (by decide))).map fun w => ({ one := bitOf w 31, revert := bitOf w 30, wtrTime := min 720 (fieldOf w 23 14) } : PswCfg)

theorem besideQueue_malotRuns (c : ChanId) : BesideQueue (fun h => (h.chan c).malotRuns) (.chan c) :=
  ((besideQueue_st c c).pair ((besideQueue_mlt c c).pair (besideQueue_flt c c))).map fun e =>
    decide (e.1 = .active) && e.2.1.run && !(e.2.2.hQuar || e.2.2.underD)

/-- What a command reads of the channel's protection stands while it is taken. -/
theorem Hw.taken_psw (h : Hw) (c : ChanId) (sel : Cmd → Bool) :
    ((h.taken c sel).chan c).psw = (h.chan c).psw ∧ ((h.taken c sel).chan c).pswCfg = (h.chan c).pswCfg
    ∧ ((h.taken c sel).chan c).malotRuns = (h.chan c).malotRuns :=
  ⟨(besideQueue_psw c c).taken h sel, (besideQueue_pswCfg c).taken h sel, (besideQueue_malotRuns c).taken h sel⟩

/-- A refused command leaves the channel's protection. -/
theorem Hw.refuse_psw (own : x.parent = none) (kept : x.dropped = false) (r : Nat) (h0 : Hw) :
    (((h.taken c sel).refuse (.chan c) x r).settle h0 [c]).Completed h c sel x stRefused r 0
    ∧ ((((h.taken c sel).refuse (.chan c) x r).settle h0 [c]).chan c).psw = (h.chan c).psw := by
  refine ⟨(h.refuse_taken own kept r h0).1, ?_⟩
  rw [Hw.settle_chan_psw]
  exact ((besideQueue_psw c c).bank.complete _ x _ _ _).trans ((besideQueue_psw c c).taken h sel)

/-- An accepted command completes with EXER_OK once the state machine has evaluated the protection state it leaves. -/
theorem Hw.accepted_shows (own : x.parent = none) (kept : x.dropped = false) (malot : (h.chan c).malotRuns = true) (p : Psw) (other : p.cmd ≠ 4)
    (h0 : Hw) : ∃ clean,
      (((((h.taken c sel).pswSet c p).pswEval c).pswDone c x).settle h0 [c]).Completed h c sel x stDone 0
        (b2n (p.evaluate (h.chan c).pswCfg clean (h.taken c sel).now).exerOk)
      ∧ ((((((h.taken c sel).pswSet c p).pswEval c).pswDone c x).settle h0 [c]).chan c).psw
        = p.evaluate (h.chan c).pswCfg clean (h.taken c sel).now := by
  obtain ⟨-, cfg, runs⟩ := h.taken_psw c sel
  have malot' := Hw.pswSet_runs (runs.trans malot) p
  have same : (((h.taken c sel).pswSet c p).chan c).psw.cmd ≠ 4 := by rw [Hw.pswSet_chan]; exact other
  have takes := Hw.pswEval_takes malot'
  have q := Hw.pswEval_q malot' fun exer => absurd exer same
  rw [Hw.pswSet_evaluated, cfg] at takes
  rw [Hw.pswSet_chan] at q
  refine ⟨(((h.taken c sel).pswSet c p).chan c).bkwClean, ?_, ?_⟩
  · rw [Hw.pswDone, Hw.done, takes.psw]
    exact (Hw.taken_completes own kept q (takes.here.trans (Hw.pswSet_local _ c p)) _ _ _).settled h0
  · rw [Hw.settle_chan_psw]
    exact ((besideQueue_psw c c).bank.complete _ x _ _ _).trans takes.psw

/-- An operator command takes the place of the one in force. -/
theorem Hw.pswPut_set (other : (h.chan c).psw.cmd ≠ 4) {v : BitVec 3} : h.pswPut c v = h.pswSet c { (h.chan c).psw with cmd := v } := by
  have kept : (if (h.chan c).psw.cmd = 4 then false else (h.chan c).psw.exerOk) = (h.chan c).psw.exerOk := if_neg other
  rw [Hw.pswPut]
  dsimp only
  rw [Hw.pswTake_eq, if_pos rfl, kept]
  exact if_neg fun ends => other ends.1

/-- A command that is accepted with no exercise in force. -/
theorem Hw.pswAccept_shows {v : BitVec 3} (own : x.parent = none) (kept : x.dropped = false) (malot : (h.chan c).malotRuns = true)
    (other : (h.chan c).psw.cmd ≠ 4) (exer : v ≠ 4) (h0 : Hw) : ∃ clean,
      (((h.taken c sel).pswAccept c x v).settle h0 [c]).Completed h c sel x stDone 0
        (b2n (({ (h.chan c).psw with cmd := v } : Psw).evaluate (h.chan c).pswCfg clean (h.taken c sel).now).exerOk)
      ∧ ((((h.taken c sel).pswAccept c x v).settle h0 [c]).chan c).psw
        = ({ (h.chan c).psw with cmd := v } : Psw).evaluate (h.chan c).pswCfg clean (h.taken c sel).now := by
  obtain ⟨psw, -⟩ := h.taken_psw c sel
  have is : (h.taken c sel).pswAccept c x v = (((h.taken c sel).pswSet c { (h.chan c).psw with cmd := v }).pswEval c).pswDone c x := by
    rw [Hw.pswAccept, Hw.pswPut_set (by rw [psw]; exact other), psw]
  rw [is]
  exact Hw.accepted_shows own kept malot _ exer h0

/-- CLEAR: the state it is given in alone decides what it makes of WTR and DNR (R279). -/
theorem Psw.cleared_flags {p : Psw} (st : p.st = .fs ∨ p.st = .ms) (wtr : p.wtr = false) (revert : Bool) :
    (({ p with cmd := 0 } : Psw).cleared revert).wtr = false ∧ (({ p with cmd := 0 } : Psw).cleared revert).dnr = !revert := by
  rcases st with is | is <;> simp [Psw.cleared, is, wtr]

/-- In FS and MS no failure's end and no DNR holds the state. -/
theorem Psw.commanded {p : Psw} (st : p.st = .fs ∨ p.st = .ms) : p.st ≠ .sfW ∧ p.st ≠ .sdW ∧ p.st ≠ .dnr := by
  rcases st with is | is <;> rw [is] <;> decide

theorem Psw.cleared_command (p : Psw) (revert : Bool) :
    (({ p with cmd := 0 } : Psw).cleared revert).cmd = 0 ∧ (({ p with cmd := 0 } : Psw).cleared revert).exerOk = p.exerOk := ⟨rfl, rfl⟩

theorem Hw.onChan_onChan (h : Hw) (c : ChanId) (f g : Chan → Chan) : (h.onChan c f).onChan c g = h.onChan c fun x => g (f x) := by
  simp [Hw.onChan, Hw.setChan, Hw.chan, Vector.set_set]

/-- CLEAR completes once the state machine has evaluated what it leaves. -/
theorem Hw.pswClear_shows (own : x.parent = none) (kept : x.dropped = false) (malot : (h.chan c).malotRuns = true)
    (other : (h.chan c).psw.cmd ≠ 4) (h0 : Hw) : ∃ clean,
      let p := ({ (h.chan c).psw with cmd := 0 } : Psw).cleared (h.chan c).pswCfg.revert
      let t := ((((((h.taken c sel).pswPut c 0).onChan c fun y => { y with psw := y.psw.cleared y.pswCfg.revert }).pswEval c).pswDone c x).settle h0 [c])
      t.Completed h c sel x stDone 0 (b2n (p.evaluate (h.chan c).pswCfg clean (h.taken c sel).now).exerOk)
      ∧ (t.chan c).psw = p.evaluate (h.chan c).pswCfg clean (h.taken c sel).now := by
  obtain ⟨psw, cfg, -⟩ := h.taken_psw c sel
  have is : ((h.taken c sel).pswPut c 0).onChan c (fun y => { y with psw := y.psw.cleared y.pswCfg.revert })
      = (h.taken c sel).pswSet c (({ (h.chan c).psw with cmd := 0 } : Psw).cleared (h.chan c).pswCfg.revert) := by
    rw [Hw.pswPut_set (by rw [psw]; exact other), psw, ← cfg]
    exact Hw.onChan_onChan _ c _ _
  rw [is]
  exact Hw.accepted_shows own kept malot _ (ne_of_eq_of_ne (Psw.cleared_command _ _).1 (by decide)) h0

/-- An exercise accepted in NR or DNR waits for its end. -/
theorem Hw.pswExercise_shows (malot : (h.chan c).malotRuns = true) (off : (h.chan c).pswCfg.one = false) (clear : (h.chan c).psw.Clear)
    (wtr : (h.chan c).psw.wtr = false) (st : (h.chan c).psw.st = .nr ∨ (h.chan c).psw.st = .dnr) (h0 : Hw) :
    (((h.taken c sel).pswExercise c x).settle h0 [c]).Waits h c sel x
    ∧ ((((h.taken c sel).pswExercise c x).settle h0 [c]).chan c).psw.st = .exer
    ∧ ((((h.taken c sel).pswExercise c x).settle h0 [c]).chan c).psw.active = (h.chan c).psw.active
    ∧ ((((h.taken c sel).pswExercise c x).settle h0 [c]).chan c).psw.cmd = 4
    ∧ ((((h.taken c sel).pswExercise c x).settle h0 [c]).chan c).psw.exerOk = false
    ∧ ((((h.taken c sel).pswExercise c x).settle h0 [c]).chan c).psw.exerSeen = (h.chan c).psw.rxValid := by
  let p : Psw := { (h.chan c).psw with cmd := 4, exerOk := false, exerSeen := (h.chan c).psw.rxValid }
  have psw : (((h.taken c sel).hold (.chan c) x).chan c).psw = (h.chan c).psw := ((besideQueue_psw c c).hold _ x).trans ((besideQueue_psw c c).taken h sel)
  have cfg : (((h.taken c sel).hold (.chan c) x).chan c).pswCfg = (h.chan c).pswCfg :=
    ((besideQueue_pswCfg c).hold _ x).trans ((besideQueue_pswCfg c).taken h sel)
  have runs : (((h.taken c sel).hold (.chan c) x).chan c).malotRuns = true :=
    (((besideQueue_malotRuns c).hold _ x).trans ((besideQueue_malotRuns c).taken h sel)).trans malot
  have waits : ((h.taken c sel).hold (.chan c) x).Waits h c sel x := Hw.taken_waits rfl (.refl _ c)
  have is : (h.taken c sel).pswExercise c x = (((h.taken c sel).hold (.chan c) x).pswSet c p).pswEval c := by
    refine congrArg (Hw.pswEval · c) (Hw.onChan_congr ?_)
    rw [psw, cfg, off]
    rfl
  rw [is]
  generalize (h.taken c sel).hold (.chan c) x = u at *
  have takes := Hw.pswEval_takes (Hw.pswSet_runs runs p)
  obtain ⟨st', active, cmd, ok, seen⟩ := Psw.evaluate_exer (p := p) (g := (u.chan c).pswCfg) (clean := ((u.pswSet c p).chan c).bkwClean) (now := u.now)
    (by rw [cfg]; exact off) ⟨clear.sfW, clear.sfP, clear.sdW⟩ rfl wtr st
  have q := Hw.pswEval_q (Hw.pswSet_runs runs p) fun _ => by rw [Hw.pswSet_evaluated]; exact cmd
  rw [Hw.pswSet_chan] at q
  have shown := (takes.settled h0).psw
  rw [Hw.pswSet_evaluated] at shown
  rw [shown]
  exact ⟨(waits.after q (takes.here.trans (u.pswSet_local c p))).settled h0, st', active, cmd, ok, seen⟩

end

/-- Settles O46: an accepted command is in force when the state machine evaluates, and nothing local presses harder. -/
theorem protectionCommanded : Obligations.ProtectionCommanded := by
  intro s c x free other p quiet_ taken refused
  refine ⟨fun runs => ?_, fun runs => ⟨fun lo sfP quiet => ?_, fun held => ?_⟩, fun runs => ⟨fun ok quiet => ?_, fun held => ?_⟩,
    fun runs => ⟨fun st quiet wtr => ?_, fun nr dnr => ?_⟩, fun runs st quiet wtr => ⟨fun revert => ?_, fun stay => ?_⟩, fun runs => ?_⟩
  all_goals have malot := runs.malot free
  · obtain ⟨clean, done, is⟩ := Hw.pswAccept_shows (sel := pswSel [1]) runs.own runs.kept malot other (v := 1) (by decide) s.hw
    obtain ⟨st, active, cmd, ok⟩ := Psw.evaluate_lo (p := { p with cmd := 1 }) (g := (s.hw.chan c).pswCfg) (clean := clean)
      (now := (s.hw.taken c (pswSel [1])).now) rfl
    refine .byPsw _ rfl runs malot ⟨?_, ?_⟩
    · rw [← ok]; exact done
    · rw [is]; exact ⟨st, active, cmd⟩
  · obtain ⟨off, sfW, sfP', sdW⟩ := quiet
    obtain ⟨psw, -⟩ := s.hw.taken_psw c (pswSel [2])
    obtain ⟨clean, done, is⟩ := Hw.pswAccept_shows (sel := pswSel [2]) runs.own runs.kept malot other (v := 2) (by decide) s.hw
    obtain ⟨st, active, cmd, ok⟩ := Psw.evaluate_fs (p := { p with cmd := 2 }) (clean := clean) (now := (s.hw.taken c (pswSel [2])).now) off rfl sfP'
    refine .byPsw _ rfl runs malot ?_
    rw [if_neg (by rw [psw]; exact not_or.2 ⟨lo, sfP⟩)]
    exact ⟨by rw [← ok]; exact done, by rw [is]; exact ⟨st, active, cmd⟩⟩
  · obtain ⟨psw, -⟩ := s.hw.taken_psw c (pswSel [2])
    refine .byPsw _ rfl runs malot ?_
    rw [if_pos (by rw [psw]; exact held)]
    exact Hw.refuse_psw runs.own runs.kept _ s.hw
  · obtain ⟨off, sfW, sfP, sdW⟩ := quiet
    obtain ⟨psw, -⟩ := s.hw.taken_psw c (pswSel [3])
    obtain ⟨clean, done, is⟩ := Hw.pswAccept_shows (sel := pswSel [3]) runs.own runs.kept malot other (v := 3) (by decide) s.hw
    obtain ⟨st, active, cmd, ok'⟩ := Psw.evaluate_ms (p := { p with cmd := 3 }) (clean := clean) (now := (s.hw.taken c (pswSel [3])).now) off ⟨sfW, sfP, sdW⟩ rfl
    refine .byPsw _ rfl runs malot ?_
    rw [if_pos (by rw [psw]; exact ok)]
    exact ⟨by rw [← ok']; exact done, by rw [is]; exact ⟨st, active, cmd⟩⟩
  · obtain ⟨psw, -⟩ := s.hw.taken_psw c (pswSel [3])
    refine .byPsw _ rfl runs malot ?_
    rw [if_neg (by rw [psw]; exact Bool.eq_false_iff.1 held)]
    exact Hw.refuse_psw runs.own runs.kept _ s.hw
  · obtain ⟨psw, -⟩ := s.hw.taken_psw c (pswSel [4])
    refine .byPsw _ rfl runs malot ?_
    rw [if_pos (by rw [psw]; exact st)]
    exact Hw.pswExercise_shows malot quiet.1 ⟨quiet.2.1, quiet.2.2.1, quiet.2.2.2⟩ wtr st s.hw
  · obtain ⟨psw, -⟩ := s.hw.taken_psw c (pswSel [4])
    refine .byPsw _ rfl runs malot ?_
    rw [if_neg (by rw [psw]; exact not_or.2 ⟨nr, dnr⟩)]
    exact Hw.refuse_psw runs.own runs.kept _ s.hw
  · obtain ⟨clean, done, is⟩ := Hw.pswClear_shows (sel := pswSel [5]) runs.own runs.kept malot other s.hw
    obtain ⟨wtr', dnr'⟩ := Psw.cleared_flags st wtr (s.hw.chan c).pswCfg.revert
    have at_ := Psw.evaluate_nr (p := ({ p with cmd := 0 } : Psw).cleared (s.hw.chan c).pswCfg.revert) (clean := clean) (now := (s.hw.taken c (pswSel [5])).now)
      quiet.1 ⟨quiet.2.1, quiet.2.2.1, quiet.2.2.2⟩ rfl wtr' (by rw [dnr', revert]; rfl) (Psw.commanded st).1 (Psw.commanded st).2.1
    obtain ⟨nr, active, cmd, ok, -⟩ := at_
    exact .byPsw _ rfl runs malot ⟨by rw [← ok.trans (p.cleared_command _).2]; exact done,
      by rw [is]; exact ⟨nr, active, cmd⟩⟩
  · obtain ⟨clean, done, is⟩ := Hw.pswClear_shows (sel := pswSel [5]) runs.own runs.kept malot other s.hw
    obtain ⟨wtr', dnr'⟩ := Psw.cleared_flags st wtr (s.hw.chan c).pswCfg.revert
    have at_ := Psw.evaluate_dnr (p := ({ p with cmd := 0 } : Psw).cleared (s.hw.chan c).pswCfg.revert) (clean := clean) (now := (s.hw.taken c (pswSel [5])).now)
      quiet.1 ⟨quiet.2.1, quiet.2.2.1, quiet.2.2.2⟩ rfl wtr' (by rw [dnr', stay]; rfl) (Psw.commanded st).1 (Psw.commanded st).2.1 (Psw.commanded st).2.2
    obtain ⟨dnr, active, cmd, ok, on⟩ := at_
    exact .byPsw _ rfl runs malot ⟨by rw [← ok.trans (p.cleared_command _).2]; exact done,
      by rw [is]; exact ⟨dnr, active, cmd, on⟩⟩
  · exact .byPsw _ rfl runs malot (Hw.refuse_psw runs.own runs.kept _ s.hw)

end Sys2Proof.Machine
end

section
/-!
PROOF. The debug port, JTAG and the bus matrix (O52).
-/
namespace Sys2Proof.Machine

section
variable {s : State} {h : Hw} {m : Master}

/-! ## The debug port and JTAG -/

theorem Hw.dbgConnect_on (enabled : h.debugEnabled = true) (off : h.dev.link.debugOn = false) :
    h.dbgConnect = (h.onLink fun l => { l with debugOn := true }).devEvent 0x5020 41 0x00200000 := if_pos (by rw [enabled, off]; rfl)

theorem Hw.dbgConnect_off (disabled : h.debugEnabled = false) : h.dbgConnect = h := if_neg (by simp [disabled])

theorem Hw.dbgDisconnect_on (on : h.dev.link.debugOn = true) :
    h.dbgDisconnect none = (h.onLink fun l => { l with debugOn := false }).devEvent 0x5020 41 0x00200000 := if_neg (by simp [on])

theorem Hw.dbgDisconnect_burst (on : h.dev.link.debugOn = true) (x : Burst) :
    h.dbgDisconnect (some x) = ((h.onLink fun l => { l with debugOn := false }).abortBurst 8 (some x)).setDevReg 0x5020
      (((h.onLink fun l => { l with debugOn := false }).abortBurst 8 (some x)).devReg 0x5020 ||| 0x00200000) := if_neg (by simp [on])

/-- A change of the link that an event reports. -/
theorem Hw.onLink_event_is (h : Hw) (f : Link → Link) (off d : Nat) (fl : Word) :
    ((h.onLink f).devEvent off d fl).is ((h.onLink f).setDevReg off (evWord (h.devReg off) fl)) := by
  rw [Hw.is, Hw.quiet_devEvent, Hw.quiet_setDevReg]
  rfl

theorem Hw.onLink_event_noMsg (h : Hw) (f : Link → Link) (off d : Nat) (fl : Word) : ((h.onLink f).devEvent off d fl).noMsg h := by
  simp [Hw.noMsg, Hw.onLink]

/-- The registers that hold where an ended burst was and how far. -/
def Hw.burstNoted (h : Hw) (w a : Word) : Hw := (h.setDevReg 0x5018 w).setDevReg 0x501C a

/-- DEV.BMX_ABRT after a burst of a master has ended. -/
def Hw.burstWord (h : Hw) (mid : Nat) (b : Burst) : Word :=
  BitVec.ofNat 32 ((fieldOf (h.devReg 0x5018) 31 24 + 1) % 256 * 2 ^ 24 + mid * 2 ^ 20 + min 65535 b.beats)

theorem Hw.abortBurst_some (h : Hw) (mid : Nat) (b : Burst) : h.abortBurst mid (some b)
    = ((h.burstNoted (h.burstWord mid b) b.addr).devEvent 0x5020 41 0x00800000).raiseSpine 19 clsN 0x61 (mid * 2 ^ 20 + min 255 b.beats) := rfl

theorem Hw.burstTold_shows (free : h.inMw = false) (w a : Word) (n : Nat) :
    (((h.burstNoted w a).devEvent 0x5020 41 0x00800000).raiseSpine 19 clsN 0x61 n).devReg 0x501C = a
    ∧ (((h.burstNoted w a).devEvent 0x5020 41 0x00800000).raiseSpine 19 clsN 0x61 n).devReg 0x5020 = evWord (h.devReg 0x5020) 0x00800000
    ∧ (((h.burstNoted w a).devEvent 0x5020 41 0x00800000).raiseSpine 19 clsN 0x61 n).tookMsg h (mkMsg 63 19 clsN 0x61 n) := by
  have free' : ((h.burstNoted w a).devEvent 0x5020 41 0x00800000).inMw = false := by simpa [Hw.inMw, Hw.burstNoted] using free
  refine ⟨by simp [Hw.burstNoted], by simp [Hw.burstNoted], ?_⟩
  rw [Hw.tookMsg, Hw.raiseSpine_slots free']
  simp [Hw.burstNoted]

theorem Hw.burstTold_keeps (h : Hw) (w a : Word) (n : Nat) :
    (((h.burstNoted w a).devEvent 0x5020 41 0x00800000).raiseSpine 19 clsN 0x61 n).dev.link = h.dev.link
    ∧ ∀ c, (((h.burstNoted w a).devEvent 0x5020 41 0x00800000).raiseSpine 19 clsN 0x61 n).chan c = h.chan c :=
  ⟨by simp [Hw.burstNoted], fun c => by simp [Hw.burstNoted]⟩

/-- A burst that ends with its master: where it was and how far, in DEV.BMX_ABRT and DEV.BMX_ABRT_ADDR, with its message (R438, R439). -/
theorem Hw.abortBurst_shows (free : h.inMw = false) (mid : Nat) (b : Burst) :
    (h.abortBurst mid (some b)).devReg 0x501C = b.addr ∧ (h.abortBurst mid (some b)).devReg 0x5020 = evWord (h.devReg 0x5020) 0x00800000
    ∧ (h.abortBurst mid (some b)).tookMsg h (mkMsg 63 19 clsN 0x61 (mid * 2 ^ 20 + min 255 b.beats)) := by
  rw [Hw.abortBurst_some]
  exact Hw.burstTold_shows free _ _ _

/-- What an ended burst leaves. -/
theorem Hw.abortBurst_keeps (h : Hw) (mid : Nat) (b : Burst) :
    (h.abortBurst mid (some b)).dev.link = h.dev.link ∧ ∀ c, (h.abortBurst mid (some b)).chan c = h.chan c := by
  rw [Hw.abortBurst_some]
  exact Hw.burstTold_keeps h _ _ _

theorem jtag_runs (powered : s.hw.powered = true) (op : JtagOp) (plain : ¬(s.hw.jtagActs op = .debug ∧ s.hw.dev.link.jtag ≠ .debug))
    (was : s.hw.dev.link.jtag ≠ .debug) :
    exec (.jtagInstruction op) s = .next { s with hw := s.hw.onLink fun l => { l with jtag := s.hw.jtagActs op } } := by
  refine next_congr ?_
  dsimp only
  rw [if_neg (by simp [powered]), if_neg plain, if_neg fun leaves => was leaves.1]

/-! ## The matrix -/

/-- The counters of a master ID (R437). -/
def cntRegs (mid : Nat) : List Nat := [0, 4, 8, 12].map (0x5100 + 16 * mid + ·)

theorem Hw.zeroed_devReg (o : Nat) : ∀ (l : List Nat) (h : Hw), (l.foldl (fun h k => h.setDevReg k 0) h).devReg o = if o ∈ l then 0 else h.devReg o
  | [], h => rfl
  | k :: l, h => by
    rw [List.foldl_cons, Hw.zeroed_devReg o l, Hw.setDevReg_devReg]
    by_cases here : o = k <;> simp [here]

theorem Hw.cntClear_devReg (h : Hw) (mid o : Nat) : (h.cntClear mid).devReg o = if o ∈ cntRegs mid then 0 else h.devReg o := by
  rw [← Hw.zeroed_devReg o (cntRegs mid) h]
  rfl

/-- The counters of the masters that a write of DEV.BMX_CNTCLR names are 0, and no other register changes. -/
theorem Hw.cntClears_devReg (d : Word) (o : Nat) : ∀ (l : List Nat) (h : Hw),
    (l.foldl (fun h i => if bitOf d i then h.cntClear i else h) h).devReg o
      = if ∃ i ∈ l, bitOf d i = true ∧ o ∈ cntRegs i then 0 else h.devReg o
  | [], h => by simp
  | i :: l, h => by
    rw [List.foldl_cons, Hw.cntClears_devReg d o l, apply_ite (fun u : Hw => u.devReg o), Hw.cntClear_devReg]
    by_cases on : bitOf d i = true <;> by_cases in_ : o ∈ cntRegs i <;> simp [on, in_]

theorem mem_cntRegs {i k : Nat} (mem : k ∈ [0, 4, 8, 12]) : 0x5100 + 16 * i + k ∈ cntRegs i := List.mem_map_of_mem mem

theorem cntRegs_range {i o : Nat} (low : i < 16) (mem : o ∈ cntRegs i) : 0x5100 ≤ o ∧ o < 0x5200 := by
  simp only [cntRegs, List.map_cons, List.map_nil, List.mem_cons, List.not_mem_nil, or_false] at mem
  omega

theorem bmxCntclr_shows (reach : s.hw.reachesDev m = true) (right : s.hw.lacks m .guarded = false) (d : Word) : Completes (.bmxCntclr m d) s fun t =>
    (∀ i < 16, ∀ k ∈ [0, 4, 8, 12], bitOf d i = true → t.devReg (0x5100 + 16 * i + k) = 0)
    ∧ (∀ o, o < 0x5100 ∨ 0x5200 ≤ o → t.devReg o = s.hw.devReg o) ∧ t.chans = s.hw.chans := by
  refine .byLive (fun h => cntclrWrite h m d) rfl (Hw.reachesDev_works reach) ?_
  rw [cntclrWrite, devBeat_on reach right]
  refine ⟨fun i low k mem on => ?_, fun o out => ?_, ?_⟩
  · rw [Hw.cntClears_devReg, if_pos ⟨i, List.mem_range.2 low, on, mem_cntRegs mem⟩]
  · rw [Hw.cntClears_devReg, if_neg]
    · refine Hw.bmx_devReg _ _ _ _ ?_
      cases m <;> simp only [Master.id] <;> omega
    · rintro ⟨i, mem, -, there⟩
      have := cntRegs_range (List.mem_range.1 mem) there
      omega
  · have same : ∀ (h : Hw) (i : Nat), (if bitOf d i then h.cntClear i else h).chans = h.chans := fun h i => by
      split <;> rfl
    exact (foldl_keeps _ (fun h : Hw => h.chans) same _ _).trans (Hw.chans_ext fun c => s.hw.bmx_chan _ _ c)

theorem devBeat_lacks {g : Guard} (reach : h.reachesDev m = true) (lacks : h.lacks m g = true) (off : Nat) (f : Hw → Hw) :
    devBeat h m off g f = h.guarded m (devAddr off) := by
  rw [devBeat, if_neg (by simp [reach]), if_pos lacks]

/-- What a write of DEV.BMX_REMAP makes of the hardware it reaches. -/
def Hw.remapped (h : Hw) (m : Master) (d : Word) : Hw :=
  if d &&& 1 = h.devReg 0x5014 then h.bmx m.id 0
  else if m = .isund ∧ h.dev.remapSet = false then ((h.bmx m.id 0).setDevReg 0x5014 (d &&& 1)).onDev fun x => { x with remapSet := true }
  else (h.bmx m.id 0).ignored m .cfgRej (devAddr 0x5014)

theorem exec_remapWrite (reach : s.hw.reachesDev m = true) (d : Word) : exec (.remapWrite m d) s = .next { s with hw := s.hw.remapped m d } := by
  refine (live_on (f := fun h => remapBeat h m d) (Hw.reachesDev_works reach)).trans (next_congr ?_)
  rw [remapBeat, devBeat_on reach (Hw.lacks_plain _ _), Hw.bmx_devReg_low _ _ _ (by decide), Hw.bmx_remapSet, Hw.remapped]

/-- What a write of DEV.HPT_SHARE makes of the hardware it reaches. -/
def Hw.shared (h : Hw) (m : Master) (d : Word) : Hw :=
  if d &&& 0x7FFF0FFF = h.devReg 0x5024 then h.bmx m.id 0
  else if m = .isund ∧ h.dev.shareSet = false ∧ sharesFit d = true then
    ((h.bmx m.id 0).setDevReg 0x5024 (d &&& 0x7FFF0FFF)).onDev fun x => { x with shareSet := true }
  else (h.bmx m.id 0).ignored m .cfgRej (devAddr 0x5024)

theorem exec_hptShareWrite (reach : s.hw.reachesDev m = true) (d : Word) : exec (.hptShareWrite m d) s = .next { s with hw := s.hw.shared m d } := by
  refine (live_on (f := fun h => shareBeat h m d) (Hw.reachesDev_works reach)).trans (next_congr ?_)
  rw [shareBeat, devBeat_on reach (Hw.lacks_plain _ _)]
  dsimp only
  rw [Hw.bmx_devReg_low _ _ _ (by decide), Hw.bmx_shareSet, Hw.shared]

theorem bitOf_or (w v : Word) (i : Nat) : bitOf (w ||| v) i = (bitOf w i || bitOf v i) := BitVec.getLsbD_or

/-- A word that is clear in a field leaves that field. -/
theorem fieldOf_or_clear {w v : Word} {hi lo : Nat} (clear : ∀ i < hi + 1 - lo, bitOf v (lo + i) = false) : fieldOf (w ||| v) hi lo = fieldOf w hi lo := by
  refine fieldOf_eq (Nat.mod_lt _ (Nat.two_pow_pos _)) fun i low => ?_
  rw [bitOf_or, clear i low, Bool.or_false, testBit_fieldOf, decide_eq_true low, Bool.true_and]

/-- A poisoned write is dropped, and counted for AER. -/
def Hw.poisoned (h : Hw) : Func → Hw
  | .f0 => h.onLink fun l => { l with poisoned0 := l.poisoned0 + 1 }
  | .f1 => h.onLink fun l => { l with poisoned1 := l.poisoned1 + 1 }

theorem poisonedWrite_counts (on : s.hw.linkOn = true) (f : Func) (awake : (s.hw.dev.func f).d3 = false) :
    exec (.poisonedWrite f) s = .next { s with hw := s.hw.poisoned f } := by
  cases f <;> exact next_pos (by rw [on, awake]; rfl)

/-- Settles O52: each command's gate is open or shut as its clause says, and what it does is read off its definition. -/
theorem debugAndMatrix : Obligations.DebugAndMatrix := by
  refine ⟨fun s works => ?_, fun s op inReset powered free was other => ?_, fun s m reach => ?_, fun s on => ?_⟩
  · have free := Hw.inMw_of_works works
    have powered := Hw.powered_of_works works
    refine ⟨fun enabled off b => ?_, fun disabled b => ?_, fun on => ?_, fun on x => ?_, fun op was shut => ?_, fun was enabled off => ?_, fun mid => ⟨fun unused => ?_, fun used => ?_⟩⟩
    · refine .byLive (fun h => if true then h.dbgConnect else h.dbgDisconnect b) rfl works ?_
      rw [if_pos rfl, Hw.dbgConnect_on enabled off]
      exact ⟨s.hw.onLink_event_is _ _ _ _, s.hw.onLink_event_noMsg _ _ _ _⟩
    · exact (live_on (f := fun h => if true then h.dbgConnect else h.dbgDisconnect b) works).trans (next_congr (Hw.dbgConnect_off disabled))
    · refine .byLive (fun h => if false then h.dbgConnect else h.dbgDisconnect none) rfl works ?_
      rw [if_neg (by decide), Hw.dbgDisconnect_on on]
      exact ⟨s.hw.onLink_event_is _ _ _ _, s.hw.onLink_event_noMsg _ _ _ _⟩
    · refine .byLive (fun h => if false then h.dbgConnect else h.dbgDisconnect (some x)) rfl works ?_
      rw [if_neg (by decide), Hw.dbgDisconnect_burst on]
      obtain ⟨addr, event, told⟩ := Hw.abortBurst_shows (h := s.hw.onLink fun l => { l with debugOn := false }) free 8 x
      obtain ⟨link, chans⟩ := (s.hw.onLink fun l => { l with debugOn := false }).abortBurst_keeps 8 x
      generalize (s.hw.onLink fun l => { l with debugOn := false }).abortBurst 8 (some x) = u at *
      have word : (s.hw.onLink fun l => { l with debugOn := false }).devReg 0x5020 = s.hw.devReg 0x5020 := rfl
      have burst : bitOf (0x00800000 : Word) 23 = true := by decide
      have off : bitOf (0x00200000 : Word) 21 = true := by decide
      have clear : ∀ i < 8, bitOf (0x00200000 : Word) (24 + i) = false := by decide
      rw [word] at event
      refine ⟨link, ?_, ?_, ?_, ?_, told, Hw.chans_ext chans⟩
      · simp [addr]
      · rw [Hw.setDevReg_devReg, if_pos rfl, bitOf_or, event, bitOf_evWord _ _ (by decide), burst, Bool.or_true, Bool.true_or]
      · rw [Hw.setDevReg_devReg, if_pos rfl, bitOf_or, off, Bool.or_true]
      · rw [Hw.setDevReg_devReg, if_pos rfl, fieldOf_or_clear clear, event, fieldOf_evWord _ _]
    · have acts : s.hw.jtagActs op = if op = .idcode ∨ op = .sample then op else .bypass := by
        have out := (works_parts works).2.2
        cases op <;> simp_all [Hw.jtagActs]
      refine (jtag_runs powered op ?_ was).trans (next_congr ?_)
      · rw [acts]
        split <;> rename_i kept <;> intro both
        · exact absurd (both.1 ▸ kept) (by decide)
        · exact absurd both.1 (by decide)
      · rw [acts]
    · have acts : s.hw.jtagActs .debug = .debug := if_pos (by rw [works, enabled]; rfl)
      have run : exec (.jtagInstruction .debug) s = .next { s with hw := (s.hw.onLink fun l => { l with jtag := .debug }).dbgConnect } := by
        refine next_congr ?_
        dsimp only
        rw [if_neg (by simp [powered]), if_pos ⟨acts, was⟩, acts]
      refine .of run ?_
      rw [Hw.dbgConnect_on (h := s.hw.onLink fun l => { l with jtag := .debug }) enabled off]
      exact Hw.onLink_event_is _ _ _ _ _
    · exact (live_on (f := fun h => if midUsed mid.val then (h.bmx mid.val 8).devEvent 0x5020 41 0x00400000 else h) works).trans
        (next_congr (if_neg (by simp [unused])))
    · refine .byLive (fun h => if midUsed mid.val then (h.bmx mid.val 8).devEvent 0x5020 41 0x00400000 else h) rfl works ?_
      rw [if_pos used]
      have reg : (s.hw.bmx mid.val 8).devReg 0x5020 = s.hw.devReg 0x5020 := Hw.bmx_devReg _ _ _ _ (by omega)
      exact ⟨by rw [Hw.is, Hw.quiet_devEvent, Hw.quiet_setDevReg, reg], by simp [Hw.noMsg]⟩
  · have stays : s.hw.jtagActs op = op := by
      cases op <;> simp_all [Hw.jtagActs]
    exact (jtag_runs powered op (by rw [stays]; exact fun both => other both.1) was).trans (by rw [stays])
  · have works := Hw.reachesDev_works reach
    refine ⟨fun d right => bmxCntclr_shows reach right d, fun d lacks => ?_, fun d => ?_, fun d => ?_⟩
    · exact (live_on (f := fun h => cntclrWrite h m d) works).trans (next_congr (devBeat_lacks reach lacks _ _))
    · rw [exec_remapWrite reach, Hw.remapped]
      refine ⟨fun same => by rw [if_pos same], fun other isund unset => by rw [if_neg other, if_pos ⟨isund, unset⟩], fun other late => ?_⟩
      rw [if_neg other, if_neg fun first => late.elim (· first.1) fun set => by simp [set] at first]
    · rw [exec_hptShareWrite reach, Hw.shared]
      refine ⟨fun same => by rw [if_pos same], fun other isund unset rd wr => ?_, fun other late => ?_⟩
      · rw [if_neg other, if_pos ⟨isund, unset, by rw [sharesFit, decide_eq_true rd, decide_eq_true wr]; rfl⟩]
      · rw [if_neg other, if_neg fun first => late.elim (· first.1) fun set => by simp [set] at first]
  · exact ⟨poisonedWrite_counts on .f0, poisonedWrite_counts on .f1⟩

end

end Sys2Proof.Machine
end

section
/-!
PROOF. The PCIe link and its functions (O51).
-/
namespace Sys2Proof.Machine

/-! ## What a reset of a function leaves -/

/-- A function's own state after a reset of its master (R422). -/
def FuncSt.fresh (x : FuncSt) : FuncSt := { hold := x.hold, sentAt := x.sentAt, sent := x.sent }

theorem FuncSt.fresh_event (x : FuncSt) (src : Nat) : (x.event src).fresh = x.fresh := by
  unfold FuncSt.event
  dsimp only
  split <;> rfl

/-- An event that a function does not route leaves it. -/
theorem FuncSt.event_unrouted {x : FuncSt} (none_ : x.routes = []) (src : Nat) : x.event src = x := by
  have zero : tget (0 : Word) x.routes src = 0 := by
    rw [none_]
    rfl
  unfold FuncSt.event
  dsimp only
  rw [zero, if_neg (by decide)]

theorem FuncSt.event_routes (x : FuncSt) (src : Nat) : (x.event src).routes = x.routes := by
  unfold FuncSt.event
  dsimp only
  split <;> rfl

/-- A function that routes nothing, as it is: no event moves it. -/
def FuncSt.unrouted (x : FuncSt) : Option FuncSt := if x.routes = [] then some x else none

theorem FuncSt.unrouted_event (x : FuncSt) (src : Nat) : (x.event src).unrouted = x.unrouted := by
  rw [FuncSt.unrouted, FuncSt.event_routes, FuncSt.unrouted]
  split
  · rw [FuncSt.event_unrouted ‹_›]
  · rfl

theorem FuncSt.eq_of_unrouted {x y : FuncSt} (same : x.unrouted = y.unrouted) (none_ : y.routes = []) : x = y := by
  simp only [FuncSt.unrouted, if_pos none_] at same
  split at same
  · exact Option.some.inj same
  · cases same

section
variable {h t u : Hw} {f g : Func}

/-- What every event leaves of a function, the router leaves. -/
theorem Hw.notify_func {γ : Type} (p : FuncSt → γ) (keeps : ∀ x src, p (FuncSt.event x src) = p x) (h : Hw) (g : Func) (src : Nat) :
    p ((h.notify src).dev.func g) = p (h.dev.func g) := by
  have one : ∀ (h : Hw) (f : Func), p ((h.notifyOne f src).dev.func g) = p (h.dev.func g) := by
    intro h f
    unfold Hw.notifyOne
    split
    · rfl
    · cases f <;> cases g <;> simp [Dev.onFunc, Dev.func, keeps]
  exact (one _ _).trans (one _ _)

@[simp] theorem Hw.raiseSpine_func (h : Hw) (u k n a : Nat) (g : Func) : (h.raiseSpine u k n a).dev.func g = h.dev.func g := by
  cases g <;> simp [Dev.func]

theorem Hw.burstTold_func {γ : Type} (p : FuncSt → γ) (keeps : ∀ x src, p (FuncSt.event x src) = p x) (h : Hw) (w a : Word) (n : Nat) (g : Func) :
    p ((((h.burstNoted w a).devEvent 0x5020 41 0x00800000).raiseSpine 19 clsN 0x61 n).dev.func g) = p (h.dev.func g) := by
  rw [Hw.raiseSpine_func]
  exact Hw.notify_func p keeps _ g _

/-- What every event leaves of a function, an aborted burst leaves. -/
theorem Hw.abortBurst_func {γ : Type} (p : FuncSt → γ) (keeps : ∀ x src, p (FuncSt.event x src) = p x) (h : Hw) (mid : Nat) (b : Option Burst) (g : Func) :
    p ((h.abortBurst mid b).dev.func g) = p (h.dev.func g) := by
  cases b with
  | none => rfl
  | some b =>
    rw [Hw.abortBurst_some]
    exact Hw.burstTold_func p keeps h _ _ _ g

/-- The master's bank, its function and what it owns are cleared (R422). -/
def Dev.funcReset (d : Dev) (f : Func) : Dev :=
  let m := f.toMaster
  let d := d.onBank m fun _ => {}
  let d := d.onFunc f FuncSt.fresh
  { d with q := d.q.drop m, flw := d.flw.ownerReset (BitVec.ofNat 3 m.id) }

/-- What a channel keeps for a master is dropped (R422). -/
def Chan.masterReset (x : Chan) (m : Master) : Chan :=
  { x with q := x.q.drop m, map := if m = .pf0 ∧ x.map.tpOwner = 1 then { x.map with tpOwner := 0 } else x.map }

/-- The levels of the queues that hold anything are taken anew. -/
def Hw.levelled (h : Hw) : Hw := (List.finRange 48).foldl (fun h c => if (h.chan c).q = {} then h else h.qLevels (.chan c)) h

theorem Hw.resetFunc_eq (h : Hw) (f : Func) (b : Option Burst) : h.resetFunc f b
    = (((h.abortBurst f.toMaster.id b).onDev fun d => d.funcReset f).onAll fun _ x => x.masterReset f.toMaster).levelled := rfl

theorem Hw.levelled_keeps {γ : Type} (p : Hw → γ) (levels : ∀ h c, p (Hw.qLevels h (.chan c)) = p h) (h : Hw) : p h.levelled = p h :=
  foldl_keeps _ p (fun _ _ => ite_keeps rfl (levels _ _)) _ _

theorem Hw.levelled_func {γ : Type} (p : FuncSt → γ) (keeps : ∀ x src, p (FuncSt.event x src) = p x) (h : Hw) (g : Func) :
    p (h.levelled.dev.func g) = p (h.dev.func g) :=
  Hw.levelled_keeps (fun h => p (h.dev.func g)) (fun h c => Hw.qLevels_keeps (fun h => p (h.dev.func g)) (fun _ _ _ _ => rfl)
    (fun h src => Hw.notify_func p keeps h g src) h (.chan c)) h

theorem Dev.funcReset_func (d : Dev) (f g : Func) : (d.funcReset f).func g = if g = f then (d.func f).fresh else d.func g := by
  cases f <;> cases g <;> rfl

theorem Dev.funcReset_bank (d : Dev) (f g : Func) : (d.funcReset f).bank g.toMaster = if g = f then {} else d.bank g.toMaster := by
  cases f <;> cases g <;> rfl

theorem Dev.funcReset_keeps (d : Dev) (f : Func) : (d.funcReset f).link = d.link ∧ (d.funcReset f).fcl = d.fcl ∧ (d.funcReset f).boot = d.boot := by
  cases f <;> exact ⟨rfl, rfl, rfl⟩

/-- A reset function is as after a reset: its vectors' hold-offs stay, and nothing is routed or pending. -/
theorem Hw.resetFunc_func (h : Hw) (f : Func) (b : Option Burst) : (h.resetFunc f b).dev.func f = (h.dev.func f).fresh := by
  have started : ((h.abortBurst f.toMaster.id b).dev.func f).fresh = (h.dev.func f).fresh :=
    Hw.abortBurst_func FuncSt.fresh FuncSt.fresh_event h _ b f
  refine FuncSt.eq_of_unrouted ?_ rfl
  rw [Hw.resetFunc_eq, Hw.levelled_func FuncSt.unrouted FuncSt.unrouted_event, Hw.onAll_dev, ← started]
  exact congrArg FuncSt.unrouted ((Dev.funcReset_func _ f f).trans (if_pos rfl))

/-- Of the other function a reset leaves what no event moves. -/
theorem Hw.resetFunc_other {γ : Type} (p : FuncSt → γ) (keeps : ∀ x src, p (FuncSt.event x src) = p x) (h : Hw) (b : Option Burst) (other : g ≠ f) :
    p ((h.resetFunc f b).dev.func g) = p (h.dev.func g) := by
  rw [Hw.resetFunc_eq, Hw.levelled_func p keeps, Hw.onAll_dev, ← Hw.abortBurst_func p keeps h f.toMaster.id b g]
  exact congrArg p ((Dev.funcReset_func _ f g).trans (if_neg other))

theorem Hw.burstTold_dev (h : Hw) (w a : Word) (n : Nat) :
    (((h.burstNoted w a).devEvent 0x5020 41 0x00800000).raiseSpine 19 clsN 0x61 n).dev.boot = h.dev.boot
    ∧ ∀ m, (((h.burstNoted w a).devEvent 0x5020 41 0x00800000).raiseSpine 19 clsN 0x61 n).dev.bank m = h.dev.bank m :=
  ⟨by simp [Hw.burstNoted], fun m => by cases m <;> simp [Hw.burstNoted, Dev.bank]⟩

theorem Hw.abortBurst_dev (h : Hw) (mid : Nat) (b : Option Burst) :
    (h.abortBurst mid b).dev.link = h.dev.link ∧ (h.abortBurst mid b).dev.boot = h.dev.boot
    ∧ (∀ m, (h.abortBurst mid b).dev.bank m = h.dev.bank m) ∧ ∀ c, (h.abortBurst mid b).chan c = h.chan c := by
  cases b with
  | none => exact ⟨rfl, rfl, fun _ => rfl, fun _ => rfl⟩
  | some b =>
    obtain ⟨link, chan⟩ := h.abortBurst_keeps mid b
    refine ⟨link, ?_, ?_, chan⟩ <;> rw [Hw.abortBurst_some]
    · exact (Hw.burstTold_dev h _ _ _).1
    · exact (Hw.burstTold_dev h _ _ _).2

/-- What a reset of a function leaves of a channel. -/
def Chan.beyond (x : Chan) : ChSt × Table Circ × Cph × Flt × Psw × List DsEnt := (x.st, x.circ, x.cph, x.flt, x.psw, x.store)

theorem Hw.levelled_dev (h : Hw) : h.levelled.dev.link = h.dev.link ∧ h.levelled.dev.boot = h.dev.boot ∧ h.levelled.dev.fcl = h.dev.fcl
    ∧ ∀ m, h.levelled.dev.bank m = h.dev.bank m :=
  ⟨Hw.levelled_keeps (fun h => h.dev.link) (by simp) h, Hw.levelled_keeps (fun h => h.dev.boot) (by simp) h,
    Hw.levelled_keeps (fun h => h.dev.fcl) (by simp) h, fun m => Hw.levelled_keeps (fun h => h.dev.bank m) (fun h c => by cases m <;> simp [Dev.bank]) h⟩

theorem Hw.levelled_chan (h : Hw) (c : ChanId) : (h.levelled.chan c).q = (h.chan c).q ∧ (h.levelled.chan c).beyond = (h.chan c).beyond :=
  ⟨Hw.levelled_keeps (fun h => (h.chan c).q) (fun h d => Hw.qLevels_keeps (fun h => (h.chan c).q)
      (fun h e o w => by simp only [Hw.setChReg, Hw.onChan_chan]; split <;> [(subst_vars; rfl); rfl]) (by simp) h _) h,
    Hw.levelled_keeps (fun h => (h.chan c).beyond) (fun h d => by simp [Chan.beyond]) h⟩

/-- What a reset of a function's master leaves beside the function (R422). -/
theorem Hw.resetFunc_shows (h : Hw) (f : Func) (b : Option Burst) :
    (h.resetFunc f b).dev.link = h.dev.link ∧ (h.resetFunc f b).dev.boot = h.dev.boot
    ∧ (∀ g, (h.resetFunc f b).dev.bank (Func.toMaster g) = if g = f then {} else h.dev.bank g.toMaster)
    ∧ ∀ c, ((h.resetFunc f b).chan c).q = (h.chan c).q.drop f.toMaster ∧ ((h.resetFunc f b).chan c).beyond = (h.chan c).beyond := by
  obtain ⟨link, boot, bank, chan⟩ := h.abortBurst_dev f.toMaster.id b
  rw [Hw.resetFunc_eq]
  generalize h.abortBurst f.toMaster.id b = u at *
  obtain ⟨link', boot', -, bank'⟩ := ((u.onDev fun d => d.funcReset f).onAll fun _ x => x.masterReset f.toMaster).levelled_dev
  obtain ⟨link'', -, boot''⟩ := u.dev.funcReset_keeps f
  refine ⟨?_, ?_, fun g => ?_, fun c => ?_⟩
  · rw [link', Hw.onAll_dev]
    exact link''.trans link
  · rw [boot', Hw.onAll_dev]
    exact boot''.trans boot
  · rw [bank', Hw.onAll_dev, ← bank]
    exact u.dev.funcReset_bank f g
  · obtain ⟨q, beyond⟩ := ((u.onDev fun d => d.funcReset f).onAll fun _ x => x.masterReset f.toMaster).levelled_chan c
    rw [q, beyond, Hw.onAll_chan, ← chan c]
    exact ⟨rfl, rfl⟩

/-- The messages in the ingress slots: a reset raises that of an ended burst alone. -/
theorem Hw.resetFunc_slots (h : Hw) (f : Func) (b : Option Burst) :
    (h.resetFunc f b).dev.fcl.slots = (h.abortBurst f.toMaster.id b).dev.fcl.slots := by
  rw [Hw.resetFunc_eq]
  generalize h.abortBurst f.toMaster.id b = u
  obtain ⟨-, -, fcl, -⟩ := ((u.onDev fun d => d.funcReset f).onAll fun _ x => x.masterReset f.toMaster).levelled_dev
  rw [fcl, Hw.onAll_dev]
  exact congrArg Fcl.slots (u.dev.funcReset_keeps f).2.1

/-- A dropped bank has no completion, and no other bank changes. -/
theorem CmdQ.drop_cpl (q : CmdQ) (f g : Func) : ((q.drop f.toMaster).bank g.toMaster).cpl = if g = f then [] else (q.bank g.toMaster).cpl := by
  cases f <;> cases g <;> rfl

/-- An event of DEV.HPT_EVT outside Midwinter: its flags stand, and it moves PEND latches alone. -/
theorem Hw.hptEvent_eq (free : h.inMw = false) (fl : Word) : h.hptEvent fl = h.devEvent 0x502C 44 fl := if_neg (by simp [free])

/-- A change of the link that DEV.HPT_EVT tells. -/
theorem Hw.onLink_hpt (free : h.inMw = false) (l : Link → Link) (fl : Word) :
    ((h.onLink l).hptEvent fl).is ((h.onLink l).setDevReg 0x502C (evWord (h.devReg 0x502C) fl)) ∧ ((h.onLink l).hptEvent fl).noMsg h := by
  rw [Hw.hptEvent_eq (h := h.onLink l) free]
  exact ⟨h.onLink_event_is _ _ _ _, h.onLink_event_noMsg _ _ _ _⟩

theorem Hw.devEvent_bank (h : Hw) (off d : Nat) (fl : Word) (m : Master) : (h.devEvent off d fl).dev.bank m = h.dev.bank m := by
  cases m <;> simp [Dev.bank]

theorem Hw.devEvent_func {γ : Type} (p : FuncSt → γ) (keeps : ∀ x src, p (FuncSt.event x src) = p x) (h : Hw) (off d : Nat) (fl : Word) (g : Func) :
    p ((h.devEvent off d fl).dev.func g) = p (h.dev.func g) := Hw.notify_func p keeps _ g _

end

section
variable {s : State} {f : Func}

theorem linkOn_parts {h : Hw} (on : h.linkOn = true) : h.endpointOn = true ∧ h.dev.link.up = true := by
  simpa [Hw.linkOn] using on

/-- PCIE_FLR (R422). -/
theorem pcieFlr_shows (on : s.hw.linkOn = true) (free : s.hw.inMw = false) (f : Func) (b : Option Burst) : Completes (.pcieFlr f b) s fun t =>
    t.dev.func f = (s.hw.dev.func f).fresh ∧ t.dev.bank f.toMaster = {} ∧ t.dev.link = s.hw.dev.link
    ∧ t.devReg 0x502C = evWord ((s.hw.resetFunc f b).devReg 0x502C) (flrFlag f)
    ∧ t.dev.fcl.slots = (s.hw.abortBurst f.toMaster.id b).dev.fcl.slots
    ∧ ∀ c, ((t.chan c).q.bank f.toMaster).cpl = [] ∧ (t.chan c).beyond = (s.hw.chan c).beyond := by
  refine .of (next_pos on) ?_
  obtain ⟨link, boot, bank, chan⟩ := s.hw.resetFunc_shows f b
  have func := s.hw.resetFunc_func f b
  have slots := s.hw.resetFunc_slots f b
  have free' : (s.hw.resetFunc f b).inMw = false := by rw [Hw.inMw, boot]; exact free
  generalize s.hw.resetFunc f b = u at *
  rw [Hw.hptEvent_eq free']
  refine ⟨?_, ?_, by simp [link], by simp, by simp [slots], fun c => ?_⟩
  · rw [← func]
    refine FuncSt.eq_of_unrouted (Hw.devEvent_func FuncSt.unrouted FuncSt.unrouted_event u _ _ _ f) ?_
    rw [func]
    rfl
  · rw [Hw.devEvent_bank, bank, if_pos rfl]
  · rw [Hw.devEvent_chan]
    obtain ⟨q, beyond⟩ := chan c
    rw [q, CmdQ.drop_cpl, if_pos rfl]
    exact ⟨rfl, beyond⟩

/-- Both functions' masters have been reset with the link. -/
theorem Hw.linkDrop_shows (h : Hw) (b0 b1 : Option Burst) :
    (h.linkDrop b0 b1).dev.link = { h.dev.link with up := false, training := false, speed := 0, width := 0 } ∧ (h.linkDrop b0 b1).dev.boot = h.dev.boot
    ∧ (∀ f, (h.linkDrop b0 b1).dev.func f = (h.dev.func f).fresh ∧ (h.linkDrop b0 b1).dev.bank f.toMaster = {})
    ∧ ∀ c, (∀ f : Func, (((h.linkDrop b0 b1).chan c).q.bank f.toMaster).cpl = []) ∧ ((h.linkDrop b0 b1).chan c).beyond = (h.chan c).beyond := by
  obtain ⟨link, boot, bank, chan⟩ := h.resetFunc_shows .f0 b0
  have f0 := h.resetFunc_func .f0 b0
  have f1 := h.resetFunc_other (f := .f0) (g := .f1) FuncSt.fresh FuncSt.fresh_event b0 (by decide)
  unfold Hw.linkDrop
  generalize h.resetFunc .f0 b0 = u at *
  obtain ⟨link', boot', bank', chan'⟩ := u.resetFunc_shows .f1 b1
  have f1' := u.resetFunc_func .f1 b1
  have f0' := u.resetFunc_other (f := .f1) (g := .f0) FuncSt.unrouted FuncSt.unrouted_event b1 (by decide)
  generalize u.resetFunc .f1 b1 = v at *
  refine ⟨?_, boot'.trans boot, fun f => ?_, fun c => ?_⟩
  · rw [← link, ← link']
    rfl
  · cases f with
    | f0 =>
      refine ⟨(FuncSt.eq_of_unrouted f0' (by rw [f0]; rfl)).trans f0, ?_⟩
      exact ((bank' .f0).trans (if_neg (by decide))).trans ((bank .f0).trans (if_pos rfl))
    | f1 => exact ⟨f1'.trans f1, (bank' .f1).trans (if_pos rfl)⟩
  · obtain ⟨q, beyond⟩ := chan c
    obtain ⟨q', beyond'⟩ := chan' c
    refine ⟨fun f => ?_, beyond'.trans beyond⟩
    have is : ((v.chan c).q.bank f.toMaster).cpl = if f = .f1 then [] else if f = .f0 then [] else ((h.chan c).q.bank f.toMaster).cpl := by
      rw [q', CmdQ.drop_cpl, q, CmdQ.drop_cpl]
    refine is.trans ?_
    cases f <;> rfl

end

/-- What a lost link leaves, when an event of DEV.HPT_EVT has told it. -/
theorem Hw.linkDown_told {h u : Hw} {b0 b1 : Option Burst} {fl : Word} (free : h.inMw = false) (is : u = (h.linkDrop b0 b1).hptEvent fl) :
    u.dev.link = { h.dev.link with up := false, training := false, speed := 0, width := 0 }
    ∧ (∀ f, u.dev.func f = (h.dev.func f).fresh ∧ u.dev.bank f.toMaster = {})
    ∧ u.devReg 0x502C = evWord ((h.linkDrop b0 b1).devReg 0x502C) fl
    ∧ ∀ c, (∀ f : Func, ((u.chan c).q.bank f.toMaster).cpl = []) ∧ (u.chan c).beyond = (h.chan c).beyond := by
  rw [is]
  clear is
  obtain ⟨link, boot, func, chan⟩ := h.linkDrop_shows b0 b1
  have free' : (h.linkDrop b0 b1).inMw = false := by rw [Hw.inMw, boot]; exact free
  generalize h.linkDrop b0 b1 = v at *
  rw [Hw.hptEvent_eq free']
  refine ⟨by simp [link], fun f => ⟨?_, ?_⟩, by simp, fun c => by rw [Hw.devEvent_chan]; exact chan c⟩
  · rw [← (func f).1]
    refine FuncSt.eq_of_unrouted (Hw.devEvent_func FuncSt.unrouted FuncSt.unrouted_event v _ _ _ f) ?_
    rw [(func f).1]
    rfl
  · rw [Hw.devEvent_bank, (func f).2]

theorem Chan.beyond_parts {x y : Chan} (same : x.beyond = y.beyond) :
    x.st = y.st ∧ x.circ = y.circ ∧ x.cph = y.cph ∧ x.flt = y.flt ∧ x.psw = y.psw ∧ x.store = y.store := by
  simpa [Chan.beyond] using same

/-- Settles O51: the gates of the link's commands, and what a reset of a function's master leaves. -/
theorem linkAndFunctions : Obligations.LinkAndFunctions := by
  refine ⟨fun s on => ⟨fun can down => ?_, fun v w training free => ?_, fun v w up free => ?_, fun f d up => ?_⟩, fun s mw down => ?_, fun s works run => ?_,
    fun s f b on free => ?_, fun s b0 b1 i on free is => ?_⟩
  · exact next_pos (by rw [on, can, down]; rfl)
  · refine .of (next_pos (by rw [on, training]; rfl)) ?_
    exact Hw.onLink_hpt free _ _
  · refine .of (next_pos (by rw [Hw.linkOn, on, up]; rfl)) ?_
    exact Hw.onLink_hpt free _ _
  · have linked : s.hw.linkOn = true := by rw [Hw.linkOn, on, up]; rfl
    cases d <;> exact next_pos linked
  · exact next_pos (by rw [mw, down]; rfl)
  · exact (live_on (f := fun h => if h.dev.boot.st = .run then h.onLink fun l => { l with alive := !l.alive } else h) works).trans (next_pos run)
  · refine (pcieFlr_shows on free f b).mono fun t ⟨func, bank, link, event, slots, chan⟩ => ⟨func, bank, link, ?_, fun x is => ?_, fun none_ => ?_, fun c => ?_⟩
    · have told : ∀ f, bitOf (flrFlag f) (match f with | .f0 => 22 | .f1 => 21) = true := by intro f; cases f <;> decide
      rw [event, bitOf_evWord _ _ (by cases f <;> decide)]
      exact (congrArg _ (told f)).trans (Bool.or_true _)
    · subst is
      rw [Hw.tookMsg, slots]
      exact (Hw.abortBurst_shows free f.toMaster.id x).2.2
    · subst none_
      exact slots
    · exact ⟨(chan c).1, Chan.beyond_parts (chan c).2⟩
  · obtain ⟨endpoint, up⟩ := linkOn_parts on
    rcases is with rfl | rfl
    · refine .of (next_pos on) ?_
      obtain ⟨link, func, event, chan⟩ := Hw.linkDown_told (b0 := b0) (b1 := b1) (fl := 0x00800000) free rfl
      generalize (s.hw.linkDrop b0 b1).hptEvent 0x00800000 = u at *
      have told : bitOf (0x00800000 : Word) 23 = true := by decide
      refine ⟨congrArg Link.up link, by simp [Hw.onLink], (func .f0).2, (func .f1).2, (func .f0).1, (func .f1).1, ?_, fun no => (nomatch no), fun c => ?_⟩
      · exact (congrArg (bitOf · 23) event).trans (by rw [bitOf_evWord _ _ (by decide), told, Bool.or_true])
      · exact ⟨(chan c).1 .f0, (chan c).1 .f1, Chan.beyond_parts (chan c).2⟩
    · have run : exec (.perstN b0 b1) s = .next { s with hw := (s.hw.linkDrop b0 b1).hptEvent 0x00900000 } := by
        refine next_congr ?_
        dsimp only
        rw [if_neg (by simp [endpoint]), if_pos up]
      refine .of run ?_
      obtain ⟨link, func, event, chan⟩ := Hw.linkDown_told (b0 := b0) (b1 := b1) (fl := 0x00900000) free rfl
      generalize (s.hw.linkDrop b0 b1).hptEvent 0x00900000 = u at *
      have told : bitOf (0x00900000 : Word) 23 = true ∧ bitOf (0x00900000 : Word) 20 = true := by decide
      refine ⟨congrArg Link.up link, by simp [link], (func .f0).2, (func .f1).2, (func .f0).1, (func .f1).1, ?_, fun _ => ?_, fun c => ?_⟩
      · rw [event, bitOf_evWord _ _ (by decide), told.1, Bool.or_true]
      · rw [event, bitOf_evWord _ _ (by decide), told.2, Bool.or_true]
      · exact ⟨(chan c).1 .f0, (chan c).1 .f1, Chan.beyond_parts (chan c).2⟩

end Sys2Proof.Machine
end

section
/-!
PROOF. Register beats: a beat with a byte enable off, and the selectors (O53).
-/
namespace Sys2Proof.Machine

section
variable {s : State} {h : Hw} {m : Master} {c : ChanId}

/-! ## A beat that changes registers and the writer's bank alone -/

/-- REGISTER_WRITE of a beat after which no record register shows anything else. -/
theorem exec_registerWrite {a : BitVec 22} {be : BitVec 4} {d : Word} (works : s.hw.works = true) (k : (s.hw.write m a be d).RegsOnly s.hw)
    (seq : ∀ g < 6, (s.hw.write m a be d).devField (0x10C0 + 4 * g) 31 24 = s.hw.devField (0x10C0 + 4 * g) 31 24) :
    exec (.registerWrite m a be d) s = .next { s with hw := s.hw.write m a be d } := by
  have run : exec (.registerWrite m a be d) s = .next { s with hw := s.hw.beatAt m a be d } := rfl
  rw [run, Hw.beatAt, if_pos works, Hw.settle_same k _ seq]

theorem Hw.bmx_bank (h : Hw) (mid which : Nat) (m : Master) : (h.bmx mid which).dev.bank m = h.dev.bank m := by cases m <;> simp [Dev.bank]

/-- A master's counters lie in the matrix's block (R437). -/
theorem Hw.bmx_devReg_outside (h : Hw) (m : Master) {which o : Nat} (low : which < 9) (out : o < 0x5100 ∨ 0x5200 ≤ o) :
    (h.bmx m.id which).devReg o = h.devReg o := by
  refine Hw.bmx_devReg _ _ _ _ ?_
  cases m <;> simp only [Master.id] <;> omega

/-- A write whose address is the one it was made at is as written. -/
theorem Hw.asWritten_ignored (h : Hw) (m : Master) (w : WFlag) (a : BitVec 22) (which : Nat) :
    ((((h.ignored m w a).bmx m.id which).asWritten h m a).dev.bank m) = (h.dev.bank m).ignore (wbit w) a := by
  have some_ : wbit w ≠ 0 := by cases w <;> decide
  have bank : ((h.ignored m w a).bmx m.id which).dev.bank m = (h.dev.bank m).ignore (wbit w) a := by
    rw [Hw.bmx_bank, Hw.ignored, Hw.flagged_bank _ _ _ _ some_]
  obtain e | e := Hw.asWritten_cases ((h.ignored m w a).bmx m.id which) h m a
  · rw [e, bank]
  · rw [e]
    refine (Dev.onBank_bank _ _ _).trans ?_
    rw [bank]
    rfl

/-- A beat with a byte enable off is ignored, at its address. -/
theorem Hw.write_partial {a : BitVec 22} {be : BitVec 4} (reach : h.reachesDev m = true) (part : be ≠ 0xF) (d : Word) :
    ∃ which < 9, h.write m a be d = ((h.ignored m .cfgRej a).bmx m.id which).asWritten h m a := by
  have reaches := Hw.reaches_of_reachesDev reach
  unfold Hw.write
  dsimp only
  rw [if_neg part]
  cases place a with
  | dev off => exact ⟨0, by decide, by rw [partialWrite, if_pos reach]⟩
  | chan c off => exact ⟨if (h.chan c).raises then 0 else 8, by split <;> decide, by rw [partialWrite, if_pos reaches]⟩

/-! ## The selectors -/

/-- The selectors with the bits of their fields. -/
def selectors : List (Nat × Word) := [(0x3030, 0xF0001FFF), (0x3038, 0xC0001FFF), (0x400C, 0x1FFF), (0x5014, 0x1FFF), (0x600C, 0x1FFF)]

/-- A register whose fields are open to every master, and that no channel state keeps. -/
structure RegDef.Free (r : RegDef) (mask : Word) : Prop where
  rw : maskOf r (fun a => decide (a = .rw)) = mask
  rg : maskOf r (fun a => decide (a = .rg)) = 0
  rd : maskOf r (fun a => decide (a = .rd)) = 0
  kept : r.kept = 0
  guard : r.guard = .plain

theorem RegDef.Free.lacks {r : RegDef} {mask : Word} (free : r.Free mask) (h : Hw) (m : Master) : h.lacks m r.guard = false := by
  rw [free.guard, Hw.lacks_plain]

theorem RegDef.Free.write {r : RegDef} {mask : Word} (free : r.Free mask) (old d deny : Word) (rd : Bool) :
    r.write old d deny rd = { new := (old &&& ~~~ mask) ||| (d &&& mask), guard := false, rej := false } := by
  have zeroOr (m : Word) : m ||| 0 = m := BitVec.or_zero
  have zeroAnd (m : Word) : 0 &&& m = 0 := BitVec.zero_and
  unfold RegDef.write
  simp only [free.rw, free.rg, free.rd, zeroOr, zeroAnd, ite_self, ne_eq, not_true_eq_false, decide_false, Bool.false_and]

theorem Written.flags_none (w : Word) : (⟨w, false, false⟩ : Written).flags = 0 := by
  rw [Written.flags, if_neg Bool.false_ne_true, if_neg Bool.false_ne_true]
  decide

theorem findReg_selectors : ∀ e ∈ selectors, ∃ r, findReg chRegs e.1 = some r ∧ r.Free e.2 := by
  simp only [selectors, List.forall_mem_cons, List.not_mem_nil, false_imp_iff, implies_true, and_true]
  and_intros <;> exact ⟨_, rfl, by decide, by decide, by decide, by decide, by decide⟩

theorem chWrite_selector : ∀ e ∈ selectors, ∀ (h : Hw) (m : Master) (c : ChanId) (d : Word), chWrite h m c e.1 d = chFields h m c e.1 d := by
  simp only [selectors, List.forall_mem_cons, List.not_mem_nil, false_imp_iff, implies_true, and_true]
  and_intros <;> exact fun _ _ _ _ => rfl

/-- A write to a register of an ACTIVE channel that is open to every master takes its bits. -/
theorem chFields_free {off : Nat} {r : RegDef} {mask : Word} (listed : findReg chRegs off = some r) (free : r.Free mask) (reach : h.reaches m = true)
    (active : (h.chan c).st = .active) (d : Word) :
    chFields h m c off d = (h.setChReg c off ((h.chReg c off &&& ~~~ mask) ||| (d &&& mask))).bmx m.id 0 := by
  unfold chFields
  simp only [reach, listed, free.lacks, free.write, raises_of_active active, active, Bool.not_true, Bool.false_eq_true, if_false, reduceCtorEq,
    decide_false, Bool.false_and, Written.flags_none, Hw.flagged_none]
  rfl

/-- A write to such a register in a parked window is turned away. -/
theorem chFields_parked {off : Nat} {r : RegDef} {mask : Word} (listed : findReg chRegs off = some r) (free : r.Free mask) (reach : h.reaches m = true)
    (parked : (h.chan c).st = .parked) (d : Word) :
    chFields h m c off d = (h.ignored m .cfgRej (chAddr c off)).bmx m.id 8 := by
  have quiet_ : (h.chan c).raises = false := by rw [Chan.raises, parked]; rfl
  unfold chFields
  simp only [reach, listed, free.lacks, quiet_, free.kept, Bool.not_true, Bool.not_false, Bool.false_eq_true, if_false, if_true]

/-- A write beat that takes a register's bits, made at any address that decodes to it. -/
theorem Hw.write_selector {e : Nat × Word} (mem : e ∈ selectors) {a : BitVec 22} (place_eq : place a = .chan c e.1) (reach : h.reaches m = true)
    (active : (h.chan c).st = .active) (d : Word) :
    h.write m a 0xF d = (h.setChReg c e.1 ((h.chReg c e.1 &&& ~~~ e.2) ||| (d &&& e.2))).bmx m.id 0 := by
  obtain ⟨r, listed, free⟩ := findReg_selectors e mem
  have put : placeWrite h m (place a) d = (h.setChReg c e.1 ((h.chReg c e.1 &&& ~~~ e.2) ||| (d &&& e.2))).bmx m.id 0 := by
    rw [place_eq, placeWrite, chWrite_selector e mem, chFields_free listed free reach active]
  unfold Hw.write
  dsimp only
  rw [if_pos rfl, put, Hw.asWritten, Hw.bmx_bank]
  exact if_pos rfl

end

/-- Settles O53: a beat with a byte enable off changes the writer's bank alone, and a selector's fields are open to every master. -/
theorem registerBeats : Obligations.RegisterBeats := by
  refine ⟨fun s m a be d reach part => ?_, fun s m c d reach => ?_⟩
  · obtain ⟨which, low, is⟩ := Hw.write_partial reach part d
    have only : (s.hw.write m a be d).RegsOnly s.hw := by
      rw [is]
      exact (Hw.asWritten_regsOnly _ _ _ _).trans ((Hw.bmx_regsOnly _ _ _).trans (Hw.ignored_regsOnly _ _ _ _))
    have regs : ∀ o, o < 0x5100 ∨ 0x5200 ≤ o → (s.hw.write m a be d).devReg o = s.hw.devReg o := fun o out => by
      rw [is, Hw.asWritten_devReg, Hw.bmx_devReg_outside _ _ low out, Hw.ignored_devReg]
    have bank : (s.hw.write m a be d).dev.bank m = (s.hw.dev.bank m).ignore (wbit .cfgRej) a := by rw [is, Hw.asWritten_ignored]
    refine .of (exec_registerWrite (Hw.reachesDev_works reach) only fun g small => ?_) ⟨Hw.chans_ext fun c => ?_, by rw [bank]; rfl, by rw [bank]; rfl, by rw [bank]; rfl, regs⟩
    · rw [Hw.devField, Hw.devField, regs _ (.inl (by omega))]
    · rw [is, Hw.asWritten_chan, Hw.bmx_chan, Hw.ignored_chan]
  · have works := Hw.works_of_reaches reach
    intro sel
    have listed : ∀ e ∈ sel, e.2 ∈ selectors := by simp [sel, selectors]
    have run : ∀ e ∈ sel, exec e.1 s = live s fun h => chFields h m c e.2.1 d := by
      simp only [sel, List.forall_mem_cons, List.not_mem_nil, false_imp_iff, implies_true, and_true]
      and_intros <;> rfl
    refine ⟨fun active e mem => ?_, fun active e mem a place_eq => ?_, fun parked e mem => ?_⟩
    · obtain ⟨r, found, free⟩ := findReg_selectors e.2 (listed e mem)
      rw [run e mem, live_on works, chFields_free found free reach active]
    · have is := Hw.write_selector (listed e mem) place_eq reach active d
      have only : (s.hw.write m a 0xF d).RegsOnly s.hw := by
        rw [is]
        exact (Hw.bmx_regsOnly _ _ _).trans (s.hw.setChReg_regsOnly _ _ _)
      refine .of (exec_registerWrite works only fun g small => ?_) ⟨by rw [is, Hw.is], by rw [is]; simp [Hw.noMsg]⟩
      rw [Hw.devField, Hw.devField, is, Hw.bmx_devReg_low _ _ _ (by omega)]
      rfl
    · obtain ⟨r, found, free⟩ := findReg_selectors e.2 (listed e mem)
      rw [run e mem, live_on works, chFields_parked found free reach parked]

end Sys2Proof.Machine
end

section
/-!
PROOF. The flash window (O57).
-/
namespace Sys2Proof.Machine

/-! ## The flash window's control word -/

/-- The word of FLW_GO: KEY above, GO in bit 0. -/
theorem goWord_low (key : BitVec 16) {i : Nat} (low : i < 16) : bitOf (BitVec.ofNat 32 (key.toNat * 65536 + 1)) i = decide (i = 0) := by
  have split : key.toNat * 65536 + 1 = 2 ^ 16 * key.toNat + 1 := by omega
  rw [bitOf, BitVec.getLsbD_ofNat, split, Nat.testBit_two_pow_mul_add _ (by decide), if_pos low, decide_eq_true (by omega), Bool.true_and]
  cases i with
  | zero => rfl
  | succ i => simp [Nat.testBit_succ]

theorem goWord_key (key : BitVec 16) : fieldOf (BitVec.ofNat 32 (key.toNat * 65536 + 1)) 31 16 = key.toNat := by
  have small := key.isLt
  rw [fieldOf, BitVec.toNat_ofNat]
  omega

section
variable {s : State} {h : Hw} {m : Master}

/-- The masters that may use the window have every right to its registers. -/
theorem Hw.lacks_flw (user : m = .pf0 ∨ m = .isund) : h.lacks m .guarded = false := by
  rcases user with rfl | rfl <;> rfl

theorem flwCode_ne (user : m = .pf0 ∨ m = .isund) : flwCode m ≠ 0 := by
  rcases user with rfl | rfl <;> decide

theorem reachesDev_flw (reach : h.reaches m = true) (user : m = .pf0 ∨ m = .isund) : h.reachesDev m = true := by
  rw [Hw.reachesDev, reach]
  rcases user with rfl | rfl <;> rfl

/-- A write of DEV.FLW_CTL with one bit of its three. -/
theorem flwCtl_reaches (reach : h.reaches m = true) (user : m = .pf0 ∨ m = .isund) {d : Word} {claim rel go : Bool} (claim_ : bitOf d 4 = claim)
    (rel_ : bitOf d 5 = rel) (go_ : bitOf d 0 = go) (one : ((claim && rel) || (claim && go) || (rel && go)) = false) :
    flwCtl h m d = if claim then (h.bmx m.id 0).flwTake m
      else (h.bmx m.id 0).flwOwner m 0x900C fun h => if rel then h.onFlw fun w => { w with owner := 0 } else if go then h.flwStart d else h := by
  subst claim_ rel_ go_
  rw [flwCtl, devBeat_on (reachesDev_flw reach user) (Hw.lacks_flw user)]
  exact if_neg (by rw [one]; decide)

/-- What only the owner may do, done by the owner between operations. -/
theorem Hw.flwOwner_free (user : m = .pf0 ∨ m = .isund) (own : h.dev.flw.owner = flwCode m) (idle : h.dev.flw.busy = false) (off : Nat) (f : Hw → Hw) :
    h.flwOwner m off f = f h := by
  rw [Hw.flwOwner, if_neg fun either => either.elim (flwCode_ne user) (· own), if_neg (by simp [idle])]

theorem Hw.flwOwner_busy (user : m = .pf0 ∨ m = .isund) (own : h.dev.flw.owner = flwCode m) (busy : h.dev.flw.busy = true) (off : Nat) (f : Hw → Hw) :
    h.flwOwner m off f = h.flwRej := by
  rw [Hw.flwOwner, if_neg fun either => either.elim (flwCode_ne user) (· own), if_pos busy]

/-- What the window turns away sets REJ, and nothing else. -/
theorem Hw.flwRej_shows (h : Hw) (m : Master) :
    (h.bmx m.id 0).flwRej.is ((h.bmx m.id 0).setDevReg 0x9010 (evWord (h.devReg 0x9010) 0x00400000)) ∧ (h.bmx m.id 0).flwRej.noMsg h := by
  have reg : (h.bmx m.id 0).devReg 0x9010 = h.devReg 0x9010 := Hw.bmx_devReg_outside h m (by decide) (.inr (by decide))
  refine ⟨by rw [Hw.is, Hw.flwRej, Hw.quiet_devEvent, Hw.quiet_setDevReg, reg], by simp [Hw.noMsg, Hw.flwRej]⟩

/-- A write of the window that is turned away. -/
theorem Completes.byFlwRej {i : Instr} {d : Word} (exec_ : exec i s = live s fun h => flwCtl h m d) (works : s.hw.works = true)
    (is : flwCtl s.hw m d = (s.hw.bmx m.id 0).flwRej) :
    Completes i s fun t => t.is ((s.hw.bmx m.id 0).setDevReg 0x9010 (evWord (s.hw.devReg 0x9010) 0x00400000)) ∧ t.noMsg s.hw := by
  refine .byLive (fun h => flwCtl h m d) exec_ works ?_
  rw [is]
  exact s.hw.flwRej_shows m

theorem exec_flw {i : Instr} {d : Word} {t : Hw} (exec_ : exec i s = live s fun h => flwCtl h m d) (works : s.hw.works = true)
    (is : flwCtl s.hw m d = t) : exec i s = .next { s with hw := t } := by
  rw [exec_, live_on works, is]

/-! ## The bytes of a read operation (R470) -/

/-- Where byte `i` of a read operation goes. -/
def flwReg (i : Nat) : Nat := 0x9040 + 4 * (i / 4)
/-- Its field there. -/
def flwByte (h : Hw) (i : Nat) : Nat := fieldOf (h.devReg (flwReg i)) (31 - 8 * (i % 4)) (24 - 8 * (i % 4))

/-- Byte `i` of a read operation has been put. -/
def Hw.flwPut (h : Hw) (i : Nat) (b : Byte) : Hw :=
  h.setDevReg (flwReg i) (withField (h.devReg (flwReg i)) (24 - 8 * (i % 4) + 7) (24 - 8 * (i % 4)) b.toNat)

theorem Hw.flwData_eq (h : Hw) (l : List Byte) : h.flwData l = l.zipIdx.foldl (fun h e => h.flwPut e.2 e.1) h := rfl

theorem Hw.flwPut_same (h : Hw) (i : Nat) (b : Byte) : flwByte (h.flwPut i b) i = b.toNat := by
  have top : 24 - 8 * (i % 4) + 7 = 31 - 8 * (i % 4) := by omega
  rw [flwByte, Hw.flwPut, Hw.setDevReg_devReg, if_pos rfl, top]
  refine fieldOf_withField_self _ (by omega) ?_
  have width : 31 - 8 * (i % 4) + 1 - (24 - 8 * (i % 4)) = 8 := by omega
  rw [width]
  exact b.isLt

/-- A byte that is put leaves the others. -/
theorem Hw.flwPut_other (h : Hw) {i j : Nat} (other : i ≠ j) (b : Byte) : flwByte (h.flwPut i b) j = flwByte h j := by
  rw [flwByte, Hw.flwPut, Hw.setDevReg_devReg, flwByte]
  split
  next same =>
    rw [same]
    unfold flwReg at same
    exact fieldOf_withField_apart _ _ (by omega) (by omega)
  next => rfl

theorem Hw.flwPuts_byte (j : Nat) : ∀ (l : List Byte) (k : Nat) (h : Hw),
    flwByte ((l.zipIdx k).foldl (fun h e => h.flwPut e.2 e.1) h) j = if k ≤ j ∧ j < k + l.length then (l.getD (j - k) 0).toNat else flwByte h j
  | [], k, h => by
    rw [if_neg (by simp)]
    rfl
  | b :: l, k, h => by
    rw [List.zipIdx_cons, List.foldl_cons, Hw.flwPuts_byte j l (k + 1)]
    by_cases here : j = k
    · subst here
      rw [if_neg (by omega), if_pos ⟨Nat.le_refl _, by simp⟩, Hw.flwPut_same, Nat.sub_self]
      rfl
    · rw [Hw.flwPut_other _ (Ne.symm here)]
      by_cases inside : k + 1 ≤ j ∧ j < k + 1 + l.length
      · have next : j - k = j - (k + 1) + 1 := by omega
        rw [if_pos inside, if_pos ⟨by omega, by simp only [List.length_cons]; omega⟩, next]
        rfl
      · rw [if_neg inside, if_neg (by simp only [List.length_cons]; omega)]

/-- The bytes of a read operation stand in the data registers (R470). -/
theorem Hw.flwData_byte (h : Hw) (l : List Byte) {j : Nat} (here : j < l.length) : flwByte (h.flwData l) j = (l.getD j 0).toNat := by
  rw [Hw.flwData_eq, Hw.flwPuts_byte j l 0, if_pos ⟨Nat.zero_le _, by omega⟩, Nat.sub_zero]

/-- What the data registers' writing leaves. -/
theorem Hw.flwData_keeps {γ : Type} (p : Hw → γ) (sets : ∀ (h : Hw) (o : Nat) (w : Word), p (h.setDevReg o w) = p h) (h : Hw) (l : List Byte) :
    p (h.flwData l) = p h := foldl_keeps _ p (fun _ _ => sets _ _ _) _ _

/-- What an operation read is in the data registers, unless it wrote or its owner has reset meanwhile. -/
def Hw.flwRead (h : Hw) (l : List Byte) : Hw :=
  if bitOf h.dev.flw.cmd 15 || h.dev.flw.releaseWaits then h else h.flwData (l.take (min 64 (fieldOf h.dev.flw.cmd 6 0)))

theorem Hw.flwRead_keeps {γ : Type} (p : Hw → γ) (sets : ∀ (h : Hw) (o : Nat) (w : Word), p (h.setDevReg o w) = p h) (l : List Byte) :
    p (h.flwRead l) = p h := ite_keeps rfl (Hw.flwData_keeps p sets h _)

theorem exec_flwOpDone (works : s.hw.works = true) (busy : s.hw.dev.flw.busy = true) (l : List Byte) :
    exec (.flwOpDone l) s = .next { s with hw :=
      ((s.hw.flwRead l).onFlw fun w =>
        { w with busy := false, releaseWaits := false, owner := if w.releaseWaits then 0 else w.owner }).devEvent 0x9010 51 0x00800000 } := by
  have run : exec (.flwOpDone l) s = execFlwOpDone l s := rfl
  rw [run, execFlwOpDone, live_on works]
  refine next_congr ?_
  dsimp only
  rw [if_neg (by simp [busy]), Hw.flwRead]

/-- What the end of an operation leaves, with `u` the hardware after its bytes. -/
theorem Hw.flwEnd_shows (u : Hw) (f : Flw → Flw) :
    ((u.onFlw f).devEvent 0x9010 51 0x00800000).dev.flw = f u.dev.flw ∧ bitOf (((u.onFlw f).devEvent 0x9010 51 0x00800000).devReg 0x9010) 23 = true
    ∧ ((u.onFlw f).devEvent 0x9010 51 0x00800000).chans = u.chans
    ∧ ((u.onFlw f).devEvent 0x9010 51 0x00800000).dev.fcl.slots = u.dev.fcl.slots
    ∧ ∀ o, o ≠ 0x9010 → ((u.onFlw f).devEvent 0x9010 51 0x00800000).devReg o = u.devReg o := by
  have told : bitOf (0x00800000 : Word) 23 = true := by decide
  refine ⟨by simp [Hw.onFlw], ?_, Hw.chans_ext fun c => by simp [Hw.onFlw], by simp [Hw.onFlw], fun o other => ?_⟩
  · rw [Hw.devEvent_devReg, if_pos rfl, bitOf_evWord _ _ (by decide), told, Bool.or_true]
  · rw [Hw.devEvent_devReg, if_neg other]
    rfl

end

/-- Settles O57: the window's control word holds one request, and the bytes of a read go to fields apart. -/
theorem flashWindow : Obligations.FlashWindow := by
  refine ⟨fun s m reach user run => ?_, fun s l works => ⟨fun idle => ?_, fun busy stays => ?_, fun busy waits => ?_⟩⟩
  · have works := Hw.works_of_reaches reach
    have claims := flwCtl_reaches reach user (d := 0x10) (claim := true) (rel := false) (go := false) (by decide) (by decide) (by decide) rfl
    have releases := flwCtl_reaches reach user (d := 0x20) (claim := false) (rel := true) (go := false) (by decide) (by decide) (by decide) rfl
    have goes := fun key : BitVec 16 => flwCtl_reaches reach user (d := BitVec.ofNat 32 (key.toNat * 65536 + 1)) (claim := false) (rel := false) (go := true)
      (by rw [goWord_low _ (by decide)]; rfl) (by rw [goWord_low _ (by decide)]; rfl) (by rw [goWord_low _ (by decide)]; rfl) rfl
    intro rej
    have regs : (s.hw.bmx m.id 0).devReg 0x9004 = s.hw.devReg 0x9004 ∧ (s.hw.bmx m.id 0).devReg 0x9008 = s.hw.devReg 0x9008 :=
      ⟨Hw.bmx_devReg_outside _ m (by decide) (.inr (by decide)), Hw.bmx_devReg_outside _ m (by decide) (.inr (by decide))⟩
    have flw : (s.hw.bmx m.id 0).dev.flw = s.hw.dev.flw := by simp
    have open_ : ¬((s.hw.bmx m.id 0).dev.boot.st ≠ .run ∧ (s.hw.bmx m.id 0).dev.boot.st ≠ .bare) := by simp [run]
    refine ⟨fun free => ?_, fun taken => ?_, fun own idle => ⟨?_, fun key => ⟨fun right => ?_, fun writes wrong => ?_⟩⟩, fun own busy => ⟨?_, fun key => ?_⟩⟩
    · refine exec_flw rfl works (claims.trans ((if_pos rfl).trans ?_))
      rw [Hw.flwTake, if_neg open_, if_neg fun either => either.elim (flwCode_ne user) fun no => no (by rw [flw]; exact free)]
    · refine .byFlwRej rfl works (claims.trans ((if_pos rfl).trans ?_))
      rw [Hw.flwTake, if_neg open_, if_pos (.inr (by rw [flw]; exact taken))]
    · refine exec_flw rfl works (releases.trans ((if_neg (by decide)).trans ?_))
      rw [Hw.flwOwner_free user (by rw [flw]; exact own) (by rw [flw]; exact idle)]
      rfl
    · refine exec_flw rfl works ((goes key).trans ((if_neg (by decide)).trans ?_))
      rw [Hw.flwOwner_free user (by rw [flw]; exact own) (by rw [flw]; exact idle), if_neg (by decide), if_pos rfl, Hw.flwStart]
      rw [regs.1, regs.2, goWord_key]
      refine if_neg fun bad => ?_
      rw [Bool.and_eq_true, decide_eq_true_eq] at bad
      rcases right with read | is
      · simp [read] at bad
      · exact bad.2 (by rw [is]; rfl)
    · refine .byFlwRej rfl works ((goes key).trans ((if_neg (by decide)).trans ?_))
      rw [Hw.flwOwner_free user (by rw [flw]; exact own) (by rw [flw]; exact idle), if_neg (by decide), if_pos rfl, Hw.flwStart]
      rw [regs.1, goWord_key]
      refine if_pos ?_
      rw [writes, Bool.true_and, decide_eq_true_eq]
      exact fun is => wrong (BitVec.eq_of_toNat_eq is)
    · exact .byFlwRej rfl works (releases.trans ((if_neg (by decide)).trans
        (Hw.flwOwner_busy user (by rw [flw]; exact own) (by rw [flw]; exact busy) _ _)))
    · exact .byFlwRej rfl works ((goes key).trans ((if_neg (by decide)).trans
        (Hw.flwOwner_busy user (by rw [flw]; exact own) (by rw [flw]; exact busy) _ _)))
  · have run : exec (.flwOpDone l) s = execFlwOpDone l s := rfl
    rw [run, execFlwOpDone, live_on works]
    exact next_congr (if_pos (by simp [idle]))
  · refine .of (exec_flwOpDone works busy l) ?_
    have flw : (s.hw.flwRead l).dev.flw = s.hw.dev.flw := Hw.flwRead_keeps (fun h => h.dev.flw) (fun _ _ _ => rfl) l
    have chans' : (s.hw.flwRead l).chans = s.hw.chans := Hw.flwRead_keeps (fun h => h.chans) (fun _ _ _ => rfl) l
    have slots' : (s.hw.flwRead l).dev.fcl.slots = s.hw.dev.fcl.slots := Hw.flwRead_keeps (fun h => h.dev.fcl.slots) (fun _ _ _ => rfl) l
    obtain ⟨ended, done, chans, slots, others⟩ := (s.hw.flwRead l).flwEnd_shows
      fun w => { w with busy := false, releaseWaits := false, owner := if w.releaseWaits then 0 else w.owner }
    refine ⟨?_, done, chans.trans chans', slots.trans slots', fun read i here inside => ?_, fun wrote i _ => ?_⟩
    · rw [ended, flw, if_neg (by simp [stays]), ← stays]
    · have data : s.hw.flwRead l = s.hw.flwData (l.take (min 64 (fieldOf s.hw.dev.flw.cmd 6 0))) := if_neg (by simp [read, stays])
      rw [others _ (by omega), data]
      refine (Hw.flwData_byte _ _ (by rw [List.length_take]; omega)).trans ?_
      rw [List.getD_eq_getElem?_getD, List.getElem?_take_of_lt inside, ← List.getD_eq_getElem?_getD]
    · rw [others _ (by omega)]
      exact congrArg (fun u : Hw => u.devReg _) (if_pos (by simp [wrote]))
  · refine .of (exec_flwOpDone works busy l) ?_
    have none_ : s.hw.flwRead l = s.hw := if_pos (by simp [waits])
    rw [none_]
    obtain ⟨ended, done, chans, slots, others⟩ := s.hw.flwEnd_shows
      fun w => { w with busy := false, releaseWaits := false, owner := if w.releaseWaits then 0 else w.owner }
    exact ⟨by rw [ended, if_pos waits], by rw [ended], done, fun i _ => others _ (by omega), chans⟩

end Sys2Proof.Machine
end

section
/-!
PROOF. The mailbox (O56).
-/
namespace Sys2Proof.Machine

section
variable {s : State} {h : Hw} {m : Master} {d sel : Word} {c : ChanId}

/-- The value that a snapshot-and-clear takes at once; none for a selector that clears nothing (R432). -/
def Hw.mbxSnap (h : Hw) (m : Master) (sel : Word) : Option (BitVec 128) :=
  match h.mbxVal m sel with
  | .val v => if bitOf sel 31 && isCounter sel then some v else none
  | _ => none

theorem Hw.mbxSnap_plain (plain : bitOf sel 31 = false) : h.mbxSnap m sel = none := by
  unfold Hw.mbxSnap
  split
  · exact if_neg (by simp [plain])
  · rfl

theorem Hw.mbxSnap_value {v : BitVec 128} (is : h.mbxVal m sel = .val v) (clears : bitOf sel 31 = true) (counter : isCounter sel = true) :
    h.mbxSnap m sel = some v := by
  rw [Hw.mbxSnap, is]
  exact if_pos (by rw [clears, counter]; rfl)

/-- A capture starts (R433). -/
def Hw.mbxStart (h : Hw) (m : Master) (sel : Word) (v : Option (BitVec 128)) : Hw :=
  h.draw.2.draw.2.onDev fun x => x.onBank m fun k =>
    { k with sel := sel, valid := false, err := false, capturing := true, snap := v,
             data := h.draw.1.zeroExtend 128 ||| (h.draw.2.draw.1.zeroExtend 128 <<< 64) }

theorem Hw.mbxStart_shows (h : Hw) (m : Master) (sel : Word) (v : Option (BitVec 128)) :
    ((h.mbxStart m sel v).dev.bank m).sel = sel ∧ ((h.mbxStart m sel v).dev.bank m).valid = false ∧ ((h.mbxStart m sel v).dev.bank m).err = false
    ∧ ((h.mbxStart m sel v).dev.bank m).capturing = true ∧ ((h.mbxStart m sel v).dev.bank m).snap = v ∧ (h.mbxStart m sel v).chans = h.chans := by
  have bank : (h.mbxStart m sel v).dev.bank m = _ := Dev.onBank_bank _ m _
  rw [bank]
  exact ⟨rfl, rfl, rfl, rfl, rfl, rfl⟩

theorem Hw.mbxStart_local (h : Hw) (m : Master) (sel : Word) (v : Option (BitVec 128)) (c : ChanId) : (h.mbxStart m sel v).Local h c := by
  cases m <;> exact ⟨fun _ _ => rfl, rfl, rfl, rfl, rfl, rfl, rfl, rfl, rfl, rfl⟩

/-- A selector that arrives while a capture is under way is turned away. -/
theorem mbxSelect_busy (reach : h.mbxReaches m = true) (busy : (h.dev.bank m).capturing = true) (d : Word) :
    mbxSelect h m d = (h.bmx m.id 0).ignored m .cfgRej (devAddr 0x6000) := by
  unfold mbxSelect
  rw [if_neg (by simp [reach])]
  exact if_pos (by rw [Hw.bmx_bank]; exact busy)

/-- A selector of a master that may clear what it selects, or clears nothing. -/
theorem mbxSelect_starts (reach : h.mbxReaches m = true) (idle : (h.dev.bank m).capturing = false) (may : (decide (m = .pf1) && bitOf d 31) = false) :
    mbxSelect h m d = (if ((h.bmx m.id 0).mbxSnap m d).isSome then (h.bmx m.id 0).mbxZero d else h.bmx m.id 0).mbxStart m d ((h.bmx m.id 0).mbxSnap m d) := by
  unfold mbxSelect
  rw [if_neg (by simp [reach])]
  dsimp only
  rw [if_neg (by rw [Hw.bmx_bank, idle]; decide), may]
  rfl

/-- A group of channel counters is no other group. -/
theorem ctrGroup_apart {g : Nat} (group : ctrGroup g = true) : g ≠ 0x02 ∧ g ≠ 0x01 ∧ g ≠ 0x03 ∧ g ≠ 0x15 ∧ g ≠ 0x16 := by
  simp only [ctrGroup, decide_eq_true_eq, List.mem_cons, List.not_mem_nil, or_false] at group
  omega

/-- A channel counter as a selector names it (R434). -/
theorem Hw.mbxVal_ctr (free : h.inMw = false) (group : ctrGroup (fieldOf sel 30 24) = true) (names : fieldOf sel 23 18 = c.val)
    (ok : ctrOk (fieldOf sel 30 24) (fieldOf sel 17 0) = true) (raises : (h.chan c).raises = true) :
    h.mbxVal m sel = .val (BitVec.ofNat 128 (tget 0 (h.chan c).ctr (ctrKey (fieldOf sel 30 24) (fieldOf sel 17 0)))) := by
  obtain ⟨hist, now, coal, cvu, tim⟩ := ctrGroup_apart group
  unfold Hw.mbxVal
  dsimp only
  rw [if_neg hist, if_neg (by simp [free]), if_neg now, if_neg coal, if_neg cvu, if_neg tim, if_pos group, names, chanOf_val]
  exact if_pos (by rw [ok, raises]; rfl)

theorem Hw.mbxZero_ctr (group : ctrGroup (fieldOf sel 30 24) = true) (names : fieldOf sel 23 18 = c.val) :
    h.mbxZero sel = h.onChan c fun x => { x with ctr := tdrop x.ctr (ctrKey (fieldOf sel 30 24) (fieldOf sel 17 0)) } := by
  obtain ⟨-, -, coal, -, -⟩ := ctrGroup_apart group
  unfold Hw.mbxZero
  dsimp only
  rw [if_neg coal, names, chanOf_val]

/-- Either command that writes the selector. -/
theorem exec_select {i : Instr} (is : i = .mailboxSelect m d ∨ i = .mailboxSnapshotClear m d) : exec i s = .next { s with hw := mbxSelect s.hw m d } := by
  rcases is with rfl | rfl <;> rfl

/-! ## The end of a capture -/

theorem exec_captureDone (on : s.hw.endpointOn = true) (own : m ≠ .malot) :
    exec (.mailboxCaptureDone m) s = .next { s with hw := s.hw.mbxCapture m } := next_pos (by rw [on, decide_eq_true own]; rfl)

theorem Hw.mbxCapture_snap {v : BitVec 128} (busy : (h.dev.bank m).capturing = true) (free : h.inMw = false) (snap : (h.dev.bank m).snap = some v) :
    h.mbxCapture m = h.mbxPut m (some v) := by
  unfold Hw.mbxCapture
  dsimp only
  rw [if_neg (by simp [busy]), snap]
  dsimp only
  rw [if_neg (by simp [free])]

theorem Hw.mbxCapture_err (busy : (h.dev.bank m).capturing = true) (snap : (h.dev.bank m).snap = none) (err : h.mbxVal m (h.dev.bank m).sel = .err) :
    h.mbxCapture m = h.mbxPut m none := by
  unfold Hw.mbxCapture
  dsimp only
  rw [if_neg (by simp [busy]), snap]
  dsimp only
  rw [err]

theorem Hw.mbxCapture_val {v : BitVec 128} (busy : (h.dev.bank m).capturing = true) (snap : (h.dev.bank m).snap = none)
    (val : h.mbxVal m (h.dev.bank m).sel = .val v) : h.mbxCapture m = (h.cvuRead m (h.dev.bank m).sel).mbxPut m (some v) := by
  unfold Hw.mbxCapture
  dsimp only
  rw [if_neg (by simp [busy]), snap]
  dsimp only
  rw [val]

/-- The selector of SYSCNT (R434). -/
theorem sysSel_parts (is : fieldOf sel 30 0 = 0x01FC0000) : fieldOf sel 30 24 = 0x01 ∧ fieldOf sel 23 18 = 63 ∧ fieldOf sel 17 0 = 0 := by
  simp only [fieldOf] at is ⊢
  omega

theorem Hw.mbxVal_sys (free : h.inMw = false) (is : fieldOf sel 30 0 = 0x01FC0000) : h.mbxVal m sel = .val (h.dev.sys.zeroExtend 128) := by
  obtain ⟨g, n, i⟩ := sysSel_parts is
  unfold Hw.mbxVal
  dsimp only
  rw [g, if_neg (by decide), if_neg (by simp [free]), if_pos rfl, if_pos ⟨n, i⟩]

/-- Only the read of a CVU result changes anything. -/
theorem Hw.cvuRead_none (none_ : chanOf (fieldOf sel 23 18) = none) : h.cvuRead m sel = h := by
  unfold Hw.cvuRead
  dsimp only
  rw [none_]

theorem Hw.mbxPut_bank (h : Hw) (m : Master) (v : Option (BitVec 128)) :
    (h.mbxPut m v).dev.bank m = { h.dev.bank m with valid := true, err := v.isNone, capturing := false, snap := none, data := v.getD 0 } :=
  Dev.onBank_bank _ m _

end

/-- Settles O56: a selector starts a capture with or without a snapshot, and a capture ends with what it took or finds. -/
theorem mailboxCaptures : Obligations.MailboxCaptures := by
  refine ⟨fun s m d i is reach => ⟨fun busy => ?_, fun idle plain => ?_, fun c idle clears own free group names ok raises => ?_⟩,
    fun s m on own busy free => ⟨fun v snap => ?_, fun snap sys => ?_, fun snap err => ?_⟩⟩
  · rw [exec_select is, mbxSelect_busy reach busy]
  · refine .of (exec_select is) ?_
    rw [mbxSelect_starts reach idle (by rw [plain, Bool.and_false]), Hw.mbxSnap_plain plain, if_neg (by decide)]
    obtain ⟨sel, valid, err, capturing, snap, chans⟩ := (s.hw.bmx m.id 0).mbxStart_shows m d none
    exact ⟨sel, valid, err, capturing, snap, chans.trans (Hw.chans_ext fun c => by simp)⟩
  · refine .of (exec_select is) ?_
    have free' : (s.hw.bmx m.id 0).inMw = false := by simpa [Hw.inMw] using free
    have value := Hw.mbxVal_ctr (h := s.hw.bmx m.id 0) (m := m) free' group names ok (by rw [Hw.bmx_chan]; exact raises)
    have snap := Hw.mbxSnap_value value clears (by rw [isCounter, group, Bool.or_true])
    rw [mbxSelect_starts reach idle (by rw [decide_eq_false own, Bool.false_and]), snap, Option.isSome_some, if_pos rfl, Hw.mbxZero_ctr group names, Hw.bmx_chan]
    have cleared : ((s.hw.bmx m.id 0).onChan c fun x => { x with ctr := tdrop x.ctr (ctrKey (fieldOf d 30 24) (fieldOf d 17 0)) }).Local s.hw c :=
      (Hw.onChan_local _ c _).trans (s.hw.bmx_local _ _ c)
    have ctr : (((s.hw.bmx m.id 0).onChan c fun x => { x with ctr := tdrop x.ctr (ctrKey (fieldOf d 30 24) (fieldOf d 17 0)) }).chan c).ctr
        = tdrop (s.hw.chan c).ctr (ctrKey (fieldOf d 30 24) (fieldOf d 17 0)) := by simp
    generalize (s.hw.bmx m.id 0).onChan c (fun x => { x with ctr := tdrop x.ctr (ctrKey (fieldOf d 30 24) (fieldOf d 17 0)) }) = u at *
    obtain ⟨sel, -, -, capturing, taken, chans⟩ := u.mbxStart_shows m d
      (some (BitVec.ofNat 128 (tget 0 (s.hw.chan c).ctr (ctrKey (fieldOf d 30 24) (fieldOf d 17 0)))))
    have local_ := u.mbxStart_local m d (some (BitVec.ofNat 128 (tget 0 (s.hw.chan c).ctr (ctrKey (fieldOf d 30 24) (fieldOf d 17 0))))) c
    generalize u.mbxStart m d _ = t at *
    have same : t.chan c = u.chan c := by rw [Hw.chan, chans, Hw.chan]
    rw [same, ctr]
    exact ⟨sel, capturing, taken, tget_tdrop_self _ _ _, fun k other => tget_tdrop_ne _ _ other, local_.trans cleared⟩
  · refine .of (exec_captureDone on own) ?_
    rw [Hw.mbxCapture_snap busy free snap, Hw.mbxPut_bank]
    exact ⟨rfl, rfl⟩
  · refine .of (exec_captureDone on own) ?_
    have none_ : chanOf (fieldOf (s.hw.dev.bank m).sel 23 18) = none := by rw [(sysSel_parts sys).2.1]; rfl
    rw [Hw.mbxCapture_val busy snap (Hw.mbxVal_sys free sys), Hw.cvuRead_none none_, Hw.mbxPut_bank]
    exact ⟨rfl, rfl⟩
  · refine .of (exec_captureDone on own) ?_
    rw [Hw.mbxCapture_err busy snap err, Hw.mbxPut_bank]
    exact ⟨rfl, rfl⟩

end Sys2Proof.Machine
end

section
/-!
PROOF. A command port (O55): a CLEAR_MODE that the device port refuses at its submission consumes the arming of the channel it names, so
that a refused device command does not leave every channel as it was.
-/
namespace Sys2Proof.Machine

/-- The module in RUN with clear mode of channel 0 armed, and PF0's words of a CLEAR_MODE for channel 0 in the device port, with a bit set that
R443 keeps 0. -/
def clearModeHeld : State :=
  { pending := []
    hw := {
      dev := {
        boot := { st := .run }
        link := { up := true }
        q := { pf0 := { w0 := 0x14000100 } } }
      chans := (Vector.replicate 48 {}).set 0 { st := .active, cph := { armed := true } } } }

theorem clearModeHeld_refused : clearModeHeld.hw.judge .device 0x14000100 (clearModeHeld.hw.cmdOf .pf0 .device 0) = some rParam := by decide

theorem clearModeHeld_meets : clearModeHeld.hw.reaches .pf0 = true ∧ clearModeHeld.hw.credit .device .pf0 ≠ 0
    ∧ ((clearModeHeld.hw.queue .device).bank .pf0).w0 = 0x14000100 ∧ (clearModeHeld.hw.chan 0).cph.armed = true := by decide

/-- The refusal disarms channel 0 (R222). -/
theorem clearModeHeld_disarms : ((cmdWrite clearModeHeld.hw .pf0 .device 0).chan 0).cph.armed = false := by decide

/-- Refutes O55: the clause that a refused submission changes no channel beyond its port's fails for a CLEAR_MODE on the device port. -/
theorem not_commandPortRuns : ¬ Obligations.CommandPortRuns := by
  intro ⟨submitted, _⟩
  obtain ⟨reach, credit, word, armed⟩ := clearModeHeld_meets
  obtain ⟨-, -, refused, -⟩ := submitted clearModeHeld .pf0 .device 0 reach rfl rfl
  obtain ⟨t, run, -, ⟨-, -, -, -, others⟩, -⟩ := refused credit rParam (by rw [word]; exact clearModeHeld_refused)
  have is : exec (.cmdSubmit .pf0 .device 0) clearModeHeld = .next { clearModeHeld with hw := cmdWrite clearModeHeld.hw .pf0 .device 0 } :=
    live_on (f := fun h => cmdWrite h .pf0 .device 0) (Hw.works_of_reaches reach)
  obtain rfl := Host.Outcome.next.inj (is.symm.trans run)
  have same := congrArg (fun x : Chan => x.cph.armed) (others 0 (by decide))
  rw [clearModeHeld_disarms, armed] at same
  exact Bool.false_ne_true same

end Sys2Proof.Machine
end

section
/-!
PROOF. Performance data: a second that is decided, and the end of an interval (O58).
-/
namespace Sys2Proof.Machine

/-! ## A second -/

section
variable {x : Chan} {h : Hw} {c : ChanId}

/-- A step of a fold that one element alone takes. -/
theorem foldl_once {α β γ : Type} (f : β → α → β) (p : β → γ) (g : γ → γ) (a : α) (others : ∀ b e, e ≠ a → p (f b e) = p b)
    (self : ∀ b, p (f b a) = g (p b)) : ∀ (l : List α) (b : β), l.Nodup → a ∈ l → p (l.foldl f b) = g (p b)
  | e :: l, b, nodup, mem => by
    obtain ⟨new, rest⟩ := List.nodup_cons.1 nodup
    rw [List.foldl_cons]
    by_cases here : e = a
    · subst here
      have apart : ∀ (l : List α) (b : β), e ∉ l → p (l.foldl f b) = p b := fun l => by
        induction l with
        | nil => exact fun _ _ => rfl
        | cons d l ih =>
          intro b out
          rw [List.mem_cons, not_or] at out
          rw [List.foldl_cons, ih _ out.2, others _ _ (Ne.symm out.1)]
      rw [apart l _ new, self]
    · rw [foldl_once f p g a others self l _ rest ((List.mem_cons.1 mem).resolve_left (Ne.symm here)), others _ _ here]

theorem Chan.addReg_reg (x : Chan) (off n o : Nat) :
    (x.addReg off n).reg o = if o = off then BitVec.ofNat 32 (min (2 ^ 32 - 1) ((x.reg off).toNat + n)) else x.reg o := by
  have top : 0xFFFFFFFF = 2 ^ 32 - 1 := by decide
  rw [Chan.addReg, Chan.reg_setReg, satAdd_eq_min, top]

/-- A parameter that counts in the current interval. -/
theorem Chan.pmAdd_reg (x : Chan) (p k n o : Nat) : (x.pmAdd 0 p k n).reg o
    = if o = pmCur p k then BitVec.ofNat 32 (min (2 ^ 32 - 1) ((x.reg o).toNat + n)) else x.reg o := by
  rw [Chan.pmAdd, if_pos rfl, Chan.addReg_reg, Chan.count_reg, Chan.count_reg]
  split
  next is => rw [is]
  next => rfl

/-- What a count of a parameter leaves of a channel. -/
theorem Chan.pmAdd_mlt (x : Chan) (old p k n : Nat) : (x.pmAdd old p k n).mlt = x.mlt := by
  unfold Chan.pmAdd
  dsimp only
  split_ifs <;> rfl

/-- The parameters of one end of a lane count. -/
def Chan.pmEndAdd (old : Nat) (x : Chan) (i : Fin 6) (l : List Nat) : Chan :=
  l.zipIdx.foldl (fun y e => y.pmAdd old (i.val % 3) (4 * (i.val / 3) + e.2) e.1) x

theorem Chan.pmEndAdd_mlt (old : Nat) (x : Chan) (i : Fin 6) (l : List Nat) : (x.pmEndAdd old i l).mlt = x.mlt :=
  foldl_keeps _ (fun y : Chan => y.mlt) (fun y _ => y.pmAdd_mlt old _ _ _) _ _

theorem Chan.pmAdd_eth (x : Chan) (old p k n : Nat) : (x.pmAdd old p k n).pmEth = x.pmEth := by
  have apart : ∀ (y : Chan) (o v : Nat), 0x9040 ≤ o → (y.addReg o v).pmEth = y.pmEth := fun y o v high => by
    funext lane
    rw [Chan.pmEth, Chan.pmEth, Chan.addReg, Chan.rate_setReg]
    cases laneOf lane.val <;> simp only [laneReg, Lane.num] <;> omega
  unfold Chan.pmAdd
  extract_lets y
  split
  next => exact apart y _ _ (by unfold pmCur; omega)
  next =>
    split
    next => exact apart y _ _ (by unfold pmPrv; omega)
    next => rfl

theorem Chan.pmEndAdd_eth (old : Nat) (x : Chan) (i : Fin 6) (l : List Nat) : (x.pmEndAdd old i l).pmEth = x.pmEth :=
  foldl_keeps _ (fun y : Chan => y.pmEth) (fun y _ => y.pmAdd_eth old _ _ _) _ _

theorem foldl_congr_of {α β : Type} {f g : β → α → β} {I : β → Prop} (step : ∀ b a, I b → f b a = g b a ∧ I (g b a)) :
    ∀ (l : List α) (b : β), I b → l.foldl f b = l.foldl g b
  | [], _, _ => rfl
  | a :: l, b, inv => by
    obtain ⟨same, next⟩ := step b a inv
    rw [List.foldl_cons, List.foldl_cons, same, foldl_congr_of step l _ next]

/-- The near end of a lane is the lane's own. -/
theorem pmEnd_near {eth : Fin 3 → Bool} {v : Vector PmSec 3} {p : Fin 3} (low : p.val < 3) :
    pmEnd eth v ⟨p.val, by omega⟩ = { blocks := v[p].blocks, errored := v[p].errored, defect := v[p].defect } := by
  have lane : p.val % 3 = p.val := Nat.mod_eq_of_lt low
  simp only [pmEnd, low, if_true, lane]

theorem PmEnd.adds_length (e : PmEnd) (un : Bool) : (e.adds un).length = 4 := by
  cases un <;> rfl

/-- An end that is not a lane's near end leaves the lane's ES and UAS of the near end. -/
theorem Chan.pmEndAdd_other (x : Chan) {i : Fin 6} {p k : Nat} (low : p < 3) (small : k < 4) (other : i.val ≠ p) {l : List Nat} (four : l.length = 4) :
    (x.pmEndAdd 0 i l).reg (pmCur p k) = x.reg (pmCur p k) := by
  have index : ∀ e ∈ l.zipIdx, e.2 < 4 := fun e mem => by
    have := List.mem_zipIdx mem
    omega
  unfold Chan.pmEndAdd
  generalize l.zipIdx = es at index
  induction es generalizing x with
  | nil => rfl
  | cons e es ih =>
    have here := index e List.mem_cons_self
    have six := i.isLt
    rw [List.foldl_cons, ih _ fun e mem => index e (List.mem_cons_of_mem _ mem), Chan.pmAdd_reg, if_neg]
    unfold pmCur
    omega

/-- The near end of a lane counts its ES and its UAS. -/
theorem Chan.pmEndAdd_near (x : Chan) {i : Fin 6} (low : i.val < 3) {a b d f : Nat} {l : List Nat} (is : l = [a, b, d, f]) :
    (x.pmEndAdd 0 i l).reg (pmCur i.val 0) = BitVec.ofNat 32 (min (2 ^ 32 - 1) ((x.reg (pmCur i.val 0)).toNat + a))
    ∧ (x.pmEndAdd 0 i l).reg (pmCur i.val 3) = BitVec.ofNat 32 (min (2 ^ 32 - 1) ((x.reg (pmCur i.val 3)).toNat + f)) := by
  have lane : i.val % 3 = i.val := Nat.mod_eq_of_lt low
  have near : i.val / 3 = 0 := Nat.div_eq_of_lt low
  subst is
  simp only [Chan.pmEndAdd, List.zipIdx_cons, List.zipIdx_nil, List.foldl_cons, List.foldl_nil, Chan.pmAdd_reg, lane, near]
  simp [pmCur]

/-- The unavailability of a channel's ends after its oldest waiting second. -/
def Chan.pmUn (x : Chan) (w : PmWait) (rest : List PmWait) : Vector Bool 6 :=
  Vector.ofFn fun i => pmUnavail x.mlt.unavail[i] ((w :: rest.take 9).map fun e => (pmEnd x.pmEth e.sec i).ses)

/-- A channel whose oldest waiting second is decided. -/
def Chan.pmTaken (x : Chan) (rest : List PmWait) (un : Vector Bool 6) : Chan := { x with mlt := { x.mlt with wait := rest, unavail := un } }

/-- A channel with one more waiting second. -/
def Chan.pmJoined (x : Chan) (v : Vector PmSec 3) : Chan := { x with mlt := { x.mlt with wait := x.mlt.wait ++ [{ sec := v }], sec := min 899 (x.mlt.sec + 1) } }

/-- What the decision on a second makes of a channel. -/
def Chan.pmDecided (x : Chan) (w : PmWait) (rest : List PmWait) : Chan :=
  ((List.finRange 6).foldl (fun y i => y.pmEndAdd w.old i ((pmEnd x.pmEth w.sec i).adds (x.pmUn w rest)[i])) x).pmTaken rest (x.pmUn w rest)

theorem Hw.pmDecide_young {w : PmWait} {rest : List PmWait} (wait : (h.chan c).mlt.wait = w :: rest) (young : rest.length < 10) : h.pmDecide c = h := by
  unfold Hw.pmDecide
  dsimp only
  rw [wait]
  exact if_pos young

theorem Hw.pmDecide_due {w : PmWait} {rest : List PmWait} (wait : (h.chan c).mlt.wait = w :: rest) (due : ¬rest.length < 10) :
    h.pmDecide c = (h.setChan c ((h.chan c).pmDecided w rest)).pmHits c := by
  unfold Hw.pmDecide
  extract_lets x ses
  have is : x.mlt.wait = w :: rest := wait
  rw [is]
  dsimp -zeta only
  refine (if_neg due).trans ?_
  extract_lets un add y
  have unIs : un = x.pmUn w rest := rfl
  have same : y = (List.finRange 6).foldl (fun y i => y.pmEndAdd w.old i ((pmEnd x.pmEth w.sec i).adds (x.pmUn w rest)[i])) x :=
    foldl_congr_of (I := fun y => y.pmEth = x.pmEth) (fun y i eth => ⟨by
      rw [← eth]
      rfl, (y.pmEndAdd_eth _ _ _).trans eth⟩) _ _ rfl
  rw [Chan.pmDecided, ← unIs]
  rw [← unIs] at same
  rw [← same]
  clear_value y
  rfl

theorem Hw.pmSec_runs {v : Vector PmSec 3} (runs : (h.chan c).mlt.run = true) : h.pmSec c v = (h.onChan c (·.pmJoined v)).pmDecide c :=
  if_neg (by rw [runs]; decide)

/-- An end that was available and whose oldest second is no SES stays available (R498). -/
theorem pmUnavail_stays {l : List Bool} (first : false ∈ l) : pmUnavail false l = false := by
  rw [pmUnavail, if_neg (by decide)]
  exact List.all_eq_false.2 ⟨false, first, by decide⟩

theorem Chan.pmUn_stays {w : PmWait} {rest : List PmWait} {i : Fin 6} (was : x.mlt.unavail[i] = false) (ses : (pmEnd x.pmEth w.sec i).ses = false) :
    (x.pmUn w rest)[i] = false := by
  have at_ : (x.pmUn w rest)[i] = pmUnavail x.mlt.unavail[i] ((w :: rest.take 9).map fun e => (pmEnd x.pmEth e.sec i).ses) := by
    simp [Chan.pmUn]
  rw [at_, was]
  exact pmUnavail_stays (List.mem_map.2 ⟨w, List.mem_cons_self, ses⟩)

/-- A lane's ES and UAS after a second in which its near end was available. -/
theorem Chan.pmDecided_near {w : PmWait} {rest : List PmWait} (now : w.old = 0) {i : Fin 6} (low : i.val < 3) (un : (x.pmUn w rest)[i] = false) :
    (x.pmDecided w rest).reg (pmCur i.val 0) = BitVec.ofNat 32 (min (2 ^ 32 - 1) ((x.reg (pmCur i.val 0)).toNat
      + b2n ((pmEnd x.pmEth w.sec i).defect || decide (0 < (pmEnd x.pmEth w.sec i).errored))))
    ∧ (x.pmDecided w rest).reg (pmCur i.val 3) = x.reg (pmCur i.val 3) := by
  let f : Chan → Fin 6 → Chan := fun y i => y.pmEndAdd 0 i ((pmEnd x.pmEth w.sec i).adds (x.pmUn w rest)[i])
  have same : ∀ o, (x.pmDecided w rest).reg o = ((List.finRange 6).foldl f x).reg o := fun o => by
    rw [Chan.pmDecided, now]
    rfl
  have adds : (pmEnd x.pmEth w.sec i).adds (x.pmUn w rest)[i] = [b2n ((pmEnd x.pmEth w.sec i).defect || decide (0 < (pmEnd x.pmEth w.sec i).errored)),
      b2n (pmEnd x.pmEth w.sec i).ses, if (pmEnd x.pmEth w.sec i).ses then 0 else (pmEnd x.pmEth w.sec i).errored, 0] := by
    rw [un]
    rfl
  have others : ∀ k < 4, ∀ (y : Chan) (e : Fin 6), e ≠ i → (f y e).reg (pmCur i.val k) = y.reg (pmCur i.val k) := fun k small y e other =>
    y.pmEndAdd_other low small (fun no => other (Fin.ext no)) (PmEnd.adds_length _ _)
  rw [same, same]
  constructor
  · exact foldl_once f (fun y => y.reg (pmCur i.val 0)) (fun v => BitVec.ofNat 32 (min (2 ^ 32 - 1) (v.toNat
      + b2n ((pmEnd x.pmEth w.sec i).defect || decide (0 < (pmEnd x.pmEth w.sec i).errored))))) i (others 0 (by decide))
      (fun y => (y.pmEndAdd_near low adds).1) _ _ (List.nodup_finRange 6) (List.mem_finRange i)
  · have keeps : ∀ v : Word, BitVec.ofNat 32 (min (2 ^ 32 - 1) (v.toNat + 0)) = v := fun v => by
      have small := v.isLt
      rw [Nat.add_zero, Nat.min_eq_right (by omega), BitVec.ofNat_toNat, BitVec.setWidth_eq]
    refine (foldl_once f (fun y => y.reg (pmCur i.val 3)) (fun v => BitVec.ofNat 32 (min (2 ^ 32 - 1) (v.toNat + 0))) i (others 3 (by decide))
      (fun y => (y.pmEndAdd_near low adds).2) _ _ (List.nodup_finRange 6) (List.mem_finRange i)).trans (keeps _)

theorem Chan.pmDecided_mlt (x : Chan) (w : PmWait) (rest : List PmWait) :
    (x.pmDecided w rest).mlt = { x.mlt with wait := rest, unavail := x.pmUn w rest } := by
  have kept : ∀ (l : List (Fin 6)), (l.foldl (fun y i => y.pmEndAdd w.old i ((pmEnd x.pmEth w.sec i).adds (x.pmUn w rest)[i])) x).mlt = x.mlt :=
    fun l => foldl_keeps _ (fun y : Chan => y.mlt) (fun y i => y.pmEndAdd_mlt _ _ _) l x
  have taken : ∀ y : Chan, y.mlt = x.mlt → (y.pmTaken rest (x.pmUn w rest)).mlt = { x.mlt with wait := rest, unavail := x.pmUn w rest } := fun y same => by
    rw [Chan.pmTaken, same]
  exact taken _ (kept _)

/-- The HIT bits that counts set. -/
def Chan.pmMarked (x : Chan) (new : List (Nat × Nat)) : Chan :=
  new.foldl (fun x e => x.setReg (pmTca e.2) (withField (x.reg (pmTca e.2)) (29 + e.1) (29 + e.1) 1)) x

theorem Chan.pmMarked_mlt (x : Chan) (new : List (Nat × Nat)) : (x.pmMarked new).mlt = x.mlt :=
  foldl_keeps (fun (x : Chan) (e : Nat × Nat) => x.setReg (pmTca e.2) (withField (x.reg (pmTca e.2)) (29 + e.1) (29 + e.1) 1)) (fun y : Chan => y.mlt)
    (fun _ _ => rfl) _ _

theorem Chan.pmMarked_reg (x : Chan) {o : Nat} : ∀ {new : List (Nat × Nat)}, (∀ e ∈ new, o ≠ pmTca e.2) → (x.pmMarked new).reg o = x.reg o
  | [], _ => rfl
  | e :: new, apart => by
    rw [Chan.pmMarked, List.foldl_cons]
    refine (Chan.pmMarked_reg _ fun d mem => apart d (List.mem_cons_of_mem _ mem)).trans ?_
    rw [Chan.reg_setReg, if_neg (apart e List.mem_cons_self)]

/-- The HIT bits follow the counts: what they leave. -/
theorem Hw.pmHits_keeps (h : Hw) (c : ChanId) : (h.pmHits c).Local h c ∧ ((h.pmHits c).chan c).mlt = (h.chan c).mlt
    ∧ ∀ p k, (h.pmHits c).chReg c (pmCur p k) = h.chReg c (pmCur p k) := by
  unfold Hw.pmHits
  extract_lets hit new
  have small : ∀ e ∈ new, e.2 < 8 := fun e mem => by
    obtain ⟨p, -, in_⟩ := List.mem_flatMap.1 (List.mem_filter.1 mem).1
    obtain ⟨k, low, rfl⟩ := List.mem_map.1 in_
    exact List.mem_range.1 low
  split
  next => exact ⟨.refl h c, rfl, fun _ _ => rfl⟩
  next =>
    refine ⟨(Hw.chEvent_local _ c _ _ _).trans (h.onChan_local c _), ?_, fun p k => ?_⟩
    · rw [Hw.evMlt, Hw.chEvent_chan_mlt, Hw.onChan_chan, if_pos rfl]
      exact (h.chan c).pmMarked_mlt new
    · rw [Hw.evMlt, Hw.chEvent_apart _ _ _ _ (by unfold pmCur; omega), Hw.chReg, Hw.onChan_chan, if_pos rfl]
      refine (h.chan c).pmMarked_reg fun e mem => ?_
      have := small e mem
      unfold pmCur pmTca
      omega

/-! ## The end of an interval -/

/-- Counts of the current interval move to the previous one. -/
def Chan.pmMoved (x : Chan) (l : List (Nat × Nat)) : Chan :=
  l.foldl (fun y e => (y.setReg (pmPrv e.1 e.2) (y.reg (pmCur e.1 e.2))).setReg (pmCur e.1 e.2) 0) x

/-- The parameters of the lanes. -/
def pmAll : List (Nat × Nat) := (List.range 3).flatMap fun p => (List.range 8).map fun k => (p, k)

theorem mem_pmAll {e : Nat × Nat} : e ∈ pmAll ↔ e.1 < 3 ∧ e.2 < 8 := by
  obtain ⟨p, k⟩ := e
  simp [pmAll, List.mem_flatMap]

theorem pmAll_nodup : pmAll.Nodup := by decide

theorem Chan.pmMoved_mlt (x : Chan) (l : List (Nat × Nat)) : (x.pmMoved l).mlt = x.mlt :=
  foldl_keeps (fun (y : Chan) (e : Nat × Nat) => (y.setReg (pmPrv e.1 e.2) (y.reg (pmCur e.1 e.2))).setReg (pmCur e.1 e.2) 0) (fun y : Chan => y.mlt)
    (fun _ _ => rfl) _ _

theorem Chan.pmMoved_apart (x : Chan) {o : Nat} : ∀ {l : List (Nat × Nat)}, (∀ e ∈ l, o ≠ pmPrv e.1 e.2 ∧ o ≠ pmCur e.1 e.2) → (x.pmMoved l).reg o = x.reg o
  | [], _ => rfl
  | e :: l, apart => by
    rw [Chan.pmMoved, List.foldl_cons]
    refine (Chan.pmMoved_apart _ fun d mem => apart d (List.mem_cons_of_mem _ mem)).trans ?_
    rw [Chan.reg_setReg, if_neg (apart e List.mem_cons_self).2, Chan.reg_setReg, if_neg (apart e List.mem_cons_self).1]

theorem Chan.pmMoved_reg (x : Chan) {p k : Nat} : ∀ {l : List (Nat × Nat)}, l.Nodup → (∀ e ∈ l, e.1 < 3 ∧ e.2 < 8) → (p, k) ∈ l →
    (x.pmMoved l).reg (pmPrv p k) = x.reg (pmCur p k) ∧ (x.pmMoved l).reg (pmCur p k) = 0
  | e :: l, nodup, small, mem => by
    obtain ⟨new, rest⟩ := List.nodup_cons.1 nodup
    have here := small e List.mem_cons_self
    have less := fun d mem => small d (List.mem_cons_of_mem e mem)
    obtain ⟨lane, par⟩ : p < 3 ∧ k < 8 := small _ mem
    rw [Chan.pmMoved, List.foldl_cons]
    by_cases at_ : (p, k) = e
    · subst at_
      have apart : ∀ d ∈ l, (pmPrv p k ≠ pmPrv d.1 d.2 ∧ pmPrv p k ≠ pmCur d.1 d.2) ∧ pmCur p k ≠ pmPrv d.1 d.2 ∧ pmCur p k ≠ pmCur d.1 d.2 := fun d mem => by
        have other : ¬(d.1 = p ∧ d.2 = k) := fun is => new (by rwa [← is.1, ← is.2])
        have := less d mem
        unfold pmPrv pmCur
        omega
      have both : pmPrv p k ≠ pmCur p k := by
        unfold pmPrv pmCur
        omega
      refine ⟨(Chan.pmMoved_apart _ fun d mem => (apart d mem).1).trans ?_, (Chan.pmMoved_apart _ fun d mem => (apart d mem).2).trans ?_⟩
      · rw [Chan.reg_setReg, if_neg both, Chan.reg_setReg_self]
      · rw [Chan.reg_setReg_self]
    · obtain ⟨prv, cur⟩ := Chan.pmMoved_reg ((x.setReg (pmPrv e.1 e.2) (x.reg (pmCur e.1 e.2))).setReg (pmCur e.1 e.2) 0) rest less
        ((List.mem_cons.1 mem).resolve_left at_)
      have other : ¬(p = e.1 ∧ k = e.2) := fun is => at_ (Prod.ext is.1 is.2)
      have apart : pmCur p k ≠ pmPrv e.1 e.2 ∧ pmCur p k ≠ pmCur e.1 e.2 := by
        unfold pmPrv pmCur
        omega
      refine ⟨prv.trans ?_, cur⟩
      rw [Chan.reg_setReg, if_neg apart.2, Chan.reg_setReg, if_neg apart.1]

/-- The HIT bits of parameters are cleared. -/
def Chan.pmCleared (x : Chan) (l : List Nat) : Chan :=
  l.foldl (fun y k => y.setReg (pmTca k) (withField (y.reg (pmTca k)) 31 29 0)) x

theorem Chan.pmCleared_mlt (x : Chan) (l : List Nat) : (x.pmCleared l).mlt = x.mlt :=
  foldl_keeps (fun (y : Chan) (k : Nat) => y.setReg (pmTca k) (withField (y.reg (pmTca k)) 31 29 0)) (fun y : Chan => y.mlt) (fun _ _ => rfl) _ _

theorem Chan.pmCleared_reg (x : Chan) (o : Nat) (l : List Nat) (nodup : l.Nodup) :
    (∀ k ∈ l, o ≠ pmTca k) → (x.pmCleared l).reg o = x.reg o := by
  intro apart
  induction l generalizing x with
  | nil => rfl
  | cons k l ih =>
    rw [Chan.pmCleared, List.foldl_cons]
    refine (ih _ (List.nodup_cons.1 nodup).2 fun d mem => apart d (List.mem_cons_of_mem _ mem)).trans ?_
    rw [Chan.reg_setReg, if_neg (apart k List.mem_cons_self)]

theorem Chan.pmCleared_tca (x : Chan) {k : Nat} {l : List Nat} (nodup : l.Nodup) (mem : k ∈ l) :
    (x.pmCleared l).reg (pmTca k) = withField (x.reg (pmTca k)) 31 29 0 :=
  foldl_once _ (fun y : Chan => y.reg (pmTca k)) (fun w => withField w 31 29 0) k
    (fun y e other => by
      rw [Chan.reg_setReg, if_neg]
      unfold pmTca
      omega)
    (fun y => by rw [Chan.reg_setReg_self]) l x nodup mem

/-- A channel whose interval has ended. -/
def Chan.pmClosed (x : Chan) (suspect : Bool) : Chan :=
  let m : Mlt := { x.mlt with sec := 0, psus := x.mlt.csus || suspect, csus := false, wait := x.mlt.wait.map fun w => { w with old := w.old + 1 } }
  { x with mlt := m }

theorem Chan.pmClosed_reg (x : Chan) (suspect : Bool) (o : Nat) : (x.pmClosed suspect).reg o = x.reg o := rfl

theorem Chan.pmClosed_st (x : Chan) (suspect : Bool) : (x.pmClosed suspect).st = x.st := rfl

theorem Chan.pmClosed_mlt (x : Chan) (suspect : Bool) :
    (x.pmClosed suspect).mlt.sec = 0 ∧ (x.pmClosed suspect).mlt.csus = false ∧ (x.pmClosed suspect).mlt.psus = (x.mlt.csus || suspect) := ⟨rfl, rfl, rfl⟩

/-- What the end of an interval makes of the registers. -/
def Chan.pmEnded (x : Chan) : Chan := (x.pmMoved pmAll).pmCleared (List.range 8)

theorem Chan.pmEnded_st (x : Chan) : x.pmEnded.st = x.st :=
  (foldl_keeps (fun (y : Chan) (k : Nat) => y.setReg (pmTca k) (withField (y.reg (pmTca k)) 31 29 0)) (fun y : Chan => y.st) (fun _ _ => rfl) _ _).trans
    (foldl_keeps (fun (y : Chan) (e : Nat × Nat) => (y.setReg (pmPrv e.1 e.2) (y.reg (pmCur e.1 e.2))).setReg (pmCur e.1 e.2) 0) (fun y : Chan => y.st)
      (fun _ _ => rfl) _ _)

theorem Chan.pmEnded_mlt (x : Chan) : x.pmEnded.mlt = x.mlt := (Chan.pmCleared_mlt _ _).trans (x.pmMoved_mlt _)

theorem Hw.pmEndIvl_eq (h : Hw) (c : ChanId) (suspect : Bool) :
    h.pmEndIvl c suspect = (h.onChan c fun x => x.pmEnded.pmClosed suspect).evMlt c 0x00800000 := by
  unfold Hw.pmEndIvl Chan.pmEnded Chan.pmClosed Chan.pmMoved Chan.pmCleared pmAll
  rfl

/-- The end of an interval: what it shows (R498, R499). -/
theorem Hw.pmEndIvl_shows (h : Hw) (c : ChanId) (suspect : Bool) (active : (h.chan c).st = .active) :
    (∀ p < 3, ∀ k < 8, (h.pmEndIvl c suspect).chReg c (pmPrv p k) = h.chReg c (pmCur p k) ∧ (h.pmEndIvl c suspect).chReg c (pmCur p k) = 0)
    ∧ (∀ k < 8, fieldOf ((h.pmEndIvl c suspect).chReg c (pmTca k)) 31 29 = 0
      ∧ fieldOf ((h.pmEndIvl c suspect).chReg c (pmTca k)) 19 0 = fieldOf (h.chReg c (pmTca k)) 19 0)
    ∧ ((h.pmEndIvl c suspect).chan c).mlt.sec = 0 ∧ ((h.pmEndIvl c suspect).chan c).mlt.csus = false
    ∧ ((h.pmEndIvl c suspect).chan c).mlt.psus = ((h.chan c).mlt.csus || suspect)
    ∧ bitOf ((h.pmEndIvl c suspect).chReg c 0x9008) 23 = true ∧ (h.pmEndIvl c suspect).Local h c := by
  rw [Hw.pmEndIvl_eq]
  generalize ended : (h.chan c).pmEnded = y
  have run : (h.onChan c fun x => x.pmEnded.pmClosed suspect).chan c = y.pmClosed suspect := by rw [Hw.onChan_chan, if_pos rfl, ended]
  have local_ := h.onChan_local c fun x => x.pmEnded.pmClosed suspect
  generalize (h.onChan c fun x => x.pmEnded.pmClosed suspect) = u at run local_
  have kept : y.mlt = (h.chan c).mlt := by rw [← ended, Chan.pmEnded_mlt]
  obtain ⟨sec, csus, psus⟩ := y.pmClosed_mlt suspect
  have mlt : ((u.evMlt c 0x00800000).chan c).mlt = (y.pmClosed suspect).mlt := by rw [Hw.evMlt, Hw.chEvent_chan_mlt, run]
  have reg : ∀ o, o ≠ 0x9008 → (u.evMlt c 0x00800000).chReg c o = (((h.chan c).pmMoved pmAll).pmCleared (List.range 8)).reg o := fun o other => by
    rw [Hw.evMlt, Hw.chEvent_apart _ _ _ _ other, Hw.chReg, run, Chan.pmClosed_reg, ← ended, Chan.pmEnded]
  have up : (u.chan c).raises = true := raises_of_active (by rw [run, Chan.pmClosed_st, ← ended, Chan.pmEnded_st, active])
  refine ⟨fun p lane k par => ?_, fun k low => ?_, by rw [mlt, sec], by rw [mlt, csus], by rw [mlt, psus, kept], ?_, (Hw.chEvent_local _ c _ _ _).trans local_⟩
  · have far : ∀ o, 0x9040 ≤ o → ∀ k ∈ List.range 8, o ≠ pmTca k := fun o high k mem => by
      have := List.mem_range.1 mem
      unfold pmTca
      omega
    have prvHigh : 0x9040 ≤ pmPrv p k := by unfold pmPrv; omega
    have curHigh : 0x9040 ≤ pmCur p k := by unfold pmCur; omega
    obtain ⟨prv, cur⟩ := (h.chan c).pmMoved_reg (p := p) (k := k) pmAll_nodup (fun e mem => mem_pmAll.1 mem) (mem_pmAll.2 ⟨lane, par⟩)
    rw [reg _ (by omega), reg _ (by omega), Chan.pmCleared_reg _ _ _ List.nodup_range (far _ prvHigh),
      Chan.pmCleared_reg _ _ _ List.nodup_range (far _ curHigh)]
    exact ⟨prv, cur⟩
  · have kept : ((h.chan c).pmMoved pmAll).reg (pmTca k) = h.chReg c (pmTca k) := (h.chan c).pmMoved_apart fun e mem => by
      unfold pmTca pmPrv pmCur
      omega
    rw [reg _ (by unfold pmTca; omega), Chan.pmCleared_tca _ List.nodup_range (List.mem_range.2 low), kept]
    exact ⟨fieldOf_withField_self _ (by decide) (by decide), fieldOf_withField_apart _ _ (by decide) (by decide)⟩
  · rw [Hw.evMlt, Hw.chEvent_chReg up, if_pos rfl, bitOf_evWord _ _ (by decide)]
    exact Bool.or_eq_true_iff.2 (.inr (by decide))

end

/-- A channel put in place of one that has changed. -/
theorem Hw.onChan_setChan (h : Hw) (c : ChanId) (f : Chan → Chan) (x : Chan) :
    ((h.onChan c f).setChan c x).Local h c ∧ ((h.onChan c f).setChan c x).chan c = x :=
  ⟨(Hw.onChan_local (h.onChan c f) c fun _ => x).trans (h.onChan_local c f), by rw [Hw.setChan_chan, if_pos rfl]⟩

/-- Settles O58: a second joins the wait and decides the one that ended ten before it; the end of an interval is one fold over the parameters. -/
theorem performanceCounted : Obligations.PerformanceCounted := by
  refine ⟨fun s c a b d works active => ?_, fun s m c i works active who => ?_⟩
  · intro x
    refine ⟨fun stalled => ?_, fun runs young => ?_, fun w rest p runs wait nine now av ses => ?_⟩
    · have is : s.hw.pmSec c #v[a, b, d] = s.hw.onChan c fun x => { x with mlt := { x.mlt with csus := true } } := if_pos (by rw [stalled]; rfl)
      refine .byOnActive c (fun h => h.pmSec c #v[a, b, d]) rfl works active ?_
      rw [is]
      exact ⟨by rw [Hw.onChan_chan, if_pos rfl], s.hw.onChan_local c _⟩
    · obtain ⟨w, rest, joined⟩ : ∃ w rest, (x.pmJoined #v[a, b, d]).mlt.wait = w :: rest := List.exists_cons_of_ne_nil (List.append_ne_nil_of_right_ne_nil _ (by simp))
      have few : rest.length < 10 := by
        have size := congrArg List.length joined
        simp only [Chan.pmJoined, List.length_append, List.length_cons, List.length_nil] at size
        omega
      refine .byOnActive c (fun h => h.pmSec c #v[a, b, d]) rfl works active ?_
      rw [Hw.pmSec_runs runs, Hw.pmDecide_young (w := w) (by rw [Hw.onChan_chan, if_pos rfl, joined]) few]
      refine ⟨?_, ?_, s.hw.onChan_local c _⟩ <;> rw [Hw.onChan_chan, if_pos rfl] <;> rfl
    · have joined : (x.pmJoined #v[a, b, d]).mlt.wait = w :: (rest ++ [{ sec := #v[a, b, d] }]) := by
        rw [Chan.pmJoined, wait]
        rfl
      let i : Fin 6 := ⟨p.val, by omega⟩
      have un : ((x.pmJoined #v[a, b, d]).pmUn w (rest ++ [{ sec := #v[a, b, d] }]))[i] = false := Chan.pmUn_stays av ses
      have near := Chan.pmDecided_near (x := x.pmJoined #v[a, b, d]) now (i := i) p.isLt un
      have mlt := (x.pmJoined #v[a, b, d]).pmDecided_mlt w (rest ++ [{ sec := #v[a, b, d] }])
      refine .byOnActive c (fun h => h.pmSec c #v[a, b, d]) rfl works active ?_
      rw [Hw.pmSec_runs runs, Hw.pmDecide_due (w := w) (rest := rest ++ [{ sec := #v[a, b, d] }]) (by rw [Hw.onChan_chan, if_pos rfl, joined])
        (by rw [List.length_append, nine, List.length_singleton]; decide), Hw.onChan_chan, if_pos rfl]
      obtain ⟨here, chan⟩ := s.hw.onChan_setChan c (·.pmJoined #v[a, b, d]) ((x.pmJoined #v[a, b, d]).pmDecided w (rest ++ [{ sec := #v[a, b, d] }]))
      generalize (s.hw.onChan c (·.pmJoined #v[a, b, d])).setChan c ((x.pmJoined #v[a, b, d]).pmDecided w (rest ++ [{ sec := #v[a, b, d] }])) = u at here chan ⊢
      obtain ⟨local_, kept, counts⟩ := u.pmHits_keeps c
      rw [pmEnd_near p.isLt] at near
      rw [counts, counts, Hw.chReg, Hw.chReg, kept, chan, mlt]
      exact ⟨near.1, near.2, rfl, un, local_.trans here⟩
  · have run : Completes i s fun t => ∃ h : Hw, h.Local s.hw c ∧ h.chan c = s.hw.chan c ∧ t = h.pmEndIvl c (decide (i = .pmSync m c)) := by
      rcases who with rfl | ⟨rfl, reach⟩
      · exact .byOnActive c (fun h => h.pmEndIvl c false) rfl works active ⟨s.hw, .refl _ c, rfl, by rw [decide_eq_false nofun]⟩
      · refine .byLive (fun h => pmctlWrite h m c 0x80000000) rfl works ⟨s.hw.bmx m.id 0, Hw.bmx_local _ _ _ c, Hw.bmx_chan .., ?_⟩
        rw [decide_eq_true rfl, pmctlWrite, chBeat_active reach (Hw.lacks_plain _ _) active]
        exact if_pos (by rw [Hw.bmx_chan, Chan.isActive, active]; decide)
    refine run.mono fun t ⟨h, local_, chan, is⟩ => ?_
    have reg : ∀ o, s.hw.chReg c o = h.chReg c o := fun o => by rw [Hw.chReg, Hw.chReg, chan]
    obtain ⟨moved, cleared, sec, csus, psus, flag, here⟩ := h.pmEndIvl_shows c (decide (i = .pmSync m c)) (by rw [chan, active])
    rw [← is] at moved cleared sec csus psus flag here
    simp only [reg]
    exact ⟨moved, cleared, sec, csus, by rw [psus, chan], flag, here.trans local_⟩

end Sys2Proof.Machine
end

section
/-!
PROOF. The supervisor (O50): clearing the quarantine of one channel can move the record register of another, whose quarantine names a cause
that lies in the first.
-/
namespace Sys2Proof.Machine

/-- The module in RUN. Channel 1 is quarantined, its reaction has completed, its RED lane is in LOS, and SYN_B is ACQUIRING; the cause of
channel 0's quarantine is that channel 1's SYN_B is ACQUIRING. -/
def causeElsewhere : State :=
  { pending := []
    hw := {
      dev := { boot := { st := .run } }
      chans := ((Vector.replicate 48 {}).set 0 { flt := { hQuar := true, hq := { cause := mkMsg 1 8 clsH 0x41 0 } } }).set 1
        { st := .active, red := { defects := 0x8000 }, tim := { b := { st := .acquiring } }
          flt := { hQuar := true, hq := { done := true, cause := mkMsg 1 8 clsH 0x40 0 } } } } }

theorem causeElsewhere_meets : causeElsewhere.hw.works = true ∧ causeElsewhere.hw.supervises 1 = true ∧ (causeElsewhere.hw.chan 1).flt.hQuar = true
    ∧ (causeElsewhere.hw.chan 1).flt.hq.done = true ∧ causeElsewhere.hw.causePresent (causeElsewhere.hw.chan 1).flt.hq.cause = false := by decide

set_option maxRecDepth 10000 in
/-- Channel 1's receive paths start again, its RED candidate fails, SYN_B falls to FREE_RUN, and QCOND of channel 0 falls (R364, R365). -/
theorem causeElsewhere_moves : (((causeElsewhere.hw.recover (.chan 1)).settle causeElsewhere.hw allChans).chan 0).flt.seq = 1 := by decide

/-- A step whose effect stays with one channel leaves every other. -/
theorem chan_of_local {i : Instr} {s t : State} {h : Hw} {c d : ChanId} (is : exec i s = .next { s with hw := h }) (run : exec i s = .next t)
    (here : t.hw.Local s.hw c) (other : d ≠ c) : h.chan d = s.hw.chan d := by
  obtain rfl := Host.Outcome.next.inj (is.symm.trans run)
  exact here.others d other

/-- Refutes O50: the clause that a recovery of one channel changes nothing of another fails where another channel's cause lies in it. -/
theorem not_supervisorActs : ¬ Obligations.SupervisorActs := by
  intro ⟨_, recovers, _⟩
  obtain ⟨works, supervises, quar, done, absent⟩ := causeElsewhere_meets
  obtain ⟨t, run, -, -, -, -, local_⟩ := (recovers causeElsewhere 1 works supervises quar done).2 absent
  have is : exec (.supervisorRecover (.chan 1)) causeElsewhere
      = .next { causeElsewhere with hw := (causeElsewhere.hw.recover (.chan 1)).settle causeElsewhere.hw allChans } :=
    live_on (f := fun h => (h.recover (.chan 1)).settle h allChans) works
  have moved := causeElsewhere_moves
  rw [chan_of_local is run local_ (by decide)] at moved
  exact absurd moved (by decide)

end Sys2Proof.Machine
end

section
/-!
PROOF. Reactions (O48): the quarantine of a channel drops the entry of a circuit whose enable it undoes before it looks for work to free, so
that a block stored for that circuit stays.
-/
namespace Sys2Proof.Machine

/-- A channel whose H record has closed. -/
def Chan.hClosed (x : Chan) : Chan := { x with flt := { x.flt with h := { x.flt.h with pend := false } } }

/-- A channel under an H quarantine whose reaction has begun. -/
def Chan.hReacted (x : Chan) (m : BitVec 64) : Chan := { x with flt := { x.flt with hQuar := true, hq := { cause := m, window := true } } }

section
variable {h : Hw} {c : ChanId}

theorem Hw.reactChan_active (active : (h.chan c).st = .active) (m : BitVec 64) :
    h.reactChan c m = ((h.onChan c Chan.hClosed).chanCut c).onChan c (·.hReacted m) := by
  have st : ((h.onChan c Chan.hClosed).chan c).st = .active := by rw [Hw.onChan_chan, if_pos rfl]; exact active
  have is : h.reactChan c m = (match ((h.onChan c Chan.hClosed).chan c).st with
    | .active => ((h.onChan c Chan.hClosed).chanCut c).onChan c (·.hReacted m)
    | .starting => (h.onChan c Chan.hClosed).startStop c
    | _ => h.onChan c Chan.hClosed) := rfl
  rw [is, st]

theorem Hw.hExpire_active (active : (h.chan c).st = .active) (pend : (h.chan c).flt.h.pend = true) :
    h.hExpire c = ((h.onChan c Chan.hClosed).chanCut c).onChan c (·.hReacted (h.chan c).flt.h.msg) :=
  (if_pos pend).trans (Hw.reactChan_active active _)

theorem Hw.levels_store (h : Hw) (c : ChanId) : ((h.levels c).chan c).store = (h.chan c).store :=
  Hw.levels_keeps h c (fun u => (u.chan c).store) (fun u off w => by simp) (by simp)

theorem Hw.hExpire_store (active : (h.chan c).st = .active) (pend : (h.chan c).flt.h.pend = true) :
    (((h.hExpire c).settle h [c]).chan c).store = (((h.onChan c Chan.hClosed).chanCut c).chan c).store := by
  rw [Hw.settle_chan_store, Hw.hExpire_active active pend, Hw.onChan_chan, if_pos rfl]
  rfl

end

/-- A block in the deep store of circuit 5. -/
def storedBlock : DsEnt := { circ := 5, seq := 0, path := .bkw, format := 0, ect := 0, body := [1], tout := 0 }

/-- The module in RUN. On channel 0, whose H record is PENDING, an enable of circuit 5, of whose entry EN alone is set, is in progress, and the
deep store holds a block of it. -/
def enableUnderWay : State :=
  { pending := []
    hw := {
      dev := { boot := { st := .run } }
      chans := (Vector.replicate 48 {}).set 0
        { st := .active, circ := [(5, { w0 := 0x80000000 })], map := { tpOp := some (.enable 5) }, store := [storedBlock], flt := { h := { pend := true } } } } }

theorem enableUnderWay_meets : enableUnderWay.hw.works = true ∧ (enableUnderWay.hw.chan 0).st = .active ∧ (enableUnderWay.hw.chan 0).flt.h.pend = true
    ∧ storedBlock.circ.toNat ∈ (enableUnderWay.hw.chan 0).circ.map (·.1) := by decide

set_option maxRecDepth 10000 in
/-- The enable is undone and the entry gone (R362), and the block is not freed. -/
theorem enableUnderWay_keeps : (((enableUnderWay.hw.onChan 0 Chan.hClosed).chanCut 0).chan 0).store = [storedBlock] :=
  (Hw.levels_store _ _).trans (by decide)

theorem next_hw {i : Instr} {s t : State} {h : Hw} (is : exec i s = .next { s with hw := h }) (run : exec i s = .next t) : h = t.hw := by
  obtain rfl := Host.Outcome.next.inj (is.symm.trans run)
  rfl

/-- Refutes O48: the clause that the quarantine of a channel frees every block of a listed circuit fails where it undoes the circuit's enable. -/
theorem not_recordTimersReact : ¬ Obligations.RecordTimersReact := by
  intro ⟨expires, _⟩
  obtain ⟨works, active, pend, listed⟩ := enableUnderWay_meets
  obtain ⟨-, -, -, reacts⟩ := expires enableUnderWay 0 works
  obtain ⟨t, run, -, -, -, -, -, -, -, -, -, freed, -⟩ := reacts active pend
  have is : exec (.hTimerExpire 0) enableUnderWay = .next { enableUnderWay with hw := (enableUnderWay.hw.hExpire 0).settle enableUnderWay.hw [0] } :=
    live_on (f := fun h => (h.hExpire 0).settle h [0]) works
  have stays := (Hw.hExpire_store active pend).trans enableUnderWay_keeps
  rw [next_hw is run] at stays
  exact freed storedBlock (by rw [stays]; exact List.mem_singleton_self _) listed rfl

end Sys2Proof.Machine
end

section
/-!
PROOF. What the cut of a channel’s work leaves: the records, and everything beyond the channel (R362).
-/
namespace Sys2Proof.Machine

/-! ## The work of a channel is cut (R362) -/

/-- The D record, and the quarantine over the module. -/
def Fcl.dRec (f : Fcl) : Rec × Bool × Reaction := (f.d, f.dQuar, f.dq)

/-- A part of a reaction on channel `c`: beyond the channel nothing has changed, the records stand, and no command of the channel's has started. -/
structure Hw.Cuts (t h : Hw) (c : ChanId) : Prop where
  here : t.Local h c
  flt : (t.chan c).flt = (h.chan c).flt
  dRec : t.dev.fcl.dRec = h.dev.fcl.dRec
  run : (t.chan c).q.run ⊆ (h.chan c).q.run

section
variable {t u h : Hw} {c : ChanId}

theorem Hw.Cuts.refl (h : Hw) (c : ChanId) : h.Cuts h c := ⟨.refl h c, rfl, rfl, List.Subset.refl _⟩

theorem Hw.Cuts.trans (a : t.Cuts u c) (b : u.Cuts h c) : t.Cuts h c :=
  ⟨a.here.trans b.here, a.flt.trans b.flt, a.dRec.trans b.dRec, List.Subset.trans a.run b.run⟩

theorem Hw.Cuts.ite {p : Prop} [Decidable p] (a : t.Cuts h c) (b : u.Cuts h c) : (if p then t else u).Cuts h c := by split <;> assumption

theorem Hw.foldl_cuts {α : Type} (f : Hw → α → Hw) (each : ∀ h a, (f h a).Cuts h c) : ∀ (l : List α) (h : Hw), (l.foldl f h).Cuts h c
  | [], h => .refl h c
  | a :: l, h => (Hw.foldl_cuts f each l (f h a)).trans (each h a)

theorem Hw.onChan_cuts (h : Hw) (c : ChanId) {f : Chan → Chan} (flt : (f (h.chan c)).flt = (h.chan c).flt) (q : (f (h.chan c)).q = (h.chan c).q) :
    (h.onChan c f).Cuts h c := by
  refine ⟨h.onChan_local c f, ?_, rfl, ?_⟩ <;> rw [Hw.onChan_chan, if_pos rfl]
  · exact flt
  · rw [q]
    exact List.Subset.refl _

theorem Hw.onCirc_cuts (h : Hw) (c : ChanId) (k : CircId) (f : Circ → Circ) : (h.onCirc c k f).Cuts h c := h.onChan_cuts c rfl rfl

theorem Fcl.enter_dRec (f : Fcl) (m : BitVec 64) (ts : BitVec 40) (now : Nat) : (f.enter m ts now).dRec = f.dRec := by
  unfold Fcl.enter Fcl.coalesce
  dsimp only
  split <;> rfl

theorem Hw.raiseAny_dRec (h : Hw) (m : BitVec 64) : (h.raiseAny m).dev.fcl.dRec = h.dev.fcl.dRec := by
  unfold Hw.raiseAny
  split
  · rfl
  · exact Fcl.enter_dRec _ _ _ _

theorem Hw.raiseChan_cuts (h : Hw) (c : ChanId) (u k n a : Nat) : (h.raiseChan c u k n a).Cuts h c := by
  refine ⟨h.raiseChan_local c c u k n a, by simp, ?_, by simp⟩
  unfold Hw.raiseChan
  split
  · exact h.raiseAny_dRec _
  · rfl

theorem Hw.chEvent_cuts (h : Hw) (c : ChanId) (off j : Nat) (fl : Word) : (h.chEvent c off j fl).Cuts h c :=
  ⟨h.chEvent_local c off j fl, by simp, by simp, by simp⟩

theorem Hw.level_cuts (h : Hw) (c : ChanId) (q n : Nat) : (h.level c q n).Cuts h c :=
  ⟨(h.level_beside c q n).here, Hw.level_keeps (fun u => (u.chan c).flt) c (by simp) (by simp) h q n,
    congrArg Fcl.dRec (Hw.level_keeps (·.dev.fcl) c (by simp) (by simp) h q n),
    by rw [Hw.level_keeps (fun u => (u.chan c).q) c (by simp) (by simp) h q n]; exact List.Subset.refl _⟩

theorem Hw.qLevels_cuts (h : Hw) (c : ChanId) : (h.qLevels (.chan c)).Cuts h c := (Hw.level_cuts _ c _ _).trans (h.level_cuts c _ _)

theorem Hw.levels_cuts (h : Hw) (c : ChanId) : (h.levels c).Cuts h c :=
  ⟨h.levels_local c, h.levels_keeps c (fun u => (u.chan c).flt) (by simp) (by simp), congrArg Fcl.dRec (h.levels_keeps c (·.dev.fcl) (by simp) (by simp)),
    by rw [h.levels_keeps c (fun u => (u.chan c).q) (by simp) (by simp)]; exact List.Subset.refl _⟩

/-- What a channel's started commands are beside its completions. -/
theorem besideBank_run (c : ChanId) : BesideBank (fun h => (h.chan c).q.run) (.chan c) :=
  ⟨fun h m f => by rw [Hw.onQueue_chan_q, CmdQ.onBank_run], fun _ _ => rfl, by simp, fun _ => rfl, by simp⟩

theorem besideQueue_rec (port : Port) : BesideQueue (fun h => h.dev.fcl.dRec) port :=
  besideQueue_dev (·.fcl.dRec) port (fun _ _ => rfl) (fun _ _ => rfl) (by simp) (by simp)

theorem Hw.onQueue_cuts (h : Hw) (c : ChanId) {f : CmdQ → CmdQ} (run : (f (h.chan c).q).run ⊆ (h.chan c).q.run) : (h.onQueue (.chan c) f).Cuts h c :=
  ⟨(h.onQueue_beside (.inr rfl) f).here, (besideQueue_flt c c).own h f, (besideQueue_rec _).own h f, by rw [Hw.onQueue_chan_q]; exact run⟩

theorem Hw.complete_cuts (h : Hw) (c : ChanId) (x : Cmd) (status reason result : Nat) : (h.complete (.chan c) x status reason result).Cuts h c :=
  ⟨(h.complete_beside c x status reason result).here, (besideQueue_flt c c).complete h x _ _ _, (besideQueue_rec _).complete h x _ _ _,
    by rw [(besideBank_run c).complete h x status reason result]; exact List.Subset.refl _⟩

theorem Hw.finish_cuts (h : Hw) (c : ChanId) (sel : Cmd → Bool) (status reason result : Nat) : (h.finish (.chan c) sel status reason result).Cuts h c :=
  (Hw.qLevels_cuts _ c).trans ((Hw.foldl_cuts _ (fun h x => h.complete_cuts c x _ _ _) _ _).trans
    (h.onQueue_cuts c (f := fun q => { q with run := q.run.filter fun x => !(x.held && sel x) }) List.filter_sublist.subset))

theorem Hw.discardIf_cuts (h : Hw) (c : ChanId) (sel : Cmd → Bool) : (h.discardIf (.chan c) sel).Cuts h c :=
  (Hw.foldl_cuts _ (fun h x => h.complete_cuts c x _ _ _) _ _).trans
    (h.onQueue_cuts c (f := fun q => { q with run := q.run.filter fun x => !sel x, wait := q.wait.filter fun x => !sel x }) List.filter_sublist.subset)

theorem Hw.discardAll_cuts (h : Hw) (c : ChanId) : (h.discardAll (.chan c)).Cuts h c :=
  (Hw.onQueue_cuts _ c (f := fun q => { q with busyTill := 0 }) (List.Subset.refl _)).trans (h.discardIf_cuts c _)

/-- Every command of a channel has gone. -/
theorem Hw.discardAll_run (h : Hw) (c : ChanId) : ((h.discardAll (.chan c)).chan c).q.run = [] := by
  rw [Hw.discardAll, Hw.onQueue_chan_q]
  have kept : ∀ (l : List Cmd) (u : Hw), ((l.foldl (fun h x => h.complete (.chan c) x stDiscarded 0 0) u).chan c).q.run = (u.chan c).q.run := fun l u =>
    foldl_keeps _ (fun u : Hw => (u.chan c).q.run) (fun h x => (besideBank_run c).complete h x _ _ _) l u
  refine (kept _ _).trans ?_
  rw [Hw.onQueue_chan_q]
  exact List.filter_eq_nil_iff.2 fun _ _ => by simp

theorem Hw.setClear_cuts (h : Hw) (c : ChanId) (k : CircId) (on : Bool) : (h.setClear c k on).Cuts h c :=
  .ite (h.onCirc_cuts c k _) ((Hw.chEvent_cuts _ c _ _ _).trans ((Hw.raiseChan_cuts _ c _ _ _ _).trans (h.onCirc_cuts c k _)))

theorem Chan.cutWork_flt (x : Chan) (gone : DsEnt → Bool) (cause : BitVec 4) (k : CircId) (y : Circ) (sel : KsEnt → Bool) (unit : Nat → Bool) :
    ((((x.freeStore gone cause).setCirc k y).ksFlushAll sel).cvuDrop unit).flt = x.flt
    ∧ ((((x.freeStore gone cause).setCirc k y).ksFlushAll sel).cvuDrop unit).q = x.q := ⟨rfl, rfl⟩

theorem Hw.cutCirc_cuts (h : Hw) (c : ChanId) (k : CircId) (cause : BitVec 4) : (h.cutCirc c k cause).Cuts h c := by
  unfold Hw.cutCirc
  exact (Hw.onChan_cuts (h.setClear c k false) c (Chan.cutWork_flt ..).1 (Chan.cutWork_flt ..).2).trans (h.setClear_cuts c k false)

theorem Hw.onCtx_cuts (h : Hw) (c : ChanId) (n : Nat) (f : Ctx → Ctx) : (h.onCtx c n f).Cuts h c := h.onChan_cuts c rfl rfl

theorem Hw.onCtxCircs_cuts (h : Hw) (c : ChanId) (n : Nat) (f : Circ → Circ) : (h.onCtxCircs c n f).Cuts h c := h.onChan_cuts c rfl rfl

theorem Hw.switchDone_cuts (h : Hw) (c : ChanId) (n : Nat) : (h.switchDone c n).Cuts h c :=
  (Hw.finish_cuts _ c _ _ _ _).trans ((Hw.chEvent_cuts _ c _ _ _).trans ((Hw.onCtxCircs_cuts _ c n _).trans (h.onCtx_cuts c n _)))

theorem Hw.switchCheck_cuts (h : Hw) (c : ChanId) (n : Nat) : (h.switchCheck c n).Cuts h c := .ite (h.switchDone_cuts c n) (.refl h c)

theorem Hw.switchCancel_cuts (h : Hw) (c : ChanId) (n status reason : Nat) : (h.switchCancel c n status reason).Cuts h c :=
  .ite (.refl h c) ((Hw.finish_cuts _ c _ _ _ _).trans ((Hw.chEvent_cuts _ c _ _ _).trans ((Hw.raiseChan_cuts _ c _ _ _ _).trans
    ((Hw.onCtxCircs_cuts _ c n _).trans (h.onCtx_cuts c n _)))))

theorem Hw.Follows.cuts (follows : t.Follows h c) : t.Cuts h c := by
  obtain ⟨_, _, _, _, is⟩ := follows.chan
  exact ⟨follows.here, by rw [is], by rw [follows.fcl], by rw [is]; exact List.Subset.refl _⟩

theorem Hw.switched_cuts (h : Hw) (c : ChanId) (left : Path) : (h.switched c left).Cuts h c :=
  (Hw.reselect_follows _ c).cuts.trans ((Hw.onChan_cuts _ c rfl rfl).trans ((Hw.onChan_cuts _ c rfl rfl).trans (h.chEvent_cuts c _ _ _)))

theorem Hw.pswTake_cuts (h : Hw) (c : ChanId) (p : Psw) : (h.pswTake c p).Cuts h c := by
  have set_ : (h.pswSet c p).Cuts h c := h.onChan_cuts c rfl rfl
  have told : ((h.pswSet c p).exerToldIf h c p).Cuts h c :=
    Hw.Cuts.ite ((Hw.finish_cuts _ c _ _ _ _).trans ((Hw.chEvent_cuts _ c _ _ _).trans set_)) set_
  rw [Hw.pswTake_eq]
  exact .ite told ((Hw.switched_cuts _ c _).trans told)

theorem Hw.pswReset_cuts (h : Hw) (c : ChanId) : (h.pswReset c).Cuts h c := h.pswTake_cuts c _

theorem Chan.tpEnd_flt (x : Chan) : x.tpEnd.flt = x.flt ∧ x.tpEnd.q = x.q := by
  cases busy : x.map.tpOp with
  | none => unfold Chan.tpEnd; rw [busy]; exact ⟨rfl, rfl⟩
  | some o =>
    rw [Chan.tpEnd_eq busy]
    unfold Chan.tpStepped
    split <;> exact ⟨rfl, rfl⟩

theorem Chan.tpDrop_flt (x : Chan) : x.tpDrop.flt = x.flt ∧ x.tpDrop.q = x.q := by
  unfold Chan.tpDrop
  extract_lets y
  have same : y.flt = x.flt ∧ y.q = x.q := by
    unfold y
    split <;> exact ⟨rfl, rfl⟩
  exact ⟨(Chan.tpEnd_flt _).1.trans same.1, (Chan.tpEnd_flt _).2.trans same.2⟩

theorem Chan.tpFree_flt (x : Chan) (owner : BitVec 3) : (x.tpFree owner).flt = x.flt ∧ (x.tpFree owner).q = x.q := by
  unfold Chan.tpFree
  split <;> exact ⟨rfl, rfl⟩

theorem Chan.swapAbandon_flt (x : Chan) : x.swapAbandon.flt = x.flt ∧ x.swapAbandon.q = x.q := by
  unfold Chan.swapAbandon
  split <;> exact ⟨rfl, rfl⟩

/-- A channel whose swap and check values are dropped, whose keystream is flushed, and whose Malot starts again. -/
theorem Chan.afresh_flt (x : Chan) (prog : List Byte) (now : Nat) :
    let y := (x.swapAbandon.cvuDrop fun _ => true).ksFlushAll fun _ => true
    let z : Chan := { y with cph := { y.cph with kbuf := [] }, mlt := { y.mlt with run := true, prog := prog, hb := 0, hbAt := now, csus := true } }
    (z.tpFree 4).flt = x.flt ∧ (z.tpFree 4).q = x.q := by
  intro y z
  have same : y.flt = x.flt ∧ y.q = x.q := x.swapAbandon_flt
  exact ⟨(z.tpFree_flt 4).1.trans same.1, (z.tpFree_flt 4).2.trans same.2⟩

theorem Hw.chanCut_cuts (h : Hw) (c : ChanId) : (h.chanCut c).Cuts h c ∧ ((h.chanCut c).chan c).q.run = [] := by
  have first := h.discardAll_cuts c
  have none_ := h.discardAll_run c
  unfold Hw.chanCut
  generalize h.discardAll (.chan c) = u at first none_
  extract_lets h1 h2 h3 h4 h5
  have a1 : h1.Cuts u c := u.qLevels_cuts c
  have a2 : h2.Cuts h1 c := h1.onChan_cuts c (Chan.tpDrop_flt _).1 (Chan.tpDrop_flt _).2
  have a3 : h3.Cuts h2 c := Hw.foldl_cuts _ (fun h (e : Nat × Ctx) => h.switchCancel_cuts c e.1 _ _) _ _
  have a4 : h4.Cuts h3 c := Hw.foldl_cuts _ (fun h (e : Nat × Circ) => (Hw.onCirc_cuts _ c _ _).trans (h.cutCirc_cuts c _ _)) _ _
  have a5 : h5.Cuts h4 c := by
    clear_value h4
    exact h4.onChan_cuts c (Chan.afresh_flt (h4.chan c) _ _).1 (Chan.afresh_flt (h4.chan c) _ _).2
  have all := (Hw.levels_cuts _ c).trans ((h5.pswReset_cuts c).trans (a5.trans (a4.trans (a3.trans (a2.trans a1)))))
  exact ⟨all.trans first, List.eq_nil_of_subset_nil (none_ ▸ all.run)⟩

end

end Sys2Proof.Machine
end

section
/-!
PROOF. Operations on records, and the reactions and ends of quarantines they order (O49).
-/
namespace Sys2Proof.Machine

/-! ## The quarantine of a circuit (R362) -/

/-- What marks a circuit: its quarantine, and that it runs. -/
def Circ.mark (y : Circ) : Bool × Bool := (y.quar, y.live)

/-- A channel whose C record has closed. -/
def Chan.cClosed (x : Chan) : Chan := { x with flt := { x.flt with c := { x.flt.c with pend := false } } }

/-- A channel with a circuit under quarantine whose reaction has begun. -/
def Chan.circReacted (x : Chan) (k : CircId) (m : BitVec 64) : Chan :=
  { x with flt := { x.flt with cq := tput {} x.flt.cq k.toNat { cause := m, window := true } } }

section
variable {t u h : Hw} {c : ChanId} {k : CircId}

theorem Hw.switchDone_mark (h : Hw) (c : ChanId) (n : Nat) (k : CircId) : (((h.switchDone c n).chan c).circ! k).mark = ((h.chan c).circ! k).mark := by
  have beside : BesideQueue (fun h => ((h.chan c).circ! k).mark) (.chan c) := (besideQueue_circ c c).map fun t => (tget ({} : Circ) t k.toNat).mark
  unfold Hw.switchDone
  extract_lets t h1 h2
  refine (beside.finish _ _ _ _ _).trans ?_
  have told : ((h2.evCph c 0x00100000).chan c).circ = (h2.chan c).circ := by simp [Hw.evCph]
  rw [Chan.circ!, told]
  have same : (tget {} (h2.chan c).circ k.toNat).mark = (tget {} (h1.chan c).circ k.toNat).mark := by
    simp only [h2, Hw.onCtxCircs, Hw.onChan_chan, if_true]
    refine tget_map_keeps ({} : Circ) _ Circ.mark (fun e => ?_) (fun e => ?_) k.toNat _ <;> split <;> rfl
  refine same.trans ?_
  simp [h1, Chan.circ!]

theorem Hw.switchCheck_mark (h : Hw) (c : ChanId) (n : Nat) (k : CircId) : (((h.switchCheck c n).chan c).circ! k).mark = ((h.chan c).circ! k).mark :=
  ite_keeps (p := fun u => ((u.chan c).circ! k).mark) (h.switchDone_mark c n k) rfl

theorem besideQueue_map (c d : ChanId) : BesideQueue (fun h => (h.chan d).map) (.chan c) :=
  ⟨fun h _ => by simp only [Hw.onQueue, Hw.onChan_chan]; split <;> [(subst_vars; rfl); rfl], fun _ _ => rfl, by simp, fun _ => rfl, by simp⟩

theorem Chan.cutWork_map (x : Chan) (gone : DsEnt → Bool) (cause : BitVec 4) (k : CircId) (y : Circ) (sel : KsEnt → Bool) (unit : Nat → Bool) :
    ((((x.freeStore gone cause).setCirc k y).ksFlushAll sel).cvuDrop unit).map = x.map := rfl

theorem Hw.cutCirc_map (h : Hw) (c : ChanId) (k : CircId) (cause : BitVec 4) : ((h.cutCirc c k cause).chan c).map = (h.chan c).map := by
  have clear : ((h.setClear c k false).chan c).map = (h.chan c).map :=
    Hw.setClear_keeps (p := fun u => (u.chan c).map) h c k false (by simp [Hw.onCirc, Chan.setCirc]) (by simp) (by simp)
  unfold Hw.cutCirc
  rw [Hw.onChan_chan, if_pos rfl]
  exact (Chan.cutWork_map ..).trans clear

/-- The quarantine of a circuit that is enabled, while no operation of the table port is in progress. -/
theorem Hw.reactCirc_shows (active : (h.chan c).st = .active) (en : ((h.chan c).circ! k).en = true) (free : (h.chan c).map.tpOp = none) (m : BitVec 64) :
    (h.reactCirc c k m).Local h c ∧ (((h.reactCirc c k m).chan c).circ! k).mark = (true, false) ∧ ((h.reactCirc c k m).chan c).flt.c.pend = false := by
  unfold Hw.reactCirc
  extract_lets h1 x h2 h3 h4 h5
  have closed : h1.chan c = (h.chan c).cClosed := by simp [h1, Chan.cClosed]
  have go : ¬(!x.isActive || !(x.circ! k).en) = true := by
    have runs : x.isActive = true := by simp [x, closed, Chan.isActive, Chan.cClosed, active]
    have on : (x.circ! k).en = true := by simp only [x, closed]; exact en
    rw [runs, on]
    decide
  rw [if_neg go]
  have cut : h4.Cuts h1 c := (Hw.onCirc_cuts _ c k _).trans ((h2.cutCirc_cuts c k 4).trans ((Hw.qLevels_cuts _ c).trans (h1.discardIf_cuts c _)))
  have map : (h4.chan c).map = (h.chan c).map := by
    have marked : (h4.chan c).map = (h3.chan c).map := by simp [h4, Hw.onCirc, Chan.setCirc]
    refine marked.trans ((h2.cutCirc_map c k 4).trans (((besideQueue_map c c).levels _).trans (((besideQueue_map c c).discardIf h1 _).trans ?_)))
    rw [closed]
    rfl
  have mark : ((h4.chan c).circ! k).mark = (true, false) := by simp [h4, Circ.mark]
  clear_value h4
  have kept : h5 = h4.onChan c (·.circReacted k m) := Hw.onChan_congr (by
    have off : (h4.chan c).tpOn k = false := by
      rw [Chan.tpOn, map, free]
      rfl
    dsimp only
    rw [off]
    rfl)
  have last := (Hw.levels_cuts (h5.switchCheck c (x.circ! k).kctx) c).trans (h5.switchCheck_cuts c (x.circ! k).kctx)
  have still : (((h5.switchCheck c (x.circ! k).kctx).levels c).chan c).circ! k = ((h5.switchCheck c (x.circ! k).kctx).chan c).circ! k := Chan.circ_congr (Hw.levels_circ _ c) k
  refine ⟨last.here.trans ?_, ?_, ?_⟩
  · rw [kept]
    exact (h4.onChan_local c _).trans (cut.here.trans (h.onChan_local c _))
  · rw [still, Hw.switchCheck_mark, kept, Hw.onChan_chan, if_pos rfl]
    exact mark
  · rw [last.flt, kept, Hw.onChan_chan, if_pos rfl]
    change (h4.chan c).flt.c.pend = false
    rw [cut.flt, closed]
    rfl

/-! ## The class D reaction (R362) -/

/-- Every other channel than `d`, and the D record, stand. -/
structure Hw.Spares (t h : Hw) (d : ChanId) : Prop where
  others : ∀ c, c ≠ d → t.chan c = h.chan c
  dRec : t.dev.fcl.dRec = h.dev.fcl.dRec

theorem Hw.Spares.refl (h : Hw) (d : ChanId) : h.Spares h d := ⟨fun _ _ => rfl, rfl⟩

theorem Hw.Spares.trans {d : ChanId} (a : t.Spares u d) (b : u.Spares h d) : t.Spares h d :=
  ⟨fun c other => (a.others c other).trans (b.others c other), a.dRec.trans b.dRec⟩

theorem Hw.Cuts.spares (cuts : t.Cuts h c) : t.Spares h c := ⟨cuts.here.others, cuts.dRec⟩

theorem Hw.onChan_spares (h : Hw) (c : ChanId) (f : Chan → Chan) : (h.onChan c f).Spares h c := ⟨(h.onChan_local c f).others, rfl⟩

theorem Hw.onPower_spares (h : Hw) (c : ChanId) (f : Power → Power) : (h.onPower f).Spares h c := ⟨fun _ _ => rfl, rfl⟩

theorem Hw.finish_device_spares (h : Hw) (c : ChanId) (sel : Cmd → Bool) (status reason result : Nat) : (h.finish .device sel status reason result).Spares h c :=
  ⟨fun d _ => (besideQueue_chan d).finish h sel _ _ _, (besideQueue_rec _).finish h sel _ _ _⟩

theorem Hw.discardIf_device_spares (h : Hw) (c : ChanId) (sel : Cmd → Bool) : (h.discardIf .device sel).Spares h c :=
  ⟨fun d _ => (besideQueue_chan d).discardIf h sel, (besideQueue_rec _).discardIf h sel⟩

theorem Hw.chgEvent_spares (h : Hw) (c d : ChanId) : (h.chgEvent c).Spares h d := ⟨fun e _ => by simp [Hw.chgEvent], by simp [Hw.chgEvent]⟩

theorem Hw.parkDone_spares (h : Hw) (c : ChanId) : (h.parkDone c).Spares h c :=
  (Hw.finish_device_spares _ c _ _ _ _).trans ((Hw.chgEvent_spares _ c c).trans (h.onChan_spares c _))

theorem Hw.parkBegin_spares (h : Hw) (c : ChanId) : (h.parkBegin c).Spares h c := by
  unfold Hw.parkBegin
  extract_lets h1 h2 h3
  have a1 : h1.Spares h c :=
    ((Hw.foldl_cuts _ (fun u (e : Nat × Circ) => u.setClear_cuts c (BitVec.ofNat 13 e.1) false) _ _).trans (h.discardAll_cuts c)).spares
  have a3 : h3.Spares h c := (h2.chgEvent_spares c c).trans ((h1.onChan_spares c _).trans a1)
  clear_value h3
  split
  · exact (Hw.parkDone_spares _ c).trans ((h3.onPower_spares c _).trans a3)
  · exact (h3.onPower_spares c _).trans a3

theorem Hw.startStop_spares (h : Hw) (c : ChanId) : (h.startStop c).Spares h c := (Hw.parkBegin_spares _ c).trans (h.discardIf_device_spares c _)

/-- What the class D reaction does of one channel. -/
def Hw.devReact (h : Hw) (c : ChanId) : Hw :=
  match (h.chan c).st with
  | .active => (h.chanCut c).onChan c fun x => { x with flt := { x.flt with underD := true } }
  | .starting => h.startStop c
  | _ => h

theorem Hw.devReact_active (active : (h.chan c).st = .active) :
    h.devReact c = (h.chanCut c).onChan c fun x => { x with flt := { x.flt with underD := true } } := by
  unfold Hw.devReact
  rw [active]

theorem Hw.devReact_spares (h : Hw) (c : ChanId) : (h.devReact c).Spares h c := by
  unfold Hw.devReact
  split
  · exact (Hw.onChan_spares _ c _).trans (h.chanCut_cuts c).1.spares
  · exact h.startStop_spares c
  · exact .refl h c

theorem Hw.foldl_passes {f : Hw → ChanId → Hw} (each : ∀ h d, (f h d).Spares h d) (l : List ChanId) (h : Hw) (out : c ∉ l) :
    (l.foldl f h).chan c = h.chan c := by
  induction l generalizing h with
  | nil => rfl
  | cons d l ih =>
    rw [List.mem_cons, not_or] at out
    rw [List.foldl_cons, ih _ out.2, (each h d).others c out.1]

/-- Of a fold over channels, a channel sees its own step alone. -/
theorem Hw.foldl_reach {f : Hw → ChanId → Hw} (each : ∀ h d, (f h d).Spares h d) (l : List ChanId) (h : Hw) (nodup : l.Nodup) (mem : c ∈ l) :
    ∃ u : Hw, u.chan c = h.chan c ∧ (l.foldl f h).chan c = (f u c).chan c := by
  induction l generalizing h with
  | nil => exact absurd mem List.not_mem_nil
  | cons d l ih =>
    obtain ⟨new, rest⟩ := List.nodup_cons.1 nodup
    rw [List.foldl_cons]
    by_cases here : c = d
    · exact ⟨h, rfl, by rw [Hw.foldl_passes each l _ (here ▸ new), here]⟩
    · obtain ⟨u, same, is⟩ := ih (f h d) rest ((List.mem_cons.1 mem).resolve_left here)
      exact ⟨u, same.trans ((each h d).others c here), is⟩

theorem Hw.foldl_dRec {f : Hw → ChanId → Hw} (each : ∀ h d, (f h d).Spares h d) (l : List ChanId) (h : Hw) :
    (l.foldl f h).dev.fcl.dRec = h.dev.fcl.dRec := foldl_keeps f (fun u : Hw => u.dev.fcl.dRec) (fun u d => (each u d).dRec) l h

theorem Chan.tpFree_only (x : Chan) (owner : BitVec 3) : (x.tpFree owner).flt = x.flt := (x.tpFree_flt owner).1

/-- The class D reaction: the D quarantine is in force over every channel that was ACTIVE. -/
theorem Hw.reactDev_shows (h : Hw) (m : BitVec 64) : (h.reactDev m).dev.fcl.dQuar = true ∧ (h.reactDev m).dev.fcl.d.pend = false
    ∧ ∀ c, (h.chan c).st = .active → ((h.reactDev m).chan c).flt.underD = true := by
  have is : h.reactDev m = allChans.foldl (fun h c => h.onChan c (·.tpFree 3))
      (((((allChans.foldl Hw.devReact (h.onFcl fun f => { f with d := { f.d with pend := false }, dQuar := true, dq := { cause := m, window := true } })).discardIf
        .device fun x => !parkRuns x).onQueue .device fun q => { q with busyTill := 0 })).onDev fun d =>
          { d with kbuf := [], routing := false, isvStall := false }) := rfl
  rw [is]
  generalize started : (h.onFcl fun f => { f with d := { f.d with pend := false }, dQuar := true, dq := { cause := m, window := true } }) = u0
  have chan0 : ∀ c, u0.chan c = h.chan c := fun c => by rw [← started]; rfl
  have at0 : u0.dev.fcl.dRec.1.pend = false ∧ u0.dev.fcl.dRec.2.1 = true := by rw [← started]; exact ⟨rfl, rfl⟩
  have folded := Hw.foldl_dRec Hw.devReact_spares allChans u0
  have reach : ∀ c, ∃ u : Hw, u.chan c = u0.chan c ∧ (allChans.foldl Hw.devReact u0).chan c = (u.devReact c).chan c :=
    fun c => Hw.foldl_reach Hw.devReact_spares allChans u0 (List.nodup_finRange 48) (List.mem_finRange c)
  generalize allChans.foldl Hw.devReact u0 = u1 at folded reach
  have gone := fun c => u1.discardIf_device_spares c fun x => !parkRuns x
  have chans : ∀ c, (u1.discardIf .device fun x => !parkRuns x).chan c = u1.chan c := fun c => (besideQueue_chan c).discardIf u1 _
  generalize (u1.discardIf .device fun x => !parkRuns x) = u2 at gone chans
  generalize busy : ((u2.onQueue .device fun q => { q with busyTill := 0 }).onDev fun d => { d with kbuf := [], routing := false, isvStall := false }) = u3
  have freed : ∀ (u : Hw) d, (u.onChan d (·.tpFree 3)).Spares u d := fun u d => u.onChan_spares d _
  have rec3 : u3.dev.fcl.dRec = u0.dev.fcl.dRec := by
    rw [← busy]
    exact (gone 0).dRec.trans folded
  have last := (Hw.foldl_dRec freed allChans u3).trans rec3
  have parts : ∀ v : Hw, v.dev.fcl.dRec = u0.dev.fcl.dRec → v.dev.fcl.dQuar = true ∧ v.dev.fcl.d.pend = false := fun v same => by
    rw [← same] at at0
    exact ⟨at0.2, at0.1⟩
  refine ⟨(parts _ last).1, (parts _ last).2, fun c active => ?_⟩
  have flt : ((allChans.foldl (fun h c => h.onChan c (·.tpFree 3)) u3).chan c).flt = (u3.chan c).flt :=
    foldl_keeps _ (fun u : Hw => (u.chan c).flt) (fun u d => by
      rw [Hw.onChan_chan]
      split
      next here => rw [here, Chan.tpFree_only]
      next => rfl) _ _
  have chan3 : u3.chan c = u1.chan c := by
    rw [← busy]
    exact chans c
  obtain ⟨u, same, is⟩ := reach c
  rw [flt, chan3, is, Hw.devReact_active (by rw [same, chan0, active]), Hw.onChan_chan, if_pos rfl]

/-! ## The end of a quarantine (R363, R364) -/

theorem Circ.begin_quar (y : Circ) : y.begin_.quar = y.quar := rfl

theorem Chan.restart_flt (x : Chan) (k : CircId) : (x.restart k).flt = x.flt ∧ (x.restart k).q = x.q := by
  unfold Chan.restart
  extract_lets y
  split <;> exact ⟨rfl, rfl⟩

theorem Chan.restart_quar (x : Chan) (k : CircId) : ((x.restart k).circ! k).quar = (x.circ! k).quar := by
  unfold Chan.restart
  extract_lets y
  split
  · rw [Chan.circ_setCirc, if_pos rfl]
    exact Circ.begin_quar _
  · rfl

theorem Hw.liftCirc_shows (h : Hw) (c : ChanId) (k : CircId) : (((h.liftCirc c k).chan c).circ! k).quar = false
    ∧ tget {} ((h.liftCirc c k).chan c).flt.cq k.toNat = {} ∧ (h.liftCirc c k).Local h c := by
  refine ⟨?_, ?_, h.onChan_local c _⟩ <;> rw [Hw.liftCirc, Hw.onChan_chan, if_pos rfl]
  · refine (Chan.restart_quar _ k).trans ?_
    exact congrArg Circ.quar ((Chan.circ_setCirc _ k _ k).trans (if_pos rfl))
  · rw [(Chan.restart_flt _ k).1]
    have cleared : ∀ x : Chan, tget {} ({ x with flt := { x.flt with cq := tput {} x.flt.cq k.toNat {} } } : Chan).flt.cq k.toNat = ({} : Reaction) :=
      fun x => by simp
    exact cleared _

/-- The advance of a channel's SEQ. -/
theorem Hw.recStep_shows (h : Hw) (c : ChanId) : (h.recStep c).Local h c ∧ ((h.recStep c).chan c).circ = (h.chan c).circ
    ∧ ((h.recStep c).chan c).flt.cq = (h.chan c).flt.cq := by
  have told : ∀ (u : Hw) (j : Nat), (u.chNotify c j).Local u c := fun u j => by
    unfold Hw.chNotify
    split
    · constructor <;> simp
    · exact .refl u c
  exact ⟨(told _ 0).trans (h.onChan_local c _), by simp [Hw.recStep], by simp [Hw.recStep]⟩

theorem Hw.resume_cuts (h : Hw) (c : ChanId) : (h.resume c).Cuts h c := by
  unfold Hw.resume
  extract_lets x h'
  have again : h'.Cuts h c := by
    have flt := fun (l : List (Nat × Circ)) (z : Chan) =>
      foldl_keeps (fun (y : Chan) (e : Nat × Circ) => y.restart (BitVec.ofNat 13 e.1)) (fun y : Chan => (y.flt, y.q))
        (fun y e => Prod.ext (y.restart_flt _).1 (y.restart_flt _).2) l z
    exact h.onChan_cuts c (congrArg Prod.fst (flt _ _)) (congrArg Prod.snd (flt _ _))
  clear_value h'
  exact .ite (.refl h c) ((Hw.laneSync_follows _ h c .bkp).cuts.trans ((Hw.laneSync_follows _ h c .bkw).cuts.trans
    ((h'.laneSync_follows h c .red).cuts.trans again)))

/-- The D quarantine ends over one channel. -/
def Hw.devLift (h : Hw) (c : ChanId) : Hw :=
  if (h.chan c).flt.underD then (h.onChan c fun x => { x with flt := { x.flt with underD := false } }).resume c else h

theorem Hw.devLift_spares (h : Hw) (c : ChanId) : (h.devLift c).Spares h c := by
  unfold Hw.devLift
  split
  · exact (Hw.resume_cuts _ c).spares.trans (h.onChan_spares c _)
  · exact .refl h c

theorem Hw.devLift_clear (h : Hw) (c : ChanId) : ((h.devLift c).chan c).flt.underD = false := by
  unfold Hw.devLift
  split
  · rw [(Hw.resume_cuts _ c).flt, Hw.onChan_chan, if_pos rfl]
  next clear => exact Bool.eq_false_iff.2 clear

theorem Hw.liftDev_shows (h : Hw) : h.liftDev.dev.fcl.dQuar = false ∧ h.liftDev.dev.fcl.dq = {} ∧ ∀ c, (h.liftDev.chan c).flt.underD = false := by
  have is : h.liftDev = allChans.foldl Hw.devLift (h.onFcl fun f => { f with dQuar := false, dq := {} }) := rfl
  rw [is]
  have at0 : (h.onFcl fun f => { f with dQuar := false, dq := {} }).dev.fcl.dRec.2 = (false, {}) := rfl
  generalize h.onFcl (fun f => { f with dQuar := false, dq := {} }) = u0 at at0
  have parts : ∀ v : Hw, v.dev.fcl.dRec.2 = (false, {}) → v.dev.fcl.dQuar = false ∧ v.dev.fcl.dq = {} := fun v same =>
    ⟨congrArg Prod.fst same, congrArg Prod.snd same⟩
  have last := parts _ ((congrArg Prod.snd (Hw.foldl_dRec Hw.devLift_spares allChans u0)).trans at0)
  refine ⟨last.1, last.2, fun c => ?_⟩
  obtain ⟨u, -, reached⟩ := Hw.foldl_reach Hw.devLift_spares allChans u0 (List.nodup_finRange 48) (List.mem_finRange c)
  rw [reached, u.devLift_clear c]

/-! ## Operations of the duty holder (R366, R429) -/

variable {m : Master} {i : Nat} {seq : Byte}

theorem dutyBeat_other (reach : h.reaches m = true) (other : m ≠ h.dutyOf i) (a : BitVec 22) (ok : Bool) (f : Hw → Hw) :
    dutyBeat h m a i ok f = (h.bmx m.id 0).ignored m .cfgRej a := by
  simp [dutyBeat, reach, Hw.bmx_dutyOf, other]

theorem dutyBeat_stale (reach : h.reaches m = true) (duty : m = h.dutyOf i) (a : BitVec 22) (f : Hw → Hw) :
    dutyBeat h m a i false f = (h.bmx m.id 0).ignored m .ackStale a := by
  simp [dutyBeat, reach, Hw.bmx_dutyOf, ← duty]

/-- A beat that is turned away, with the record registers settled. -/
theorem Hw.turnedAway (h : Hw) (m : Master) (w : WFlag) (a : BitVec 22) (cs : List ChanId) :
    (((h.bmx m.id 0).ignored m w a).settle h cs).is ((h.bmx m.id 0).ignored m w a) ∧ (((h.bmx m.id 0).ignored m w a).settle h cs).noMsg h := by
  constructor
  · exact Hw.quiet_settle _ _ _ fun g low => by rw [Hw.ignored_devReg, Hw.bmx_devReg_low _ _ _ (by omega)]
  · simp [Hw.noMsg]

theorem Hw.bmx_causePresent (h : Hw) (mid which : Nat) (m : BitVec 64) : (h.bmx mid which).causePresent m = h.causePresent m :=
  (h.bmx_regsOnly mid which).causePresent m

/-- An operation on a channel's records that another master than the duty holder orders, or with a stale SEQ. -/
theorem Completes.byFltOp {s : State} {j : Instr} {f : Hw → Hw} (is : exec j s = watched s c fun h => fltOp h m c i seq f) (reach : s.hw.reaches m = true) :
    (m ≠ s.hw.dutyOf i → Completes j s fun t => t.is ((s.hw.bmx m.id 0).ignored m .cfgRej (chAddr c 0x000C)) ∧ t.noMsg s.hw)
    ∧ (m = s.hw.dutyOf i → seq ≠ (s.hw.chan c).flt.seq →
      Completes j s fun t => t.is ((s.hw.bmx m.id 0).ignored m .ackStale (chAddr c 0x000C)) ∧ t.noMsg s.hw)
    ∧ ∀ P : Hw → Prop, m = s.hw.dutyOf i → seq = (s.hw.chan c).flt.seq → P ((f (s.hw.bmx m.id 0)).settle s.hw [c]) → Completes j s P := by
  have works := Hw.works_of_reaches reach
  refine ⟨fun other => ?_, fun duty stale => ?_, fun P duty same shows => ?_⟩
  · refine .byWatched c _ is works ?_
    rw [fltOp, dutyBeat_other reach other]
    exact s.hw.turnedAway m _ _ _
  · refine .byWatched c _ is works ?_
    rw [fltOp, decide_eq_false stale, dutyBeat_stale reach duty]
    exact s.hw.turnedAway m _ _ _
  · refine .byWatched c _ is works ?_
    rw [fltOp, decide_eq_true same, dutyBeat_on reach duty]
    exact shows

/-- The same of the D record. -/
theorem Completes.byDrecOp {s : State} {j : Instr} {f : Hw → Hw} (is : exec j s = watchedAll s fun h => drecOp h m seq f) (reach : s.hw.reachesDev m = true) :
    (m ≠ s.hw.dutyOf 2 → Completes j s fun t => t.is ((s.hw.bmx m.id 0).ignored m .cfgRej (devAddr 0x4010)) ∧ t.noMsg s.hw)
    ∧ (m = s.hw.dutyOf 2 → seq ≠ s.hw.dev.fcl.dseq →
      Completes j s fun t => t.is ((s.hw.bmx m.id 0).ignored m .ackStale (devAddr 0x4010)) ∧ t.noMsg s.hw)
    ∧ ∀ P : Hw → Prop, m = s.hw.dutyOf 2 → seq = s.hw.dev.fcl.dseq → P ((f (s.hw.bmx m.id 0)).settle s.hw allChans) → Completes j s P := by
  have works := Hw.reachesDev_works reach
  have all := Hw.reaches_of_reachesDev reach
  have own : m ≠ .malot := by
    simp only [Hw.reachesDev, Bool.and_eq_true, decide_eq_true_eq] at reach
    exact reach.2
  refine ⟨fun other => ?_, fun duty stale => ?_, fun P duty same shows => ?_⟩
  · refine .byWatchedAll _ is works ?_
    rw [drecOp, if_neg own, dutyBeat_other all other]
    exact s.hw.turnedAway m _ _ _
  · refine .byWatchedAll _ is works ?_
    rw [drecOp, if_neg own, decide_eq_false stale, dutyBeat_stale all duty]
    exact s.hw.turnedAway m _ _ _
  · refine .byWatchedAll _ is works ?_
    rw [drecOp, if_neg own, decide_eq_true same, dutyBeat_on all duty]
    exact shows

end

/-- Settles O49: a beat that is turned away changes the writer's bank alone, and one that acts does so through the reaction or the end of a
quarantine it orders. -/
theorem dutyHolderActs : Obligations.DutyHolderActs := by
  refine ⟨fun s m c q k reach => ?_, fun s m q reach => ?_⟩
  · have ackC := Completes.byFltOp (j := .ackC m c q) (f := (·.doAckC c)) rfl reach
    have ackH := Completes.byFltOp (j := .ackH m c q) (f := (·.doAckH c)) rfl reach
    have reactC := Completes.byFltOp (j := .reactC m c q) (f := (·.cExpire c)) rfl reach
    have reactH := Completes.byFltOp (j := .reactH m c q) (f := (·.hExpire c)) rfl reach
    have clrCirc := Completes.byFltOp (j := .clrCirc m c q k) (f := (·.doClrCirc c k)) rfl reach
    have clrChan := Completes.byFltOp (j := .clrChan m c q) (f := (·.doClrChan c)) rfl reach
    have chan := s.hw.bmx_chan m.id 0 c
    have beat := s.hw.bmx_local m.id 0 c
    intro f ops
    refine ⟨?_, ?_, fun same duty => ⟨?_, fun active pend en free => ?_, fun quar absent => ?_⟩, fun same duty => ⟨?_, fun active pend => ?_, fun quar absent => ?_⟩⟩
    · simp only [ops, List.forall_mem_cons, List.not_mem_nil, false_imp_iff, implies_true, and_true]
      exact ⟨ackC.1, ackH.1, reactC.1, reactH.1, clrCirc.1, clrChan.1⟩
    · simp only [ops, List.forall_mem_cons, List.not_mem_nil, false_imp_iff, implies_true, and_true]
      exact ⟨ackC.2.1, ackH.2.1, reactC.2.1, reactH.2.1, clrCirc.2.1, clrChan.2.1⟩
    · refine ackC.2.2 _ duty same ⟨?_, by simp [Hw.noMsg, Hw.doAckC], (Hw.settle_local _ _ c).trans ((Hw.onChan_local _ c _).trans beat)⟩
      rw [Hw.settle_chan_quiet, Hw.doAckC, Hw.onChan_chan, if_pos rfl, chan]
      rfl
    · refine reactC.2.2 _ duty same ?_
      have is : (s.hw.bmx m.id 0).cExpire c = (s.hw.bmx m.id 0).reactCirc c f.ccirc f.c.msg := by
        rw [Hw.cExpire, chan]
        exact if_pos pend
      obtain ⟨here, mark, closed⟩ := Hw.reactCirc_shows (h := s.hw.bmx m.id 0) (c := c) (k := f.ccirc) (by rw [chan, active]) (by rw [chan]; exact en)
        (by rw [chan]; exact free) f.c.msg
      rw [is]
      generalize (s.hw.bmx m.id 0).reactCirc c f.ccirc f.c.msg = u at here mark closed
      refine ⟨?_, ?_, by rw [Hw.settle_chan_flt_c, closed], (Hw.settle_local _ _ c).trans (here.trans beat)⟩ <;>
        rw [Chan.circ_congr (Hw.settle_chan_circ ..)]
      · exact congrArg Prod.fst mark
      · exact congrArg Prod.snd mark
    · refine clrCirc.2.2 _ duty same ?_
      have is : (s.hw.bmx m.id 0).doClrCirc c k = ((s.hw.bmx m.id 0).liftCirc c k).recStep c := by
        rw [Hw.doClrCirc, chan, Hw.bmx_causePresent]
        exact if_pos (Bool.and_eq_true_iff.2 ⟨quar, congrArg Bool.not absent⟩)
      obtain ⟨lifted, forgot, here⟩ := (s.hw.bmx m.id 0).liftCirc_shows c k
      rw [is]
      generalize (s.hw.bmx m.id 0).liftCirc c k = u at lifted forgot here
      obtain ⟨step, circ, cq⟩ := u.recStep_shows c
      refine ⟨?_, ?_, (Hw.settle_local _ _ c).trans (step.trans (here.trans beat))⟩
      · rw [Chan.circ_congr (Hw.settle_chan_circ ..), Chan.circ_congr circ, lifted]
      · rw [Hw.settle_chan_flt_cq, cq, forgot]
    · refine ackH.2.2 _ duty same ⟨?_, by simp [Hw.noMsg, Hw.doAckH], (Hw.settle_local _ _ c).trans ((Hw.onChan_local _ c _).trans beat)⟩
      rw [Hw.settle_chan_quiet, Hw.doAckH, Hw.onChan_chan, if_pos rfl, chan]
      rfl
    · refine reactH.2.2 _ duty same ?_
      have is := Hw.hExpire_active (h := s.hw.bmx m.id 0) (c := c) (by rw [chan, active]) (by rw [chan]; exact pend)
      obtain ⟨cut, stopped⟩ := ((s.hw.bmx m.id 0).onChan c Chan.hClosed).chanCut_cuts c
      have closed : (((s.hw.bmx m.id 0).onChan c Chan.hClosed).chan c).flt.h.pend = false := by
        rw [Hw.onChan_chan, if_pos rfl]
        rfl
      rw [is]
      generalize ((s.hw.bmx m.id 0).onChan c Chan.hClosed).chanCut c = u at cut stopped
      refine ⟨?_, ?_, ?_, (Hw.settle_local _ _ c).trans ((Hw.onChan_local u c _).trans (cut.here.trans ((Hw.onChan_local _ c _).trans beat)))⟩
      · rw [Hw.settle_chan_flt_hQuar, Hw.onChan_chan, if_pos rfl]
        rfl
      · rw [Hw.settle_chan_flt_h, Hw.onChan_chan, if_pos rfl]
        exact (congrArg (·.h.pend) cut.flt).trans closed
      · rw [Hw.settle_chan_q, Hw.onChan_chan, if_pos rfl]
        exact stopped
    · refine clrChan.2.2 _ duty same ?_
      have is : (s.hw.bmx m.id 0).doClrChan c = (s.hw.bmx m.id 0).liftChan c := by
        rw [Hw.doClrChan, chan, Hw.bmx_causePresent]
        exact if_pos (Bool.and_eq_true_iff.2 ⟨quar, congrArg Bool.not absent⟩)
      have resumed := ((s.hw.bmx m.id 0).onChan c fun x => { x with flt := { x.flt with hQuar := false, hq := {} } }).resume_cuts c
      rw [is, Hw.liftChan]
      refine ⟨?_, ?_, (Hw.settle_local _ _ c).trans (resumed.here.trans ((Hw.onChan_local _ c _).trans beat))⟩
      · rw [Hw.settle_chan_flt_hQuar, resumed.flt, Hw.onChan_chan, if_pos rfl]
      · rw [Hw.settle_chan_flt_hq, resumed.flt, Hw.onChan_chan, if_pos rfl]
  · have ackD := Completes.byDrecOp (j := .ackD m q) (f := Hw.doAckD) rfl reach
    have reactD := Completes.byDrecOp (j := .reactD m q) (f := Hw.dExpire) rfl reach
    have clrD := Completes.byDrecOp (j := .clrD m q) (f := Hw.doClrD) rfl reach
    have fcl := s.hw.bmx_fcl m.id 0
    intro f
    refine ⟨?_, ?_, fun same duty => ⟨?_, fun pend => ?_, fun quar absent => ?_⟩⟩
    · simp only [List.forall_mem_cons, List.not_mem_nil, false_imp_iff, implies_true, and_true]
      exact ⟨ackD.1, reactD.1, clrD.1⟩
    · simp only [List.forall_mem_cons, List.not_mem_nil, false_imp_iff, implies_true, and_true]
      exact ⟨ackD.2.1, reactD.2.1, clrD.2.1⟩
    · refine ackD.2.2 _ duty same ⟨Hw.quiet_settle _ _ _ fun g low => ?_, by simp [Hw.noMsg, Hw.doAckD]⟩
      exact Hw.bmx_devReg_low _ _ _ (by omega)
    · refine reactD.2.2 _ duty same ?_
      have is : (s.hw.bmx m.id 0).dExpire = (s.hw.bmx m.id 0).reactDev f.d.msg := by
        rw [Hw.dExpire, fcl]
        exact if_pos pend
      obtain ⟨quar, closed, under⟩ := (s.hw.bmx m.id 0).reactDev_shows f.d.msg
      rw [is]
      generalize (s.hw.bmx m.id 0).reactDev f.d.msg = u at quar closed under
      exact ⟨by rw [Hw.settle_fcl_dQuar, quar], by rw [Hw.settle_fcl_d, closed], fun c active => by
        rw [Hw.settle_chan_flt_underD, under c (by rw [Hw.bmx_chan, active])]⟩
    · refine clrD.2.2 _ duty same ?_
      have is : (s.hw.bmx m.id 0).doClrD = (s.hw.bmx m.id 0).liftDev := by
        rw [Hw.doClrD, fcl, Hw.bmx_causePresent]
        exact if_pos (Bool.and_eq_true_iff.2 ⟨quar, congrArg Bool.not absent⟩)
      obtain ⟨ended, forgot, clear⟩ := (s.hw.bmx m.id 0).liftDev_shows
      rw [is]
      generalize (s.hw.bmx m.id 0).liftDev = u at ended forgot clear
      exact ⟨by rw [Hw.settle_fcl_dQuar, ended], by rw [Hw.settle_fcl_dq, forgot], fun c => by rw [Hw.settle_chan_flt_underD, clear]⟩

end Sys2Proof.Machine
end

section
/-!
PROOF. A served fault message: its way from the slot to the history and to its record (O47).
-/
namespace Sys2Proof.Machine

section
variable {t u h : Hw} {c : ChanId} {m : BitVec 64} {o : Slot} {n : Nat}

/-! ## A message leaves its slot (R348) -/

/-- The collector has taken a message that is not injected from the only slot occupied; what it did so far moves at most registers of the message's
channel. -/
structure Hw.Heard (u h : Hw) (m : BitVec 64) : Prop where
  boot : u.dev.boot = h.dev.boot
  now : u.now = h.now
  reg : ∀ off, u.devReg off = h.devReg off
  dRec : u.dev.fcl.dRec = h.dev.fcl.dRec
  hist : u.dev.fcl.hist = h.dev.fcl.hist
  mw : u.dev.fcl.mw = h.dev.fcl.mw
  slots : u.dev.fcl.slots = []
  others : ∀ c : ChanId, msgChan m ≠ c.val → u.chan c = h.chan c
  flt : ∀ c, (u.chan c).flt = (h.chan c).flt
  circ : ∀ c, (u.chan c).circ = (h.chan c).circ

theorem Fcl.pick_single (f : Fcl) (e : Nat × Slot) (now : Nat) (one : f.slots = [e]) : f.pick now = some e := by
  unfold Fcl.pick
  rw [one]
  by_cases old : 1024 ≤ now - e.2.at_
  · simp [old, leastBy]
  · simp [old, leastBy]

/-- CPH_EVT.AUTH of the message's channel moves nothing else. -/
theorem Hw.authEvent_heard (h : Hw) (m : BitVec 64) (slots : h.dev.fcl.slots = []) : (h.authEvent m).Heard h m := by
  unfold Hw.authEvent
  split
  next c is =>
    have own : ∀ d : ChanId, msgChan m ≠ d.val → d ≠ c := fun d other same => by
      unfold chanOf at is
      split at is
      · cases is
        exact other (by rw [same])
      · cases is
    split
    · refine ⟨by simp [Hw.evCph], by simp [Hw.evCph], by simp [Hw.evCph], by simp [Hw.evCph], by simp [Hw.evCph], by simp [Hw.evCph], by simpa [Hw.evCph] using slots,
        fun d other => Hw.chEvent_chan_ne _ _ _ _ _ (own d other), by simp [Hw.evCph], by simp [Hw.evCph]⟩
    · exact ⟨rfl, rfl, fun _ => rfl, rfl, rfl, rfl, slots, fun _ _ => rfl, fun _ => rfl, fun _ => rfl⟩
  · exact ⟨rfl, rfl, fun _ => rfl, rfl, rfl, rfl, slots, fun _ _ => rfl, fun _ => rfl, fun _ => rfl⟩

theorem Hw.Heard.of_onFcl {f : Fcl → Fcl} (dRec : (f h.dev.fcl).dRec = h.dev.fcl.dRec) (hist : (f h.dev.fcl).hist = h.dev.fcl.hist)
    (mw : (f h.dev.fcl).mw = h.dev.fcl.mw) (a : u.Heard (h.onFcl f) m) : u.Heard h m :=
  ⟨a.boot, a.now, a.reg, a.dRec.trans dRec, a.hist.trans hist, a.mw.trans mw, a.slots, a.others, a.flt, a.circ⟩

/-- The only message is served at once. -/
theorem Hw.serve_single (h : Hw) (real : msgInj o.msg = false) (once : o.count = 0) (one : h.dev.fcl.slots = [(slotKey o.msg, o)])
    (held : tget 0 h.dev.fcl.held (slotKey o.msg) = 0)
    (fresh_ : msgCls o.msg = clsN → tget 0 h.dev.fcl.servedN (slotKey o.msg * 256 + msgKind o.msg) = 0) :
    ∃ u : Hw, u.Heard h o.msg ∧ h.serve = u.deal o.msg o.ts 0 := by
  have pick := h.dev.fcl.pick_single _ h.now one
  have off : h.heldOff (slotKey o.msg) o.msg = false := by
    unfold Hw.heldOff
    by_cases n : msgCls o.msg = clsN
    · simp [fresh_ n]
    · simp [n]
  unfold Hw.serve
  rw [pick]
  dsimp only
  rw [off, real, held, once]
  simp only [Bool.false_eq_true, if_false]
  exact ⟨_, (Hw.Heard.of_onFcl rfl rfl rfl (Hw.Heard.of_onFcl rfl rfl rfl (Hw.authEvent_heard _ _ (by simp [one, tdrop])))), rfl⟩

/-! ## What it does (R352 to R360) -/

theorem Hw.Heard.dutyRec (a : u.Heard h m) : u.dev.fcl.d = h.dev.fcl.d ∧ u.dev.fcl.dQuar = h.dev.fcl.dQuar ∧ u.dev.fcl.dq = h.dev.fcl.dq :=
  ⟨congrArg (fun r : Rec × Bool × Reaction => r.1) a.dRec, congrArg (fun r : Rec × Bool × Reaction => r.2.1) a.dRec,
    congrArg (fun r : Rec × Bool × Reaction => r.2.2) a.dRec⟩

theorem Hw.Heard.shadowed (a : u.Heard h m) (n : BitVec 64) : u.shadowed n = h.shadowed n := by
  obtain ⟨-, -, dq⟩ := a.dutyRec
  simp only [Hw.shadowed, dq, a.flt]

theorem Hw.Heard.scopeQuar (a : u.Heard h m) (n : BitVec 64) : u.scopeQuar n = h.scopeQuar n := by
  obtain ⟨-, dQuar, -⟩ := a.dutyRec
  simp only [Hw.scopeQuar, dQuar, Chan.quarantined, a.flt, Chan.circ!, a.circ]

/-- What the history keeps of a message that met nothing. -/
def Slot.entry (o : Slot) (level : Nat) : Hist :=
  { msg := o.msg, ts := o.ts, level := BitVec.ofNat 3 level, esc := false, merged := false, quiet := false, count := 0 }

/-- A message's log entry, with the record registers settled: the slots and the records stand. -/
structure Hw.Logged (t u : Hw) (o : Slot) (level : Nat) : Prop where
  hist : t.dev.fcl.hist = (o.entry level :: u.dev.fcl.hist).take 32
  slots : t.dev.fcl.slots = u.dev.fcl.slots
  d : t.dev.fcl.d = u.dev.fcl.d
  dQuar : t.dev.fcl.dQuar = u.dev.fcl.dQuar
  quiet : ∀ c, (t.chan c).quiet = (u.chan c).quiet

theorem Hw.logMsg_logged (u h : Hw) (o : Slot) {level : Nat} (least : ¬msgCls o.msg < level) (cs : List ChanId) :
    ((u.logMsg o.msg o.ts 0 level false false).settle h cs).Logged u o level := by
  have esc : decide (msgCls o.msg < level) = false := decide_eq_false least
  constructor
  · simp [Hw.logMsg, Hw.log, Fcl.log, Slot.entry, esc]
  · simp [Hw.logMsg, Hw.log, Fcl.log]
  · simp [Hw.logMsg, Hw.log, Fcl.log]
  · simp [Hw.logMsg, Hw.log, Fcl.log]
  · intro c
    rw [Hw.settle_chan_quiet]
    simp [Hw.logMsg, Hw.log]

/-- The SEQ of its record registers apart, two channels have the same records and circuits. -/
theorem Chan.records_congr {x y : Chan} (e : x.quiet = y.quiet) :
    x.flt.c = y.flt.c ∧ x.flt.h = y.flt.h ∧ x.flt.ccirc = y.flt.ccirc ∧ x.circ = y.circ := by
  have cRec : x.quiet.flt.c = y.quiet.flt.c := by rw [e]
  have hRec : x.quiet.flt.h = y.quiet.flt.h := by rw [e]
  have cc : x.quiet.flt.ccirc = y.quiet.flt.ccirc := by rw [e]
  have circ : x.quiet.circ = y.quiet.circ := by rw [e]
  exact ⟨cRec, hRec, cc, circ⟩

/-- The entry in the history, above the entries the hardware `h` had. -/
theorem Hw.Logged.hist_of (a : t.Logged u o n) (same : u.dev.fcl.hist = h.dev.fcl.hist) :
    t.dev.fcl.hist = (o.entry n :: h.dev.fcl.hist).take 32 := by rw [a.hist, same]

theorem Hw.deal_noted (u : Hw) (cls : msgCls m = clsN) (ts : BitVec 40) : u.deal m ts 0 = u.logMsg m ts 0 0 false false := by
  unfold Hw.deal
  dsimp only
  rw [cls, if_neg (by decide), if_pos (.inl rfl)]
  rfl

/-- A message of class C, H or D that opens its record. -/
theorem Hw.deal_opens {v : Hw} {n : Nat} (acts : msgCls m ≠ clsM ∧ msgCls m ≠ clsN) (real : msgInj m = false) (clear : u.shadowed m = false)
    (run : u.dev.boot.st = .run) (kind : msgKind m ≠ 0x28) (free : u.scopeQuar m = false)
    (decided : u.decideMsg m false = { level := n, merged := false, hw := v }) (low : n ≠ 4) (ts : BitVec 40) :
    u.deal m ts 0 = v.logMsg m ts 0 n false false := by
  have inj : ¬(msgCls m = clsN ∨ (msgInj m && !u.injReact) = true) := by
    rw [real]
    exact fun no => no.elim acts.2 (by simp)
  have quiet_ : ¬(u.dev.boot.st ≠ .run ∨ msgKind m = 0x28 ∨ u.scopeQuar m = true) := by
    rw [run, free]
    exact fun no => no.elim (fun no => no rfl) fun no => no.elim kind (by simp)
  have none_ : decide (1 ≤ 0) = false := by decide
  unfold Hw.deal
  dsimp only
  rw [if_neg acts.1, if_neg inj, clear, if_neg Bool.false_ne_true, if_neg quiet_, none_, decided]
  exact if_neg low

theorem Hw.deal_logged {v : Hw} (acts : msgCls o.msg ≠ clsM ∧ msgCls o.msg ≠ clsN) (real : msgInj o.msg = false) (clear : u.shadowed o.msg = false)
    (run : u.dev.boot.st = .run) (kind : msgKind o.msg ≠ 0x28) (free : u.scopeQuar o.msg = false)
    (decided : u.decideMsg o.msg false = { level := n, merged := false, hw := v }) (low : n ≠ 4) (least : ¬msgCls o.msg < n) (h : Hw) (cs : List ChanId) :
    ((u.deal o.msg o.ts 0).settle h cs).Logged v o n := by
  rw [Hw.deal_opens acts real clear run kind free decided low]
  exact v.logMsg_logged h o least cs

theorem chanOf_is {n : Nat} (is : n = c.val) : chanOf n = some c := by
  subst is
  exact dif_pos c.isLt

theorem Hw.decideMsg_circuit (cls : msgCls m = clsC) (of : msgChan m = c.val) (free : (u.chan c).flt.c.pend = false) :
    u.decideMsg m false = { level := 1, merged := false, hw := u.onChan c fun x =>
      { x with flt := { x.flt with c := openRec m (clamp 1 1000 (u.devField 0x4004 9 0) * 10) u.now, ccirc := msgCirc m } } } := by
  have is : u.decideMsg m false = u.decideC c m false := by
    unfold Hw.decideMsg
    rw [if_neg (by rw [cls]; decide), chanOf_is of]
    exact if_neg (by rw [cls]; decide)
  rw [is]
  unfold Hw.decideC
  simp only [free, Bool.false_and, Bool.false_or, Bool.false_eq_true, if_false]

theorem Hw.decideMsg_channel (cls : msgCls m = clsH) (of : msgChan m = c.val) (free : ∀ d, (u.chan d).flt.h.pend = false) :
    u.decideMsg m false = { level := 2, merged := false, hw := u.onChan c fun x =>
      { x with flt := { x.flt with h := openRec m (clamp 1 1000 (u.devField 0x4004 19 10) * 10) u.now } } } := by
  have is : u.decideMsg m false = u.decideH c m false false := by
    unfold Hw.decideMsg
    rw [if_neg (by rw [cls]; decide), chanOf_is of]
    exact if_pos cls
  have alone : u.otherH c = false := by simp [Hw.otherH, free]
  rw [is]
  unfold Hw.decideH
  simp only [free, alone, Bool.or_false, Bool.and_false, Bool.false_eq_true, if_false]

theorem Hw.decideMsg_device (cls : msgCls m = clsD) (free : u.dev.fcl.d.pend = false) :
    ∃ v : Hw, u.decideMsg m false = { level := 3, merged := false, hw := v }
      ∧ v.dev.fcl = { u.dev.fcl with d := openRec m (clamp 1 1000 (u.devField 0x4004 29 20) * 50) u.now } ∧ ∀ c, v.chan c = u.chan c := by
  have is : u.decideMsg m false = u.decideD m false false := if_pos cls
  rw [is]
  unfold Hw.decideD
  simp only [free, Bool.false_and, Bool.or_false, Bool.and_false, Bool.false_eq_true, if_false]
  exact ⟨_, rfl, rfl, fun _ => rfl⟩

/-- A trigger that the collector serves. -/
theorem Hw.deal_triggers (a : u.Heard h m) (run : h.dev.boot.st = .run) (cls : msgCls m = clsM) (real : msgInj m = false)
    (ts : BitVec 40) : (u.deal m ts 0).MidwinterBy h m := by
  have up : u.dev.boot.st = .run := by rw [a.boot, run]
  have is : u.deal m ts 0 = u.midwinter m ts 0 := by
    unfold Hw.deal Hw.toMidwinter
    dsimp only
    rw [if_pos cls, if_pos (by rw [real]; rfl)]
  rw [is]
  obtain ⟨entered, noKeys, idle, linkDown, trigger⟩ := u.midwinter_by m ts 0 (by rw [up]; decide) (by rw [up]; decide) (by simp [Hw.inMw, up])
  exact ⟨entered, noKeys, idle, linkDown, fun first => trigger (a.mw.trans first)⟩

theorem Hw.MidwinterBy.settled (a : t.MidwinterBy h m) (h0 : Hw) (cs : List ChanId) : (t.settle h0 cs).MidwinterBy h m :=
  ⟨by simpa [Hw.inMw] using a.entered, ⟨by simpa using a.noKeys.1, fun c => (Chan.blank_congr (by simp) (by simp)).trans (a.noKeys.2 c)⟩,
    fun c => by simpa using a.idle c, by simpa using a.linkDown, fun first => by simpa using a.trigger first⟩

end

/-- Settles O47: the message leaves its slot, and what it meets decides. -/
theorem faultMessagesServed : Obligations.FaultMessagesServed := by
  refine ⟨fun s works none_ => ?_, fun s o works run _ real once one held => ?_⟩
  · have idle : s.hw.serve = s.hw := by
      unfold Hw.serve Fcl.pick
      rw [none_]
      rfl
    refine .byWatchedAll Hw.serve rfl works ?_
    rw [idle]
    exact ⟨Hw.quiet_settle _ _ _ fun _ _ => rfl, by simp [Hw.noMsg]⟩
  · intro m entry
    have logs : ∀ n, entry (BitVec.ofNat 3 n) = o.entry n := fun _ => rfl
    clear_value entry
    have whole : m = o.msg := rfl
    clear_value m
    subst whole
    have serves : ∀ P : Hw → Prop, (msgCls o.msg = clsN → tget 0 s.hw.dev.fcl.servedN (slotKey o.msg * 256 + msgKind o.msg) = 0) →
        (∀ u : Hw, u.Heard s.hw o.msg → P ((u.deal o.msg o.ts 0).settle s.hw allChans)) → Completes .faultServe s P := fun P fresh_ shows => by
      obtain ⟨u, heard, is⟩ := s.hw.serve_single real once one held fresh_
      refine .byWatchedAll Hw.serve rfl works ?_
      rw [is]
      exact shows u heard
    refine ⟨fun cls first => serves _ (fun _ => first) fun u heard => ?_, fun c cls of kind clear free closed => serves _ (fun n => ?_) fun u heard => ?_,
      fun c cls of kind clear free closed => serves _ (fun n => ?_) fun u heard => ?_, fun cls kind clear free closed => serves _ (fun n => ?_) fun u heard => ?_,
      fun cls => serves _ (fun n => ?_) fun u heard => ?_⟩
    · obtain ⟨d, dQuar, -⟩ := heard.dutyRec
      have logged := u.logMsg_logged s.hw o (level := 0) (by omega) allChans
      rw [← u.deal_noted cls] at logged
      have hist := logged.hist_of heard.hist
      rw [← logs 0] at hist
      refine ⟨hist, logged.slots.trans heard.slots, logged.d.trans d, logged.dQuar.trans dQuar, fun c => ?_⟩
      obtain ⟨cRec, hRec, -, circ⟩ := Chan.records_congr (logged.quiet c)
      exact ⟨by rw [cRec, heard.flt], by rw [hRec, heard.flt], by rw [circ, heard.circ]⟩
    · exact absurd (cls.symm.trans n) (by decide)
    · obtain ⟨d, -, -⟩ := heard.dutyRec
      have logged := Hw.deal_logged (by rw [cls]; decide) real ((heard.shadowed o.msg).trans clear) (by rw [heard.boot, run]) kind
        ((heard.scopeQuar o.msg).trans free) (Hw.decideMsg_circuit cls of (by rw [heard.flt]; exact closed)) (by decide) (by rw [cls]; decide) s.hw allChans
      obtain ⟨cRec, hRec, cc, circ⟩ := Chan.records_congr (logged.quiet c)
      rw [Hw.onChan_chan, if_pos rfl] at cRec hRec cc circ
      refine ⟨cRec.trans ?_, cc, hRec.trans (by rw [heard.flt]), circ.trans (heard.circ c), fun d other => ?_,
        (logged.hist_of (by simpa using heard.hist)).trans (by rw [← logs 1]; rfl), logged.slots.trans (by simpa using heard.slots), logged.d.trans (by simpa using d)⟩
      · rw [heard.now, Hw.devField, Hw.devField, heard.reg]
        rfl
      · rw [logged.quiet, Hw.onChan_chan, if_neg other, heard.others d fun same => other (Fin.ext (by omega))]
    · exact absurd (cls.symm.trans n) (by decide)
    · obtain ⟨d, -, -⟩ := heard.dutyRec
      have logged := Hw.deal_logged (by rw [cls]; decide) real ((heard.shadowed o.msg).trans clear) (by rw [heard.boot, run]) kind
        ((heard.scopeQuar o.msg).trans free) (Hw.decideMsg_channel cls of fun d => by rw [heard.flt]; exact closed d) (by decide) (by rw [cls]; decide) s.hw allChans
      obtain ⟨cRec, hRec, -, circ⟩ := Chan.records_congr (logged.quiet c)
      rw [Hw.onChan_chan, if_pos rfl] at cRec hRec circ
      refine ⟨hRec.trans ?_, cRec.trans (by rw [heard.flt]), circ.trans (heard.circ c), fun d other => ?_,
        (logged.hist_of (by simpa using heard.hist)).trans (by rw [← logs 2]; rfl), logged.slots.trans (by simpa using heard.slots), logged.d.trans (by simpa using d)⟩
      · rw [heard.now, Hw.devField, Hw.devField, heard.reg]
        rfl
      · rw [logged.quiet, Hw.onChan_chan, if_neg other, heard.others d fun same => other (Fin.ext (by omega))]
    · exact absurd (cls.symm.trans n) (by decide)
    · obtain ⟨d, dQuar, -⟩ := heard.dutyRec
      have free' : s.hw.scopeQuar o.msg = false := by
        unfold Hw.scopeQuar
        rw [if_pos cls, free]
      obtain ⟨v, decided, fcl, chans⟩ := u.decideMsg_device cls (by rw [d]; exact closed)
      have logged := Hw.deal_logged (by rw [cls]; decide) real ((heard.shadowed o.msg).trans clear) (by rw [heard.boot, run]) kind
        ((heard.scopeQuar o.msg).trans free') decided (by decide) (by rw [cls]; decide) s.hw allChans
      refine ⟨logged.d.trans ?_, (logged.hist_of (h := s.hw) (by rw [fcl]; exact heard.hist)).trans (by rw [← logs 3]; rfl), logged.slots.trans (by rw [fcl]; exact heard.slots),
        logged.dQuar.trans (by rw [fcl]; exact dQuar.trans free), fun d => ?_⟩
      · rw [fcl, heard.now, Hw.devField, Hw.devField, heard.reg]
        rfl
      · obtain ⟨cRec, hRec, -, circ⟩ := Chan.records_congr (logged.quiet d)
        rw [chans] at cRec hRec circ
        exact ⟨by rw [cRec, heard.flt], by rw [hRec, heard.flt], by rw [circ, heard.circ]⟩
    · exact absurd (cls.symm.trans n) (by decide)
    · exact (Hw.deal_triggers heard run cls real o.ts).settled _ _

end Sys2Proof.Machine
end

section
/-!
PROOF. Release on the decrypt side: what a circuit's positions take on the RED lane, and what is counted (O40).
-/
namespace Sys2Proof.Machine

section
variable {t u h : Hw} {c : ChanId} {k : CircId}

/-! ## What a circuit's positions take on the RED lane (R26, R148, R154, R531) -/

theorem Chan.circ_setCirc_self (x : Chan) (k : CircId) (y : Circ) : (x.setCirc k y).circ! k = y := (Chan.circ_setCirc _ _ _ _).trans (if_pos rfl)

/-- A kind with frames is neither 10GE nor 1GE. -/
theorem not_ethernet_of_frame {kind : Nat} (framed : frameLen kind ≠ 0) : kind ≠ 0x0D ∧ kind ≠ 0x0E :=
  ⟨fun e => framed (by rw [e]; rfl), fun e => framed (by rw [e]; rfl)⟩

theorem not_frac_of_xge {kind : Nat} (xge : kind = 0x0D) : ¬isFrac kind = true := by
  rw [xge]
  decide

theorem not_frac_of_ge {kind : Nat} (ge : kind = 0x0E) : ¬isFrac kind = true ∧ ¬kind = 0x0D := by
  rw [ge]
  decide

theorem not_frac_of_whole {kind : Nat} (whole : isWhole kind = true) : isFrac kind = false := by
  by_contra frac
  rw [not_whole_of_frac (Bool.eq_true_of_not_eq_false frac)] at whole
  exact Bool.false_ne_true whole

theorem Chan.emitRed_fill (x : Chan) (n : Nat) (k : CircId) (e : Option DsEnt) :
    (x.circ! k).sendsFill x.red.scr ((x.emitRed n k (.fill e)).circ! k).red := by
  unfold Chan.emitRed
  extract_lets y kind put ent pay ect unused s r x1 r1 r2 r3
  have used : unused = false := rfl
  have none_ : pay.isNone = true := rfl
  have coded : r = through scramble x.red.scr (List.replicate 256 localFault) := rfl
  have both : isWhole kind = true → (isWhole kind && pay.isNone) = true := fun whole => Bool.and_eq_true_iff.2 ⟨whole, none_⟩
  refine ⟨fun frac => ?_, fun xge => ?_, fun ge => ?_, fun whole framed => ?_, fun notFrac notWhole framed => ?_⟩
  · rw [if_pos frac, used, if_neg Bool.false_ne_true]
    exact ⟨_, congrArg Circ.red (x.circ_setCirc_self k _), rfl, rfl⟩
  · rw [if_neg (not_frac_of_xge xge), if_pos xge, ← coded]
    clear_value r
    exact congrArg Circ.red (x.circ_setCirc_self k _)
  · obtain ⟨frac, xge⟩ := not_frac_of_ge ge
    rw [if_neg frac, if_neg xge, if_pos ge]
    exact congrArg Circ.red (x.circ_setCirc_self k _)
  · obtain ⟨notXge, notGe⟩ := not_ethernet_of_frame framed
    have frac : ¬isFrac kind = true := Bool.eq_false_iff.1 (not_frac_of_whole whole)
    rw [if_neg frac, if_neg notXge, if_neg notGe, if_pos (both whole)]
    exact (congrArg Circ.red (x.circ_setCirc_self k _)).trans (congrArg (fun l => LineOut.line (.bytes l)) (by rw [zeroBlock, List.map_replicate]))
  · obtain ⟨notXge, notGe⟩ := not_ethernet_of_frame framed
    have frac : ¬isFrac kind = true := Bool.eq_false_iff.1 notFrac
    have whole : ¬(isWhole kind && pay.isNone) = true := by
      rw [none_]
      exact fun both => Bool.eq_false_iff.1 notWhole (Bool.and_eq_true_iff.1 both).1
    rw [if_neg frac, if_neg notXge, if_neg notGe, if_neg whole, if_neg framed]
    exact congrArg Circ.red (x.circ_setCirc_self k _)

theorem Chan.emitRed_data (x : Chan) (n : Nat) (k : CircId) (e : DsEnt) :
    (x.circ! k).sendsData x.red.scr e ((x.emitRed n k (.data e)).circ! k).red := by
  unfold Chan.emitRed
  extract_lets y kind put ent pay ect unused s r x1 r1 r2 r3
  have used : unused = false := rfl
  have some_ : pay.isNone = false := rfl
  have coded : r = through scramble x.red.scr (untranscode e.body) := rfl
  refine ⟨fun frac => ?_, fun xge => ?_, fun ge => ?_, fun notFrac framed => ?_⟩
  · rw [if_pos frac, used, if_neg Bool.false_ne_true]
    exact ⟨_, congrArg Circ.red (x.circ_setCirc_self k _), rfl, rfl⟩
  · rw [if_neg (not_frac_of_xge xge), if_pos xge, ← coded]
    clear_value r
    exact congrArg Circ.red (x.circ_setCirc_self k _)
  · obtain ⟨frac, xge⟩ := not_frac_of_ge ge
    rw [if_neg frac, if_neg xge, if_pos ge]
    exact congrArg Circ.red (x.circ_setCirc_self k _)
  · obtain ⟨notXge, notGe⟩ := not_ethernet_of_frame framed
    have frac : ¬isFrac kind = true := Bool.eq_false_iff.1 notFrac
    have whole : ¬(isWhole kind && pay.isNone) = true := by
      rw [some_, Bool.and_false]
      exact Bool.false_ne_true
    rw [if_neg frac, if_neg notXge, if_neg notGe, if_neg whole, if_neg framed]
    exact congrArg Circ.red (x.circ_setCirc_self k _)

theorem Chan.emitRed_keeps {γ : Type} (p : Chan → γ) (circ : ∀ (x : Chan) k y, p (x.setCirc k y) = p x) (outs : ∀ (x : Chan) m, p { x with map := m } = p x)
    (line : ∀ (x : Chan) r, p { x with red := r } = p x) (x : Chan) (n : Nat) (k : CircId) (d : RedDue) : p (x.emitRed n k d) = p x := by
  unfold Chan.emitRed Chan.putSub
  extract_lets y kind put ent pay ect unused s o r x1 r1
  clear_value pay ent unused
  repeat' split
  · exact circ _ _ _
  · exact (outs _ _).trans (circ _ _ _)
  · exact (line _ _).trans (circ _ _ _)
  all_goals exact circ _ _ _

theorem Chan.genAis_keeps {γ : Type} (p : Chan → γ) (gens : ∀ (x : Chan) m, p { x with map := m } = p x) (x : Chan) (y : Circ) (ais : Bool) :
    p (x.genAis y ais) = p x := by
  unfold Chan.genAis
  split
  · rfl
  · exact gens _ _

theorem Hw.emitRed_keeps {γ : Type} (p : Chan → γ) (circ : ∀ (x : Chan) k y, p (x.setCirc k y) = p x) (outs : ∀ (x : Chan) m, p { x with map := m } = p x)
    (line : ∀ (x : Chan) r, p { x with red := r } = p x) (h : Hw) (c : ChanId) (k : CircId) (d : RedDue) :
    p ((h.emitRed c k d).chan c) = p (h.chan c) := by
  have emits := Chan.emitRed_keeps p circ outs line
  unfold Hw.emitRed
  rw [Hw.onChan_chan, if_pos rfl]
  split
  · exact emits _ _ _ _
  · exact (Chan.genAis_keeps p outs _ _ _).trans (emits _ _ _ _)

/-- The circuit's own positions are all that changes of it. -/
theorem Hw.emitRed_circ (h : Hw) (c : ChanId) (k : CircId) (d : RedDue) :
    ((h.emitRed c k d).chan c).circ! k = ((h.chan c).emitRed k.toNat k d).circ! k := by
  unfold Hw.emitRed
  rw [Hw.onChan_chan, if_pos rfl]
  split
  · rfl
  · exact Chan.genAis_keeps (fun x => x.circ! k) (fun _ _ => rfl) _ _ _

theorem Hw.emitRed_local (h : Hw) (c : ChanId) (k : CircId) (d : RedDue) : (h.emitRed c k d).Local h c := h.onChan_local c _

/-- What of the channel a fill on the RED lane leaves as it is, and the fill. -/
theorem Hw.emitRed_filled (h : Hw) (c : ChanId) (k : CircId) (e : Option DsEnt) :
    ((h.chan c).circ! k).sendsFill (h.chan c).red.scr (((h.emitRed c k (.fill e)).chan c).circ! k).red := by
  rw [Hw.emitRed_circ]
  exact (h.chan c).emitRed_fill _ k e

theorem Hw.emitRed_sent (h : Hw) (c : ChanId) (k : CircId) (e : DsEnt) :
    ((h.chan c).circ! k).sendsData (h.chan c).red.scr e (((h.emitRed c k (.data e)).chan c).circ! k).red := by
  rw [Hw.emitRed_circ]
  exact (h.chan c).emitRed_data _ k e

/-! ## The end of a release -/

theorem Hw.cvuWords_keeps {γ : Type} (p : Hw → γ) (draw : ∀ h : Hw, p h.draw.2 = p h)
    (units : ∀ (h : Hw) (f : Chan → Vector Cvu 8), p (h.onChan c fun x => { x with cvu := { x.cvu with unit := f x } }) = p h) (h : Hw) (point : Nat) :
    p (h.cvuWords c point) = p h := by
  unfold Hw.cvuWords
  exact foldl_keeps _ p (fun h u => ite_keeps (p := p) ((units _ _).trans (draw h)) rfl) _ h

theorem Hw.cvuWords_local (h : Hw) (c : ChanId) (point : Nat) : (h.cvuWords c point).Local h c :=
  have drawn : ∀ h : Hw, h.draw.2.Cuts h c := fun _ => ⟨⟨fun _ _ => rfl, rfl, rfl, rfl, rfl, rfl, rfl, rfl, rfl, rfl⟩, rfl, rfl, fun _ a => a⟩
  (Hw.foldl_cuts _ (fun h _ => .ite ((h.draw.2.onChan_cuts c rfl rfl).trans (drawn h)) (.refl h c)) _ h).here

/-- What the check-value units and the queues' levels leave of a release. -/
structure Hw.Quits (t h : Hw) (c : ChanId) : Prop where
  circ : (t.chan c).circ = (h.chan c).circ
  store : (t.chan c).store = (h.chan c).store
  ctr : (t.chan c).ctr = (h.chan c).ctr
  fcl : t.dev.fcl = h.dev.fcl
  log : ∀ o, 0x6100 ≤ o → t.chReg c o = h.chReg c o
  here : t.Local h c

theorem Hw.decRelease_quits (h : Hw) (c : ChanId) : ((h.cvuWords c 3).levels c).Quits h c where
  circ := ((h.cvuWords c 3).levels_circ c).trans (h.cvuWords_keeps (fun u => (u.chan c).circ) (fun _ => rfl) (by simp) 3)
  store := ((h.cvuWords c 3).levels_store c).trans (h.cvuWords_keeps (fun u => (u.chan c).store) (fun _ => rfl) (by simp) 3)
  ctr := ((h.cvuWords c 3).levels_ctr c).trans (h.cvuWords_keeps (fun u => (u.chan c).ctr) (fun _ => rfl) (by simp) 3)
  fcl := ((h.cvuWords c 3).levels_fcl c).trans (h.cvuWords_keeps (fun u => u.dev.fcl) (fun _ => rfl) (by simp) 3)
  log o out := by
    have words : (h.cvuWords c 3).chReg c o = h.chReg c o := h.cvuWords_keeps (fun u => u.chReg c o) (fun _ => rfl) (by simp [Hw.chReg, Chan.reg]) 3
    refine Eq.trans ?_ words
    unfold Hw.levels
    extract_lets x pay enc w q ds h1
    iterate 7 refine (Hw.level_chReg _ c (.inr out) (by decide)).trans ?_
    rfl
  here := (Hw.levels_local _ c).trans (h.cvuWords_local c 3)

/-! ## A circuit's positions take what is due -/

/-- A circuit's positions on the RED lane have taken what is due, and nothing else of the channel that the statement speaks of. -/
structure Hw.Sends (t h : Hw) (c : ChanId) (k : CircId) (shown : LineOut → Prop) : Prop where
  red : shown ((t.chan c).circ! k).red
  own : ∃ o ge par, (t.chan c).circ! k = { (h.chan c).circ! k with red := o, geTx := ge, parR := par }
  store : (t.chan c).store = (h.chan c).store
  ctr : (t.chan c).ctr = (h.chan c).ctr
  fcl : t.dev.fcl = h.dev.fcl
  log : ∀ o, 0x6100 ≤ o → t.chReg c o = h.chReg c o
  here : t.Local h c

theorem Hw.emitRed_sends {shown : LineOut → Prop} (d : RedDue) (red : shown (((h.emitRed c k d).chan c).circ! k).red) : (h.emitRed c k d).Sends h c k shown where
  red := red
  own := by
    rw [Hw.emitRed_circ]
    exact (h.chan c).emitRed_own d
  store := h.emitRed_keeps (·.store) (fun _ _ _ => rfl) (fun _ _ => rfl) (fun _ _ => rfl) c k d
  ctr := h.emitRed_keeps (·.ctr) (fun _ _ _ => rfl) (fun _ _ => rfl) (fun _ _ => rfl) c k d
  fcl := rfl
  log o _ := h.emitRed_keeps (·.reg o) (fun _ _ _ => rfl) (fun _ _ => rfl) (fun _ _ => rfl) c k d
  here := h.emitRed_local c k d

theorem Hw.Sends.quit {shown : LineOut → Prop} (a : u.Sends h c k shown) (b : t.Quits u c) : t.Sends h c k shown where
  red := by
    rw [Chan.circ_congr b.circ]
    exact a.red
  own := by
    rw [Chan.circ_congr b.circ]
    exact a.own
  store := b.store.trans a.store
  ctr := b.ctr.trans a.ctr
  fcl := b.fcl.trans a.fcl
  log o out := (b.log o out).trans (a.log o out)
  here := b.here.trans a.here

theorem Hw.fill_sends (h : Hw) (c : ChanId) (k : CircId) (e : Option DsEnt) :
    (((h.emitRed c k (.fill e)).cvuWords c 3).levels c).Sends h c k (((h.chan c).circ! k).sendsFill (h.chan c).red.scr) :=
  (Hw.emitRed_sends _ (h.emitRed_filled c k e)).quit (Hw.decRelease_quits _ c)

theorem Circ.sendsFill_congr {y z : Circ} {scr : Scr} {o : LineOut} (kind : y.kind = z.kind) (ge : y.geTx = z.geTx) (a : y.sendsFill scr o) :
    z.sendsFill scr o := by
  unfold Circ.sendsFill at a ⊢
  rw [← kind, ← ge]
  exact a

theorem Circ.sendsData_congr {y z : Circ} {scr : Scr} {e : DsEnt} {o : LineOut} (kind : y.kind = z.kind) (ge : y.geTx = z.geTx) (par : y.parR = z.parR)
    (a : y.sendsData scr e o) : z.sendsData scr e o := by
  unfold Circ.sendsData at a ⊢
  rw [← kind, ← ge, ← par]
  exact a

/-! ## The fill log (R494) -/

theorem fieldOf_fillWord (d cause t : Nat) (k : CircId) :
    fieldOf (BitVec.ofNat 32 (d * 2 ^ 31 + cause % 16 * 2 ^ 27 + t % 2 ^ 14 * 2 ^ 13 + k.toNat)) 30 27 = cause % 16 := by
  have small := k.isLt
  have time : t % 2 ^ 14 < 2 ^ 14 := Nat.mod_lt _ (by decide)
  unfold fieldOf
  rw [BitVec.toNat_ofNat]
  omega

theorem Hw.fill_log (h : Hw) (c : ChanId) (k : CircId) (dec : Bool) (ctr cause : Nat) :
    fieldOf ((h.fill c k dec ctr cause).chReg c (0x6100 + 4 * fieldOf (h.chReg c 0x6018) 5 0)) 30 27 = cause % 16 := by
  have here : (h.count c 0x11 (4 * ctr) 1).chReg c 0x6018 = h.chReg c 0x6018 := by
    rw [Hw.chReg, Hw.count_chan, if_pos rfl]
    rfl
  unfold Hw.fill
  extract_lets h1 q nx w h2 h3
  have slot : nx = fieldOf (h.chReg c 0x6018) 5 0 := congrArg (fun w => fieldOf w 5 0) here
  rw [← slot]
  have shown : (h3.evLat c 0x00100000).chReg c (0x6100 + 4 * nx) = w := by
    refine (Hw.chEvent_apart _ c _ _ (by omega)).trans ?_
    rw [Hw.chReg_setChReg, if_neg (by omega), Hw.chReg_setChReg, if_pos ⟨rfl, rfl⟩]
  rw [shown]
  exact fieldOf_fillWord _ _ _ _

/-! ## A stored block is released (R239, R267) -/

theorem Hw.stages_none (h : Hw) (c : ChanId) (k : CircId) (n : Nat) (gen : List (Fin 16)) (unarmed : (h.chan c).cvu.inj = none) :
    h.stages c k n gen [] = (false, h) := by
  unfold Hw.stages
  dsimp only
  rw [List.filter_nil, List.foldl_nil, unarmed]
  rfl

/-- What a released data block counts, of which `clip` violations could not be re-inserted. -/
def Hw.dataCounts (h : Hw) (c : ChanId) (k : CircId) (e : DsEnt) (clip : Nat) : Hw :=
  let h1 := h.count c 0x12 (1 + e.path.num) 1
  let h2 := if e.path ≠ (h.chan c).psw.active then h1.count c 0x12 4 1 else h1
  let h3 := if clip = 0 then h2 else (h2.count c 0x20 51 clip).evRcl c 0x00100000
  let h4 := if ((h.chan c).circ! k).kind = 0x0D then h3.count c 0x20 52 (ct0Count e.body) else h3
  h4.cvuBlock c 1 k e.seq e.body

theorem Hw.releaseEnt_data {e : DsEnt} (h : Hw) (c : ChanId) (k : CircId) (data : e.format = 1) :
    ∃ clip, h.releaseEnt c k e = (h.dataCounts c k e clip).emitRed c k (.data e) := ⟨_, if_neg (not_not.2 data)⟩

/-- It is counted for its path. -/
theorem Hw.dataCounts_keeps {γ : Type} (p : Hw → γ) (c : ChanId) (counts : ∀ (h : Hw) g i n, 4 ≤ i → i ≤ 52 → p (h.count c g i n) = p h)
    (units : ∀ (h : Hw) (v : Chan → Vector Cvu 8), p (h.onChan c fun x => { x with cvu := { x.cvu with unit := v x } }) = p h)
    (event : ∀ (h : Hw) o j fl, p (h.chEvent c o j fl) = p h) (h : Hw) (k : CircId) (e : DsEnt) (clip : Nat) :
    p (h.dataCounts c k e clip) = p (h.count c 0x12 (1 + e.path.num) 1) := by
  unfold Hw.dataCounts
  extract_lets h1 h2 h3 h4
  have two : p h2 = p h1 := ite_keeps (p := p) (counts _ _ _ _ (by decide) (by decide)) rfl
  have three : p h3 = p h2 := ite_keeps (p := p) rfl ((event _ _ _ _).trans (counts _ _ _ _ (by decide) (by decide)))
  have four : p h4 = p h3 := ite_keeps (p := p) (counts _ _ _ _ (by decide) (by decide)) rfl
  exact (h4.cvuBlock_keeps c k p (units h4) event 1 e.seq e.body).trans (four.trans (three.trans two))

theorem Hw.dataCounts_chan {γ : Type} (h : Hw) (p : Chan → γ) (c : ChanId) (counts : ∀ (x : Chan) g i n, p (x.count g i n) = p x)
    (units : ∀ (x : Chan) v, p { x with cvu := v } = p x) (event : ∀ (h : Hw) o j fl, p ((h.chEvent c o j fl).chan c) = p (h.chan c)) (k : CircId) (e : DsEnt)
    (clip : Nat) : p ((h.dataCounts c k e clip).chan c) = p (h.chan c) :=
  (Hw.dataCounts_keeps (fun u => p (u.chan c)) c (fun h g i n _ _ => by rw [Hw.count_chan, if_pos rfl, counts])
    (fun h v => by rw [Hw.onChan_chan, if_pos rfl, units]) event h k e clip).trans (by rw [Hw.count_chan, if_pos rfl, counts])

theorem Hw.dataCounts_local (h : Hw) (c : ChanId) (k : CircId) (e : DsEnt) (clip : Nat) : (h.dataCounts c k e clip).Local h c := by
  unfold Hw.dataCounts
  extract_lets h1 h2 h3 h4
  have one : h1.Local h c := h.onChan_local c _
  have two : h2.Local h1 c := .ite (h1.onChan_local c _) (.refl _ c)
  have three : h3.Local h2 c := .ite (.refl _ c) ((Hw.chEvent_local _ c _ _ _).trans (h2.onChan_local c _))
  have four : h4.Local h3 c := .ite (h3.onChan_local c _) (.refl _ c)
  exact (h4.cvuBlock_local c k 1 e.seq e.body).trans (four.trans (three.trans (two.trans one)))

/-- The release point of the block that the anchor names: it has left the deep store. -/
def Hw.takenOut (h : Hw) (c : ChanId) (k : CircId) (a : Anchor) (e : DsEnt) : Hw :=
  ((h.onCirc c k fun y => { y with anchor := some { a with next := a.next + 1 } }).onChan c fun x => { x with store := x.store.erase e }).onCirc c k
    fun y => { y with misses := 0 }

theorem Hw.takenOut_circ (h : Hw) (c : ChanId) (k : CircId) (a : Anchor) (e : DsEnt) :
    ((h.takenOut c k a e).chan c).circ! k = { (h.chan c).circ! k with anchor := some { a with next := a.next + 1 }, misses := 0 } := by
  unfold Hw.takenOut
  rw [Hw.onCirc_chan, if_pos rfl, Chan.circ_setCirc_self, Hw.onChan_chan, if_pos rfl, Hw.onCirc_chan, if_pos rfl]
  exact congrArg (fun y : Circ => { y with misses := 0 }) ((h.chan c).circ_setCirc_self k _)

theorem Hw.takenOut_keeps {γ : Type} (p : Chan → γ) (circ : ∀ (x : Chan) j, p { x with circ := j } = p x) (h : Hw) (c : ChanId) (k : CircId) (a : Anchor)
    (e : DsEnt) (store : ∀ (x : Chan) l, p { x with store := l } = p x) : p ((h.takenOut c k a e).chan c) = p (h.chan c) := by
  unfold Hw.takenOut
  rw [Hw.onCirc_chan, if_pos rfl, Hw.onChan_chan, if_pos rfl, Hw.onCirc_chan, if_pos rfl]
  exact (circ _ _).trans ((store _ _).trans (circ _ _))

theorem Hw.takenOut_store (h : Hw) (c : ChanId) (k : CircId) (a : Anchor) (e : DsEnt) : ((h.takenOut c k a e).chan c).store = (h.chan c).store.erase e := by
  unfold Hw.takenOut
  rw [Hw.onCirc_chan, if_pos rfl, Hw.onChan_chan, if_pos rfl, Hw.onCirc_chan, if_pos rfl]
  rfl

theorem Hw.takenOut_local (h : Hw) (c : ChanId) (k : CircId) (a : Anchor) (e : DsEnt) : (h.takenOut c k a e).Local h c :=
  (Hw.onCirc_local _ c k _).trans ((Hw.onChan_local _ c _).trans (h.onCirc_local c k _))

/-- The release point of a block that was freed: it leaves the deep store, and its loss is counted if it held data. -/
def Hw.freedOut (h : Hw) (c : ChanId) (k : CircId) (e : DsEnt) : Hw :=
  let h1 := h.onChan c fun x => { x with store := x.store.erase e }
  if e.format = 1 then h1.fill c k true 2 e.freed.toNat else h1

theorem Hw.freedOut_keeps {γ : Type} (p : Hw → γ) (store : ∀ (h : Hw) (f : Chan → List DsEnt), p (h.onChan c fun x => { x with store := f x }) = p h)
    (fill : ∀ (h : Hw) n, p (h.fill c k true 2 n) = p h) (h : Hw) (e : DsEnt) : p (h.freedOut c k e) = p h := by
  unfold Hw.freedOut
  extract_lets h1
  exact ite_keeps (p := p) ((fill _ _).trans (store _ _)) (store _ _)

theorem Hw.freedOut_store (h : Hw) (c : ChanId) (k : CircId) (e : DsEnt) : ((h.freedOut c k e).chan c).store = (h.chan c).store.erase e := by
  unfold Hw.freedOut
  extract_lets h1
  have out : (h1.chan c).store = (h.chan c).store.erase e := by rw [Hw.onChan_chan, if_pos rfl]
  split
  · exact (h1.fill_keeps c k (·.store) (fun _ _ _ => rfl) (by simp) true 2 _).trans out
  · exact out

theorem Hw.freedOut_local (h : Hw) (c : ChanId) (k : CircId) (e : DsEnt) : (h.freedOut c k e).Local h c := by
  unfold Hw.freedOut
  extract_lets h1
  have out : h1.Local h c := h.onChan_local c _
  exact .ite ((h1.fill_local c k true 2 _).trans out) out

/-- A loss is counted among the fills of the decrypt side. -/
theorem Hw.fill_counted (h : Hw) (c : ChanId) (k : CircId) (n : Nat) :
    tget 0 ((h.fill c k true 2 n).chan c).ctr (ctrKey 0x11 8) = min (2 ^ 48 - 1) (tget 0 (h.chan c).ctr (ctrKey 0x11 8) + 1) := by
  rw [Hw.fill_ctr, Chan.count_ctr]
  exact if_pos rfl

theorem Hw.freedOut_counted (h : Hw) (c : ChanId) (k : CircId) (e : DsEnt) :
    (e.format = 1 → tget 0 ((h.freedOut c k e).chan c).ctr (ctrKey 0x11 8) = min (2 ^ 48 - 1) (tget 0 (h.chan c).ctr (ctrKey 0x11 8) + 1))
    ∧ (e.format ≠ 1 → ((h.freedOut c k e).chan c).ctr = (h.chan c).ctr) := by
  unfold Hw.freedOut
  extract_lets h1
  have out : (h1.chan c).ctr = (h.chan c).ctr := by rw [Hw.onChan_chan, if_pos rfl]
  refine ⟨fun data => ?_, fun other => ?_⟩
  · rw [if_pos data, Hw.fill_counted, out]
  · rw [if_neg other, out]

/-- The release point of a block that is missing. -/
def Hw.missedOut (h : Hw) (c : ChanId) (k : CircId) (a : Anchor) : Hw :=
  (h.onCirc c k fun y => { y with anchor := some { a with next := a.next + 1 } }).fill c k true 2 7

theorem Hw.missedOut_circ (h : Hw) (c : ChanId) (k : CircId) (a : Anchor) :
    ((h.missedOut c k a).chan c).circ! k = { (h.chan c).circ! k with anchor := some { a with next := a.next + 1 } } := by
  unfold Hw.missedOut
  rw [Chan.circ_congr (Hw.fill_circ _ c k true 2 7), Hw.onCirc_chan, if_pos rfl, Chan.circ_setCirc_self]

theorem Hw.missedOut_keeps {γ : Type} (p : Chan → γ) (circ : ∀ (x : Chan) j, p { x with circ := j } = p x) (regs : ∀ x o w, p (Chan.setReg x o w) = p x)
    (ctr : ∀ (x : Chan) g i n, p (x.count g i n) = p x) (event : ∀ (h : Hw) o j fl, p ((h.chEvent c o j fl).chan c) = p (h.chan c)) (h : Hw) (a : Anchor) :
    p ((h.missedOut c k a).chan c) = p (h.chan c) := by
  unfold Hw.missedOut
  rw [Hw.fill_keeps _ c k p regs event, ctr, Hw.onCirc_chan, if_pos rfl]
  exact circ _ _

theorem Hw.missedOut_counted (h : Hw) (c : ChanId) (k : CircId) (a : Anchor) :
    tget 0 ((h.missedOut c k a).chan c).ctr (ctrKey 0x11 8) = min (2 ^ 48 - 1) (tget 0 (h.chan c).ctr (ctrKey 0x11 8) + 1) := by
  unfold Hw.missedOut
  rw [Hw.fill_counted, Hw.onCirc_chan, if_pos rfl]
  rfl

theorem Hw.missedOut_log (h : Hw) (c : ChanId) (k : CircId) (a : Anchor) :
    fieldOf ((h.missedOut c k a).chReg c (0x6100 + 4 * fieldOf (h.chReg c 0x6018) 5 0)) 30 27 = 7 := by
  have log := (h.onCirc c k fun y => { y with anchor := some { a with next := a.next + 1 } }).fill_log c k true 2 7
  have same : (h.onCirc c k fun y => { y with anchor := some { a with next := a.next + 1 } }).chReg c 0x6018 = h.chReg c 0x6018 := by
    rw [Hw.chReg, Hw.onCirc_chan, if_pos rfl]
    rfl
  rw [same] at log
  exact log

/-! ## What a release point does, by what it finds -/

variable {e : DsEnt} {a : Anchor} (unarmed : (h.chan c).cvu.inj = none)

theorem Hw.decRelease_freed (is : (h.chan c).store.find? (fun e => decide (e.circ = k ∧ e.freed ≠ 0)) = some e) :
    h.decRelease c k [] = (((h.freedOut c k e).emitRed c k (.fill none)).cvuWords c 3).levels c := by
  unfold Hw.decRelease
  dsimp only
  rw [is]
  rfl

theorem Hw.decRelease_idle (none_ : (h.chan c).store.find? (fun e => decide (e.circ = k ∧ e.freed ≠ 0)) = none)
    (idle : ((h.chan c).circ! k).anchor = none) (en : ((h.chan c).circ! k).en = true) :
    h.decRelease c k [] = ((h.emitRed c k (.fill none)).cvuWords c 3).levels c := by
  unfold Hw.decRelease
  dsimp only
  rw [none_]
  dsimp only
  rw [idle, en]
  rfl

include unarmed in
theorem Hw.decRelease_due (none_ : (h.chan c).store.find? (fun e => decide (e.circ = k ∧ e.freed ≠ 0)) = none)
    (anchor : ((h.chan c).circ! k).anchor = some a)
    (found : (h.chan c).store.find? (fun e => decide (e.circ = k ∧ e.seq = a.next ∧ e.freed = 0)) = some e) :
    h.decRelease c k [] = (((h.takenOut c k a e).releaseEnt c k e).cvuWords c 3).levels c := by
  have stages := Hw.stages_none (h.onCirc c k fun y => { y with anchor := some { a with next := a.next + 1 } }) c k e.seq.toNat [11, 12]
    (by rw [Hw.onCirc_chan, if_pos rfl]; exact unarmed)
  unfold Hw.decRelease
  dsimp only
  rw [none_]
  dsimp only
  rw [anchor]
  dsimp only
  rw [found]
  dsimp only
  rw [stages]
  rfl

theorem Hw.decRelease_missing (none_ : (h.chan c).store.find? (fun e => decide (e.circ = k ∧ e.freed ≠ 0)) = none)
    (anchor : ((h.chan c).circ! k).anchor = some a)
    (missing : (h.chan c).store.find? (fun e => decide (e.circ = k ∧ e.seq = a.next ∧ e.freed = 0)) = none) (grid : a.gapTo = a.next) :
    h.decRelease c k [] = (((((h.missedOut c k a).emitRed c k (.fill none)).onCirc c k fun y =>
      { y with misses := y.misses + 1, verifiedSinceMiss := false }).cvuWords c 3).levels c) := by
  have onGrid : decide (seqDiff a.next a.gapTo < 0) = false := by
    rw [grid, seqDiff, BitVec.sub_self]
    rfl
  unfold Hw.decRelease
  dsimp only
  rw [none_]
  dsimp only
  rw [anchor]
  dsimp only
  rw [missing]
  dsimp only
  rw [onGrid]
  rfl

end

theorem Path.num_le (p : Path) : p.num ≤ 1 := by
  cases p
  · decide
  · decide

theorem Circ.rx_onRx (y : Circ) (p : Path) (f : RxPath → RxPath) : (y.onRx p f).rx p = f (y.rx p) := by
  cases p
  · rfl
  · rfl

/-- A carriage check whose window expires (R91). -/
theorem completes_carriageBroken {s : State} {c : ChanId} {p : Path} {k : CircId} (works : s.hw.works = true) (active : (s.hw.chan c).st = .active)
    (en : ((s.hw.chan c).circ! k).en = true) (checking : (((s.hw.chan c).circ! k).rx p).checking = true) :
    Completes (.carriageBroken c p k) s fun t =>
      ((t.chan c).circ! k).rx p = { ((s.hw.chan c).circ! k).rx p with checking := false, cb := true }
      ∧ t.tookMsg s.hw (mkMsg c.val 4 clsN 0x19 (k.toNat + p.num * 2 ^ 23)) ∧ t.Local s.hw c
      ∧ ((((s.hw.chan c).circ! k).rx p).cb = false → bitOf (t.chReg c 0x4008) 23 = true) := by
  refine .byOnActive c (·.carriageExpire c p k) rfl works active ?_
  have open_ : ¬(!((s.hw.chan c).circ! k).en || !(((s.hw.chan c).circ! k).rx p).checking) = true := by rw [en, checking]; decide
  unfold Hw.carriageExpire
  extract_lets y r h1 h2 was
  rw [if_neg open_]
  have raises := raises_of_active active
  have took : h2.tookMsg s.hw (mkMsg c.val 4 clsN 0x19 (k.toNat + p.num * 2 ^ 23)) := Hw.onCirc_took works k _ raises _ _ _ _
  have here : h2.Local s.hw c := (h1.raiseChan_local c c _ _ _ _).trans (s.hw.onCirc_local c k _)
  have rx : ((h2.chan c).circ! k).rx p = { r with checking := false, cb := true } := by
    rw [Hw.raiseChan_chan, Hw.onCirc_chan, if_pos rfl, Chan.circ_setCirc_self, Circ.rx_onRx]
  have raises2 : (h2.chan c).raises = true := by
    rw [Hw.raiseChan_chan, Hw.onCirc_chan, if_pos rfl]
    exact raises
  split
  next cb => exact ⟨rx, took, here, fun none_ => absurd cb (by rw [none_]; exact Bool.false_ne_true)⟩
  next =>
    have follows := (h2.evRcl c 0x00800000).pswInputs_follows c
    have circ : (((h2.evRcl c 0x00800000).pswInputs c).chan c).circ = (h2.chan c).circ := by
      refine (ite_keeps (p := fun u : Hw => (u.chan c).circ) (by rw [Hw.onChan_chan, if_pos rfl]) rfl).trans (by simp [Hw.evRcl])
    refine ⟨(congrArg (·.rx p) (Chan.circ_congr circ k)).trans rx, ?_, follows.here.trans ((Hw.chEvent_local _ c _ _ _).trans here), fun _ => ?_⟩
    · rw [Hw.tookMsg, follows.fcl, Hw.evRcl, Hw.chEvent_fcl]
      exact took
    · rw [follows.reg _ (by decide) (by decide) (by decide), Hw.evRcl, Hw.chEvent_chReg raises2, if_pos rfl, bitOf_evWord _ _ (by decide)]
      exact Bool.or_eq_true_iff.2 (.inr (by decide))

/-- Settles O40: what is due at the release point decides. -/
theorem decryptReleases : Obligations.DecryptReleases := by
  refine ⟨fun s c p k works active en checking => ?_, fun s c k works active unarmed => ?_⟩
  · exact completes_carriageBroken works active en checking
  · intro x y freed at_
    have completes : ∀ (P : Hw → Prop), P (s.hw.decRelease c k []) → Completes (.decBlockRelease c k []) s P := fun P shows =>
      .byOnActive c (·.decRelease c k []) rfl works active shows
    refine ⟨fun e is => completes _ ?_, fun none_ idle en => completes _ ?_, fun a e none_ anchor found data => completes _ ?_,
      fun a e none_ anchor found other => completes _ ?_, fun a none_ anchor missing grid => completes _ ?_⟩
    · rw [Hw.decRelease_freed is]
      obtain ⟨red, ⟨o, ge, par, own⟩, store, ctr, fcl, -, here⟩ := (s.hw.freedOut c k e).fill_sends c k none
      have circ : ((s.hw.freedOut c k e).chan c).circ! k = y :=
        Chan.circ_congr (Hw.freedOut_keeps (fun u : Hw => (u.chan c).circ) (by simp) (fun h n => h.fill_circ c k true 2 n) s.hw e) k
      have scr : ((s.hw.freedOut c k e).chan c).red = x.red :=
        Hw.freedOut_keeps (fun u : Hw => (u.chan c).red) (by simp) (fun h n => h.fill_keeps c k (·.red) (fun _ _ _ => rfl) (by simp) true 2 n) s.hw e
      obtain ⟨counted, kept⟩ := s.hw.freedOut_counted c k e
      rw [circ, scr] at red
      refine ⟨red, store.trans (s.hw.freedOut_store c k e), by rw [own, circ], fun data => by rw [ctr]; exact counted data,
        fun other => by rw [ctr, kept other], ?_, here.trans (s.hw.freedOut_local c k e)⟩
      rw [Hw.noMsg, fcl]
      exact Hw.freedOut_keeps (fun u : Hw => u.dev.fcl.slots) (fun _ _ => rfl) (fun h n => by rw [Hw.fill_fcl]) s.hw e
    · rw [Hw.decRelease_idle none_ idle en]
      obtain ⟨red, -, store, -, fcl, -, here⟩ := s.hw.fill_sends c k none
      exact ⟨red, store, congrArg Fcl.slots fcl, here⟩
    · obtain ⟨clip, is⟩ := (s.hw.takenOut c k a e).releaseEnt_data c k data
      rw [Hw.decRelease_due unarmed none_ anchor found, is]
      have keeps := fun {γ : Type} (p : Chan → γ) counts units event => (s.hw.takenOut c k a e).dataCounts_chan p c counts units event k e clip
      obtain ⟨red, ⟨o, ge, par, own⟩, store, ctr, fcl, -, here⟩ := (Hw.emitRed_sends _ (((s.hw.takenOut c k a e).dataCounts c k e clip).emitRed_sent c k e)).quit
        (Hw.decRelease_quits _ c)
      have circ := (Chan.circ_congr (keeps (·.circ) (fun _ _ _ _ => rfl) (fun _ _ => rfl) (by simp)) k).trans (s.hw.takenOut_circ c k a e)
      have scr := (keeps (·.red) (fun _ _ _ _ => rfl) (fun _ _ => rfl) (by simp)).trans (s.hw.takenOut_keeps (·.red) (fun _ _ => rfl) c k a e fun _ _ => rfl)
      rw [scr] at red
      refine ⟨Circ.sendsData_congr (by rw [circ]; rfl) (by rw [circ]) (by rw [circ]) red, by rw [own, circ], by rw [own, circ],
        (store.trans (keeps (·.store) (fun _ _ _ _ => rfl) (fun _ _ => rfl) (by simp))).trans (s.hw.takenOut_store c k a e), ?_, ?_,
        here.trans ((Hw.dataCounts_local _ c k e clip).trans (s.hw.takenOut_local c k a e))⟩
      · rw [ctr]
        have apart : ∀ g i, 4 ≤ i → i ≤ 52 → ctrKey 0x12 (1 + e.path.num) ≠ ctrKey g i := fun g i low high => by
          have small := Path.num_le e.path
          unfold ctrKey
          omega
        refine (Hw.dataCounts_keeps (fun u => tget 0 (u.chan c).ctr (ctrKey 0x12 (1 + e.path.num))) c
          (fun h g i n low high => by rw [Hw.count_chan, if_pos rfl, Chan.count_ctr, if_neg (apart g i low high)]) (by simp) (by simp) _ k e clip).trans ?_
        rw [Hw.count_chan, if_pos rfl, Chan.count_ctr, if_pos rfl, s.hw.takenOut_keeps (·.ctr) (fun _ _ => rfl) c k a e fun _ _ => rfl]
      · rw [Hw.noMsg, fcl]
        exact congrArg Fcl.slots (Hw.dataCounts_keeps (fun u => u.dev.fcl) c (by simp) (by simp) (by simp) _ k e clip)
    · rw [Hw.decRelease_due unarmed none_ anchor found, Hw.releaseEnt, if_pos other]
      obtain ⟨red, -, store, -, fcl, -, here⟩ := (s.hw.takenOut c k a e).fill_sends c k (some e)
      have circ := s.hw.takenOut_circ c k a e
      have scr : ((s.hw.takenOut c k a e).chan c).red = x.red := s.hw.takenOut_keeps (·.red) (fun _ _ => rfl) c k a e fun _ _ => rfl
      rw [scr] at red
      refine ⟨Circ.sendsFill_congr (by rw [circ]; rfl) (by rw [circ]) red, store.trans (s.hw.takenOut_store c k a e), congrArg Fcl.slots fcl,
        here.trans (s.hw.takenOut_local c k a e)⟩
    · rw [Hw.decRelease_missing none_ anchor missing grid]
      obtain ⟨red, ⟨o, ge, par, own⟩, store, ctr, fcl, log, here⟩ := Hw.emitRed_sends _ ((s.hw.missedOut c k a).emitRed_filled c k none)
      generalize (s.hw.missedOut c k a).emitRed c k (.fill none) = w at *
      have quits := (w.onCirc c k fun y => { y with misses := y.misses + 1, verifiedSinceMiss := false }).decRelease_quits c
      have last := (Chan.circ_congr quits.circ k).trans (by rw [Hw.onCirc_chan, if_pos rfl, Chan.circ_setCirc_self])
      have beside : ∀ {γ : Type} (p : Chan → γ), (∀ (x : Chan) j, p { x with circ := j } = p x) →
          p ((w.onCirc c k fun y => { y with misses := y.misses + 1, verifiedSinceMiss := false }).chan c) = p (w.chan c) := fun p circ => by
        rw [Hw.onCirc_chan, if_pos rfl]
        exact circ _ _
      have circ := s.hw.missedOut_circ c k a
      have keeps := fun {γ : Type} (p : Chan → γ) circ regs ctr event => Hw.missedOut_keeps (c := c) (k := k) p circ regs ctr event s.hw a
      rw [keeps (·.red) (fun _ _ => rfl) (fun _ _ _ => rfl) (fun _ _ _ _ => rfl) (by simp)] at red
      refine ⟨?_, ?_, ?_, ?_, ?_, ?_, ?_, ?_⟩
      · rw [last]
        exact Circ.sendsFill_congr (by rw [circ]; rfl) (by rw [circ]) red
      · rw [last, own, circ]
      · rw [last, own, circ]
      · exact quits.store.trans ((beside (·.store) fun _ _ => rfl).trans (store.trans (keeps (·.store) (fun _ _ => rfl) (fun _ _ _ => rfl) (fun _ _ _ _ => rfl) (by simp))))
      · rw [quits.ctr, beside (·.ctr) fun _ _ => rfl, ctr]
        exact s.hw.missedOut_counted c k a
      · rw [quits.log _ (by omega)]
        exact (congrArg (fun w => fieldOf w 30 27) ((beside (·.reg _) fun _ _ => rfl).trans (log _ (by omega)))).trans (s.hw.missedOut_log c k a)
      · rw [Hw.noMsg, quits.fcl, Hw.onCirc_dev, fcl]
        exact congrArg Fcl.slots (Hw.fill_fcl _ c k true 2 7)
      · exact quits.here.trans ((w.onCirc_local c k _).trans (here.trans ((Hw.fill_local _ c k true 2 7).trans (s.hw.onCirc_local c k _))))

end Sys2Proof.Machine
end

section
/-!
PROOF. The verdict on a received block (O39) and a Circuit Table out of order: a write of one circuit moves its entry, and the format of a
tributary is that of its first entry.
-/
namespace Sys2Proof.Machine

/-- A block of circuit 0 that arrives on BKW. -/
def strayBlock : RxBlk := { index := 4, ts := 77 }

/-- Channel 0 with two circuits of one E1 tributary, listed out of order: circuit 1, whose format has signalling in timeslot 16, before
circuit 0. The Slot Map gives timeslot 16 to circuit 1 and timeslot 17 to circuit 0. -/
def outOfOrder : State :=
  { pending := []
    hw := {
      dev := { boot := { st := .run } }
      chans := (Vector.replicate 48 ({} : Chan)).set 0
        { st := .active, bkw := { defects := 0, fr := .inframe }, map := { bankA := [(16, 0x8001), (17, 0x8000)] }
          circ := [(1, { w0 := 0xA0000000, w1 := 0x00010000 }), (0, { w0 := 0xA0000000, w := { blk := .sync, open_ := [strayBlock] } })] } } }

/-- A tributary block of ones, whose R and O bits carry no good trailer. -/
def strayLine : LineSpan := .trib ⟨List.replicate 560 0xFF, 0, []⟩

theorem outOfOrder_not_wf : tableWf ({} : Circ) (outOfOrder.hw.chan 0).circ = false := by decide

theorem outOfOrder_works : outOfOrder.hw.works = true ∧ (outOfOrder.hw.chan 0).st = .active := by decide

/-- The block is due, on a path in BLK_SYNC, with no defect, no swap PENDING and no injected error. -/
theorem outOfOrder_due :
    (((outOfOrder.hw.chan 0).circ! 0).rx .bkw).open_.find?
        (fun b => decide (b.phase = 0 % (outOfOrder.hw.chan 0).phases ((outOfOrder.hw.chan 0).circ! 0))) = some strayBlock
    ∧ ((outOfOrder.hw.chan 0).lane Path.bkw.lane).fr ≠ .runahead ∧ (((outOfOrder.hw.chan 0).circ! 0).rx .bkw).blk = .sync
    ∧ (outOfOrder.hw.chan 0).pathDead Path.bkw.lane = false ∧ (outOfOrder.hw.chan 0).circDefect Path.bkw.lane ((outOfOrder.hw.chan 0).circ! 0) = false
    ∧ (outOfOrder.hw.chan 0).map.pending = false ∧ (outOfOrder.hw.chan 0).cvu.inj = none := by decide

/-- As the table stands timeslot 16 is signalling, circuit 0 is the tributary's first, and its trailer is the R and O bits: no good one. -/
theorem outOfOrder_bad :
    let q := (outOfOrder.hw.parts 0 0 .bkw ((outOfOrder.hw.chan 0).seen Path.bkw.lane ((outOfOrder.hw.chan 0).circ! 0)
      ((outOfOrder.hw.chan 0).circ! 0).blackWas strayLine) ((outOfOrder.hw.chan 0).seen Path.bkw.lane ((outOfOrder.hw.chan 0).circ! 0)
      ((outOfOrder.hw.chan 0).circ! 0).black strayLine)).1
    trlNull q.trl = false
    ∧ trlGood ((outOfOrder.hw.chan 0).circ! 0).lcid ((outOfOrder.hw.chan 0).trlLen ((outOfOrder.hw.chan 0).circ! 0) - 9) q.trl = false := by
  decide +kernel

/-- Where circuit 0 is written its entry goes first, timeslot 16 is circuit 1's, and circuit 0 is the second of the tributary, with no
timeslot for a trailer: the block counts as null, and no miss is counted. -/
theorem outOfOrder_counts : tget 0 ((outOfOrder.hw.trlIn 0 .bkw 0 0 strayLine strayLine []).chan 0).ctr (ctrKey 0x10 (rxCtr 4 .bkw)) = 0 := by
  decide +kernel

theorem exec_decTrailerReceive {s : State} {c : ChanId} {p : Path} {k : CircId} {n : Nat} (this next : LineSpan) (v : List StageUnit) (works : s.hw.works = true)
    (active : (s.hw.chan c).st = .active) :
    exec (.decTrailerReceive c p ⟨k, n⟩ this next v) s = .next { s with hw := s.hw.trlIn c p k n this next v } :=
  onActive_on (f := (·.trlIn c p k n this next v)) works active

theorem hw_of_run {i : Instr} {s t : State} {h : Hw} (is : exec i s = .next { s with hw := h }) (run : exec i s = .next t) : t.hw = h := by
  obtain rfl := Host.Outcome.next.inj (is.symm.trans run)
  rfl

theorem count_pos (n : Nat) : min (2 ^ 48 - 1) (n + 1) ≠ 0 := by omega

/-- Refutes O39: the clause on a trailer that is not good lacks the hypothesis that the Circuit Table is in canonical form (`tableWf`). In
`outOfOrder` the block whose trailer is not good is taken for a null one. -/
theorem not_decryptJudges : ¬ Obligations.DecryptJudges := by
  intro judges
  obtain ⟨works, active⟩ := outOfOrder_works
  obtain ⟨-, -, -, -, trailers⟩ := judges outOfOrder 0 .bkw 0 works active
  obtain ⟨found, settled, sync, alive, sound, idle, unarmed⟩ := outOfOrder_due
  obtain ⟨notNull, notGood⟩ := outOfOrder_bad
  obtain ⟨-, verdict⟩ := (trailers 0 strayLine strayLine []).2 strayBlock found
  obtain ⟨-, miss, -⟩ := verdict settled sync alive sound (.inr idle) unarmed rfl
  obtain ⟨t, run, -, ⟨counted, -⟩, -⟩ := miss notNull notGood
  rw [hw_of_run (exec_decTrailerReceive strayLine strayLine [] works active) run, outOfOrder_counts] at counted
  exact count_pos _ counted.symm

end Sys2Proof.Machine
end
